-- ==== Sys2Proof/Word.lean ====
section
/-! DEFINITION. The words the manual numbers as bits, and their plainest readings (00_scope.md R2, R3). -/

namespace Sys2Proof

/-- A 32-bit word: a scalar register, a lane of a vector register, an instruction word. -/
abbrev Word := BitVec 32
/-- A 64-bit word: a register pair, a virtual address. -/
abbrev DWord := BitVec 64
/-- One byte. -/
abbrev Byte := BitVec 8
/-- A lane set of one team: bit l is lane l, 32 lane words of 32 bits (R20). -/
abbrev LaneSet := BitVec 1024
/-- One 64-byte line, byte 0 in bits [7:0] (R3, R6). -/
abbrev Line := BitVec 512
/-- A byte mask of one line. -/
abbrev ByteMask := BitVec 64

/-- Bits [hi:lo] of a word, as a number (R2). -/
def bitsOf (w : Word) (hi lo : Nat) : Nat := (w.toNat >>> lo) % 2 ^ (hi + 1 - lo)

end Sys2Proof
end

