-- ==== Sys2Proof/Syntax.lean ====
section
/-! DEFINITION. The steps of the part: one constructor of `Instr` for each row of the opcode table. An encoded row carries
the operand fields of its instruction word and the extension words as they stand (03_instruction_words.md R57-R61); the six rows whose
words leave nothing free carry nothing. A system event (95_what_each_step_holds.md) carries nothing either: what names its subject, and what the
world outside supplies, is the argument record `EvArgs` that the state holds when the event steps. -/

namespace Sys2Proof

/-- Engine class of a clause (R51). -/
inductive Cls where
  | x | s | v | q | m | c | a | y
  deriving DecidableEq, Repr

/-- Levels with a barrier (R27), `core` to `pod`. -/
inductive Lvl where
  | core | quad | die | pkg | pod
  deriving DecidableEq, Repr

/-- Operand fields and extension words of an instruction (R57). `mod` and `imm` are the modifier and immediate words
that EXT announces; they are kept whole. -/
structure Fields where
  d : BitVec 7 := 0
  a : BitVec 7 := 0
  b : BitVec 7 := 0
  hold : BitVec 2 := 0
  mod : Option Word := none
  imm : Option Word := none
  deriving DecidableEq, Repr

/-- Fields of the `rep` word (R68): repeat count minus 1 and the step bits. -/
structure RepWord where
  cnt : BitVec 6
  sd : Bool
  sa : Bool
  sb : Bool
  by2 : Bool
  deriving DecidableEq, Repr

/-- Arguments of a system event: up to four numbers, a word, a yes or no, a list of numbers, a bit string. The docstring
of the event says which it reads. -/
structure EvArgs where
  x : Nat := 0
  y : Nat := 0
  z : Nat := 0
  u : Nat := 0
  w : Word := 0
  ok : Bool := false
  nums : List Nat := []
  bits : BitVec 384 := 0
  deriving DecidableEq, Repr

/-- The steps of the part. -/
inductive Instr where
  /-- CLAUSE_START (R51). -/
  | clauseStart (w : Word)
  /-- NOP (R77). -/
  | nop (cls : Cls) (f : Fields)
  /-- REP (R69). -/
  | rep (cls : Cls) (p : RepWord)
  /-- BRA (R117). -/
  | bra (f : Fields)
  /-- BRA_ANY (R117). -/
  | braAny (f : Fields)
  /-- BRA_ALL (R117). -/
  | braAll (f : Fields)
  /-- BRA_NONE (R117). -/
  | braNone (f : Fields)
  /-- BRX (R117). -/
  | brx (f : Fields)
  /-- CALL (R118). -/
  | call (f : Fields)
  /-- CALLX (R118). -/
  | callx (f : Fields)
  /-- IF (R119). -/
  | ifP (f : Fields)
  /-- BREAK (R119). -/
  | breakP (f : Fields)
  /-- CONT (R119). -/
  | contP (f : Fields)
  /-- EXIT (R121). -/
  | exit (f : Fields)
  /-- YIELD (R122). -/
  | yield (f : Fields)
  /-- SLEEP (R123). -/
  | sleep (f : Fields)
  /-- FORK (R124). -/
  | fork (f : Fields)
  /-- RDV (R126). -/
  | rdv (f : Fields)
  /-- BAR (R127). -/
  | bar (lvl : Lvl) (f : Fields)
  /-- BARA (R127). -/
  | bara (lvl : Lvl) (f : Fields)
  /-- BARW (R127). -/
  | barw (lvl : Lvl) (f : Fields)
  /-- BARE (R128). -/
  | bare (lvl : Lvl) (f : Fields)
  /-- TAIL (R130). -/
  | tail (f : Fields)
  /-- TRAP (R131). -/
  | trap (f : Fields)
  /-- CHKW (R132). -/
  | chkw (f : Fields)
  /-- SMOV (R140). -/
  | smov (f : Fields)
  /-- SADD (R140). -/
  | sadd (f : Fields)
  /-- SSUB (R140). -/
  | ssub (f : Fields)
  /-- SMUL (R140). -/
  | smul (f : Fields)
  /-- SMULHI_I32 (R140). -/
  | smulhiI32 (f : Fields)
  /-- SMULHI_Z32 (R140). -/
  | smulhiZ32 (f : Fields)
  /-- SMAD (R140). -/
  | smad (f : Fields)
  /-- SADD64 (R142). -/
  | sadd64 (f : Fields)
  /-- SSUB64 (R142). -/
  | ssub64 (f : Fields)
  /-- SMAD64 (R142). -/
  | smad64 (f : Fields)
  /-- SSHL (R140). -/
  | sshl (f : Fields)
  /-- SSHR (R140). -/
  | sshr (f : Fields)
  /-- SSRA (R140). -/
  | ssra (f : Fields)
  /-- SAND (R140). -/
  | sand (f : Fields)
  /-- SOR (R140). -/
  | sor (f : Fields)
  /-- SXOR (R140). -/
  | sxor (f : Fields)
  /-- SNOT (R140). -/
  | snot (f : Fields)
  /-- SMIN_I32 (R140). -/
  | sminI32 (f : Fields)
  /-- SMIN_Z32 (R140). -/
  | sminZ32 (f : Fields)
  /-- SMAX_I32 (R140). -/
  | smaxI32 (f : Fields)
  /-- SMAX_Z32 (R140). -/
  | smaxZ32 (f : Fields)
  /-- SCMP_EQ (R143). -/
  | scmpEq (f : Fields)
  /-- SCMP_NE (R143). -/
  | scmpNe (f : Fields)
  /-- SCMP_LT_I32 (R143). -/
  | scmpLtI32 (f : Fields)
  /-- SCMP_LE_I32 (R143). -/
  | scmpLeI32 (f : Fields)
  /-- SCMP_LT_Z32 (R143). -/
  | scmpLtZ32 (f : Fields)
  /-- SCMP_LE_Z32 (R143). -/
  | scmpLeZ32 (f : Fields)
  /-- SSEL (R143). -/
  | ssel (f : Fields)
  /-- SLD (R144). -/
  | sld (f : Fields)
  /-- SRD (R145). -/
  | srd (f : Fields)
  /-- RFA (R146). -/
  | rfa (f : Fields)
  /-- RLANE (R146). -/
  | rlane (f : Fields)
  /-- SPOPC (R140). -/
  | spopc (f : Fields)
  /-- SCLZ (R140). -/
  | sclz (f : Fields)
  /-- SBFE_Z32 (R141). -/
  | sbfeZ32 (f : Fields)
  /-- SBFE_I32 (R141). -/
  | sbfeI32 (f : Fields)
  /-- MOV (R147). -/
  | mov (f : Fields)
  /-- IADD (R147). -/
  | iadd (f : Fields)
  /-- ISUB (R147). -/
  | isub (f : Fields)
  /-- IMUL (R147). -/
  | imul (f : Fields)
  /-- IMULHI_I32 (R147). -/
  | imulhiI32 (f : Fields)
  /-- IMULHI_Z32 (R147). -/
  | imulhiZ32 (f : Fields)
  /-- IMAD (R147). -/
  | imad (f : Fields)
  /-- IDIV_I32 (R148). -/
  | idivI32 (f : Fields)
  /-- IDIV_Z32 (R148). -/
  | idivZ32 (f : Fields)
  /-- IREM_I32 (R148). -/
  | iremI32 (f : Fields)
  /-- IREM_Z32 (R148). -/
  | iremZ32 (f : Fields)
  /-- IMIN_I32 (R147). -/
  | iminI32 (f : Fields)
  /-- IMIN_Z32 (R147). -/
  | iminZ32 (f : Fields)
  /-- IMAX_I32 (R147). -/
  | imaxI32 (f : Fields)
  /-- IMAX_Z32 (R147). -/
  | imaxZ32 (f : Fields)
  /-- IABS (R147). -/
  | iabs (f : Fields)
  /-- SHL (R140). -/
  | shl (f : Fields)
  /-- SHR (R140). -/
  | shr (f : Fields)
  /-- SRA (R140). -/
  | sra (f : Fields)
  /-- AND (R140). -/
  | and (f : Fields)
  /-- OR (R140). -/
  | or (f : Fields)
  /-- XOR (R140). -/
  | xor (f : Fields)
  /-- NOT (R140). -/
  | not (f : Fields)
  /-- BFE_Z32 (R141). -/
  | bfeZ32 (f : Fields)
  /-- BFE_I32 (R141). -/
  | bfeI32 (f : Fields)
  /-- BFI (R141). -/
  | bfi (f : Fields)
  /-- POPC (R140). -/
  | popc (f : Fields)
  /-- CLZ (R140). -/
  | clz (f : Fields)
  /-- BREV (R140). -/
  | brev (f : Fields)
  /-- ICMP_EQ (R149). -/
  | icmpEq (f : Fields)
  /-- ICMP_NE (R149). -/
  | icmpNe (f : Fields)
  /-- ICMP_LT_I32 (R149). -/
  | icmpLtI32 (f : Fields)
  /-- ICMP_LE_I32 (R149). -/
  | icmpLeI32 (f : Fields)
  /-- ICMP_LT_Z32 (R149). -/
  | icmpLtZ32 (f : Fields)
  /-- ICMP_LE_Z32 (R149). -/
  | icmpLeZ32 (f : Fields)
  /-- SEL (R149). -/
  | sel (f : Fields)
  /-- FADD (R151). -/
  | fadd (f : Fields)
  /-- FSUB (R151). -/
  | fsub (f : Fields)
  /-- FMUL (R151). -/
  | fmul (f : Fields)
  /-- FFMA (R151). -/
  | ffma (f : Fields)
  /-- FMIN (R151). -/
  | fmin (f : Fields)
  /-- FMAX (R151). -/
  | fmax (f : Fields)
  /-- FCMP_EQ (R151). -/
  | fcmpEq (f : Fields)
  /-- FCMP_LT (R151). -/
  | fcmpLt (f : Fields)
  /-- FCMP_LE (R151). -/
  | fcmpLe (f : Fields)
  /-- FCMP_UN (R151). -/
  | fcmpUn (f : Fields)
  /-- FCMP_NE (R151). -/
  | fcmpNe (f : Fields)
  /-- FCLASS (R151). -/
  | fclass (f : Fields)
  /-- HADD2 (R152). -/
  | hadd2 (f : Fields)
  /-- HMUL2 (R152). -/
  | hmul2 (f : Fields)
  /-- HFMA2 (R152). -/
  | hfma2 (f : Fields)
  /-- HMIN2 (R152). -/
  | hmin2 (f : Fields)
  /-- HMAX2 (R152). -/
  | hmax2 (f : Fields)
  /-- BADD2 (R152). -/
  | badd2 (f : Fields)
  /-- BMUL2 (R152). -/
  | bmul2 (f : Fields)
  /-- BFMA2 (R152). -/
  | bfma2 (f : Fields)
  /-- CVT_I32 (R153). -/
  | cvtI32 (f : Fields)
  /-- CVT_Z32 (R153). -/
  | cvtZ32 (f : Fields)
  /-- CVT_F32 (R153). -/
  | cvtF32 (f : Fields)
  /-- CVT_F16 (R153). -/
  | cvtF16 (f : Fields)
  /-- CVT_BF16 (R153). -/
  | cvtBf16 (f : Fields)
  /-- CVT_NF (R153). -/
  | cvtNf (f : Fields)
  /-- PACK (R154). -/
  | pack (f : Fields)
  /-- UNPK (R155). -/
  | unpk (f : Fields)
  /-- SHFL_IDX (R157). -/
  | shflIdx (f : Fields)
  /-- SHFL_UP (R157). -/
  | shflUp (f : Fields)
  /-- SHFL_DOWN (R157). -/
  | shflDown (f : Fields)
  /-- SHFL_XOR (R157). -/
  | shflXor (f : Fields)
  /-- VOTE_ANY (R158). -/
  | voteAny (f : Fields)
  /-- VOTE_ALL (R158). -/
  | voteAll (f : Fields)
  /-- VOTE_BAL (R158). -/
  | voteBal (f : Fields)
  /-- MATCH (R158). -/
  | matchLanes (f : Fields)
  /-- V_RED_ADD (R159). -/
  | vRedAdd (f : Fields)
  /-- V_RED_MIN_I32 (R159). -/
  | vRedMinI32 (f : Fields)
  /-- V_RED_MIN_Z32 (R159). -/
  | vRedMinZ32 (f : Fields)
  /-- V_RED_MAX_I32 (R159). -/
  | vRedMaxI32 (f : Fields)
  /-- V_RED_MAX_Z32 (R159). -/
  | vRedMaxZ32 (f : Fields)
  /-- V_RED_AND (R159). -/
  | vRedAnd (f : Fields)
  /-- V_RED_OR (R159). -/
  | vRedOr (f : Fields)
  /-- V_RED_XOR (R159). -/
  | vRedXor (f : Fields)
  /-- V_RED_FADD (R110). -/
  | vRedFadd (f : Fields)
  /-- SCAN_ADD (R160). -/
  | scanAdd (f : Fields)
  /-- SCAN_MAX_I32 (R160). -/
  | scanMaxI32 (f : Fields)
  /-- SCAN_MAX_Z32 (R160). -/
  | scanMaxZ32 (f : Fields)
  /-- PAND (R161). -/
  | pand (f : Fields)
  /-- POR (R161). -/
  | por (f : Fields)
  /-- PXOR (R161). -/
  | pxor (f : Fields)
  /-- PNOT (R161). -/
  | pnot (f : Fields)
  /-- PMOV (R161). -/
  | pmov (f : Fields)
  /-- SEG (R162). -/
  | seg (f : Fields)
  /-- RCP (R164). -/
  | rcp (f : Fields)
  /-- RSQ (R164). -/
  | rsq (f : Fields)
  /-- SQRT (R164). -/
  | sqrt (f : Fields)
  /-- EX2 (R164). -/
  | ex2 (f : Fields)
  /-- LG2 (R164). -/
  | lg2 (f : Fields)
  /-- SINP (R164). -/
  | sinp (f : Fields)
  /-- COSP (R164). -/
  | cosp (f : Fields)
  /-- TANH (R164). -/
  | tanh (f : Fields)
  /-- RCP_A (R166). -/
  | rcpA (f : Fields)
  /-- RSQ_A (R167). -/
  | rsqA (f : Fields)
  /-- EX2_A (R168). -/
  | ex2A (f : Fields)
  /-- LD_8_I (R181). -/
  | ld8I (f : Fields)
  /-- LD_8_Z (R181). -/
  | ld8Z (f : Fields)
  /-- LD_16_I (R181). -/
  | ld16I (f : Fields)
  /-- LD_16_Z (R181). -/
  | ld16Z (f : Fields)
  /-- LD_32 (R181). -/
  | ld32 (f : Fields)
  /-- LD_64 (R181). -/
  | ld64 (f : Fields)
  /-- LD_128 (R181). -/
  | ld128 (f : Fields)
  /-- ST_8 (R181). -/
  | st8 (f : Fields)
  /-- ST_16 (R181). -/
  | st16 (f : Fields)
  /-- ST_32 (R181). -/
  | st32 (f : Fields)
  /-- ST_64 (R181). -/
  | st64 (f : Fields)
  /-- ST_128 (R181). -/
  | st128 (f : Fields)
  /-- LDW_32 (R192). -/
  | ldw32 (f : Fields)
  /-- LDW_64 (R192). -/
  | ldw64 (f : Fields)
  /-- LDW_128 (R192). -/
  | ldw128 (f : Fields)
  /-- ATOM_ADD (R183). -/
  | atomAdd (f : Fields)
  /-- ATOM_MIN_I32 (R183). -/
  | atomMinI32 (f : Fields)
  /-- ATOM_MIN_Z32 (R183). -/
  | atomMinZ32 (f : Fields)
  /-- ATOM_MAX_I32 (R183). -/
  | atomMaxI32 (f : Fields)
  /-- ATOM_MAX_Z32 (R183). -/
  | atomMaxZ32 (f : Fields)
  /-- ATOM_AND (R183). -/
  | atomAnd (f : Fields)
  /-- ATOM_OR (R183). -/
  | atomOr (f : Fields)
  /-- ATOM_XOR (R183). -/
  | atomXor (f : Fields)
  /-- ATOM_XCHG (R183). -/
  | atomXchg (f : Fields)
  /-- ATOM_CAS (R183). -/
  | atomCas (f : Fields)
  /-- ATOM_FADD (R183). -/
  | atomFadd (f : Fields)
  /-- ATOM_FMIN (R183). -/
  | atomFmin (f : Fields)
  /-- ATOM_FMAX (R183). -/
  | atomFmax (f : Fields)
  /-- M_RED_ADD (R183). -/
  | mRedAdd (f : Fields)
  /-- M_RED_MIN_I32 (R183). -/
  | mRedMinI32 (f : Fields)
  /-- M_RED_MIN_Z32 (R183). -/
  | mRedMinZ32 (f : Fields)
  /-- M_RED_MAX_I32 (R183). -/
  | mRedMaxI32 (f : Fields)
  /-- M_RED_MAX_Z32 (R183). -/
  | mRedMaxZ32 (f : Fields)
  /-- M_RED_AND (R183). -/
  | mRedAnd (f : Fields)
  /-- M_RED_OR (R183). -/
  | mRedOr (f : Fields)
  /-- M_RED_XOR (R183). -/
  | mRedXor (f : Fields)
  /-- M_RED_FADD (R183). -/
  | mRedFadd (f : Fields)
  /-- M_RED_FMIN (R183). -/
  | mRedFmin (f : Fields)
  /-- M_RED_FMAX (R183). -/
  | mRedFmax (f : Fields)
  /-- APPEND (R187). -/
  | append (f : Fields)
  /-- SEAL (R188). -/
  | sealPage (f : Fields)
  /-- FENCE (R196). -/
  | fence (f : Fields)
  /-- FENCEQ (R197). -/
  | fenceq (f : Fields)
  /-- PREF (R199). -/
  | pref (f : Fields)
  /-- SMAP (R200). -/
  | smap (f : Fields)
  /-- SUNMAP (R203). -/
  | sunmap (f : Fields)
  /-- SFLUSH (R203). -/
  | sflush (f : Fields)
  /-- HDECL (R208). -/
  | hdecl (f : Fields)
  /-- HPUSH (R210). -/
  | hpush (f : Fields)
  /-- CP_G2S (R221). -/
  | cpG2s (f : Fields)
  /-- CP_S2G (R221). -/
  | cpS2g (f : Fields)
  /-- CP_G2G (R221). -/
  | cpG2g (f : Fields)
  /-- CP_GATH (R222). -/
  | cpGath (f : Fields)
  /-- CP_SCAT (R222). -/
  | cpScat (f : Fields)
  /-- CP_FILL (R221). -/
  | cpFill (f : Fields)
  /-- CP_PLANE (R223). -/
  | cpPlane (f : Fields)
  /-- CP_TLR (R213). -/
  | cpTlr (f : Fields)
  /-- MZERO (R303). -/
  | mzero (f : Fields)
  /-- MLOOP (R305). -/
  | mloop (f : Fields)
  /-- MGRP (R308). -/
  | mgrp (f : Fields)
  /-- MDRAIN_S (R312). -/
  | mdrainS (f : Fields)
  /-- MDRAIN_A (R313). -/
  | mdrainA (f : Fields)
  /-- MSAVE (R315). -/
  | msave (f : Fields)
  /-- MREST (R315). -/
  | mrest (f : Fields)
  /-- MSTAT (R316). -/
  | mstat (f : Fields)
  /-- FSDEF (R334). -/
  | fsdef (f : Fields)
  /-- FCALL (R335). -/
  | fcall (f : Fields)
  /-- FRET (R337). -/
  | fret (f : Fields)
  /-- FSLOAD (R340). -/
  | fsload (f : Fields)
  /-- FSDROP (R341). -/
  | fsdrop (f : Fields)
  /-- FSQRY (R342). -/
  | fsqry (f : Fields)
  /-- SRR (R286). -/
  | srr (f : Fields)
  /-- SRW (R287). -/
  | srw (f : Fields)
  /-- FMAP (R289). -/
  | fmap (f : Fields)
  /-- TLBINV (R290). -/
  | tlbinv (f : Fields)
  /-- CAPR (R291). -/
  | capr (f : Fields)
  /-- PHASE (R292). -/
  | phase (f : Fields)
  /-- HALT (R293). -/
  | halt (f : Fields)
  /-- RET (R118). -/
  | ret
  /-- ELSE (R119). -/
  | elseP
  /-- ENDIF (R119). -/
  | endifP
  /-- LOOP (R119). -/
  | loopP
  /-- ENDLOOP (R119). -/
  | endloopP
  /-- Q_RESULT_WRITE (R170). x: tid. -/
  | qResultWrite
  /-- APPEND_HOME_RESERVATION (R247). x: tid; y: op. -/
  | appendHomeReservation
  /-- SEAL_COMPLETION (R189). x: page. -/
  | sealCompletion
  /-- HALO_PUSH (R209). x: block; y: tile; z: dir. -/
  | haloPush
  /-- COPY_SEGMENT (R224). x: part. -/
  | copySegment
  /-- COPY_COMPLETION (R225). x: part. -/
  | copyCompletion
  /-- MATRIX_STEP (R305). x: tid. -/
  | matrixStep
  /-- MATRIX_QUEUE_PERFORM (R318). x: tid. -/
  | matrixQueuePerform
  /-- FS_QUEUE_PERFORM (R346). x: core. -/
  | fsQueuePerform
  /-- TRET (R274). -/
  | tret
  /-- VARIABLE_LATENCY_COMPLETION (R52). x: tid; y: op. -/
  | variableLatencyCompletion
  /-- PRIORITY_AGING (R35). x: tid. -/
  | priorityAging
  /-- SLEEP_EXPIRY (R123). x: tid. -/
  | sleepExpiry
  /-- BARRIER_GENERATION_COMPLETE (R127). x: level number; y: group. -/
  | barrierGenerationComplete
  /-- WARP_SLOT_RELEASE (R121). x: tid. -/
  | warpSlotRelease
  /-- WATCH_VALIDATION (R193). x: core; y: entry. -/
  | watchValidation
  /-- RESIDENCY_SCHEDULE_LOAD (R204). x: die; nums: entries. -/
  | residencyScheduleLoad
  /-- RESIDENCY_EVICTION (R206). x: core; y: line. -/
  | residencyEviction
  /-- PTS_TICK (R244). x: core. -/
  | ptsTick
  /-- PTS_BROADCAST (R244). x: die. -/
  | ptsBroadcast
  /-- LEASE_EXPIRY (R242). x: core; y: line. -/
  | leaseExpiry
  /-- L1_LEASE_SWEEP (R242). x: core. -/
  | l1LeaseSweep
  /-- L2_LINE_SWEEP (R244). x: die; y: line. -/
  | l2LineSweep
  /-- EXTERNAL_AGENT_WRITE (R243). x: die; y: pa; nums: bytes. -/
  | externalAgentWrite
  /-- QTAIL_WRITE (R250). x: q; w: v. -/
  | qtailWrite
  /-- QUEUE_ENABLE (R249). x: q; w: v. -/
  | queueEnable
  /-- QUEUE_DISABLE (R249). x: q; w: v. -/
  | queueDisable
  /-- QUEUE_ERR_CLEAR (R249). x: q. -/
  | queueErrClear
  /-- REGISTER_WRITE (R11). x: off; w: v. -/
  | registerWrite
  /-- GRID_START (R252). x: q. -/
  | gridStart
  /-- LAUNCH_COMPLETION (R239). x: grid. -/
  | launchCompletion
  /-- BLOCK_PLACEMENT (R260). x: grid. -/
  | blockPlacement
  /-- PREEMPTION_DECISION (R262). x: grid. -/
  | preemptionDecision
  /-- DRAIN_TIMEOUT (R265). x: block. -/
  | drainTimeout
  /-- BLOCK_SAVE (R265). x: block. -/
  | blockSave
  /-- BLOCK_FLUSH (R265). x: block. -/
  | blockFlush
  /-- BLOCK_RESTART (R265). x: block. -/
  | blockRestart
  /-- BLOCK_RESUME (R266). x: block. -/
  | blockResume
  /-- PENDING_TRAP_TAKEN (R270). x: tid. -/
  | pendingTrapTaken
  /-- PAGE_WALK (R279). x: tid. -/
  | pageWalk
  /-- HOST_FAULT_ACKNOWLEDGE (R283). x: die; y: asid; z: page; ok: mapped. -/
  | hostFaultAcknowledge
  /-- FAULT_WAITER_REPLAY (R283). x: tid. -/
  | faultWaiterReplay
  /-- STAGED_RECORD_APPEND (R344). x: grid. -/
  | stagedRecordAppend
  /-- TICKET_GRANT (R371). x: block. -/
  | ticketGrant
  /-- TICKET_PHASE_RELEASE (R373). x: block. -/
  | ticketPhaseRelease
  /-- REPLAY_DECISION (R377). x: tid. -/
  | replayDecision
  /-- RDS (R353). x: die; y: line; nums: cands. -/
  | rds
  /-- RDX (R353). x: die; y: line; nums: cands. -/
  | rdx
  /-- UPG (R357). x: die; y: line. -/
  | upg
  /-- WB (R358). x: die; nums: cands. -/
  | wb
  /-- FWDS (R353). x: line. -/
  | fwds
  /-- FWDX (R353). x: line. -/
  | fwdx
  /-- INV (R355). x: die; y: line. -/
  | invSnoop
  /-- SNOOP_RESPONSE (R356). x: line. -/
  | snoopResponse
  /-- WB_ACKNOWLEDGE (R358). x: die; y: line. -/
  | wbAcknowledge
  /-- SEAL_RECALL (R361). x: die; y: line. -/
  | sealRecall
  /-- MSC_EVICTION (R363). x: die; nums: cands. -/
  | mscEviction
  /-- EXTENT_ADD (R362). x: base; y: len; z: port. -/
  | extentAdd
  /-- EXTENT_RELEASE_REQUEST (R366). x: base. -/
  | extentReleaseRequest
  /-- FORCED_EXTENT_RELEASE (R367). x: base. -/
  | forcedExtentRelease
  /-- EXTENT_ACCEPT (R366). -/
  | extentAccept
  /-- EXTENT_DECLINE (R366). -/
  | extentDecline
  /-- EXTENT_CLOSE_COMPLETE (R366). x: base. -/
  | extentCloseComplete
  /-- EXTENT_DONE (R367). -/
  | extentDone
  /-- APPEND_FRAME_ALLOC (R186). x: frame; y: size; z: pool. -/
  | appendFrameAlloc
  /-- PAGE_FREE (R190). x: frame; y: size. -/
  | pageFree
  /-- CHANNEL_SERVICE (R381). x: stack; y: chan; z: row; ok: activate. -/
  | channelService
  /-- TELEMETRY_COPY (R383). -/
  | telemetryCopy
  /-- ROW_ACTIVATION_ALERT (R384). x: stack; y: row. -/
  | rowActivationAlert
  /-- LANE_RETRAIN (R386). x: stack; y: lane; z: volt; u: time. -/
  | laneRetrain
  /-- KEY_LOAD (R387). -/
  | keyLoad
  /-- KEY_REVOKE (R387). -/
  | keyRevoke
  /-- BOOT (R388). bits: cores; ok: ok. -/
  | boot
  /-- RECOVERY_WRITE (R388). -/
  | recoveryWrite
  /-- FIRMWARE_SWAP (R391). -/
  | firmwareSwap
  /-- SWAP_POINT (R391). -/
  | swapPoint
  /-- ALIVE_REPORT (R389). x: cp. -/
  | aliveReport
  /-- SWAP_ALIVE_TIMEOUT (R391). -/
  | swapAliveTimeout
  /-- SWAP_COMMIT (R391). -/
  | swapCommit
  /-- WATCHDOG_PET (R392). x: cp. -/
  | watchdogPet
  /-- WATCHDOG_RUNG_0 (R392). x: cp. -/
  | watchdogRung0
  /-- WATCHDOG_RUNG_1 (R392). x: cp. -/
  | watchdogRung1
  /-- WATCHDOG_RUNG_2 (R392). x: die. -/
  | watchdogRung2
  /-- WATCHDOG_RUNG_3 (R392). x: die. -/
  | watchdogRung3
  /-- WATCHDOG_RUNG_4 (R392). -/
  | watchdogRung4
  /-- WATCHDOG_RUNG_5 (R392). -/
  | watchdogRung5
  /-- GET_MEASUREMENTS (R394). x: index. -/
  | getMeasurements
  /-- KEY_EXCHANGE (R394). bits: key. -/
  | keyExchange
  /-- LINK_UP_MASK_CHANGE (R15). bits: suino; x: cxl. -/
  | linkUpMaskChange
  /-- KSTAT_BUSY_CLEAR (R387). -/
  | kstatBusyClear
  /-- IDE_KEY_PROGRAMMING (R394). bits: key. -/
  | ideKeyProgramming
  deriving DecidableEq, Repr

end Sys2Proof
end

