-- ==== Sys2Proof/Machine/Forms.lean ====
section
/-! DEFINITION. The forms of the encoded instructions (07_control.md R112; 09_vector_scalar.md R136, R139, R147, R150-R163; 11_memory.md R178, R179, R217-R219;
18_matrix.md R301; 20_function_store.md R333; 16_scheduling_faults.md R285): class, OP, operand kinds, extension words, modifier fields, guard. -/

namespace Sys2Proof.Machine

/-- Kinds of an operand field (R63, R134, R178, R217, R301, R333). A trailing `d` marks a destination. -/
inductive Kind where
  | zero | v32 | v32d | v64 | v64d | v128 | v128d | vsz | s32 | s32d | s64 | s64d | sw | sb | s64n
  | pred | acc | ab | special | specialR | specialW | ty | lit (n : Nat) | uni | uq | q4 | sq | fillD | vr | vg | slot
  deriving DecidableEq, Repr

/-- What a guard does (R60, R112). -/
inductive Guard where
  | no | uniform | lane
  deriving DecidableEq, Repr

/-- A form: bit e of `ext` is set when EXT = e is permitted; `mods` marks the modifier fields used besides guard and FLG. -/
structure Form where
  cls : Cls
  op : Nat
  d : Kind
  a : Kind
  b : Kind
  ext : Nat
  mods : Word
  guard : Guard
  ends : Bool
  var : Bool
  deriving DecidableEq, Repr

/-- Modifier fields of R58, first layout. -/
def fGuard : Word := 0xFE000000
def fAsub : Word := 0x01F00000
def fBsub : Word := 0x000F8000
def fDnar : Word := 0x00007C00
def fRnd : Word := 0x00000380
def fNfs : Word := 0x00000060
def fSat : Word := 0x00000010
def fFlg : Word := 0x00000008
/-- Modifier fields of R58, layout of classes M and C. -/
def fScope : Word := 0x01C00000
def fSem : Word := 0x00300000
def fSpace : Word := 0x000C0000
def fScls : Word := 0x00030000
def fCont : Word := 0x00008000

/-- Groups of R136, R179, R219, R302. -/
def mInt : Word := fAsub ||| fBsub ||| fDnar ||| fSat
def mAB : Word := fAsub ||| fBsub
def mA : Word := fAsub
def mFloat : Word := fAsub ||| fBsub ||| fDnar ||| fRnd ||| fNfs ||| fSat
def mFma : Word := fAsub ||| fBsub ||| fRnd ||| fNfs ||| fSat
def mFcmp : Word := fAsub ||| fBsub ||| fNfs
def mQ : Word := fAsub ||| fNfs
def mPacked : Word := fRnd ||| fSat
def mCvt : Word := fAsub ||| fDnar ||| fRnd ||| fSat
def mCvtNf : Word := mCvt ||| fNfs
def mPack : Word := fAsub ||| fBsub ||| fDnar
def mRnd : Word := fRnd
def mMem : Word := fScope ||| fSem ||| fSpace ||| fScls
def mNoSpace : Word := fScope ||| fSem ||| fScls
def mScls : Word := fScls
def mSpaceScls : Word := fSpace ||| fScls
def mCopy : Word := fScope ||| fSpace ||| fScls ||| fCont
def mCopyG : Word := fScope ||| fScls ||| fCont
def mDrain : Word := fRnd ||| fNfs ||| fSat

/-- Number of a level: core 0 to pod 4 (R133). -/
def lvlNum : Lvl → Nat
  | .core => 0
  | .quad => 1
  | .die => 2
  | .pkg => 3
  | .pod => 4

/-- Default modifier word of a class (R59). -/
def modDefault : Cls → Word
  | .m => 0x00010000
  | .c => 0x00020000
  | _ => 0x00000380

/-- The form and fields of an encoded instruction; none for `rep` and for system events. `smad64` takes no subfields (R136; log entry 74). -/
def encOf : Instr → Option (Form × Fields)
  | .nop cls f => some (⟨cls, 0, .zero, .zero, .zero, 3, 0, (match cls with | .v => .lane | .q => .lane | .m => .lane | .c => .lane | _ => .uniform), false, false⟩, f)
  | .rep _ _ => none
  | .clauseStart _ => none
  | .bra f => some (⟨.x, 0x01, .zero, .zero, .zero, 12, 0, .uniform, true, false⟩, f)
  | .braAny f => some (⟨.x, 0x02, .zero, .pred, .zero, 4, 0, .no, true, false⟩, f)
  | .braAll f => some (⟨.x, 0x03, .zero, .pred, .zero, 4, 0, .no, true, false⟩, f)
  | .braNone f => some (⟨.x, 0x04, .zero, .pred, .zero, 4, 0, .no, true, false⟩, f)
  | .brx f => some (⟨.x, 0x05, .zero, .s64, .zero, 3, 0, .uniform, true, false⟩, f)
  | .call f => some (⟨.x, 0x06, .zero, .zero, .zero, 12, 0, .uniform, true, false⟩, f)
  | .callx f => some (⟨.x, 0x07, .zero, .s64, .zero, 3, 0, .uniform, true, false⟩, f)
  | .ifP f => some (⟨.x, 0x10, .zero, .pred, (.lit 2), 1, 0, .no, false, false⟩, f)
  | .breakP f => some (⟨.x, 0x14, .zero, .pred, (.lit 2), 1, 0, .no, false, false⟩, f)
  | .contP f => some (⟨.x, 0x15, .zero, .pred, (.lit 2), 1, 0, .no, false, false⟩, f)
  | .exit f => some (⟨.x, 0x18, .zero, .zero, .zero, 3, 0, .lane, false, false⟩, f)
  | .yield f => some (⟨.x, 0x19, .zero, .zero, .zero, 3, 0, .uniform, true, false⟩, f)
  | .sleep f => some (⟨.x, 0x1A, .zero, .s32, .zero, 15, 0, .uniform, true, false⟩, f)
  | .fork f => some (⟨.x, 0x1C, .zero, .zero, (.lit 2), 4, 0, .no, false, false⟩, f)
  | .rdv f => some (⟨.x, 0x1D, .zero, .zero, (.lit 2), 1, 0, .no, true, false⟩, f)
  | .bar l f => some (⟨.x, 0x20 + lvlNum l, .zero, .zero, .zero, 1, 0, .no, true, false⟩, f)
  | .bara l f => some (⟨.x, 0x28 + lvlNum l, .zero, .zero, .zero, 1, 0, .no, false, false⟩, f)
  | .barw l f => some (⟨.x, 0x30 + lvlNum l, .zero, .zero, .zero, 1, 0, .no, true, false⟩, f)
  | .bare l f => some (⟨.x, 0x38 + lvlNum l, .pred, .zero, .zero, 1, 0, .no, true, false⟩, f)
  | .tail f => some (⟨.x, 0x40, .zero, .s64, .zero, 3, 0, .uniform, false, false⟩, f)
  | .trap f => some (⟨.x, 0x41, .zero, .zero, .zero, 12, 0, .uniform, true, false⟩, f)
  | .chkw f => some (⟨.x, 0x42, .zero, .zero, .zero, 4, 0, .no, true, false⟩, f)
  | .smov f => some (⟨.s, 0x01, .s32d, .s32, .zero, 15, mInt, .uniform, false, false⟩, f)
  | .sadd f => some (⟨.s, 0x02, .s32d, .s32, .s32, 15, mInt, .uniform, false, false⟩, f)
  | .ssub f => some (⟨.s, 0x03, .s32d, .s32, .s32, 15, mInt, .uniform, false, false⟩, f)
  | .smul f => some (⟨.s, 0x04, .s32d, .s32, .s32, 15, mInt, .uniform, false, false⟩, f)
  | .smulhiI32 f => some (⟨.s, 0x05, .s32d, .s32, .s32, 15, mInt, .uniform, false, false⟩, f)
  | .smulhiZ32 f => some (⟨.s, 0x06, .s32d, .s32, .s32, 15, mInt, .uniform, false, false⟩, f)
  | .smad f => some (⟨.s, 0x07, .s32d, .s32, .s32, 15, mAB, .uniform, false, false⟩, f)
  | .sadd64 f => some (⟨.s, 0x08, .s64d, .s64, .s64, 15, 0, .uniform, false, false⟩, f)
  | .ssub64 f => some (⟨.s, 0x09, .s64d, .s64, .s64, 15, 0, .uniform, false, false⟩, f)
  | .smad64 f => some (⟨.s, 0x0A, .s64d, .s32, .s32, 15, 0, .uniform, false, false⟩, f)
  | .sshl f => some (⟨.s, 0x0B, .s32d, .s32, .s32, 15, mInt, .uniform, false, false⟩, f)
  | .sshr f => some (⟨.s, 0x0C, .s32d, .s32, .s32, 15, mInt, .uniform, false, false⟩, f)
  | .ssra f => some (⟨.s, 0x0D, .s32d, .s32, .s32, 15, mInt, .uniform, false, false⟩, f)
  | .sand f => some (⟨.s, 0x0E, .s32d, .s32, .s32, 15, mInt, .uniform, false, false⟩, f)
  | .sor f => some (⟨.s, 0x0F, .s32d, .s32, .s32, 15, mInt, .uniform, false, false⟩, f)
  | .sxor f => some (⟨.s, 0x10, .s32d, .s32, .s32, 15, mInt, .uniform, false, false⟩, f)
  | .snot f => some (⟨.s, 0x11, .s32d, .s32, .zero, 15, mInt, .uniform, false, false⟩, f)
  | .sminI32 f => some (⟨.s, 0x12, .s32d, .s32, .s32, 15, mInt, .uniform, false, false⟩, f)
  | .sminZ32 f => some (⟨.s, 0x13, .s32d, .s32, .s32, 15, mInt, .uniform, false, false⟩, f)
  | .smaxI32 f => some (⟨.s, 0x14, .s32d, .s32, .s32, 15, mInt, .uniform, false, false⟩, f)
  | .smaxZ32 f => some (⟨.s, 0x15, .s32d, .s32, .s32, 15, mInt, .uniform, false, false⟩, f)
  | .scmpEq f => some (⟨.s, 0x18, .pred, .s32, .s32, 15, mAB, .uniform, false, false⟩, f)
  | .scmpNe f => some (⟨.s, 0x19, .pred, .s32, .s32, 15, mAB, .uniform, false, false⟩, f)
  | .scmpLtI32 f => some (⟨.s, 0x1A, .pred, .s32, .s32, 15, mAB, .uniform, false, false⟩, f)
  | .scmpLeI32 f => some (⟨.s, 0x1B, .pred, .s32, .s32, 15, mAB, .uniform, false, false⟩, f)
  | .scmpLtZ32 f => some (⟨.s, 0x1C, .pred, .s32, .s32, 15, mAB, .uniform, false, false⟩, f)
  | .scmpLeZ32 f => some (⟨.s, 0x1D, .pred, .s32, .s32, 15, mAB, .uniform, false, false⟩, f)
  | .ssel f => some (⟨.s, 0x20, .s32d, .s32, .s32, 12, 0, .uniform, false, false⟩, f)
  | .sld f => some (⟨.s, 0x21, .s32d, .s64, .zero, 12, 0, .uniform, false, true⟩, f)
  | .srd f => some (⟨.s, 0x22, .s32d, .special, .sb, 15, 0, .uniform, false, false⟩, f)
  | .rfa f => some (⟨.s, 0x23, .s32d, .vr, .pred, 15, 0, .uniform, false, false⟩, f)
  | .rlane f => some (⟨.s, 0x24, .s32d, .vr, .s32, 15, 0, .uniform, false, false⟩, f)
  | .spopc f => some (⟨.s, 0x25, .s32d, .s32, .zero, 15, mInt, .uniform, false, false⟩, f)
  | .sclz f => some (⟨.s, 0x26, .s32d, .s32, .zero, 15, mInt, .uniform, false, false⟩, f)
  | .sbfeZ32 f => some (⟨.s, 0x27, .s32d, .s32, .s32, 15, mInt, .uniform, false, false⟩, f)
  | .sbfeI32 f => some (⟨.s, 0x28, .s32d, .s32, .s32, 15, mInt, .uniform, false, false⟩, f)
  | .mov f => some (⟨.v, 0x01, .v32d, .v32, .zero, 15, mInt, .lane, false, false⟩, f)
  | .iadd f => some (⟨.v, 0x02, .v32d, .v32, .v32, 15, mInt, .lane, false, false⟩, f)
  | .isub f => some (⟨.v, 0x03, .v32d, .v32, .v32, 15, mInt, .lane, false, false⟩, f)
  | .imul f => some (⟨.v, 0x04, .v32d, .v32, .v32, 15, mInt, .lane, false, false⟩, f)
  | .imulhiI32 f => some (⟨.v, 0x05, .v32d, .v32, .v32, 15, mInt, .lane, false, false⟩, f)
  | .imulhiZ32 f => some (⟨.v, 0x06, .v32d, .v32, .v32, 15, mInt, .lane, false, false⟩, f)
  | .imad f => some (⟨.v, 0x07, .v32d, .v32, .v32, 15, mAB, .lane, false, false⟩, f)
  | .idivI32 f => some (⟨.v, 0x08, .v32d, .v32, .v32, 15, mInt, .lane, false, false⟩, f)
  | .idivZ32 f => some (⟨.v, 0x09, .v32d, .v32, .v32, 15, mInt, .lane, false, false⟩, f)
  | .iremI32 f => some (⟨.v, 0x0A, .v32d, .v32, .v32, 15, mInt, .lane, false, false⟩, f)
  | .iremZ32 f => some (⟨.v, 0x0B, .v32d, .v32, .v32, 15, mInt, .lane, false, false⟩, f)
  | .iminI32 f => some (⟨.v, 0x0C, .v32d, .v32, .v32, 15, mInt, .lane, false, false⟩, f)
  | .iminZ32 f => some (⟨.v, 0x0D, .v32d, .v32, .v32, 15, mInt, .lane, false, false⟩, f)
  | .imaxI32 f => some (⟨.v, 0x0E, .v32d, .v32, .v32, 15, mInt, .lane, false, false⟩, f)
  | .imaxZ32 f => some (⟨.v, 0x0F, .v32d, .v32, .v32, 15, mInt, .lane, false, false⟩, f)
  | .iabs f => some (⟨.v, 0x10, .v32d, .v32, .zero, 15, mInt, .lane, false, false⟩, f)
  | .shl f => some (⟨.v, 0x11, .v32d, .v32, .v32, 15, mInt, .lane, false, false⟩, f)
  | .shr f => some (⟨.v, 0x12, .v32d, .v32, .v32, 15, mInt, .lane, false, false⟩, f)
  | .sra f => some (⟨.v, 0x13, .v32d, .v32, .v32, 15, mInt, .lane, false, false⟩, f)
  | .and f => some (⟨.v, 0x14, .v32d, .v32, .v32, 15, mInt, .lane, false, false⟩, f)
  | .or f => some (⟨.v, 0x15, .v32d, .v32, .v32, 15, mInt, .lane, false, false⟩, f)
  | .xor f => some (⟨.v, 0x16, .v32d, .v32, .v32, 15, mInt, .lane, false, false⟩, f)
  | .not f => some (⟨.v, 0x17, .v32d, .v32, .zero, 15, mInt, .lane, false, false⟩, f)
  | .bfeZ32 f => some (⟨.v, 0x18, .v32d, .v32, .v32, 15, mInt, .lane, false, false⟩, f)
  | .bfeI32 f => some (⟨.v, 0x19, .v32d, .v32, .v32, 15, mInt, .lane, false, false⟩, f)
  | .bfi f => some (⟨.v, 0x1A, .v32d, .v32, .v32, 15, mAB, .lane, false, false⟩, f)
  | .popc f => some (⟨.v, 0x1B, .v32d, .v32, .zero, 15, mInt, .lane, false, false⟩, f)
  | .clz f => some (⟨.v, 0x1C, .v32d, .v32, .zero, 15, mInt, .lane, false, false⟩, f)
  | .brev f => some (⟨.v, 0x1D, .v32d, .v32, .zero, 15, mInt, .lane, false, false⟩, f)
  | .icmpEq f => some (⟨.v, 0x1E, .pred, .v32, .v32, 15, mAB, .lane, false, false⟩, f)
  | .icmpNe f => some (⟨.v, 0x1F, .pred, .v32, .v32, 15, mAB, .lane, false, false⟩, f)
  | .icmpLtI32 f => some (⟨.v, 0x20, .pred, .v32, .v32, 15, mAB, .lane, false, false⟩, f)
  | .icmpLeI32 f => some (⟨.v, 0x21, .pred, .v32, .v32, 15, mAB, .lane, false, false⟩, f)
  | .icmpLtZ32 f => some (⟨.v, 0x22, .pred, .v32, .v32, 15, mAB, .lane, false, false⟩, f)
  | .icmpLeZ32 f => some (⟨.v, 0x23, .pred, .v32, .v32, 15, mAB, .lane, false, false⟩, f)
  | .sel f => some (⟨.v, 0x24, .v32d, .v32, .v32, 12, 0, .lane, false, false⟩, f)
  | .fadd f => some (⟨.v, 0x28, .v32d, .v32, .v32, 15, mFloat, .lane, false, false⟩, f)
  | .fsub f => some (⟨.v, 0x29, .v32d, .v32, .v32, 15, mFloat, .lane, false, false⟩, f)
  | .fmul f => some (⟨.v, 0x2A, .v32d, .v32, .v32, 15, mFloat, .lane, false, false⟩, f)
  | .ffma f => some (⟨.v, 0x2B, .v32d, .v32, .v32, 15, mFma, .lane, false, false⟩, f)
  | .fmin f => some (⟨.v, 0x2C, .v32d, .v32, .v32, 15, mFloat, .lane, false, false⟩, f)
  | .fmax f => some (⟨.v, 0x2D, .v32d, .v32, .v32, 15, mFloat, .lane, false, false⟩, f)
  | .fcmpEq f => some (⟨.v, 0x2E, .pred, .v32, .v32, 15, mFcmp, .lane, false, false⟩, f)
  | .fcmpLt f => some (⟨.v, 0x2F, .pred, .v32, .v32, 15, mFcmp, .lane, false, false⟩, f)
  | .fcmpLe f => some (⟨.v, 0x30, .pred, .v32, .v32, 15, mFcmp, .lane, false, false⟩, f)
  | .fcmpUn f => some (⟨.v, 0x31, .pred, .v32, .v32, 15, mFcmp, .lane, false, false⟩, f)
  | .fcmpNe f => some (⟨.v, 0x32, .pred, .v32, .v32, 15, mFcmp, .lane, false, false⟩, f)
  | .fclass f => some (⟨.v, 0x33, .v32d, .v32, .zero, 15, mQ, .lane, false, false⟩, f)
  | .hadd2 f => some (⟨.v, 0x38, .v32d, .v32, .v32, 15, mPacked, .lane, false, false⟩, f)
  | .hmul2 f => some (⟨.v, 0x39, .v32d, .v32, .v32, 15, mPacked, .lane, false, false⟩, f)
  | .hfma2 f => some (⟨.v, 0x3A, .v32d, .v32, .v32, 15, mPacked, .lane, false, false⟩, f)
  | .hmin2 f => some (⟨.v, 0x3B, .v32d, .v32, .v32, 15, mPacked, .lane, false, false⟩, f)
  | .hmax2 f => some (⟨.v, 0x3C, .v32d, .v32, .v32, 15, mPacked, .lane, false, false⟩, f)
  | .badd2 f => some (⟨.v, 0x3D, .v32d, .v32, .v32, 15, mPacked, .lane, false, false⟩, f)
  | .bmul2 f => some (⟨.v, 0x3E, .v32d, .v32, .v32, 15, mPacked, .lane, false, false⟩, f)
  | .bfma2 f => some (⟨.v, 0x3F, .v32d, .v32, .v32, 15, mPacked, .lane, false, false⟩, f)
  | .cvtI32 f => some (⟨.v, 0x40, .v32d, .v32, .ty, 15, mCvt, .lane, false, false⟩, f)
  | .cvtZ32 f => some (⟨.v, 0x41, .v32d, .v32, .ty, 15, mCvt, .lane, false, false⟩, f)
  | .cvtF32 f => some (⟨.v, 0x42, .v32d, .v32, .ty, 15, mCvt, .lane, false, false⟩, f)
  | .cvtF16 f => some (⟨.v, 0x43, .v32d, .v32, .ty, 15, mCvt, .lane, false, false⟩, f)
  | .cvtBf16 f => some (⟨.v, 0x44, .v32d, .v32, .ty, 15, mCvt, .lane, false, false⟩, f)
  | .cvtNf f => some (⟨.v, 0x45, .v32d, .v32, .ty, 15, mCvtNf, .lane, false, false⟩, f)
  | .pack f => some (⟨.v, 0x46, .v32d, .v32, .v32, 15, mPack, .lane, false, false⟩, f)
  | .unpk f => some (⟨.v, 0x47, .v64d, .v32, (.lit 2), 15, mA, .lane, false, false⟩, f)
  | .shflIdx f => some (⟨.v, 0x48, .v32d, .v32, .v32, 15, 0, .lane, false, false⟩, f)
  | .shflUp f => some (⟨.v, 0x49, .v32d, .v32, .v32, 15, 0, .lane, false, false⟩, f)
  | .shflDown f => some (⟨.v, 0x4A, .v32d, .v32, .v32, 15, 0, .lane, false, false⟩, f)
  | .shflXor f => some (⟨.v, 0x4B, .v32d, .v32, .v32, 15, 0, .lane, false, false⟩, f)
  | .voteAny f => some (⟨.v, 0x4C, .pred, .pred, .zero, 15, 0, .lane, false, false⟩, f)
  | .voteAll f => some (⟨.v, 0x4D, .pred, .pred, .zero, 15, 0, .lane, false, false⟩, f)
  | .voteBal f => some (⟨.v, 0x4E, .v32d, .pred, .zero, 15, 0, .lane, false, false⟩, f)
  | .matchLanes f => some (⟨.v, 0x4F, .v32d, .v32, .zero, 15, 0, .lane, false, false⟩, f)
  | .vRedAdd f => some (⟨.v, 0x50, .v32d, .v32, .pred, 15, 0, .lane, false, false⟩, f)
  | .vRedMinI32 f => some (⟨.v, 0x51, .v32d, .v32, .pred, 15, 0, .lane, false, false⟩, f)
  | .vRedMinZ32 f => some (⟨.v, 0x52, .v32d, .v32, .pred, 15, 0, .lane, false, false⟩, f)
  | .vRedMaxI32 f => some (⟨.v, 0x53, .v32d, .v32, .pred, 15, 0, .lane, false, false⟩, f)
  | .vRedMaxZ32 f => some (⟨.v, 0x54, .v32d, .v32, .pred, 15, 0, .lane, false, false⟩, f)
  | .vRedAnd f => some (⟨.v, 0x55, .v32d, .v32, .pred, 15, 0, .lane, false, false⟩, f)
  | .vRedOr f => some (⟨.v, 0x56, .v32d, .v32, .pred, 15, 0, .lane, false, false⟩, f)
  | .vRedXor f => some (⟨.v, 0x57, .v32d, .v32, .pred, 15, 0, .lane, false, false⟩, f)
  | .vRedFadd f => some (⟨.v, 0x58, .v32d, .v32, .pred, 15, mRnd, .lane, false, false⟩, f)
  | .scanAdd f => some (⟨.v, 0x5A, .v32d, .v32, .pred, 15, 0, .lane, false, false⟩, f)
  | .scanMaxI32 f => some (⟨.v, 0x5B, .v32d, .v32, .pred, 15, 0, .lane, false, false⟩, f)
  | .scanMaxZ32 f => some (⟨.v, 0x5C, .v32d, .v32, .pred, 15, 0, .lane, false, false⟩, f)
  | .pand f => some (⟨.v, 0x60, .pred, .pred, .pred, 15, 0, .lane, false, false⟩, f)
  | .por f => some (⟨.v, 0x61, .pred, .pred, .pred, 15, 0, .lane, false, false⟩, f)
  | .pxor f => some (⟨.v, 0x62, .pred, .pred, .pred, 15, 0, .lane, false, false⟩, f)
  | .pnot f => some (⟨.v, 0x63, .pred, .pred, .zero, 15, 0, .lane, false, false⟩, f)
  | .pmov f => some (⟨.v, 0x64, .pred, .pred, .zero, 15, 0, .lane, false, false⟩, f)
  | .seg f => some (⟨.v, 0x68, .zero, .uni, .zero, 15, 0, .uniform, false, false⟩, f)
  | .rcp f => some (⟨.q, 0x01, .v32d, .v32, .zero, 15, mQ, .lane, false, true⟩, f)
  | .rsq f => some (⟨.q, 0x02, .v32d, .v32, .zero, 15, mQ, .lane, false, true⟩, f)
  | .sqrt f => some (⟨.q, 0x03, .v32d, .v32, .zero, 15, mQ, .lane, false, true⟩, f)
  | .ex2 f => some (⟨.q, 0x04, .v32d, .v32, .zero, 15, mQ, .lane, false, true⟩, f)
  | .lg2 f => some (⟨.q, 0x05, .v32d, .v32, .zero, 15, mQ, .lane, false, true⟩, f)
  | .sinp f => some (⟨.q, 0x06, .v32d, .v32, .zero, 15, mQ, .lane, false, true⟩, f)
  | .cosp f => some (⟨.q, 0x07, .v32d, .v32, .zero, 15, mQ, .lane, false, true⟩, f)
  | .tanh f => some (⟨.q, 0x08, .v32d, .v32, .zero, 15, mQ, .lane, false, true⟩, f)
  | .rcpA f => some (⟨.q, 0x10, .v32d, .v32, .zero, 15, mQ, .lane, false, true⟩, f)
  | .rsqA f => some (⟨.q, 0x11, .v32d, .v32, .zero, 15, mQ, .lane, false, true⟩, f)
  | .ex2A f => some (⟨.q, 0x12, .v32d, .v32, .zero, 15, mQ, .lane, false, true⟩, f)
  | .ld8I f => some (⟨.m, 0x01, .v32d, .ab, .v32, 15, mMem, .lane, false, true⟩, f)
  | .ld8Z f => some (⟨.m, 0x02, .v32d, .ab, .v32, 15, mMem, .lane, false, true⟩, f)
  | .ld16I f => some (⟨.m, 0x03, .v32d, .ab, .v32, 15, mMem, .lane, false, true⟩, f)
  | .ld16Z f => some (⟨.m, 0x04, .v32d, .ab, .v32, 15, mMem, .lane, false, true⟩, f)
  | .ld32 f => some (⟨.m, 0x05, .v32d, .ab, .v32, 15, mMem, .lane, false, true⟩, f)
  | .ld64 f => some (⟨.m, 0x06, .v64d, .ab, .v32, 15, mMem, .lane, false, true⟩, f)
  | .ld128 f => some (⟨.m, 0x07, .v128d, .ab, .v32, 15, mMem, .lane, false, true⟩, f)
  | .st8 f => some (⟨.m, 0x08, .v32, .ab, .v32, 15, mMem, .lane, false, true⟩, f)
  | .st16 f => some (⟨.m, 0x09, .v32, .ab, .v32, 15, mMem, .lane, false, true⟩, f)
  | .st32 f => some (⟨.m, 0x0A, .v32, .ab, .v32, 15, mMem, .lane, false, true⟩, f)
  | .st64 f => some (⟨.m, 0x0B, .v64, .ab, .v32, 15, mMem, .lane, false, true⟩, f)
  | .st128 f => some (⟨.m, 0x0C, .v128, .ab, .v32, 15, mMem, .lane, false, true⟩, f)
  | .ldw32 f => some (⟨.m, 0x0D, .v32d, .ab, .v32, 15, mNoSpace, .lane, false, true⟩, f)
  | .ldw64 f => some (⟨.m, 0x0E, .v64d, .ab, .v32, 15, mNoSpace, .lane, false, true⟩, f)
  | .ldw128 f => some (⟨.m, 0x0F, .v128d, .ab, .v32, 15, mNoSpace, .lane, false, true⟩, f)
  | .atomAdd f => some (⟨.m, 0x10, .v32d, .ab, .v32, 15, mMem, .lane, false, true⟩, f)
  | .atomMinI32 f => some (⟨.m, 0x11, .v32d, .ab, .v32, 15, mMem, .lane, false, true⟩, f)
  | .atomMinZ32 f => some (⟨.m, 0x12, .v32d, .ab, .v32, 15, mMem, .lane, false, true⟩, f)
  | .atomMaxI32 f => some (⟨.m, 0x13, .v32d, .ab, .v32, 15, mMem, .lane, false, true⟩, f)
  | .atomMaxZ32 f => some (⟨.m, 0x14, .v32d, .ab, .v32, 15, mMem, .lane, false, true⟩, f)
  | .atomAnd f => some (⟨.m, 0x15, .v32d, .ab, .v32, 15, mMem, .lane, false, true⟩, f)
  | .atomOr f => some (⟨.m, 0x16, .v32d, .ab, .v32, 15, mMem, .lane, false, true⟩, f)
  | .atomXor f => some (⟨.m, 0x17, .v32d, .ab, .v32, 15, mMem, .lane, false, true⟩, f)
  | .atomXchg f => some (⟨.m, 0x18, .v32d, .ab, .v32, 15, mMem, .lane, false, true⟩, f)
  | .atomCas f => some (⟨.m, 0x19, .v64d, .ab, .v32, 15, mMem, .lane, false, true⟩, f)
  | .atomFadd f => some (⟨.m, 0x1A, .v32d, .ab, .v32, 15, mMem, .lane, false, true⟩, f)
  | .atomFmin f => some (⟨.m, 0x1B, .v32d, .ab, .v32, 15, mMem, .lane, false, true⟩, f)
  | .atomFmax f => some (⟨.m, 0x1C, .v32d, .ab, .v32, 15, mMem, .lane, false, true⟩, f)
  | .mRedAdd f => some (⟨.m, 0x20, .v32, .ab, .v32, 15, mMem, .lane, false, true⟩, f)
  | .mRedMinI32 f => some (⟨.m, 0x21, .v32, .ab, .v32, 15, mMem, .lane, false, true⟩, f)
  | .mRedMinZ32 f => some (⟨.m, 0x22, .v32, .ab, .v32, 15, mMem, .lane, false, true⟩, f)
  | .mRedMaxI32 f => some (⟨.m, 0x23, .v32, .ab, .v32, 15, mMem, .lane, false, true⟩, f)
  | .mRedMaxZ32 f => some (⟨.m, 0x24, .v32, .ab, .v32, 15, mMem, .lane, false, true⟩, f)
  | .mRedAnd f => some (⟨.m, 0x25, .v32, .ab, .v32, 15, mMem, .lane, false, true⟩, f)
  | .mRedOr f => some (⟨.m, 0x26, .v32, .ab, .v32, 15, mMem, .lane, false, true⟩, f)
  | .mRedXor f => some (⟨.m, 0x27, .v32, .ab, .v32, 15, mMem, .lane, false, true⟩, f)
  | .mRedFadd f => some (⟨.m, 0x28, .v32, .ab, .v32, 15, mMem, .lane, false, true⟩, f)
  | .mRedFmin f => some (⟨.m, 0x29, .v32, .ab, .v32, 15, mMem, .lane, false, true⟩, f)
  | .mRedFmax f => some (⟨.m, 0x2A, .v32, .ab, .v32, 15, mMem, .lane, false, true⟩, f)
  | .append f => some (⟨.m, 0x30, .vsz, .ab, .pred, 12, mNoSpace, .lane, false, true⟩, f)
  | .sealPage f => some (⟨.m, 0x31, .zero, .ab, .zero, 3, mScls, .lane, false, true⟩, f)
  | .fence f => some (⟨.m, 0x34, .zero, .zero, .zero, 2, mNoSpace, .lane, false, true⟩, f)
  | .fenceq f => some (⟨.m, 0x35, .zero, .zero, .zero, 12, mScls, .lane, false, true⟩, f)
  | .pref f => some (⟨.m, 0x38, (.lit 2), .ab, .v32, 15, mScls, .lane, false, true⟩, f)
  | .smap f => some (⟨.m, 0x3C, .uq, .ab, .zero, 12, mScls, .lane, false, true⟩, f)
  | .sunmap f => some (⟨.m, 0x3D, .uq, .zero, .zero, 3, mScls, .lane, false, true⟩, f)
  | .sflush f => some (⟨.m, 0x3E, .zero, .zero, .zero, 3, mScls, .lane, false, true⟩, f)
  | .hdecl f => some (⟨.m, 0x40, (.lit 4), .ab, .zero, 15, mSpaceScls, .lane, false, true⟩, f)
  | .hpush f => some (⟨.m, 0x41, (.lit 4), .zero, .zero, 3, mScls, .lane, false, true⟩, f)
  | .cpG2s f => some (⟨.c, 0x01, .uq, .ab, .q4, 15, mCopy, .lane, false, true⟩, f)
  | .cpS2g f => some (⟨.c, 0x02, .ab, .uq, .q4, 15, mCopy, .lane, false, true⟩, f)
  | .cpG2g f => some (⟨.c, 0x03, .ab, .ab, .q4, 15, mCopyG, .lane, false, true⟩, f)
  | .cpGath f => some (⟨.c, 0x04, .zero, .q4, .v32, 15, mCopy, .lane, false, true⟩, f)
  | .cpScat f => some (⟨.c, 0x05, .zero, .q4, .v32, 15, mCopy, .lane, false, true⟩, f)
  | .cpFill f => some (⟨.c, 0x06, .fillD, .uq, .q4, 15, mCopy, .lane, false, true⟩, f)
  | .cpPlane f => some (⟨.c, 0x07, .uq, .ab, .q4, 15, mCopy, .lane, false, true⟩, f)
  | .cpTlr f => some (⟨.c, 0x08, (.lit 4), .ab, .zero, 15, mCopyG, .lane, false, true⟩, f)
  | .mzero f => some (⟨.a, 0x01, .zero, .zero, .zero, 3, 0, .uniform, false, true⟩, f)
  | .mloop f => some (⟨.a, 0x02, .zero, .s32, .s32, 12, 0, .uniform, false, true⟩, f)
  | .mgrp f => some (⟨.a, 0x03, .s32, .s32, .s32, 12, 0, .uniform, false, true⟩, f)
  | .mdrainS f => some (⟨.a, 0x04, (.lit 5), .sq, .zero, 3, mDrain, .uniform, false, true⟩, f)
  | .mdrainA f => some (⟨.a, 0x05, .acc, .s32, (.lit 5), 15, mDrain, .uniform, false, true⟩, f)
  | .msave f => some (⟨.a, 0x06, .zero, .s64, .zero, 3, 0, .uniform, false, true⟩, f)
  | .mrest f => some (⟨.a, 0x07, .zero, .s64, .zero, 3, 0, .uniform, false, true⟩, f)
  | .mstat f => some (⟨.a, 0x08, .s32d, .s32, .zero, 15, 0, .uniform, false, true⟩, f)
  | .fsdef f => some (⟨.y, 0x01, .slot, .s64, .zero, 3, 0, .uniform, false, false⟩, f)
  | .fcall f => some (⟨.y, 0x02, .vg, .vg, .slot, 12, 0, .uniform, true, true⟩, f)
  | .fret f => some (⟨.y, 0x03, .vg, .vg, .zero, 3, 0, .uniform, true, true⟩, f)
  | .fsload f => some (⟨.y, 0x04, .slot, .zero, .zero, 3, 0, .uniform, false, true⟩, f)
  | .fsdrop f => some (⟨.y, 0x05, .slot, .zero, .zero, 3, 0, .uniform, false, false⟩, f)
  | .fsqry f => some (⟨.y, 0x06, .s32d, .zero, .slot, 12, 0, .uniform, false, true⟩, f)
  | .srr f => some (⟨.y, 0x10, .s32d, .specialR, .zero, 3, 0, .uniform, false, false⟩, f)
  | .srw f => some (⟨.y, 0x11, .specialW, .sw, .zero, 15, 0, .uniform, false, false⟩, f)
  | .fmap f => some (⟨.y, 0x13, .s32d, .s64, .zero, 3, 0, .uniform, false, true⟩, f)
  | .tlbinv f => some (⟨.y, 0x14, (.lit 3), .s64n, .zero, 3, 0, .uniform, false, false⟩, f)
  | .capr f => some (⟨.y, 0x15, .s32d, .zero, .zero, 12, 0, .uniform, false, false⟩, f)
  | .phase f => some (⟨.y, 0x16, .zero, .s32, .zero, 15, 0, .uniform, false, false⟩, f)
  | .halt f => some (⟨.y, 0x17, .zero, .zero, .zero, 3, 0, .uniform, true, false⟩, f)
  | .ret => some (⟨.x, 0x08, .zero, .zero, .zero, 1, 0, .no, true, false⟩, {})
  | .elseP => some (⟨.x, 0x11, .zero, .zero, .zero, 1, 0, .no, false, false⟩, {})
  | .endifP => some (⟨.x, 0x12, .zero, .zero, .zero, 1, 0, .no, false, false⟩, {})
  | .loopP => some (⟨.x, 0x13, .zero, .zero, .zero, 1, 0, .no, true, false⟩, {})
  | .endloopP => some (⟨.x, 0x16, .zero, .zero, .zero, 1, 0, .no, true, false⟩, {})
  | .qResultWrite => none
  | .appendHomeReservation => none
  | .sealCompletion => none
  | .haloPush => none
  | .copySegment => none
  | .copyCompletion => none
  | .matrixStep => none
  | .matrixQueuePerform => none
  | .fsQueuePerform => none
  | .tret => some (⟨.y, 0x12, .zero, .zero, .zero, 1, 0, .no, true, false⟩, {})
  | .variableLatencyCompletion => none
  | .priorityAging => none
  | .sleepExpiry => none
  | .barrierGenerationComplete => none
  | .warpSlotRelease => none
  | .watchValidation => none
  | .residencyScheduleLoad => none
  | .residencyEviction => none
  | .ptsTick => none
  | .ptsBroadcast => none
  | .leaseExpiry => none
  | .l1LeaseSweep => none
  | .l2LineSweep => none
  | .externalAgentWrite => none
  | .qtailWrite => none
  | .queueEnable => none
  | .queueDisable => none
  | .queueErrClear => none
  | .registerWrite => none
  | .gridStart => none
  | .launchCompletion => none
  | .blockPlacement => none
  | .preemptionDecision => none
  | .drainTimeout => none
  | .blockSave => none
  | .blockFlush => none
  | .blockRestart => none
  | .blockResume => none
  | .pendingTrapTaken => none
  | .pageWalk => none
  | .hostFaultAcknowledge => none
  | .faultWaiterReplay => none
  | .stagedRecordAppend => none
  | .ticketGrant => none
  | .ticketPhaseRelease => none
  | .replayDecision => none
  | .rds => none
  | .rdx => none
  | .upg => none
  | .wb => none
  | .fwds => none
  | .fwdx => none
  | .invSnoop => none
  | .snoopResponse => none
  | .wbAcknowledge => none
  | .sealRecall => none
  | .mscEviction => none
  | .extentAdd => none
  | .extentReleaseRequest => none
  | .forcedExtentRelease => none
  | .extentAccept => none
  | .extentDecline => none
  | .extentCloseComplete => none
  | .extentDone => none
  | .appendFrameAlloc => none
  | .pageFree => none
  | .channelService => none
  | .telemetryCopy => none
  | .rowActivationAlert => none
  | .laneRetrain => none
  | .keyLoad => none
  | .keyRevoke => none
  | .boot => none
  | .recoveryWrite => none
  | .firmwareSwap => none
  | .swapPoint => none
  | .aliveReport => none
  | .swapAliveTimeout => none
  | .swapCommit => none
  | .watchdogPet => none
  | .watchdogRung0 => none
  | .watchdogRung1 => none
  | .watchdogRung2 => none
  | .watchdogRung3 => none
  | .watchdogRung4 => none
  | .watchdogRung5 => none
  | .getMeasurements => none
  | .keyExchange => none
  | .linkUpMaskChange => none
  | .kstatBusyClear => none
  | .ideKeyProgramming => none

/-- Level of a barrier opcode's offset. -/
def lvlOf : Nat → Lvl
  | 0 => .core
  | 1 => .quad
  | 2 => .die
  | 3 => .pkg
  | _ => .pod

/-- Opcodes of class X (R77-R85), `nop` and `rep` apart. -/
def opX (f : Fields) : Nat → Option Instr
  | 0x01 => some (.bra f)
  | 0x02 => some (.braAny f)
  | 0x03 => some (.braAll f)
  | 0x04 => some (.braNone f)
  | 0x05 => some (.brx f)
  | 0x06 => some (.call f)
  | 0x07 => some (.callx f)
  | 0x08 => if f = {} then some .ret else none
  | 0x10 => some (.ifP f)
  | 0x11 => if f = {} then some .elseP else none
  | 0x12 => if f = {} then some .endifP else none
  | 0x13 => if f = {} then some .loopP else none
  | 0x14 => some (.breakP f)
  | 0x15 => some (.contP f)
  | 0x16 => if f = {} then some .endloopP else none
  | 0x18 => some (.exit f)
  | 0x19 => some (.yield f)
  | 0x1A => some (.sleep f)
  | 0x1C => some (.fork f)
  | 0x1D => some (.rdv f)
  | 0x20 => some (.bar .core f)
  | 0x21 => some (.bar .quad f)
  | 0x22 => some (.bar .die f)
  | 0x23 => some (.bar .pkg f)
  | 0x24 => some (.bar .pod f)
  | 0x28 => some (.bara .core f)
  | 0x29 => some (.bara .quad f)
  | 0x2A => some (.bara .die f)
  | 0x2B => some (.bara .pkg f)
  | 0x2C => some (.bara .pod f)
  | 0x30 => some (.barw .core f)
  | 0x31 => some (.barw .quad f)
  | 0x32 => some (.barw .die f)
  | 0x33 => some (.barw .pkg f)
  | 0x34 => some (.barw .pod f)
  | 0x38 => some (.bare .core f)
  | 0x39 => some (.bare .quad f)
  | 0x3A => some (.bare .die f)
  | 0x3B => some (.bare .pkg f)
  | 0x3C => some (.bare .pod f)
  | 0x40 => some (.tail f)
  | 0x41 => some (.trap f)
  | 0x42 => some (.chkw f)
  | _ => none

/-- Opcodes of class S (R77-R85), `nop` and `rep` apart. -/
def opS (f : Fields) : Nat → Option Instr
  | 0x01 => some (.smov f)
  | 0x02 => some (.sadd f)
  | 0x03 => some (.ssub f)
  | 0x04 => some (.smul f)
  | 0x05 => some (.smulhiI32 f)
  | 0x06 => some (.smulhiZ32 f)
  | 0x07 => some (.smad f)
  | 0x08 => some (.sadd64 f)
  | 0x09 => some (.ssub64 f)
  | 0x0A => some (.smad64 f)
  | 0x0B => some (.sshl f)
  | 0x0C => some (.sshr f)
  | 0x0D => some (.ssra f)
  | 0x0E => some (.sand f)
  | 0x0F => some (.sor f)
  | 0x10 => some (.sxor f)
  | 0x11 => some (.snot f)
  | 0x12 => some (.sminI32 f)
  | 0x13 => some (.sminZ32 f)
  | 0x14 => some (.smaxI32 f)
  | 0x15 => some (.smaxZ32 f)
  | 0x18 => some (.scmpEq f)
  | 0x19 => some (.scmpNe f)
  | 0x1A => some (.scmpLtI32 f)
  | 0x1B => some (.scmpLeI32 f)
  | 0x1C => some (.scmpLtZ32 f)
  | 0x1D => some (.scmpLeZ32 f)
  | 0x20 => some (.ssel f)
  | 0x21 => some (.sld f)
  | 0x22 => some (.srd f)
  | 0x23 => some (.rfa f)
  | 0x24 => some (.rlane f)
  | 0x25 => some (.spopc f)
  | 0x26 => some (.sclz f)
  | 0x27 => some (.sbfeZ32 f)
  | 0x28 => some (.sbfeI32 f)
  | _ => none

/-- Opcodes of class V (R77-R85), `nop` and `rep` apart. -/
def opV (f : Fields) : Nat → Option Instr
  | 0x01 => some (.mov f)
  | 0x02 => some (.iadd f)
  | 0x03 => some (.isub f)
  | 0x04 => some (.imul f)
  | 0x05 => some (.imulhiI32 f)
  | 0x06 => some (.imulhiZ32 f)
  | 0x07 => some (.imad f)
  | 0x08 => some (.idivI32 f)
  | 0x09 => some (.idivZ32 f)
  | 0x0A => some (.iremI32 f)
  | 0x0B => some (.iremZ32 f)
  | 0x0C => some (.iminI32 f)
  | 0x0D => some (.iminZ32 f)
  | 0x0E => some (.imaxI32 f)
  | 0x0F => some (.imaxZ32 f)
  | 0x10 => some (.iabs f)
  | 0x11 => some (.shl f)
  | 0x12 => some (.shr f)
  | 0x13 => some (.sra f)
  | 0x14 => some (.and f)
  | 0x15 => some (.or f)
  | 0x16 => some (.xor f)
  | 0x17 => some (.not f)
  | 0x18 => some (.bfeZ32 f)
  | 0x19 => some (.bfeI32 f)
  | 0x1A => some (.bfi f)
  | 0x1B => some (.popc f)
  | 0x1C => some (.clz f)
  | 0x1D => some (.brev f)
  | 0x1E => some (.icmpEq f)
  | 0x1F => some (.icmpNe f)
  | 0x20 => some (.icmpLtI32 f)
  | 0x21 => some (.icmpLeI32 f)
  | 0x22 => some (.icmpLtZ32 f)
  | 0x23 => some (.icmpLeZ32 f)
  | 0x24 => some (.sel f)
  | 0x28 => some (.fadd f)
  | 0x29 => some (.fsub f)
  | 0x2A => some (.fmul f)
  | 0x2B => some (.ffma f)
  | 0x2C => some (.fmin f)
  | 0x2D => some (.fmax f)
  | 0x2E => some (.fcmpEq f)
  | 0x2F => some (.fcmpLt f)
  | 0x30 => some (.fcmpLe f)
  | 0x31 => some (.fcmpUn f)
  | 0x32 => some (.fcmpNe f)
  | 0x33 => some (.fclass f)
  | 0x38 => some (.hadd2 f)
  | 0x39 => some (.hmul2 f)
  | 0x3A => some (.hfma2 f)
  | 0x3B => some (.hmin2 f)
  | 0x3C => some (.hmax2 f)
  | 0x3D => some (.badd2 f)
  | 0x3E => some (.bmul2 f)
  | 0x3F => some (.bfma2 f)
  | 0x40 => some (.cvtI32 f)
  | 0x41 => some (.cvtZ32 f)
  | 0x42 => some (.cvtF32 f)
  | 0x43 => some (.cvtF16 f)
  | 0x44 => some (.cvtBf16 f)
  | 0x45 => some (.cvtNf f)
  | 0x46 => some (.pack f)
  | 0x47 => some (.unpk f)
  | 0x48 => some (.shflIdx f)
  | 0x49 => some (.shflUp f)
  | 0x4A => some (.shflDown f)
  | 0x4B => some (.shflXor f)
  | 0x4C => some (.voteAny f)
  | 0x4D => some (.voteAll f)
  | 0x4E => some (.voteBal f)
  | 0x4F => some (.matchLanes f)
  | 0x50 => some (.vRedAdd f)
  | 0x51 => some (.vRedMinI32 f)
  | 0x52 => some (.vRedMinZ32 f)
  | 0x53 => some (.vRedMaxI32 f)
  | 0x54 => some (.vRedMaxZ32 f)
  | 0x55 => some (.vRedAnd f)
  | 0x56 => some (.vRedOr f)
  | 0x57 => some (.vRedXor f)
  | 0x58 => some (.vRedFadd f)
  | 0x5A => some (.scanAdd f)
  | 0x5B => some (.scanMaxI32 f)
  | 0x5C => some (.scanMaxZ32 f)
  | 0x60 => some (.pand f)
  | 0x61 => some (.por f)
  | 0x62 => some (.pxor f)
  | 0x63 => some (.pnot f)
  | 0x64 => some (.pmov f)
  | 0x68 => some (.seg f)
  | _ => none

/-- Opcodes of class Q (R77-R85), `nop` and `rep` apart. -/
def opQ (f : Fields) : Nat → Option Instr
  | 0x01 => some (.rcp f)
  | 0x02 => some (.rsq f)
  | 0x03 => some (.sqrt f)
  | 0x04 => some (.ex2 f)
  | 0x05 => some (.lg2 f)
  | 0x06 => some (.sinp f)
  | 0x07 => some (.cosp f)
  | 0x08 => some (.tanh f)
  | 0x10 => some (.rcpA f)
  | 0x11 => some (.rsqA f)
  | 0x12 => some (.ex2A f)
  | _ => none

/-- Opcodes of class M (R77-R85), `nop` and `rep` apart. -/
def opM (f : Fields) : Nat → Option Instr
  | 0x01 => some (.ld8I f)
  | 0x02 => some (.ld8Z f)
  | 0x03 => some (.ld16I f)
  | 0x04 => some (.ld16Z f)
  | 0x05 => some (.ld32 f)
  | 0x06 => some (.ld64 f)
  | 0x07 => some (.ld128 f)
  | 0x08 => some (.st8 f)
  | 0x09 => some (.st16 f)
  | 0x0A => some (.st32 f)
  | 0x0B => some (.st64 f)
  | 0x0C => some (.st128 f)
  | 0x0D => some (.ldw32 f)
  | 0x0E => some (.ldw64 f)
  | 0x0F => some (.ldw128 f)
  | 0x10 => some (.atomAdd f)
  | 0x11 => some (.atomMinI32 f)
  | 0x12 => some (.atomMinZ32 f)
  | 0x13 => some (.atomMaxI32 f)
  | 0x14 => some (.atomMaxZ32 f)
  | 0x15 => some (.atomAnd f)
  | 0x16 => some (.atomOr f)
  | 0x17 => some (.atomXor f)
  | 0x18 => some (.atomXchg f)
  | 0x19 => some (.atomCas f)
  | 0x1A => some (.atomFadd f)
  | 0x1B => some (.atomFmin f)
  | 0x1C => some (.atomFmax f)
  | 0x20 => some (.mRedAdd f)
  | 0x21 => some (.mRedMinI32 f)
  | 0x22 => some (.mRedMinZ32 f)
  | 0x23 => some (.mRedMaxI32 f)
  | 0x24 => some (.mRedMaxZ32 f)
  | 0x25 => some (.mRedAnd f)
  | 0x26 => some (.mRedOr f)
  | 0x27 => some (.mRedXor f)
  | 0x28 => some (.mRedFadd f)
  | 0x29 => some (.mRedFmin f)
  | 0x2A => some (.mRedFmax f)
  | 0x30 => some (.append f)
  | 0x31 => some (.sealPage f)
  | 0x34 => some (.fence f)
  | 0x35 => some (.fenceq f)
  | 0x38 => some (.pref f)
  | 0x3C => some (.smap f)
  | 0x3D => some (.sunmap f)
  | 0x3E => some (.sflush f)
  | 0x40 => some (.hdecl f)
  | 0x41 => some (.hpush f)
  | _ => none

/-- Opcodes of class C (R77-R85), `nop` and `rep` apart. -/
def opC (f : Fields) : Nat → Option Instr
  | 0x01 => some (.cpG2s f)
  | 0x02 => some (.cpS2g f)
  | 0x03 => some (.cpG2g f)
  | 0x04 => some (.cpGath f)
  | 0x05 => some (.cpScat f)
  | 0x06 => some (.cpFill f)
  | 0x07 => some (.cpPlane f)
  | 0x08 => some (.cpTlr f)
  | _ => none

/-- Opcodes of class A (R77-R85), `nop` and `rep` apart. -/
def opA (f : Fields) : Nat → Option Instr
  | 0x01 => some (.mzero f)
  | 0x02 => some (.mloop f)
  | 0x03 => some (.mgrp f)
  | 0x04 => some (.mdrainS f)
  | 0x05 => some (.mdrainA f)
  | 0x06 => some (.msave f)
  | 0x07 => some (.mrest f)
  | 0x08 => some (.mstat f)
  | _ => none

/-- Opcodes of class Y (R77-R85), `nop` and `rep` apart. -/
def opY (f : Fields) : Nat → Option Instr
  | 0x01 => some (.fsdef f)
  | 0x02 => some (.fcall f)
  | 0x03 => some (.fret f)
  | 0x04 => some (.fsload f)
  | 0x05 => some (.fsdrop f)
  | 0x06 => some (.fsqry f)
  | 0x10 => some (.srr f)
  | 0x11 => some (.srw f)
  | 0x12 => if f = {} then some .tret else none
  | 0x13 => some (.fmap f)
  | 0x14 => some (.tlbinv f)
  | 0x15 => some (.capr f)
  | 0x16 => some (.phase f)
  | 0x17 => some (.halt f)
  | _ => none

/-- The instruction an OP names in a class; none where the OP is reserved (R77). -/
def instrAt (cls : Cls) (op : Nat) (f : Fields) : Option Instr :=
  if op = 0 then some (.nop cls f)
  else match cls with
    | .x => opX f op
    | .s => opS f op
    | .v => opV f op
    | .q => opQ f op
    | .m => opM f op
    | .c => opC f op
    | .a => opA f op
    | .y => opY f op

end Sys2Proof.Machine
end

