-- ==== Sys2Proof/Machine/Checks.lean ====
section
/-! DEFINITION. The encoding checks that an instruction's own words decide: operand kinds (R63), and check 3 of R75 (R57-R61, R112-R115, R136,
R143, R179, R187, R197, R219, R220, R302). -/

namespace Sys2Proof.Machine

/-! ### Modifier fields (R58) -/

/-- The modifier word in force (R59). -/
def modOf (c : Cls) (x : Fields) : Word := x.mod.getD (modDefault c)

def mPred (m : Word) : Nat := bitsOf m 31 27
def mPneg (m : Word) : Bool := bitsOf m 26 26 = 1
def mPen (m : Word) : Bool := bitsOf m 25 25 = 1
def mAsub (m : Word) : Nat := bitsOf m 24 20
def mBsub (m : Word) : Nat := bitsOf m 19 15
def mDnar (m : Word) : Nat := bitsOf m 14 10
def mRndCode (m : Word) : Nat := bitsOf m 9 7
def mNfs (m : Word) : Nat := bitsOf m 6 5
def mSat (m : Word) : Bool := bitsOf m 4 4 = 1
def mFlg (m : Word) : Bool := bitsOf m 3 3 = 1
def mScope (m : Word) : Nat := bitsOf m 24 22
def mSem (m : Word) : Nat := bitsOf m 21 20
def mSpace (m : Word) : Nat := bitsOf m 19 18
def mSclsV (m : Word) : Nat := bitsOf m 17 16
def mCont (m : Word) : Bool := bitsOf m 15 15 = 1

/-- EXT of the instruction word (R57). -/
def extOf (x : Fields) : Nat := (if x.mod.isSome then 1 else 0) + (if x.imm.isSome then 2 else 0)

/-- The immediate word, or zero. -/
def immOf (x : Fields) : Word := x.imm.getD 0

/-- Bytes of the instruction with its extension words. -/
def lenOf (x : Fields) : Nat := 4 + (if x.mod.isSome then 4 else 0) + (if x.imm.isSome then 4 else 0)

/-! ### Operand kinds (R63, R134) -/

/-- Special register codes of R43. -/
def isSpecial43 (c : Nat) : Bool := (1 ≤ c && c ≤ 0x18) || (0x20 ≤ c && c ≤ 0x27)

/-- Codes a field of this kind accepts. -/
def kindAccepts (k : Kind) (c : Nat) : Bool :=
  match k with
  | .zero => c = 0
  | .v32 => c ≤ 127 && c != 123
  | .v32d => c ≤ 87 || c = 120
  | .v64 => (c ≤ 118 && c % 2 = 0) || c = 120 || c = 127
  | .v64d => (c ≤ 86 && c % 2 = 0) || c = 120
  | .v128 => (c ≤ 84 && c % 4 = 0) || c = 120
  | .v128d => (c ≤ 84 && c % 4 = 0) || c = 120
  | .vsz => c ≤ 87 || c = 120
  | .s32 => c ≤ 63 || c = 120 || c = 127
  | .s32d => c ≤ 63 || c = 120
  | .s64 => (c ≤ 62 && c % 2 = 0) || c = 120 || c = 127
  | .s64d => c ≤ 62 && c % 2 = 0
  | .sw => c ≤ 63 || c = 120 || c = 127
  | .sb => c ≤ 63 || c = 120 || c = 127
  | .s64n => (c ≤ 62 && c % 2 = 0) || c = 120 || c = 127
  | .pred => c ≤ 31
  | .acc => c ≤ 127
  | .ab => (88 ≤ c && c ≤ 118 && c % 2 = 0) || c = 120
  | .special => isSpecial43 c
  | .specialR => (isSpecial43 c && c != 0x27) || (0x30 ≤ c && c ≤ 0x34)
  | .specialW => c = 0x0F || c = 0x10 || c = 0x11 || (0x15 ≤ c && c ≤ 0x18) || c = 0x20 || c = 0x21
  | .ty => c ≤ 8
  | .lit n => c < n
  | .uni => (88 ≤ c && c ≤ 119) || c = 127
  | .uq => 88 ≤ c && c ≤ 120
  | .q4 => 88 ≤ c && c ≤ 116 && c % 4 = 0
  | .sq => c ≤ 60 && c % 4 = 0
  | .fillD => 88 ≤ c && c ≤ 120
  | .vr => c ≤ 87
  | .vg => c ≤ 87
  | .slot => c ≤ 15

/-- Kinds whose code 127 selects the immediate word (R61). -/
def kindTakesImm : Kind → Bool
  | .v32 => true
  | .v64 => true
  | .s32 => true
  | .s64 => true
  | .sw => true
  | .sb => true
  | .s64n => true
  | .uni => true
  | _ => false

/-- Kinds that name a register, so that `rep` may step the field, whatever code it holds (R70; log entry 89). -/
def kindIsReg : Kind → Bool
  | .zero => false
  | .special => false
  | .specialR => false
  | .specialW => false
  | .ty => false
  | .lit _ => false
  | .slot => false
  | _ => true

/-- The kind a field has in this instruction: `append` by its size control (R187), `cp.fill` by its space (R217), `srw` by its
register (R287), `srd` by its register (R145). -/
def kindOf (k : Kind) (f : Form) (x : Fields) : Kind :=
  match k with
  | .vsz => if immOf x = 3 then .v64d else if immOf x = 4 then .v128d else .v32d
  | .fillD => if mSpace (modOf f.cls x) = 0 then .ab else .uq
  | .sb => if x.a.toNat = 0x27 then .s32 else .zero
  | .sw => if x.d.toNat = 0x20 || x.d.toNat = 0x21 then .s64 else .s32
  | k => k

def kindD (f : Form) (x : Fields) : Kind := kindOf f.d f x
def kindA (f : Form) (x : Fields) : Kind := kindOf f.a f x
def kindB (f : Form) (x : Fields) : Kind := kindOf f.b f x

/-- The immediate word has a purpose of its own, so that no source may select it (R61, R139, R172, R301). -/
def immOwn (f : Form) : Bool := f.ext &&& 3 == 0 || f.cls = .m || f.cls = .c

/-- Some source field selects the immediate word where that must be free for it; the D of `mgrp` may, R301 not marking it "not 127". -/
def usesImm (f : Form) (x : Fields) : Bool :=
  (kindTakesImm (kindD f x) && x.d = 127 && !(f.cls = .a && f.op = 3)) || (kindTakesImm (kindA f x) && x.a = 127) || (kindTakesImm (kindB f x) && x.b = 127)

/-! ### Check 3 (R75) -/

/-- HOLD values the form permits: 01 needs a 32-bit source A, which the uniform source of `seg` is too (R48, R162, R178, R217). -/
def holdOk (f : Form) (h : Nat) : Bool :=
  match h with
  | 0 => true
  | 1 => (f.cls = .v || f.cls = .q) && (f.a = .v32 || f.a = .uni)
  | 2 => (f.cls = .v || f.cls = .q || f.cls = .m || f.cls = .c) && f.b = .v32
  | _ => f.cls = .v && f.d = .v32d

/-- Class M atomics and reductions accept SEM with SCOPE 000 (R58, R179). -/
def isAtomRed (f : Form) : Bool := f.cls = .m && 0x10 ≤ f.op && f.op ≤ 0x2A

/-- Modifier fields: unused and reserved fields at their defaults, reserved codes, the guard (R58, R112). -/
def modOk (f : Form) (m : Word) : Bool :=
  let used := f.mods ||| (if f.guard = .no then 0 else fGuard) ||| (if f.var then fFlg else 0)
  ((m ^^^ modDefault f.cls) &&& ~~~used) == 0#32 &&
  (mPen m || (mPred m = 0 && !mPneg m)) &&
  (match f.cls with
   | .m => mScope m != 7 && mSpace m != 3 && (mSem m = 0 || mScope m != 0 || isAtomRed f)
   | .c => mScope m != 7 && mSpace m != 3
   | _ => mRndCode m != 5 && mRndCode m != 6)

/-- A byte, six-bit or nibble subfield; the codes above them are reserved (R64, R136). -/
def narrowSub (c : Nat) : Bool := 3 ≤ c && c < 20

/-- SAT of the integer forms needs DNAR, and NFS a narrow subfield (R136). -/
def subOk (f : Form) (m : Word) : Bool :=
  (f.mods != mInt || !mSat m || mDnar m != 0) &&
  ((f.mods != mFloat && f.mods != mFma && f.mods != mFcmp && f.mods != mQ) || mNfs m = 0 ||
    narrowSub (mAsub m) || narrowSub (mBsub m) || narrowSub (mDnar m))

/-- Rules of single forms for SEM, SPACE, CONT, drain types and the immediate word (R115, R143, R179, R187, R197, R219, R220, R302, R333). -/
def ownOk (i : Instr) (f : Form) (x : Fields) : Bool :=
  let m := modOf f.cls x
  let imm := (immOf x).toNat
  let loadSem := mSem m = 0 && mScope m = 0 || mSem m = 1
  let storeSem := mSem m = 0 && mScope m = 0 || mSem m = 2
  let cont := if mCont m then extOf x = 3 && imm % 4 = 0 && !mFlg m else x.imm.isNone
  match i with
  | .bra _ => imm % 4 = 0
  | .braAny _ => imm % 4 = 0
  | .braAll _ => imm % 4 = 0
  | .braNone _ => imm % 4 = 0
  | .call _ => imm % 4 = 0
  | .fork _ => imm % 4 = 0
  | .chkw _ => imm % 4 = 0
  | .fcall _ => imm % 4 = 0
  | .ssel _ => imm < 64
  | .sel _ => imm < 64
  | .append _ => storeSem && (imm = 2 || imm = 3 || imm = 4)
  | .fenceq _ => imm != 0 && imm < 32
  | .fence _ => mSem m != 0
  | .hdecl _ => mSpace m = 1
  | .cpG2g _ => cont
  | .cpTlr _ => cont
  | .mdrainS _ => (x.d.toNat = 3 || mNfs m = 0) && (x.d.toNat < 4 || (mRndCode m = 7 && !mSat m))
  | .mdrainA _ => (x.b.toNat = 3 || mNfs m = 0) && (x.b.toNat < 4 || (mRndCode m = 7 && !mSat m))
  | _ =>
    if f.cls = .m && ((1 ≤ f.op && f.op ≤ 7) || (0x0D ≤ f.op && f.op ≤ 0x0F)) then loadSem
    else if f.cls = .m && 8 ≤ f.op && f.op ≤ 0x0C then storeSem
    else if f.cls = .c && f.op != 0 then cont
    else true

/-- Check 3 of R75, as far as the instruction's own words decide it. -/
def check3 (i : Instr) (f : Form) (x : Fields) : Bool :=
  f.ext.testBit (extOf x) &&
  (kindD f x != .zero || x.d = 0) && (kindA f x != .zero || x.a = 0) && (kindB f x != .zero || x.b = 0) &&
  holdOk f x.hold.toNat && modOk f (modOf f.cls x) && subOk f (modOf f.cls x) &&
  (immOwn f || x.imm.isNone || usesImm f x) && ownOk i f x

/-- Part of check 4 that the instruction's own words decide: codes within their kinds, 127 only with an immediate word it may
select, no reserved subfield (R61, R63, R64). -/
def check4Static (f : Form) (x : Fields) : Bool :=
  kindAccepts (kindD f x) x.d.toNat && kindAccepts (kindA f x) x.a.toNat && kindAccepts (kindB f x) x.b.toNat &&
  (!usesImm f x || (x.imm.isSome && !immOwn f)) &&
  (match f.cls with
   | .m => true
   | .c => true
   | _ => mAsub (modOf f.cls x) < 20 && mBsub (modOf f.cls x) < 20 && mDnar (modOf f.cls x) < 20)

end Sys2Proof.Machine
end

