-- ==== Sys2Proof/WellFormed.lean ====
section
/-! DEFINITION. Well-formed instructions: those whose words pass check 3 of R75 and the part of check 4 that the words alone decide. -/

namespace Sys2Proof

/-- An instruction whose words pass the checks that they alone decide (R75); a system event has no words. -/
def wellFormed (i : Instr) : Bool :=
  match Machine.encOf i with
  | some (f, x) => Machine.check3 i f x && Machine.check4Static f x
  | none => true

end Sys2Proof
end

