-- ==== Sys2Proof/Decode.lean ====
section
/-! DEFINITION. Reading instruction words (R57, R68, R75 check 2, R77) and writing them. The class comes from the clause header
(R51), so the decoder takes it as an argument. -/

namespace Sys2Proof

/-- Why words are refused: no word, an OP that the class reserves (R77), a word of a row without free fields that has other bits
(R57), nonzero reserved bits of `rep` (R68), extension words missing. -/
inductive DecodeError where
  | noWord | reservedOp | fixedWord | repReserved | truncated
  deriving DecidableEq, Repr

/-- Outcome of decoding: the instruction and the words after it. -/
inductive Decoded where
  | ok (i : Instr) (rest : List Word)
  | bad (e : DecodeError)
  deriving DecidableEq, Repr

/-- Classes by number (R51). -/
def clsOf : Nat → Cls
  | 0 => .x
  | 1 => .s
  | 2 => .v
  | 3 => .q
  | 4 => .m
  | 5 => .c
  | 6 => .a
  | _ => .y

def clsNum : Cls → Nat
  | .x => 0
  | .s => 1
  | .v => 2
  | .q => 3
  | .m => 4
  | .c => 5
  | .a => 6
  | .y => 7

/-- OP of an instruction word (R57). -/
def opOf (w : Word) : Nat := bitsOf w 31 25

/-- Operand fields of an instruction word, with the extension words given (R57). -/
def fieldsOf (w : Word) (mod imm : Option Word) : Fields :=
  { d := w.extractLsb' 18 7, a := w.extractLsb' 11 7, b := w.extractLsb' 4 7, hold := w.extractLsb' 2 2, mod := mod, imm := imm }

/-- Fields of a `rep` word (R68). -/
def repOf (w : Word) : RepWord :=
  { cnt := w.extractLsb' 19 6, sd := w.getLsbD 18, sa := w.getLsbD 17, sb := w.getLsbD 16, by2 := w.getLsbD 15 }

/-- The extension words that EXT announces (R57): modifier, then immediate, and what follows. -/
def extWords (e : Nat) (ws : List Word) : Option (Option Word × Option Word × List Word) :=
  match e, ws with
  | 0, r => some (none, none, r)
  | 1, m :: r => some (some m, none, r)
  | 2, i :: r => some (none, some i, r)
  | 3, m :: i :: r => some (some m, some i, r)
  | _, _ => none

/-- Decode the first instruction of a list of words in a class. -/
def decode (c : Cls) (ws : List Word) : Decoded :=
  match ws with
  | [] => .bad .noWord
  | w :: r =>
    if opOf w = 0x7F then
      if bitsOf w 14 0 = 0 then .ok (.rep c (repOf w)) r else .bad .repReserved
    else
      match extWords (bitsOf w 1 0) r with
      | none => .bad .truncated
      | some (m, i, rest) =>
        match Machine.instrAt c (opOf w) (fieldsOf w m i) with
        | some ins => .ok ins rest
        | none => .bad (if (Machine.instrAt c (opOf w) {}).isSome then .fixedWord else .reservedOp)

/-! ### The encoder -/

/-- The word of fields under an OP (R57). -/
def wordOf (op : Nat) (x : Fields) : Word :=
  BitVec.ofNat 7 op ++ x.d ++ x.a ++ x.b ++ x.hold ++ BitVec.ofNat 2 (Machine.extOf x)

/-- The `rep` word (R68). -/
def repWordOf (p : RepWord) : Word :=
  BitVec.ofNat 7 0x7F ++ p.cnt ++ BitVec.ofBool p.sd ++ BitVec.ofBool p.sa ++ BitVec.ofBool p.sb ++ BitVec.ofBool p.by2 ++ (0 : BitVec 15)

/-- The class whose clauses hold an instruction; none for a system event. -/
def classOf : Instr → Option Cls
  | .rep c _ => some c
  | i => (Machine.encOf i).map (fun p => p.1.cls)

/-- The words of an instruction; none for a system event (written from R57, R68 and the opcode maps R77-R85). -/
def encode : Instr → Option (List Word)
  | .rep _ p => some [repWordOf p]
  | i => (Machine.encOf i).map (fun p => wordOf p.1.op p.2 :: (p.2.mod.toList ++ p.2.imm.toList))

/-! ### Words as the opcode table numbers them -/

/-- The order in which classes are tried for a word that comes without its clause header: the table gives no class. -/
def classOrder : List Cls := [.v, .m, .x, .s, .y, .a, .c, .q]

/-- The instruction words, up to three, of a bit string numbered as the opcode table numbers it. -/
def tableWords (nbits w : Nat) : List Word :=
  let v := w % 2 ^ nbits
  [BitVec.ofNat 32 v, BitVec.ofNat 32 (v >>> 32), BitVec.ofNat 32 (v >>> 64)]

/-- Bits of its word that the table fixes for a form, beside OP: fields without an operand, HOLD and EXT bits that the form does not use. -/
def fixedBits (f : Machine.Form) : Nat :=
  let field (k : Machine.Kind) : Nat := if k = .zero then 7 else 0
  field f.d + field f.a + field f.b + (if Machine.holdOk f 1 then 0 else 1) + (if Machine.holdOk f 2 then 0 else 1) +
    (if f.ext / 2 % 2 = 1 || f.ext / 8 % 2 = 1 then 0 else 1) + (if f.ext / 4 % 2 = 1 || f.ext / 8 % 2 = 1 then 0 else 1)

/-- How closely the table describes an instruction's word: all of it for `rep`. -/
def fixedOf : Instr → Nat
  | .rep _ _ => 32
  | i => ((Machine.encOf i).map (fun p => fixedBits p.1)).getD 0

/-- Of the instructions that the words decode to in some class and that pass a test, the one whose row fixes the most bits, or, for a word whose
operand fields are all zero, the first; the first of equals. -/
def tryClasses (ok : Instr → Bool) (ws : List Word) (cs : List Cls) : Option Instr :=
  let plain := (ws.headD 0).extractLsb' 0 25 = 0
  cs.foldl (fun o c => match decode c ws with
    | .ok i _ => if ok i && (o.map fixedOf).all (fun n => !plain && n < fixedOf i) then some i else o
    | .bad _ => o) none

/-- The instruction of a table word: among the well-formed ones, else among all, the one that the table describes most closely. -/
def decodeTableWord (nbits w : Nat) : Option Instr :=
  match tryClasses wellFormed (tableWords nbits w) classOrder with
  | some i => some i
  | none => tryClasses (fun _ => true) (tableWords nbits w) classOrder

end Sys2Proof
end

