-- ==== Sys2Proof/Machine/Numbers.lean ====
section
/-! DEFINITION. Number formats and rounding (05_numbers.md R86-R107). A value is NaN, an infinity, or a signed dyadic m x 2^e. A value that is
no dyadic is carried to enough bits with its last bit set, so that it rounds as the exact value does. -/

namespace Sys2Proof.Machine

/-- Rounding modes (R89). -/
inductive RMode where
  | rne | rtz | rup | rdn | rna
  deriving DecidableEq, Repr

/-- Mode of an RND or RM code; reserved codes are refused before this is used (R58, R91). -/
def RMode.ofCode : Nat → RMode
  | 0 => .rne
  | 1 => .rtz
  | 2 => .rup
  | 3 => .rdn
  | _ => .rna

/-- A value (R5, R87). -/
inductive XVal where
  | nan
  | inf (neg : Bool)
  | fin (neg : Bool) (m : Nat) (e : Int)
  deriving DecidableEq, Repr

/-- A format: total bits, mantissa bits, least normal exponent (fixed point: exponent of the unit), largest finite magnitude code,
infinity and NaN codes (R86, R92-R96, R106). -/
structure Fmt where
  signed : Bool
  bits : Nat
  mant : Nat
  fixed : Bool
  emin : Int
  sub : Bool
  maxCode : Nat
  inf : Option Nat
  nan : Option Nat
  negZero : Bool
  deriving DecidableEq, Repr

/-- FP32, FP16, BF16 (R86) and ACC40 (R106). -/
def fp32 : Fmt := ⟨true, 32, 23, false, -126, true, 0x7F7FFFFF, some 0x7F800000, some 0x7FC00000, true⟩
def fp16 : Fmt := ⟨true, 16, 10, false, -14, true, 0x7BFF, some 0x7C00, some 0x7E00, true⟩
def bf16 : Fmt := ⟨true, 16, 7, false, -126, true, 0x7F7F, some 0x7F80, some 0x7FC0, true⟩
def acc40 : Fmt :=
  ⟨true, 40, 31, false, -126, true, 255 * 2 ^ 31 - 1, some (255 * 2 ^ 31), some (255 * 2 ^ 31 + 2 ^ 30), true⟩

/-! ### Narrow format registers (R92, R93) -/

def nfS (w : Word) : Nat := bitsOf w 0 0
def nfE (w : Word) : Nat := bitsOf w 6 4
def nfM (w : Word) : Nat := bitsOf w 10 8
def nfSub (w : Word) : Bool := bitsOf w 11 11 = 1
def nfSpec (w : Word) : Nat := bitsOf w 13 12
def nfBias (w : Word) : Int := let b := bitsOf w 23 16; if b < 128 then (b : Int) else (b : Int) - 256

/-- Bits of a code (R94). -/
def nfBits (w : Word) : Nat := nfS w + nfE w + nfM w

/-- A valid register value (R93). -/
def nfValid (w : Word) : Bool :=
  decide (1 ≤ nfBits w) && decide (nfBits w ≤ 8) && decide (1 ≤ nfE w + nfM w) && decide (nfE w ≤ 5) && nfSpec w != 3 &&
  (nfSpec w != 1 || decide (1 ≤ nfE w)) && (nfSpec w != 2 || nfS w == 1) &&
  (w &&& 0xFF00C08E#32) == 0#32

/-- Format of a register value with a given treatment of special codes (R92-R96). -/
def nfFmtSpec (w : Word) (spec : Nat) : Fmt :=
  let s := nfS w; let e := nfE w; let m := nfM w
  let top := (2 ^ e - 1) * 2 ^ m
  { signed := s = 1, bits := s + e + m, mant := m, fixed := e = 0,
    emin := if e = 0 then - nfBias w else 1 - nfBias w,
    sub := nfSub w || e = 0,
    maxCode := if spec = 1 then (if e = 1 && !nfSub w then 0 else top - 1) else 2 ^ (e + m) - 1,
    inf := if spec = 1 then some top else none,
    nan := if spec = 1 then (if m = 0 then none else some (top + 2 ^ (m - 1)))
           else if spec = 2 then some (2 ^ (e + m)) else none,
    negZero := s = 1 && spec != 2 }

def nfFmt (w : Word) : Fmt := nfFmtSpec w (nfSpec w)

/-- Finite reading of a register's codes, as if SPEC were 0 (R105). -/
def nfFmtFinite (w : Word) : Fmt := nfFmtSpec w 0

/-! ### Reading codes (R95) -/

/-- `widen(fmt, code)`: the value of a code; bits above the format are ignored. -/
def widen (f : Fmt) (raw : Nat) : XVal :=
  let code := raw % 2 ^ f.bits
  let mb := if f.signed then f.bits - 1 else f.bits
  let s := f.signed && code / 2 ^ mb = 1
  let mag := code % 2 ^ mb
  let special : Option XVal :=
    match f.inf with
    | some i => if mag = i then some (.inf s) else if mag > i then some .nan else none
    | none => if f.nan = some code then some .nan else none
  match special with
  | some v => v
  | none =>
    if f.fixed then .fin s mag f.emin
    else
      let e := mag / 2 ^ f.mant
      let m := mag % 2 ^ f.mant
      if e ≠ 0 then .fin s (2 ^ f.mant + m) (f.emin + (e : Int) - 1 - (f.mant : Int))
      else if f.sub then .fin s m (f.emin - (f.mant : Int))
      else .fin s 0 0

/-- A code that R95 reads as NaN or infinity (R309). -/
def isSpecial (f : Fmt) (raw : Nat) : Bool :=
  match widen f raw with
  | .fin _ _ _ => false
  | _ => true

/-! ### Rounding (R89, R98, R99) -/

/-- Does the mode choose the candidate of larger magnitude? `half` compares the distance with half the gap. -/
def roundUp (mode : RMode) (neg : Bool) (half : Ordering) (loEven : Bool) : Bool :=
  match mode with
  | .rne => half = .gt || (half = .eq && !loEven)
  | .rtz => false
  | .rup => !neg
  | .rdn => neg
  | .rna => half ≠ .lt

/-- Magnitude code of m x 2^e rounded by the mode; a code above `maxCode` stands for omega (R98), so that u, the spacing at maxf, is the gap above maxf
where the gap below it differs (log entry 87). -/
def roundMag (f : Fmt) (mode : RMode) (neg : Bool) (m : Nat) (e : Int) : Nat :=
  if m = 0 then 0
  else
    let k : Int := (Nat.log2 m : Int) + e
    let low : Bool := !f.fixed && decide (k < f.emin)
    let ue : Int :=
      if f.fixed then f.emin
      else if low then (if f.sub then f.emin - (f.mant : Int) else f.emin)
      else k - (f.mant : Int)
    let sh := (ue - e).toNat
    let q := if ue ≤ e then m * 2 ^ (e - ue).toNat else m / 2 ^ sh
    let r := if ue ≤ e then 0 else m % 2 ^ sh
    let lo :=
      if f.fixed then q
      else if low then (if f.sub then q else 0)
      else ((k - f.emin).toNat + 1) * 2 ^ f.mant + (q - 2 ^ f.mant)
    let hi := if low && !f.sub then 2 ^ f.mant else lo + 1
    if lo > f.maxCode then
      match mode with
      | .rne => f.maxCode + 1
      | .rna => f.maxCode + 1
      | .rtz => f.maxCode
      | .rup => if neg then f.maxCode else f.maxCode + 1
      | .rdn => if neg then f.maxCode + 1 else f.maxCode
    else if r = 0 then lo
    else if roundUp mode neg (compare (2 * r) (2 ^ sh)) (lo % 2 = 0) then hi else lo

/-- Sign bit of a format. -/
def signBit (f : Fmt) (neg : Bool) : Nat := if neg && f.signed then 2 ^ (f.bits - 1) else 0

/-- Code of a magnitude with its sign: a zero is negative only where the format has -0 (R98). -/
def signCode (f : Fmt) (neg : Bool) (mag : Nat) : Nat :=
  if mag = 0 then (if f.negZero then signBit f neg else 0) else mag + signBit f neg

/-- `narrow(fmt, x, mode, sat)` (R98, R99). -/
def narrow (f : Fmt) (x : XVal) (mode : RMode) (sat : Bool) : Nat :=
  match x with
  | .nan => f.nan.getD 0
  | .inf neg =>
    if neg && !f.signed then 0
    else match f.inf with
      | some i => if sat then signCode f neg f.maxCode else i + signBit f neg
      | none => signCode f neg f.maxCode
  | .fin neg m e =>
    if neg && !f.signed then 0
    else
      let c := roundMag f mode neg m e
      if c > f.maxCode then
        match f.inf with
        | some i => if sat then signCode f neg f.maxCode else i + signBit f neg
        | none => signCode f neg f.maxCode
      else signCode f neg c

/-- `round_to(fmt, x, mode)` as a value. -/
def roundTo (f : Fmt) (x : XVal) (mode : RMode) : XVal := widen f (narrow f x mode false)

/-- `rne(x)` as a value (R5). -/
def rneV (x : XVal) : XVal := roundTo fp32 x .rne

/-- FP32 code of a value. -/
def toF32 (x : XVal) (mode : RMode) (sat : Bool) : Word := BitVec.ofNat 32 (narrow fp32 x mode sat)

/-- Value of an FP32 code. -/
def ofF32 (w : Word) : XVal := widen fp32 w.toNat

/-! ### Exact arithmetic (R87) -/

/-- Signed mantissas of two finite values at their common exponent. -/
def alignFin (n1 : Bool) (m1 : Nat) (e1 : Int) (n2 : Bool) (m2 : Nat) (e2 : Int) : Int × Int × Int :=
  let e := min e1 e2
  let a : Int := (m1 * 2 ^ (e1 - e).toNat : Nat)
  let b : Int := (m2 * 2 ^ (e2 - e).toNat : Nat)
  (if n1 then -a else a, if n2 then -b else b, e)

def XVal.negate : XVal → XVal
  | .nan => .nan
  | .inf n => .inf (!n)
  | .fin n m e => .fin (!n) m e

def XVal.absV : XVal → XVal
  | .nan => .nan
  | .inf _ => .inf false
  | .fin _ m e => .fin false m e

/-- Exact sum; an exact zero of opposite signs is +0, or -0 under rounding toward minus infinity (R87). -/
def XVal.add (mode : RMode) : XVal → XVal → XVal
  | .nan, _ => .nan
  | _, .nan => .nan
  | .inf a, .inf b => if a = b then .inf a else .nan
  | .inf a, _ => .inf a
  | _, .inf b => .inf b
  | .fin n1 m1 e1, .fin n2 m2 e2 =>
    if m1 = 0 ∧ m2 = 0 then
      (if n1 = n2 then .fin n1 0 0 else .fin (mode = .rdn) 0 0)
    else
      let (a, b, e) := alignFin n1 m1 e1 n2 m2 e2
      let s := a + b
      if s = 0 then .fin (mode = .rdn) 0 0 else .fin (decide (s < 0)) s.natAbs e

def XVal.sub (mode : RMode) (x y : XVal) : XVal := XVal.add mode x y.negate

/-- Exact product. -/
def XVal.mul : XVal → XVal → XVal
  | .nan, _ => .nan
  | _, .nan => .nan
  | .inf a, .inf b => .inf (a != b)
  | .inf a, .fin n m _ => if m = 0 then .nan else .inf (a != n)
  | .fin n m _, .inf b => if m = 0 then .nan else .inf (n != b)
  | .fin n1 m1 e1, .fin n2 m2 e2 => .fin (n1 != n2) (m1 * m2) (e1 + e2)

/-- Exact a x b + c. -/
def XVal.fma (mode : RMode) (a b c : XVal) : XVal := XVal.add mode (XVal.mul a b) c

/-- Ordering of two values that are not NaN, +0 and -0 equal; none when either is NaN (R151). -/
def XVal.cmp : XVal → XVal → Option Ordering
  | .nan, _ => none
  | _, .nan => none
  | .inf a, .inf b => some (if a = b then .eq else if a then .lt else .gt)
  | .inf a, _ => some (if a then .lt else .gt)
  | _, .inf b => some (if b then .gt else .lt)
  | .fin n1 m1 e1, .fin n2 m2 e2 =>
    let (a, b, _) := alignFin n1 m1 e1 n2 m2 e2
    some (compare a b)

def XVal.isNaN : XVal → Bool
  | .nan => true
  | _ => false

def XVal.isFinite : XVal → Bool
  | .fin _ _ _ => true
  | _ => false

def XVal.isNeg : XVal → Bool
  | .nan => false
  | .inf n => n
  | .fin n _ _ => n

def XVal.isZero : XVal → Bool
  | .fin _ m _ => m = 0
  | _ => false

/-- a < b, with NaN below nothing. -/
def XVal.lt (a b : XVal) : Bool := XVal.cmp a b = some .lt
def XVal.le (a b : XVal) : Bool := XVal.cmp a b = some .lt || XVal.cmp a b = some .eq
def XVal.eqV (a b : XVal) : Bool := XVal.cmp a b = some .eq

/-- `fmin` and `fmax` (R151): a NaN gives way, and -0 is below +0. -/
def XVal.minV (a b : XVal) : XVal :=
  match a, b with
  | .nan, _ => b
  | _, .nan => a
  | _, _ =>
    match XVal.cmp a b with
    | some .lt => a
    | some .gt => b
    | _ => if a.isNeg then a else b

def XVal.maxV (a b : XVal) : XVal :=
  match a, b with
  | .nan, _ => b
  | _, .nan => a
  | _, _ =>
    match XVal.cmp a b with
    | some .gt => a
    | some .lt => b
    | _ => if a.isNeg then b else a

/-- An integer as a value; 0 is +0. -/
def XVal.ofInt (i : Int) : XVal := .fin (decide (i < 0)) i.natAbs 0

/-- Value rounded to an integer by the mode (R101), for finite values. -/
def roundInt (mode : RMode) (neg : Bool) (m : Nat) (e : Int) : Int :=
  let mag : Nat :=
    if 0 ≤ e then m * 2 ^ e.toNat
    else
      let sh := (-e).toNat
      let q := m / 2 ^ sh
      let r := m % 2 ^ sh
      if r = 0 then q
      else if roundUp mode neg (compare (2 * r) (2 ^ sh)) (q % 2 = 0) then q + 1 else q
  if neg then -(mag : Int) else (mag : Int)

/-- Clamp to a range. -/
def clampI (lo hi x : Int) : Int := if x < lo then lo else if x > hi then hi else x

/-- Conversion of a value to i32 or z32 (R101). -/
def toInt32 (signed : Bool) (mode : RMode) (x : XVal) : Word :=
  let lo : Int := if signed then -(2 ^ 31) else 0
  let hi : Int := if signed then 2 ^ 31 - 1 else 2 ^ 32 - 1
  match x with
  | .nan => 0
  | .inf n => BitVec.ofInt 32 (if n then lo else hi)
  | .fin n m e =>
    if !signed && n then 0
    else
      -- a magnitude of 2^40 or more clamps; the bound keeps the exact integer small
      if decide ((Nat.log2 m : Int) + e > 40) && m ≠ 0 then BitVec.ofInt 32 (if n then lo else hi)
      else BitVec.ofInt 32 (clampI lo hi (roundInt mode n m e))

/-! ### Scale bytes (R102) -/

/-- Value of a scale byte by the formula of R102, 0xFF included (R105); 0x00 is zero. -/
def scaleVal (b : Byte) : XVal :=
  let c := b.toNat
  if c = 0 then .fin false 0 0 else .fin false (4 + c % 4) ((c / 4 : Nat) - 32 - 2)

end Sys2Proof.Machine
end

