-- ==== Sys2Proof/Config.lean ====
section
/-! DEFINITION. What stepping B1 fixes (01_machine.md R6) and the values the manual leaves open. The opaque constants have no body:
nothing can be proved of their values. -/

namespace Sys2Proof.Config

/-- The encoding hash of stepping B1 (R1). -/
def encodingHash : Nat := 0x7C4E91B3
/-- The stepping number (R15). -/
def steppingId : Nat := 0x00B1
/-- Cores per die and dies per package (R6). -/
def coresPerDie : Nat := 48
def coresPerQuad : Nat := 4
def dies : Nat := 8
def cores : Nat := 384
def partsPerCore : Nat := 4
/-- Warp slots and teams of a partition (R18). -/
def slotsPerPart : Nat := 64
def teamsPerPart : Nat := 16
/-- Granules of a core's local pool, of 64 KiB (R9). -/
def granules : Nat := 64
def granuleBytes : Nat := 65536
def minRegGranules : Nat := 8
def maxRegGranules : Nat := 40
def minL1Granules : Nat := 4
/-- Function store records of a core (R6). -/
def storeRecords : Nat := 2048
/-- Watch table entries of a core and entries of one team (R191). -/
def watchEntries : Nat := 64
def watchPerTeam : Nat := 16
/-- TLB entries of a core, walks of a die, fault stage entries of a die (R282, R283). -/
def tlbEntries : Nat := 1024
def walksPerDie : Nat := 96
def stageEntries : Nat := 64
/-- Special-function queue entries of a partition (R170). -/
def sfuEntries : Nat := 16
/-- Tail records of a grid (R130) and mask stack entries (R119). -/
def tailRecords : Nat := 256
def stackEntries : Nat := 32
/-- Bytes of a block's share of ticket staging (R372). -/
def stagingShare : Nat := 262144
/-- HBM4E bytes of the package (R405) and of one die. -/
def hbmBytes : Nat := 2 ^ 40
def hbmPerDie : Nat := 2 ^ 37
/-- Tier extents at most (R15). -/
def maxExtents : Nat := 200
/-- Lines of a die's L2: 768 MiB (R6). -/
def l2Lines : Nat := 12582912
/-- Bytes of the second tier at most (R6). -/
def tierBytes : Nat := 2 ^ 45
/-- Matrix rows and columns (R294). -/
def matrixDim : Nat := 256

/-- Free value: the digest an SPDM response gives for boot ROM, manifest or routines, whose images the manual does not give
(25_platform.md R394); the index and a counter name it. -/
opaque measurement : Nat → BitVec 256

/-- Free value: the channel of its stack that a line is spread to (22_coherence.md R405). -/
opaque channelOf : Nat → Nat

/-- Free value: the bank of its stack that a line lies in (25_platform.md R384). -/
opaque bankOf : Nat → Nat

/-- Free value: digest of a firmware image's bytes (25_platform.md R394), whose layout the manual does not give. -/
opaque imageDigest : List (BitVec 8) → BitVec 256

/-- Free values: digest and verification of the Shell image that a flash image holds beside Carcass's (R388). -/
opaque shellDigest : List (BitVec 8) → BitVec 256
opaque shellSigned : List (BitVec 8) → Bool

/-- Free value: digest of the configuration manifest with the repair list, as the manual gives no layout of either (R394): enabled cores, cache
units, trims, and the repairs as stack, lane and spare. -/
opaque manifestDigest : BitVec 384 → Nat → List Nat → List (Nat × Nat × Nat) → BitVec 256

/-- Free values: the identity key, and the leaf key that derives from it (R388, R394). -/
opaque identityKey : BitVec 256
opaque leafKey : BitVec 256 → BitVec 256

/-- Free values: the Pyrwyn root key that certificate slot 0's chain starts from, and the ECDSA P-256 signature of a measurement response under the leaf key:
index and digest (R394). -/
opaque rootKey : BitVec 256
opaque responseSignature : BitVec 256 → Nat → BitVec 256 → BitVec 512

/-- Free value: the PMP entries of a command-processor core (R388). -/
opaque pmpEntries : Nat → List (BitVec 72)

/-- Free value: whether an image's signature verifies (R388, R391); the manual gives neither key nor layout. -/
opaque imageSigned : List (BitVec 8) → Bool

/-- Free value: reason code of a refused swap, and failure code of a boot phase; no codes are stated (R388, R390). -/
opaque swapReason : Nat → BitVec 8
opaque bootCode : Nat → BitVec 8

/-- Free: the L1 granule that holds a copy of a line (R259). -/
opaque l1Granule : Nat → Nat

/-- Free: enabled cores of another package of the pod (R29). -/
opaque packageCores : Nat → Nat

/-- Free value: what memory holds of a line whose last data a die reset lost at its own home (R392). -/
opaque lostLine : Nat → BitVec 512

/-- Free value: the session key of an SPDM exchange (ECDHE P-256, R394): of the requester's share, and of the device's, which a counter names. -/
opaque sessionSecret : BitVec 384 → Nat → BitVec 256

end Sys2Proof.Config
end

