-- ==== Sys2Proof/Machine/Table.lean ====
section
/-! DEFINITION. Sparse tables: lists of (key, value) pairs with strictly rising keys, and the byte tables built on them, whose
unlisted keys read as zero and which list no zero byte. -/

namespace Sys2Proof.Machine

/-- A table from numbers to values. -/
abbrev KMap (α : Type) := List (Nat × α)

/-- The entry of key k. -/
def kGet {α : Type} (k : Nat) : KMap α → Option α
  | [] => none
  | (j, v) :: r => if k = j then some v else kGet k r

/-- Set the entry of key k, in rising key order. -/
def kPut {α : Type} (k : Nat) (v : α) : KMap α → KMap α
  | [] => [(k, v)]
  | (j, w) :: r => if k < j then (k, v) :: (j, w) :: r else if k = j then (k, v) :: r else (j, w) :: kPut k v r

/-- Drop the entry of key k. -/
def kDel {α : Type} (k : Nat) (m : KMap α) : KMap α := m.filter (fun p => p.1 != k)

/-- The entry of key k, or a default. -/
def kGetD {α : Type} (k : Nat) (d : α) (m : KMap α) : α := (kGet k m).getD d

/-- Rising keys. -/
def kSorted {α : Type} : KMap α → Bool
  | [] => true
  | [_] => true
  | (a, _) :: (b, w) :: r => a < b && kSorted ((b, w) :: r)

/-- Set the entry of key k of a table whose unlisted keys read as `d`: the default itself is not listed. -/
def kSet {α : Type} [DecidableEq α] (d : α) (k : Nat) (v : α) (m : KMap α) : KMap α :=
  if v = d then kDel k m else kPut k v m

/-- The canonical form of a table with default `d`. -/
def kCanon {α : Type} [DecidableEq α] (d : α) (m : KMap α) : Bool :=
  kSorted m && m.all (fun p => decide (p.2 ≠ d))

/-- A byte of a byte table. -/
def bGet (m : KMap Byte) (a : Nat) : Byte := kGetD a 0 m

/-- n bytes from address a, lowest first. -/
def bRead (m : KMap Byte) (a : Nat) : Nat → List Byte
  | 0 => []
  | n + 1 => bGet m a :: bRead m (a + 1) n

/-- The cells of consecutive bytes from address a, zero bytes left out. -/
def bCells (a : Nat) : List Byte → KMap Byte
  | [] => []
  | b :: r => if b = 0 then bCells (a + 1) r else (a, b) :: bCells (a + 1) r

/-- Write consecutive bytes from address a. -/
def bWrite (m : KMap Byte) (a : Nat) (bs : List Byte) : KMap Byte :=
  m.filter (fun p => p.1 < a) ++ bCells a bs ++ m.filter (fun p => a + bs.length ≤ p.1)

/-- Little-endian number of a byte list (R3). -/
def leNat : List Byte → Nat
  | [] => 0
  | b :: r => b.toNat + 256 * leNat r

/-- The low n bytes of a number, lowest first (R3). -/
def leBytes : Nat → Nat → List Byte
  | 0, _ => []
  | n + 1, v => BitVec.ofNat 8 v :: leBytes n (v / 256)

end Sys2Proof.Machine
end

