-- ==== Sys2Proof/Machine/State.lean ====
section
/-! DEFINITION. The state of the machine: everything the manual names, as plain data. INVENTORY.md lists each item with its rule. -/

namespace Sys2Proof.Machine

/-! ### The team -/

/-- The sequencers a stream may be forked on (R124). -/
inductive Eng where
  | mat | copy
  deriving DecidableEq, Repr

/-- Kinds of mask stack entry (R119, R336). -/
inductive EKind where
  | ifK | elseK | loopK | callK | fnK
  deriving DecidableEq, Repr

/-- Mask stack entry (R119). -/
structure Entry where
  kind : EKind
  save : LaneSet
  pend : LaneSet
  addr : DWord
  deriving DecidableEq, Repr

/-- Clause context (R51, R273): header address, class, instructions still to issue, set fields, yield hint. -/
structure Clause where
  hdr : DWord
  cls : Cls
  left : Nat
  setA : Nat
  setB : Nat
  yld : Bool
  deriving DecidableEq, Repr

/-- Why a team does not issue (R34). -/
inductive Wait where
  /-- Not waiting. -/
  | none
  /-- At a barrier for a generation; the predicate that `bare` writes (R127, R128). -/
  | barrier (l : Lvl) (gen : Nat) (elect : Option Nat)
  /-- At `rdv` (R126). -/
  | rdv (e : Eng)
  /-- At `chkw`, or before a release, for watch entries to resolve (R132, R194). -/
  | watch
  /-- Sleeping until a time (R123). -/
  | sleep (till : Nat)
  /-- After `yield`, until these teams have issued (R122). -/
  | yielded (others : List Nat)
  /-- At a copy's continuation: target and the mask at issue (R220). -/
  | cont (target : DWord) (mask : LaneSet)
  /-- A continuation that completed while the handler ran. -/
  | contDone (target : DWord) (mask : LaneSet)
  /-- For a page walk: virtual address, access bits of R281, and whether an instruction fetch waits. -/
  | walk (va : Nat) (acc : Nat)
  /-- For service of a not-present fault of a page (R283). -/
  | service (die asid page : Nat)
  /-- For the function store queue (R334, R335). -/
  | store
  /-- For the ticket (R372). -/
  | ticket
  /-- For the replay log's decision (R377). -/
  | replay
  deriving DecidableEq, Repr

/-- A trap that waits to be taken (R125, R224, R270, R310). -/
structure PendTrap where
  cause : Nat
  i0 : Word
  i1 : Word
  i2 : Word
  i3 : Word
  strm : Bool
  deriving DecidableEq, Repr

/-- A forked stream (R124): its program counter, clause, captured mask and repeat state. -/
structure Stream where
  pc : DWord
  clause : Option Clause
  mask : LaneSet
  rep : BitVec 7
  inRep : Option RepWord
  wait : Wait
  ended : Bool
  deriving DecidableEq, Repr

/-- Operand latch (R47-R50): values per lane, remaining valid reads, pointer. -/
structure Latch where
  k0 : KMap Word
  k1 : KMap Word
  k2 : KMap Word
  v0 : Nat
  v1 : Nat
  v2 : Nat
  ptr : Nat
  deriving DecidableEq, Repr

/-- Trap registers and the state of trap entry (R267-R275). -/
structure TrapRegs where
  sup : Bool
  tpc : DWord
  tvec : DWord
  tcause : Word
  tinfo0 : Word
  tinfo1 : Word
  tinfo2 : Word
  tinfo3 : Word
  tmask : LaneSet
  /-- The handler has written %tpc (R274). -/
  tpcWritten : Bool
  /-- Clause position and remaining count kept with the team (R273). -/
  savedClause : Option Clause
  /-- The wait the team left to take the trap (R224). -/
  savedWait : Wait
  deriving DecidableEq, Repr

/-- Tensor layout record held in a binding (R212, R213). -/
structure Tlr where
  base : Nat
  extent : Nat
  key : Nat
  deriving DecidableEq, Repr

/-- Call context of the function store (R335). -/
structure CallCtx where
  slot : Nat
  d : Nat
  a : Nat
  gen : Nat
  core : Nat
  deriving DecidableEq, Repr

/-- A translation: ASID, region, page base and size, physical base, permissions, dirty bit, class, lease (R278-R282). -/
structure TlbEntry where
  asid : Nat
  vpage : Nat
  size : Nat
  ppage : Nat
  r : Bool
  w : Bool
  x : Bool
  dirty : Bool
  mclass : Nat
  lease : Nat
  deriving DecidableEq, Repr

/-- The outcome of a walk that faulted: page address, access bits, kind, level, and the merged waiters of a refused host service (R281). -/
structure WalkFault where
  va : Nat
  acc : Nat
  kind : Nat
  level : Nat
  waiters : Nat
  deriving DecidableEq, Repr

/-! ### Operations in flight -/

/-- Read-modify-write operations (R183). -/
inductive AOp where
  | add | minI | minZ | maxI | maxZ | and | or | xor | xchg | cas | fadd | fmin | fmax
  deriving DecidableEq, Repr

/-- One lane's access: where, and the data it carries. `blk` names the block whose stash is meant; none is global. -/
structure LaneAcc where
  lane : Nat
  blk : Option Nat
  addr : Nat
  va : Nat
  data : Nat
  data2 : Nat
  lease : Nat
  mclass : Nat
  deriving DecidableEq, Repr

/-- Kinds of memory operation (R178, R144). -/
inductive MKind where
  | load (size : Nat) (signed : Bool) (watched : Bool)
  | sload
  | store (size : Nat)
  | atom (op : AOp) (ret : Bool)
  | append (e : Nat) (page size : Nat) (reserved : Bool)
  | sealPg (page size : Nat)
  | fence
  | fenceq (mask : Nat)
  | pref (l2 : Bool)
  | smap (off va len : Nat) (maps : List (Nat × Nat × Nat))
  | sunmap (off : Nat)
  | sflush
  | hdecl
  | hpush (tile : Nat)
  | fmap (page : Nat) (forwarded : Bool)
  deriving DecidableEq, Repr

/-- A class M operation (or `sld`) in the team's memory queue (R182). -/
structure MemOp where
  id : Nat
  kind : MKind
  /-- Destination: register space word (loads, atomics), scalar register (`sld`). -/
  dst : Option Nat
  /-- Predicate destination of `append`. -/
  pdst : Nat
  accs : List LaneAcc
  acq : Bool
  rel : Bool
  scope : Nat
  scls : Nat
  flag : Option Nat
  /-- The team's ticket phase at issue (R371). -/
  phase : Nat
  /-- Performed at its coherence point or home, not yet complete. -/
  performed : Bool
  /-- An `append` that would overflow its block's staging share: it waits for the ticket (R372). -/
  overflow : Bool := false
  /-- Lines whose lanes of an atomic have been applied: each is a step of its own (R183). -/
  done : List Nat := []
  /-- The release that the operation is has been performed: the writes before it are, and its tiles are pushed (R210, R233). -/
  released : Bool := false
  /-- Strips, by tile and direction, that HALO_PUSH has sent ahead of the release (R210). -/
  pushed : List (Nat × Nat) := []
  deriving DecidableEq, Repr

/-- Kinds of copy (R217). -/
inductive CKind where
  | g2s | s2g | g2g | gath | scat | fill | plane | tlr
  deriving DecidableEq, Repr

/-- A not-present page that a copy waits for (R283): its base, and the address, access and level of the copy's fault. -/
structure CopyWait where
  page : Nat
  va : Nat
  acc : Nat
  level : Nat
  deriving DecidableEq, Repr

/-- A copy in a partition's copy queue (R217-R225). -/
structure CopyOp where
  id : Nat
  tid : Nat
  kind : CKind
  /-- Source and destination: a global address or a stash address; binding number for `cp.tlr`. -/
  src : Nat
  dst : Nat
  /-- Space of the stash side, 1 or 2; for a fill, of the destination. -/
  space : Nat
  /-- Rows, or K of a plane copy; row bytes; strides. -/
  rows : Nat
  rowBytes : Nat
  strideS : Int
  strideD : Int
  pattern : Word
  /-- Gather and scatter: lane and signed offset. -/
  offs : List (Nat × Int)
  elem : Nat
  /-- Plane copies: lines, bits, orientation (R223); orientation 1 marks a `cp.tlr` that empties. -/
  nl : Nat
  pbits : Nat
  orient : Nat
  scope : Nat
  scls : Nat
  flag : Option Nat
  cont : Bool
  /-- Issued by the copy stream. -/
  strm : Bool
  /-- Elementary moves already performed. -/
  pos : Nat
  /-- A segment fault waits for the team (R224); a page whose service the copy waits for (R283). -/
  paused : Bool
  svc : Option CopyWait
  /-- Bytes that an overlapping copy has written in its current chunk, by address, as they were before (R221). -/
  held : List (Nat × Byte) := []
  /-- The team's ticket phase at issue (R371). -/
  phase : Nat := 0
  deriving DecidableEq, Repr

/-- A special-function instruction whose results are not yet written (R170). -/
structure SfuOp where
  id : Nat
  tid : Nat
  /-- Destination register space word; none where the result is discarded. -/
  dst : Option Nat
  vals : List (Nat × Word)
  flag : Option Nat
  deriving DecidableEq, Repr

/-- One row group of a loop (R307, R308). -/
structure MGroup where
  first : Nat
  count : Nat
  boff : Nat
  bsel : Nat
  deriving DecidableEq, Repr

/-- Element format of a matrix operand as captured at issue (R298): code and, for 0 to 3, the format register. -/
structure ElemFmt where
  code : Nat
  nf : Word
  deriving DecidableEq, Repr

/-- Operations of the matrix queue with their issue-time operands (R321). -/
inductive MatKind where
  | zero
  | loop (fa fb : ElemFmt) (la lb : Nat) (red : Bool) (offA offB : Nat) (steps : Nat) (ran : Nat)
      (scaA scaB : Option (KMap Byte)) (groups : List MGroup) (addr : DWord)
  | drainS (ty : Nat) (nf : Word) (mode : Nat) (sat : Bool) (off stride row0 nr col0 nc : Nat) (tr : Bool)
  | drainA (ty : Nat) (nf : Word) (mode : Nat) (sat : Bool) (dst : Nat) (lanes : LaneSet) (col0 nc : Nat)
  | save (va : Nat) (xs : List TlbEntry)
  | rest (va : Nat) (xs : List TlbEntry)
  | stat (dst : Option Nat) (w : Nat)
  deriving DecidableEq, Repr

/-- An operation of a team's matrix queue (R318). -/
structure MatOp where
  id : Nat
  kind : MatKind
  flag : Option Nat
  /-- The team's ticket phase at issue (R371). -/
  phase : Nat := 0
  deriving DecidableEq, Repr

/-- Function descriptor (R325); FP32 codes as words. -/
structure FnDesc where
  d : Nat
  m : Nat
  staged : Bool
  allot : Nat
  tpages : Nat
  tbase : Nat
  w : List Word
  r0 : Word
  tau : Word
  g : Word
  deriving DecidableEq, Repr

/-- Function store record (R328); J in row-major order of outputs. -/
structure FnRec where
  serial : Nat
  radius : Word
  super : Nat
  grown : Bool
  c : List Word
  y : List Word
  j : List Word
  deriving DecidableEq, Repr

/-- A function slot of a grid on a core (R322, R342). -/
structure FnSlot where
  desc : Option FnDesc
  gen : Nat
  resident : List FnRec
  page : Nat
  hits : Nat
  misses : Nat
  inserted : Nat
  superseding : Nat
  dropped : Nat
  deriving DecidableEq, Repr

/-- Operations of a core's function store queue (R333, R346). -/
inductive FsKind where
  | define (slot : Nat) (desc : FnDesc)
  | search (slot d a m : Nat) (target after : DWord) (mask : LaneSet) (args : List (Nat × List Word))
  | insert (ctx : CallCtx) (d m : Nat) (lanes : List (List Word × List Word × List Word))
  | load (slot : Nat)
  | drop (slot : Nat)
  | query (slot w dst : Nat)
  deriving DecidableEq, Repr

/-- An operation of a core's function store queue. -/
structure FsOp where
  id : Nat
  tid : Nat
  kind : FsKind
  flag : Option Nat
  deriving DecidableEq, Repr

/-! ### Scheduling and matrix state -/

/-- Where a team stands in its life. -/
inductive TStatus where
  /-- Placed on a core. -/
  | live
  /-- Saved with its block (R265). -/
  | saved
  /-- Ended, warp slots not yet freed (R121). -/
  | ended
  deriving DecidableEq, Repr

/-- Scheduling facts of a team (R35, R286). -/
structure Sched where
  prio : Nat
  cls : Nat
  readySince : Nat
  firstIssue : Option Nat
  savedTime : Nat
  savedAt : Nat
  /-- The YLD hint of the clause just ended (R55). -/
  yld : Bool
  /-- Instructions the team has issued, by which another team's `yield` ends (R122). -/
  issues : Nat
  /-- The team's stall lasts until this time (R35; log entry 17). -/
  stalled : Nat
  deriving DecidableEq, Repr

/-- The matrix state of a partition (R294): accumulators by 256 i + j, unlisted +0. -/
structure Matrix where
  acc : KMap (BitVec 40)
  rowFlag : BitVec 256
  colFlag : BitVec 256
  rm : Bool
  fresh : Bool
  last : DWord
  deriving DecidableEq, Repr

/-- A team (R17). -/
structure Team where
  grid : Nat
  block : Nat
  index : Nat
  warps : Nat
  core : Nat
  part : Nat
  slots : List Nat
  status : TStatus
  pc : DWord
  clause : Option Clause
  mask : LaneSet
  live : LaneSet
  stack : List Entry
  regBytes : Nat
  viewV : Word
  viewT : Word
  viewA : Word
  /-- Register space: word q of lane l at 1024 q + l, unlisted 0 (R38). -/
  regs : KMap Word
  /-- Scalar registers, unlisted 0 (R41). -/
  sregs : KMap Word
  /-- Predicates 0 to 30, unlisted empty (R42). -/
  preds : KMap LaneSet
  latch : Latch
  /-- Completion flags, unlisted 0 (R52). -/
  flags : KMap Nat
  seg : Nat
  rep : BitVec 7
  inRep : Option RepWord
  fmode : Word
  est : Word
  nf0 : Word
  nf1 : Word
  nf2 : Word
  nf3 : Word
  epoch : Nat
  trap : TrapRegs
  binds : KMap Tlr
  struck : Bool
  /-- Outstanding arrival of each level, by level number (R127). -/
  arrivals : KMap Nat
  wait : Wait
  streamA : Option Stream
  streamC : Option Stream
  /-- Traps of forked streams not yet taken, oldest first (R125). -/
  pendStream : List PendTrap
  pendCopy : Option PendTrap
  /-- Traps of queued operations not yet taken, oldest first: mismatches of drains (R310), accesses that reached a closing or lost extent (R364). -/
  pendMat : List PendTrap
  memQ : List MemOp
  matQ : List MatOp
  /-- Matrix state carried while the team is saved (R321). -/
  heldMat : Option Matrix
  nextOp : Nat
  call : Option CallCtx
  usedMat : Bool
  sched : Sched
  /-- Translations gathered for the instruction at hand, and the faults its walks found (R277, R282). -/
  xlat : List TlbEntry
  walkFault : List WalkFault
  deriving DecidableEq, Repr

/-! ### Blocks and grids -/

/-- A line of a stash window that has been filled (R201). -/
structure WLine where
  pa : Nat
  le : BitVec 16
  wts : BitVec 16
  ver : BitVec 16
  expired : Bool
  dirty : ByteMask
  /-- The core's pts at the fill (R193), and the arrival of the line that it was filled from (R360). -/
  fetched : BitVec 16 := 0
  arr : Nat := 0
  deriving DecidableEq, Repr

/-- A stash window (R200): offset, base, length, page pieces (start within the window, physical address, length), the lease of each piece by its
start (R241), filled lines by index. -/
structure Window where
  off : Nat
  base : Nat
  len : Nat
  leases : KMap Nat
  maps : List (Nat × Nat × Nat)
  lines : KMap WLine
  deriving DecidableEq, Repr

/-- A halo tile declaration (R207). -/
structure Tile where
  off : Nat
  rows : Nat
  cols : Nat
  elem : Nat
  h : Nat
  nbr : List Nat
  deriving DecidableEq, Repr

/-- A staged global write of a deterministic launch (R372): team, order, physical bytes or a reduction. -/
structure StagedWrite where
  team : Nat
  seq : Nat
  lane : Nat
  pa : Nat
  bytes : List Byte
  red : Option (AOp × Nat)
  core : Nat
  lease : Nat
  phase : Nat
  /-- A byte that a window of the block held: the core's copy, so that all its teams read it until it is performed (R201, R230). -/
  seen : Bool := false
  deriving DecidableEq, Repr

/-- Where a block stands (R260-R266). -/
inductive BStatus where
  | resident | draining (till : Nat) | toSave | toFlush | saved | flushed | retired
  deriving DecidableEq, Repr

/-- A block of a grid that has been placed at least once. -/
structure Block where
  grid : Nat
  idx : Nat
  core : Nat
  status : BStatus
  stashBytes : Nat
  /-- Stash and save areas, unlisted 0 (R173, R275). -/
  stash : KMap Byte
  windows : List Window
  tiles : KMap Tile
  released : Bool
  phase : Nat
  /-- Phases already released by the ticket unit (R373). -/
  relPhase : Nat
  ticket : Bool
  inPlace : Bool
  staged : List StagedWrite
  /-- Levels above core at which a team has arrived at the open generation and the block has not, by their last arrival, oldest first (R371). -/
  arrOrder : List Nat := []
  deriving DecidableEq, Repr

/-- Launch record (R253). -/
structure LaunchRec where
  code : Nat
  args : Nat
  gx : Nat
  gy : Nat
  gz : Nat
  lanes : Nat
  teams : Nat
  coh : Nat
  csize : Nat
  prio : Nat
  flags : Nat
  stash : Nat
  est : Nat
  bound : Nat
  cslot : Nat
  seq : Nat
  cscope : Nat
  ndep : Nat
  keys : Nat
  deps : List Nat
  deriving DecidableEq, Repr

/-- Code object header (R72). -/
structure CodeHdr where
  magic : Nat
  hash : Nat
  regBytes : Nat
  viewV : Nat
  viewT : Nat
  strideT : Nat
  viewA : Nat
  lanes : Nat
  teams : Nat
  coh : Nat
  csize : Nat
  stash : Nat
  flags : Nat
  nfunc : Nat
  nf : List Word
  codeOff : Nat
  codeBytes : Nat
  funcOff : Nat
  resv : Bool
  deriving DecidableEq, Repr

/-- A tail record (R130). -/
structure TailRec where
  block : Nat
  seq : Nat
  bytes : List Byte
  deriving DecidableEq, Repr

/-- A staged function store record (R344). -/
structure StagedRec where
  block : Nat
  team : Nat
  seq : Nat
  slot : Nat
  frec : FnRec
  /-- Index of the staged record it supersedes, when that was staged too. -/
  superStaged : Option Nat
  deriving DecidableEq, Repr

/-- A recorded decision (R375). -/
structure Decision where
  kind : Nat
  team : Nat
  lane : Nat
  block : Nat
  key : Nat
  seq : Nat
  /-- Index of the entry in the log read for replay. -/
  idx : Nat
  deriving DecidableEq, Repr

/-- A started grid (R252). -/
structure Grid where
  queue : Nat
  /-- A tail child, which moves neither QTAIL nor QHEAD (R250). -/
  child : Bool
  lrec : LaunchRec
  hdr : CodeHdr
  codeVa : Nat
  asid : Nat
  tvec : DWord
  compVa : Nat
  logVa : Nat
  logBytes : Nat
  diesMask : Nat
  lanes : Nat
  teams : Nat
  stash : Nat
  cohLvl : Nat
  cohSize : Nat
  det : Bool
  recording : Bool
  replay : Bool
  prio : Nat
  started : Nat
  blocks : Nat
  nextBlock : Nat
  retired : Nat
  /-- Level group sizes of quad, die, package, pod (R129). -/
  groups : List Nat
  status : Nat
  failed : Bool
  tails : List TailRec
  tailDie : Nat
  descs : List FnDesc
  snapshot : List (Nat × Nat)
  staged : List StagedRec
  log : List Decision
  /-- Entries of the log read for replay. -/
  logCount : Nat
  logFull : Bool
  /-- Of each team (256 x block + team), one more than the index of the last store-queue entry taken off the log (R377). -/
  fsTaken : KMap Nat := []
  ended : Bool
  deriving DecidableEq, Repr

/-- Barrier of a block or level group (R127, R128). -/
structure Barrier where
  gen : Nat
  arrived : List Nat
  last : Nat
  /-- Ticket phase that each block's arrival at the open generation has ended (R373). -/
  phases : KMap Nat
  elected : KMap Nat
  /-- Generations whose election a `bare` has read, and a log has recorded. -/
  told : List Nat
  deriving DecidableEq, Repr

/-! ### Partitions, cores, dies -/

/-- A partition. -/
structure Part where
  holder : Option Nat
  mat : Matrix
  copyQ : List CopyOp
  sfuQ : List SfuOp
  /-- Its teams in the order of their last issue, oldest first: the round of its scheduler (R35). -/
  rr : List Nat
  deriving DecidableEq, Repr

/-- A core's copy of a line (R241). -/
structure L1Copy where
  data : Line
  wts : BitVec 16
  ver : BitVec 16
  le : BitVec 16
  fetched : BitVec 16
  own : Bool
  expired : Bool
  /-- The arrival of the line in the die's L2 that it was fetched from (R360). -/
  arr : Nat := 0
  deriving DecidableEq, Repr

/-- A line request of a store in a core's store buffer (R226, R229): team, line, bytes written, the address of the first of them, service class (R380). -/
structure SBuf where
  tid : Nat
  line : Nat
  mask : ByteMask
  data : Line
  va : Nat := 0
  cls : Nat := 0
  deriving DecidableEq, Repr

/-- State of a watch entry (R191). -/
inductive WState where
  | pending | confirmed | struck
  deriving DecidableEq, Repr

/-- Watch table entry (R191). -/
structure Watch where
  id : Nat
  tid : Nat
  line : Nat
  ver : BitVec 16
  wts : BitVec 16
  fetched : BitVec 16
  st : WState
  arr : Nat := 0
  deriving DecidableEq, Repr

/-- A core (R7). -/
structure Core where
  enabled : Bool
  pts : BitVec 16
  /-- One more than the span of 256 cc in which the core last ticked (R244). -/
  ticked : Nat := 0
  l1 : KMap L1Copy
  sbuf : List SBuf
  watch : List Watch
  nextWatch : Nat
  tlb : List TlbEntry
  /-- Function slots by 16 x grid + slot (R322). -/
  fs : KMap FnSlot
  fsQ : List FsOp
  relayout : Option Nat
  /-- Window lines that a phase advance left to evict (R206). -/
  evictQ : List Nat
  deriving DecidableEq, Repr

/-- States of a line in a die's L2 other than I (R351). -/
inductive L2St where
  | m | o | e | s
  deriving DecidableEq, Repr

/-- A line in a die's L2 (R241, R351): which of the die's arrivals brought it, so that no copy of an earlier arrival matches it (R360), and whether
it was granted for a store that has not been performed yet (R357). -/
structure L2Line where
  st : L2St
  data : Line
  wts : BitVec 16
  rts : BitVec 16
  ver : BitVec 16
  used : Nat
  arr : Nat := 0
  granted : Bool := false
  deriving DecidableEq, Repr

/-- Write-back buffer entry (R358). -/
structure WbEntry where
  data : Line
  ver : BitVec 16
  acked : Bool
  deriving DecidableEq, Repr

/-- Requests that reach a home (R353). -/
inductive ReqKind where
  | rds | rdx | upg | wb
  deriving DecidableEq, Repr

structure Req where
  kind : ReqKind
  die : Nat
  deriving DecidableEq, Repr

/-- Transient states of a directory entry (R356); BW is the sealing state of the line's page. -/
inductive TrKind where
  | bfs | bfx | bi
  deriving DecidableEq, Repr

/-- A request being served: what the home still waits for, and what the owner answered (R353-R358). -/
structure Trans where
  kind : TrKind
  req : Nat
  waitInv : BitVec 8
  waitFwd : Option Nat
  data : Option (Line × BitVec 16 × Bool)
  answered : Bool
  deriving DecidableEq, Repr

/-- Directory entry (R352) with its transient state and waiting requests (R356). -/
structure Dir where
  ver : BitVec 16
  shr : BitVec 8
  own : Nat
  st : Nat
  tr : Option Trans
  waiting : List Req
  deriving DecidableEq, Repr

/-- A line of the memory-side cache (R363). -/
structure Msc where
  data : Line
  dirty : Bool
  used : Nat
  deriving DecidableEq, Repr

/-- Why the device cannot read or write a structure of a queue's context (R250). -/
inductive FailKind where
  | translation | permission | uncorrectable
  deriving DecidableEq, Repr

/-- Error log entries of a die. -/
inductive LogEntry where
  | teamFault (grid block team : Nat) (tcause : Word) (tpc : DWord)
  | machineError (grid block team : Nat)
  | tailDiscard (grid count : Nat)
  | pushDiscard (block tile : Nat)
  | fsUnloadable (serial : Nat)
  | fsPage (page : Nat)
  | queueFail (queue va : Nat) (kind : FailKind)
  | extentLostWrite (pa : Nat)
  | forcedRelease (base len dirty : Nat)
  | watchdog (rung unit lost : Nat)
  | laneEvent (stack lane : Nat) (repaired : Bool)
  deriving DecidableEq, Repr

/-- A merged not-present fault (R283). `waiters` are the teams that wait before an instruction, `engines` those one of whose copies waits;
`ft` marks a first-touch region; `served` that the service has ended. -/
structure Merge where
  asid : Nat
  page : Nat
  size : Nat
  claimant : Nat
  waiters : List Nat
  engines : List Nat := []
  acc : Nat
  level : Nat
  ft : Bool
  served : Bool
  deriving DecidableEq, Repr

/-- A request at a channel (R380, R381): stack, line, class, stamp, requester. -/
structure ChanReq where
  stack : Nat
  line : Nat
  cls : Nat
  stamp : Nat
  who : Nat
  /-- Weight of the class when the request was stamped (R382). -/
  wgt : Nat := 1
  deriving DecidableEq, Repr

/-- A die. -/
structure Die where
  l2 : KMap L2Line
  /-- Lines that have entered the L2 so far. -/
  nextArr : Nat := 0
  wbuf : KMap WbEntry
  bcast : BitVec 16
  /-- One more than the span of 256 cc in which the die last broadcast (R244). -/
  told : Nat := 0
  dir : KMap Dir
  msc : KMap Msc
  sched : List (BitVec 128)
  phase : Nat
  log : List LogEntry
  stage : List Merge
  /-- Region attribute files by ASID (R278). -/
  rafs : KMap (List (BitVec 128))
  /-- Poisoned ranges: base and length (R367, R392). -/
  poison : List (Nat × Nat)
  compat : Nat
  deriving DecidableEq, Repr

/-! ### Package -/

/-- Seal states of an append page (R186). -/
inductive SealSt where
  | opened | sealing | sealed
  deriving DecidableEq, Repr

/-- An append-class frame (R186): size, tail, seal state, reservations not yet written, lines already recalled. -/
structure APage where
  size : Nat
  tail : Nat
  st : SealSt
  pending : Nat
  recalled : List (Nat × Nat)
  deriving DecidableEq, Repr

/-- A launch queue (R248, R249) and what it runs. -/
structure Queue where
  base : DWord
  size : Word
  dies : Byte
  en : Bool
  halt : Bool
  err : Bool
  tail : Word
  head : Word
  raf : DWord
  comp : DWord
  tvec : DWord
  log : DWord
  logn : Word
  asid : Word
  running : Option Nat
  /-- Tail children at the head of the queue, each with the completion scope of its parent (R31, R239). -/
  children : List (List Byte × Nat)
  startableAt : Option Nat
  deriving DecidableEq, Repr

/-- States of a tier extent (R364). -/
inductive ExtSt where
  | present | closing | lost
  deriving DecidableEq, Repr

/-- A tier extent. -/
structure Extent where
  base : Nat
  len : Nat
  port : Nat
  st : ExtSt
  deriving DecidableEq, Repr

/-- A key slot (R387). -/
structure KeySlot where
  loaded : Bool
  data : BitVec 256
  tweak : BitVec 256
  gen : Nat
  deriving DecidableEq, Repr

/-- A firmware image: digest, whether its signature verifies. -/
structure Image where
  digest : BitVec 256
  signed : Bool
  deriving DecidableEq, Repr

/-- A command-processor core (R389, R392): its watchdog, mode (0 U, 1 S, 3 M), PMP entries, pending S-mode interrupt, vendor CSRs, what its last
CSR read gave, and the cause register of its last exception. -/
structure CpCore where
  pet : Nat
  rung : Nat
  rungAt : Nat
  alive : Bool
  /-- Time of the last rung 1. -/
  rung1At : Option Nat := none
  mode : Nat := 3
  pmp : List (BitVec 72) := []
  sip : Bool := false
  csrVal : DWord := 0
  mcause : DWord := 0
  deriving DecidableEq, Repr

/-- A rung 2 that is under way on a die: when it fired, the blocks yet to be saved, and the cores of the complex that have not reported alive since
(R392). -/
structure Rung2 where
  firedAt : Nat
  left : List Nat
  down : List Nat
  deriving DecidableEq, Repr

/-- The configuration manifest as the Shell has applied it (R8, R388): enabled cores, memory-side cache in units of 32 MiB, trims. -/
structure Manifest where
  enable : BitVec 384
  mscUnits : Nat
  trims : List Nat
  deriving DecidableEq, Repr

/-- A lane repair in the list in board flash (R386): stack, lane, the spare it is mapped onto. -/
structure Repair where
  stack : Nat
  lane : Nat
  spare : Nat
  deriving DecidableEq, Repr

/-- Registers and state of the management plane and the control page (25_platform.md). -/
structure Plat where
  bootPhase : Nat
  bootFail : Nat
  /-- Boot has stopped at its phase (R388). -/
  bootStop : Bool
  msbud : DWord
  mswgt : Word
  actth : Word
  eyesel : Word
  eyeth : Word
  /-- Missed-deadline counters live and as copied into the page, by 4 q + c (R383). -/
  missed : KMap Word
  missedPage : KMap Word
  alerts : KMap Word
  /-- Row activation counters by stack, bank and row, and each bank's open row (R384). -/
  rowAct : KMap Nat
  openRow : KMap Nat := []
  /-- Lane-margin words by 4096 x stack + lane (R385); degraded channels by 32 x stack + channel. -/
  lanes : KMap Word
  degraded : List Nat
  /-- Lanes below EYETH whose fall has been answered by a retraining (R386). -/
  lowSeen : List Nat := []
  chan : List ChanReq
  rrChan : KMap Nat
  kcmd : Word
  kbusy : Bool
  kres : Nat
  kgen : Nat
  kblob : KMap Byte
  keys : KMap KeySlot
  vkeyreq : Word
  swaddr : DWord
  swlen : Word
  swst : Nat
  swreason : Nat
  vswap : Nat
  staged : Option Image
  running : Image
  /-- Board flash: the Carcass image, the Shell image, the repair list (R386, R388). -/
  flash : Image
  flashShell : Image := { digest := 0, signed := true }
  repairs : List Repair := []
  shell : Image
  prevImage : Image
  swapAt : Nat
  dispatch : Bool
  wdctl : Word
  wdLast : Nat
  wdDie : Nat
  wdCount : Nat
  cps : KMap CpCore
  /-- Distributor interface by die (R389). -/
  vdisp : KMap DWord := []
  /-- Rung 2 under way by die, and when rung 3 last fired by die (R392). -/
  rung2 : KMap Rung2 := []
  rung3At : KMap Nat := []
  rung4At : Option Nat
  powerReq : Bool
  session : Option (BitVec 256)
  ideKey : Option (BitVec 256)
  /-- Last measurement response: index, digest, signature (R394). -/
  spdmResp : Option (Nat × BitVec 256 × BitVec 512)
  intr : Bool
  /-- Extents, mailbox and changing capability bodies (R14, R15, R364, R365). -/
  extents : List Extent
  xbase : DWord
  xlen : DWord
  xpend : Bool
  xforced : Bool
  xwait : List (Nat × Bool)
  genInv : Nat
  genExt : Nat
  genLink : Nat
  cxlMask : Byte
  suinoMask : BitVec 16
  podId : BitVec 16
  pkgIndex : Nat
  pkgs : Nat
  mscBytes : Nat
  /-- Set by boot (R388): the identity key, the root and leaf keys of the chain in certificate slot 0, the manifest, the resident routines, the management controller's release. -/
  identity : Option (BitVec 256) := none
  cert : Option (BitVec 256 × BitVec 256) := none
  manifest : Manifest := { enable := 0, mscUnits := 0, trims := [] }
  routines : Bool := false
  mgmt : Bool := false
  deriving DecidableEq, Repr

/-- What steps next (log entry 1): a team's instruction, a sweep step and an instruction of another kind in one cycle (R35), a stream's
instruction, a system event, a stall of a ready team (log entry 17), a vendor CSR that a command-processor core's firmware reads or writes
(R389), or time. -/
inductive Choice where
  | issue (tid : Nat)
  | both (sweep other : Nat)
  | stall (tid n : Nat)
  | stream (tid : Nat) (e : Eng)
  | event (i : Instr) (a : EvArgs)
  | csr (cp mode num : Nat) (w : Option DWord)
  | elapse (n : Nat)
  deriving DecidableEq, Repr

/-- The machine. -/
structure State where
  cc : Nat
  freeCtr : Nat
  agenda : List Choice
  /-- The team, and the stream of it, that an instruction acts for. -/
  cur : Nat
  curStream : Option Eng
  /-- Arguments of the system event that steps. -/
  ev : EvArgs
  nextTid : Nat
  nextBid : Nat
  nextGid : Nat
  teams : KMap Team
  blocks : KMap Block
  grids : KMap Grid
  barriers : KMap Barrier
  parts : KMap Part
  cores : KMap Core
  dies : KMap Die
  queues : KMap Queue
  /-- Physical memory: HBM and the tier devices, unlisted 0 (log entry 7). -/
  mem : List Host.Cell
  pages : KMap APage
  /-- Free frames of each pool (R289): frame base and size. -/
  pools : KMap (List (Nat × Nat))
  plat : Plat
  deriving DecidableEq, Repr

/-- Why the machine stops. -/
inductive Fault where
  /-- Raised by an access (memory operation, walk, fetch) whose physical address lies in no HBM range and in no tier
  extent that the device holds: the manual gives such an address no meaning (R405). Safe: nothing is claimed of what follows. -/
  | noSuchAddress (pa : Nat)
  deriving DecidableEq, Repr

/-- Why an instruction has no meaning here. -/
inductive Refusal where
  /-- Raised by the dispatch of an instruction that has no meaning yet. Safe: the machine stops. -/
  | notModelled (mnemonic : String)
  deriving DecidableEq, Repr

/-! ### Starting values -/

/-- Latch at team start (R47): pointer 0, no valid entry; contents are the model's choice (log entry 2). -/
def Latch.start : Latch := { k0 := [], k1 := [], k2 := [], v0 := 0, v1 := 0, v2 := 0, ptr := 0 }

/-- Trap registers at team start; %tvec comes from the queue (R258), the others as log entry 2 says. -/
def TrapRegs.start (tvec : DWord) : TrapRegs :=
  { sup := false, tpc := 0, tvec := tvec, tcause := 0, tinfo0 := 0, tinfo1 := 0, tinfo2 := 0, tinfo3 := 0, tmask := 0,
    tpcWritten := false, savedClause := none, savedWait := .none }

/-- Cleared matrix state (R303). -/
def Matrix.cleared : Matrix := { acc := [], rowFlag := 0, colFlag := 0, rm := false, fresh := true, last := 0 }

/-- The team that a number naming no team reads as; no rule reads it. -/
def Team.blank : Team :=
  { grid := 0, block := 0, index := 0, warps := 1, core := 0, part := 0, slots := [], status := .ended, pc := 0, clause := none,
    mask := 0, live := 0, stack := [], regBytes := 64, viewV := 0, viewT := 0, viewA := 0, regs := [], sregs := [], preds := [],
    latch := Latch.start, flags := [], seg := 5, rep := 0, inRep := none, fmode := 0, est := 0, nf0 := 0, nf1 := 0, nf2 := 0,
    nf3 := 0, epoch := 0, trap := TrapRegs.start 0, binds := [], struck := false, arrivals := [], wait := .none,
    streamA := none, streamC := none, pendStream := [], pendCopy := none, pendMat := [], memQ := [], matQ := [],
    heldMat := none, nextOp := 0, call := none, usedMat := false,
    sched := { prio := 0, cls := 0, readySince := 0, firstIssue := none, savedTime := 0, savedAt := 0, yld := false, issues := 0, stalled := 0 },
    xlat := [], walkFault := [] }

/-- The block that a number naming no block reads as. -/
def Block.blank : Block :=
  { grid := 0, idx := 0, core := 0, status := .retired, stashBytes := 0, stash := [], windows := [], tiles := [],
    released := false, phase := 0, relPhase := 0, ticket := false, inPlace := false, staged := [] }

def LaunchRec.blank : LaunchRec :=
  { code := 0, args := 0, gx := 1, gy := 1, gz := 1, lanes := 0, teams := 0, coh := 7, csize := 0, prio := 0, flags := 0,
    stash := 0xFFFF, est := 0xFFFF, bound := 0, cslot := 0, seq := 0, cscope := 6, ndep := 0, keys := 0, deps := [] }

def CodeHdr.blank : CodeHdr :=
  { magic := 0, hash := 0, regBytes := 64, viewV := 0, viewT := 0, strideT := 64, viewA := 0, lanes := 32, teams := 1, coh := 0,
    csize := 0, stash := 0, flags := 0, nfunc := 0, nf := [0, 0, 0, 0], codeOff := 80, codeBytes := 0, funcOff := 0, resv := false }

/-- The grid that a number naming no grid reads as. -/
def Grid.blank : Grid :=
  { queue := 0, child := false, lrec := LaunchRec.blank, hdr := CodeHdr.blank, codeVa := 0, asid := 0, tvec := 0, compVa := 0, logVa := 0,
    logBytes := 0, diesMask := 0, lanes := 32, teams := 1, stash := 0, cohLvl := 0, cohSize := 0, det := false,
    recording := false, replay := false, prio := 0, started := 0, blocks := 0, nextBlock := 0, retired := 0, groups := [],
    status := 0, failed := false, tails := [], tailDie := 0, descs := [], snapshot := [], staged := [], log := [], logCount := 0,
    logFull := false, ended := true }

/-- An idle partition; its matrix state is cleared when a team takes it (R295, log entry 3). -/
def Part.reset : Part := { holder := none, mat := Matrix.cleared, copyQ := [], sfuQ := [], rr := [] }

/-- A core before boot enables it (R8); logical time as log entry 5 says. -/
def Core.reset : Core :=
  { enabled := false, pts := 0, l1 := [], sbuf := [], watch := [], nextWatch := 0, tlb := [], fs := [], fsQ := [],
    relayout := none, evictQ := [] }

/-- A directory entry at reset (R352). -/
def Dir.reset : Dir := { ver := 0, shr := 0, own := 0, st := 0, tr := none, waiting := [] }

/-- A die at reset. -/
def Die.reset : Die :=
  { l2 := [], wbuf := [], bcast := 0, dir := [], msc := [], sched := [], phase := 0, log := [], stage := [], rafs := [],
    poison := [], compat := 0 }

/-- A launch queue at reset (R248, R249): every register 0, IDLE set because EN is 0 and nothing runs. -/
def Queue.reset : Queue :=
  { base := 0, size := 0, dies := 0, en := false, halt := false, err := false, tail := 0, head := 0, raf := 0, comp := 0,
    tvec := 0, log := 0, logn := 0, asid := 0, running := none, children := [], startableAt := none }

/-- An empty slot; its generation before the first load is not stated (log entry 9). -/
def KeySlot.reset : KeySlot := { loaded := false, data := 0, tweak := 0, gen := 65535 }

/-- Images before boot: their contents are inputs (log entry 8). -/
def Image.reset : Image := { digest := 0, signed := true }

def CpCore.reset : CpCore := { pet := 0, rung := 0, rungAt := 0, alive := false }

/-- The management plane at reset (25_platform.md; log entries 6, 8, 9). -/
def Plat.reset : Plat :=
  { bootPhase := 0, bootFail := 0, bootStop := false, msbud := BitVec.ofNat 64 (1024 * 2 ^ 36 + 256 * 2 ^ 24 + 64 * 2 ^ 12 + 16),
    mswgt := 0x148, actth := 4096, eyesel := 0, eyeth := 0x0A0C, missed := [], missedPage := [], alerts := [], rowAct := [],
    lanes := [], degraded := [], chan := [], rrChan := [], kcmd := 0, kbusy := false, kres := 0, kgen := 0, kblob := [], keys := [],
    vkeyreq := 0, swaddr := 0, swlen := 0, swst := 0, swreason := 0, vswap := 0, staged := none, running := Image.reset,
    flash := Image.reset, shell := Image.reset, prevImage := Image.reset, swapAt := 0, dispatch := true, wdctl := 0xA3F,
    wdLast := 0, wdDie := 0, wdCount := 0, cps := [], rung4At := none, powerReq := false, session := none, ideKey := none,
    spdmResp := none, intr := false, extents := [], xbase := 0, xlen := 0, xpend := false, xforced := false, xwait := [],
    genInv := 0, genExt := 0, genLink := 0, cxlMask := 0, suinoMask := 0, podId := 0, pkgIndex := 0, pkgs := 1, mscBytes := 0 }

/-- The machine right after reset: no grid, block or team, every register at its reset value, memory with nothing listed. -/
def State.reset : State :=
  { cc := 0, freeCtr := 0, agenda := [], cur := 0, curStream := none, ev := {}, nextTid := 0, nextBid := 0, nextGid := 0, teams := [],
    blocks := [], grids := [], barriers := [], parts := [], cores := [], dies := [], queues := [], mem := [], pages := [],
    pools := [], plat := Plat.reset }

end Sys2Proof.Machine
end

