-- ==== Sys2Proof/Machine/Ops.lean ====
section
/-! DEFINITION. Named operations on the parts of the state, on lane sets, registers and the program counter, and taking an exception and
returning from one. Every read and write of a register goes through here. -/

namespace Sys2Proof.Machine

abbrev Out := Host.Outcome State Fault Refusal

/-! ### Parts of the state -/

def State.teamAt (s : State) (t : Nat) : Team := kGetD t Team.blank s.teams
def State.setTeamAt (s : State) (t : Nat) (v : Team) : State := { s with teams := kPut t v s.teams }
/-- The team an instruction acts for. -/
def State.team (s : State) : Team := s.teamAt s.cur
def State.setTeam (s : State) (v : Team) : State := s.setTeamAt s.cur v
def State.modTeam (s : State) (t : Nat) (g : Team → Team) : State := s.setTeamAt t (g (s.teamAt t))
def State.blockAt (s : State) (b : Nat) : Block := kGetD b Block.blank s.blocks
def State.setBlock (s : State) (b : Nat) (v : Block) : State := { s with blocks := kPut b v s.blocks }
def State.modBlock (s : State) (b : Nat) (g : Block → Block) : State := s.setBlock b (g (s.blockAt b))
def State.gridAt (s : State) (g : Nat) : Grid := kGetD g Grid.blank s.grids
def State.setGrid (s : State) (g : Nat) (v : Grid) : State := { s with grids := kPut g v s.grids }
def State.modGrid (s : State) (g : Nat) (h : Grid → Grid) : State := s.setGrid g (h (s.gridAt g))
def State.partAt (s : State) (p : Nat) : Part := kGetD p Part.reset s.parts
def State.setPart (s : State) (p : Nat) (v : Part) : State := { s with parts := kPut p v s.parts }
def State.modPart (s : State) (p : Nat) (g : Part → Part) : State := s.setPart p (g (s.partAt p))
def State.coreAt (s : State) (c : Nat) : Core := kGetD c Core.reset s.cores
def State.setCore (s : State) (c : Nat) (v : Core) : State := { s with cores := kPut c v s.cores }
def State.modCore (s : State) (c : Nat) (g : Core → Core) : State := s.setCore c (g (s.coreAt c))
def State.dieAt (s : State) (d : Nat) : Die := kGetD d Die.reset s.dies
def State.setDie (s : State) (d : Nat) (v : Die) : State := { s with dies := kPut d v s.dies }
def State.modDie (s : State) (d : Nat) (g : Die → Die) : State := s.setDie d (g (s.dieAt d))
def State.queueAt (s : State) (q : Nat) : Queue := kGetD q Queue.reset s.queues
def State.setQueue (s : State) (q : Nat) (v : Queue) : State := { s with queues := kPut q v s.queues }
def State.barrierAt (s : State) (k : Nat) : Barrier := kGetD k { gen := 0, arrived := [], last := 0, phases := [], elected := [], told := [] } s.barriers
def State.setBarrier (s : State) (k : Nat) (v : Barrier) : State := { s with barriers := kPut k v s.barriers }
def State.setPlat (s : State) (p : Plat) : State := { s with plat := p }

/-- Die of a core, quad within its die (R7). -/
def dieOf (c : Nat) : Nat := c / Config.coresPerDie
def quadOf (c : Nat) : Nat := c % Config.coresPerDie / Config.coresPerQuad
/-- Number of a partition of the package. -/
def partNo (core part : Nat) : Nat := Config.partsPerCore * core + part
def Team.partNo (t : Team) : Nat := Machine.partNo t.core t.part

/-- Append to a die's error log. -/
def logAt (s : State) (d : Nat) (e : LogEntry) : State := s.modDie d (fun x => { x with log := x.log ++ [e] })

/-! ### Lanes (R20, R25) -/

/-- Lanes of the team: lane l is 32 x warp + lane-in-warp. -/
def Team.lanes (t : Team) : Nat := 32 * t.warps

/-- Every lane of a team of w warps. -/
def fullMask (w : Nat) : LaneSet := BitVec.ofNat 1024 (2 ^ (32 * w) - 1)

/-- Members of a lane set below n, in logical order. -/
def laneList (n : Nat) (m : LaneSet) : List Nat := (List.range n).filter (fun l => m.getLsbD l)

/-- Lowest member below n. -/
def lowestLane (n : Nat) (m : LaneSet) : Option Nat := (List.range n).find? (fun l => m.getLsbD l)

/-- Lane word w (R20). -/
def laneWord (m : LaneSet) (w : Nat) : Word := m.extractLsb' (32 * w) 32

/-- Warp word: bit w set exactly when lane word w is nonzero (R20). -/
def warpWord (m : LaneSet) : Word :=
  BitVec.ofNat 32 ((List.range 32).foldl (fun a w => if laneWord m w = 0 then a else a + 2 ^ w) 0)

/-- Lane set of a predicate on lanes below n. -/
def laneSetOf (n : Nat) (p : Nat → Bool) : LaneSet :=
  BitVec.ofNat 1024 ((List.range n).foldl (fun a l => if p l then a + 2 ^ l else a) 0)

/-! ### Registers (R38-R42) -/

/-- Word q of a lane's register space. -/
def Team.word (t : Team) (q l : Nat) : Word := kGetD (1024 * q + l) 0 t.regs

/-- Cells of register-space word q after the lanes of `set` take `val`. -/
def regRow (t : Team) (q : Nat) (set : LaneSet) (val : Nat → Word) : KMap Word :=
  (List.range t.lanes).filterMap (fun l =>
    let v := if set.getLsbD l then val l else t.word q l
    if v = 0 then none else some (1024 * q + l, v))

/-- Write word q of the register space in the lanes of a set; the other lanes and words keep their values. -/
def Team.setWord (t : Team) (q : Nat) (set : LaneSet) (val : Nat → Word) : Team :=
  { t with regs := t.regs.filter (fun p => p.1 < 1024 * q) ++ regRow t q set val ++
      t.regs.filter (fun p => 1024 * (q + 1) ≤ p.1) }

/-- Register-space word of `vN` (R40). -/
def Team.vWord (t : Team) (n : Nat) : Nat := t.viewV.toNat / 4 + n
/-- First register-space word of `aN` (R40). -/
def Team.aWord (t : Team) (n : Nat) : Nat := t.viewA.toNat / 4 + 2 * n

/-- Scalar register (R41). -/
def Team.sreg (t : Team) (n : Nat) : Word := kGetD n 0 t.sregs
def Team.setSreg (t : Team) (n : Nat) (v : Word) : Team := { t with sregs := kSet 0 n v t.sregs }
/-- Scalar destination: code 120 discards (R63). -/
def Team.setSdst (t : Team) (code : Nat) (v : Word) : Team := if code < 64 then t.setSreg code v else t
/-- Pair s(n), s(n+1) (R41). -/
def Team.spair (t : Team) (n : Nat) : DWord := t.sreg (n + 1) ++ t.sreg n
def Team.setSpair (t : Team) (n : Nat) (v : DWord) : Team :=
  (t.setSreg n (v.extractLsb' 0 32)).setSreg (n + 1) (v.extractLsb' 32 32)

/-- Predicate p; 31 is `pt`, true in every lane (R42). -/
def Team.pred (t : Team) (p : Nat) : LaneSet := if p = 31 then BitVec.allOnes 1024 else kGetD p 0 t.preds
/-- Write predicate p in the lanes of a set; a write to `pt` is discarded (R42). -/
def Team.setPred (t : Team) (p : Nat) (set v : LaneSet) : Team :=
  if p = 31 then t else { t with preds := kSet 0 p ((t.pred p &&& ~~~set) ||| (v &&& set)) t.preds }

/-- Narrow format register (R92). -/
def Team.nf (t : Team) (n : Nat) : Word :=
  match n with
  | 0 => t.nf0
  | 1 => t.nf1
  | 2 => t.nf2
  | _ => t.nf3

/-! ### Completion flags (R52) -/

def Team.flag (t : Team) (f : Nat) : Nat := kGetD f 0 t.flags
def Team.setFlag (t : Team) (f v : Nat) : Team := { t with flags := kSet 0 f v t.flags }
/-- Count an issue, or a completion, on a selected flag. -/
def Team.flagUp (t : Team) : Option Nat → Team
  | none => t
  | some f => t.setFlag f (t.flag f + 1)
def Team.flagDown (t : Team) : Option Nat → Team
  | none => t
  | some f => t.setFlag f (t.flag f - 1)

/-! ### The stash (R173, R275) -/

/-- Bytes of a team's trap save area (R275). -/
def saveBytes (warps : Nat) : Nat := (256 + 44 * (32 * warps) + 63) / 64 * 64
/-- Stash bytes rounded up to 64 (R275). -/
def roundUp64 (n : Nat) : Nat := (n + 63) / 64 * 64
/-- Stash offset of the team's save area (R275). -/
def saveOff (s : State) (t : Team) : Nat := roundUp64 (s.blockAt t.block).stashBytes + t.index * saveBytes t.warps

def stashRead (s : State) (b a n : Nat) : List Byte :=
  bRead ((s.blockAt b).stash.filter (fun p => a ≤ p.1 && p.1 < a + n)) a n
def stashWrite (s : State) (b a : Nat) (bs : List Byte) : State :=
  s.modBlock b (fun k => { k with stash := bWrite k.stash a bs })
/-- Four bytes of the stash as a word. -/
def stashWord (s : State) (b a : Nat) : Nat := leNat (stashRead s b a 4)

/-! ### The program counter and issue bookkeeping (R49, R51, R55, R69) -/

/-- Instructions issued age the latch entries (R49). -/
def Latch.tick (k : Latch) : Latch := { k with v0 := k.v0 - 1, v1 := k.v1 - 1, v2 := k.v2 - 1 }

/-- What every issue does to the team's bookkeeping: the latch ages, the waiting time restarts, the class returns to the launch
priority (R35, R49), and the translations gathered for the instruction are dropped. -/
def Team.issued (t : Team) (cc : Nat) : Team :=
  { t with latch := t.latch.tick, xlat := [], walkFault := [],
           sched := { t.sched with cls := t.sched.prio, readySince := cc, issues := t.sched.issues + 1,
                                   firstIssue := some (t.sched.firstIssue.getD cc) } }

/-- Close the clause when no instruction is left in it (R51, R55). -/
def Team.closeClause (t : Team) : Team :=
  match t.clause with
  | some c => if c.left = 0 then { t with clause := none, sched := { t.sched with yld := c.yld } } else t
  | none => t

/-- Take n instructions off the clause. -/
def Team.takeLeft (t : Team) (n : Nat) : Team :=
  { t with clause := t.clause.map (fun c => { c with left := c.left - n }) }

/-- Go on after an instruction of len bytes: the next repeat under `rep`, or the next word (R69). -/
def Team.advance (t : Team) (len : Nat) : Team :=
  match t.inRep with
  | some r =>
    let next := (t.rep.extractLsb' 0 6).toNat
    if next < r.cnt.toNat then { t with rep := 64#7 ||| BitVec.ofNat 7 (next + 1) }
    else
      ({ t with rep := 0, inRep := none, pc := t.pc + BitVec.ofNat 64 (4 + len) }.takeLeft 2).closeClause
  | none => ({ t with pc := t.pc + BitVec.ofNat 64 len }.takeLeft 1).closeClause

/-- The hint that the clause a transfer leaves hands on (R55). -/
def Team.leftYld (t : Team) : Bool :=
  match t.clause with
  | some c => c.yld
  | none => t.sched.yld

/-- Continue at a clause header; the clause left behind hands on its YLD hint (R55, R115). -/
def Team.jump (t : Team) (target : DWord) : Team :=
  { t with pc := target, clause := none, rep := 0, inRep := none, sched := { t.sched with yld := t.leftYld } }

/-- Address of the instruction that issues: the word after the prefix inside a repeat. -/
def selfPc (t : Team) : DWord := if t.inRep.isSome then t.pc + 4 else t.pc

/-- End of an instruction that goes on: issue bookkeeping, then the next instruction. -/
def finish (s : State) (t : Team) (x : Fields) : Out := .next (s.setTeam ((t.issued s.cc).advance (lenOf x)))

/-- End of an instruction that transfers control. -/
def transfer (s : State) (t : Team) (target : DWord) : Out := .next (s.setTeam ((t.issued s.cc).jump target))

/-! ### The mask stack (R119, R120) -/

def EKind.num : EKind → Nat
  | .ifK => 1
  | .elseK => 2
  | .loopK => 3
  | .callK => 4
  | .fnK => 5

/-- Kind of the top entry for %tinfo2: 0 none (R120). -/
def Team.topKind (t : Team) : Nat :=
  match t.stack with
  | [] => 0
  | e :: _ => e.kind.num

/-! ### Special-function results (R170) -/

/-- Write one pending result of a team, all lanes in one step (log entry 88), and count its flag down. -/
def writeSfu (t : Team) (o : SfuOp) : Team :=
  let t := match o.dst with
    | some q => t.setWord q (laneSetOf t.lanes (fun l => o.vals.any (fun p => p.1 = l)))
        (fun l => kGetD l 0 o.vals)
    | none => t
  t.flagDown o.flag

/-- Write every pending result of a team, in issue order, and take them off the partition's queue (R170). -/
def drainSfu (s : State) (tid : Nat) : State :=
  let t := s.teamAt tid
  let p := s.partAt t.partNo
  let t' := (p.sfuQ.filter (fun o => o.tid = tid)).foldl writeSfu t
  (s.setTeamAt tid t').setPart t.partNo { p with sfuQ := p.sfuQ.filter (fun o => o.tid != tid) }

/-! ### Ending a team (R121, R276) -/

/-- Rank of a completion status among grids that ran (R257). -/
def worseStatus (a b : Nat) : Nat :=
  if a = 4 || b = 4 then 4 else if a = 2 || b = 2 then 2 else if a = 1 || b = 1 then 1 else if a = 3 || b = 3 then 3 else 0

/-- A copy that waits for a page of a merge. -/
def waitsFor (s : State) (m : Merge) (o : CopyOp) : Bool :=
  m.engines.contains o.tid && (s.gridAt (s.teamAt o.tid).grid).asid = m.asid && (match o.svc with
    | some w => w.page = m.page
    | none => false)

/-- The merges of a die whose service has ended: their waiters may replay and their copies try again; a merge without waiters is gone. -/
def endService (s : State) (d : Nat) (ended : Merge → Bool) : State :=
  let done := (s.dieAt d).stage.filter ended
  let s := s.modDie d (fun x => { x with
    stage := (x.stage.map (fun m => if ended m then { m with served := true } else m)).filter (fun m => !m.served || m.waiters != []) })
  if done.all (fun m => m.engines = []) then s
  else { s with parts := s.parts.map (fun p => (p.1, { p.2 with
    copyQ := p.2.copyQ.map (fun o => if done.any (fun m => waitsFor s m o) then { o with svc := none } else o) })) }

/-- The first-touch merges that a team claimed are served (R283). -/
def serveMerges (s : State) (d tid : Nat) : State := endService s d (fun m => m.claimant = tid && m.ft)

/-- A team that has ended waits for no page, and the merges it claimed are served (R283). -/
def leaveStage (s : State) (d tid : Nat) : State :=
  serveMerges (s.modDie d (fun x => { x with stage := x.stage.map (fun m => { m with waiters := m.waiters.filter (fun k => k != tid) }) })) d tid

/-- A team ends by fault or machine error (R276, R177): its die's log records it, its grid places no further block, its tail records are
discarded (R33), its matrix queue is dropped (R320), its watch entries are freed (R195), and the merges it claimed are released (R283). -/
def endTeamBad (s : State) (tid : Nat) (status : Nat) : State :=
  let t := s.teamAt tid
  let g := s.gridAt t.grid
  let d := dieOf t.core
  let entry := if status = 2 then LogEntry.machineError t.grid (s.blockAt t.block).idx t.index
    else .teamFault t.grid (s.blockAt t.block).idx t.index t.trap.tcause t.trap.tpc
  let s := logAt s d entry
  let s := if g.failed || g.tails = [] then s else logAt s d (.tailDiscard t.grid g.tails.length)
  let s := s.modGrid t.grid (fun g => { g with failed := true, status := worseStatus g.status status, tails := [], staged := [] })
  let s := leaveStage s d tid
  let s := (drainSfu s tid).modCore t.core (fun k => { k with watch := k.watch.filter (fun w => w.tid ≠ tid) })
  s.modTeam tid (fun t => { t with
    status := .ended, live := 0, mask := 0, wait := .none, matQ := [], streamA := none, streamC := none, pendStream := [], pendCopy := none, pendMat := [], clause := none, inRep := none })

/-! ### Taking an exception (R268-R273) -/

/-- Details of a trap. -/
structure Trap where
  cause : Nat
  i0 : Word := 0
  i1 : Word := 0
  i2 : Word := 0
  i3 : Word := 0
  deriving DecidableEq, Repr

/-- Address of code object word for %tinfo: low and high halves. -/
def loWord (a : Nat) : Word := BitVec.ofNat 32 a
def hiWord (a : Nat) : Word := BitVec.ofNat 32 (a / 2 ^ 32)

/-- The save area of a team as trap entry writes it (R273, R275): fixed part, then 44 bytes for each lane. Registers beyond the declared
space keep the bytes the area held. -/
def saveImage (s : State) (t : Team) (hdr : Bool) : List Byte :=
  let off := saveOff s t
  let ctx : Nat := match t.clause with
    | some c => c.hdr.toNat
    | none => 0
  let k := t.latch
  let old := (s.blockAt t.block).stash
  (List.range 8).flatMap (fun i => leBytes 4 (t.sreg (56 + i)).toNat) ++
  leBytes 8 ctx ++
  leBytes 1 (k.ptr + (if hdr then 4 else 0)) ++
  leBytes 1 (k.v0 + 4 * k.v1 + 16 * k.v2) ++
  leBytes 2 t.stack.length ++
  leBytes 1 t.rep.toNat ++
  List.replicate 83 0 ++
  (List.range 32).flatMap (fun w => leBytes 4 (laneWord t.mask w).toNat) ++
  (List.range t.lanes).flatMap (fun l =>
    (List.range 8).flatMap (fun i =>
      if t.viewV.toNat + 4 * (80 + i) + 4 ≤ t.regBytes then leBytes 4 (t.word (t.vWord (80 + i)) l).toNat
      else bRead old (off + 256 + 44 * l + 4 * i) 4) ++
    leBytes 4 (kGetD l 0 k.k0).toNat ++ leBytes 4 (kGetD l 0 k.k1).toNat ++ leBytes 4 (kGetD l 0 k.k2).toNat)

/-- Trap entry (R271): the instruction at hand has had no effect; pending Q results are written, those held behind a `fenceq` too (log entry 110), the
interrupted state is saved, %rep cleared, the trap registers written, M becomes the involved lanes, supervisor mode is set, and execution goes on at %tvec.
A trap taken with %tvec = 0 or in supervisor mode ends the team (R272, R276). -/
def enterTrap (s : State) (tid : Nat) (tr : Trap) (lanes : LaneSet) (tpc : DWord) (strm : Bool) : State :=
  let code : Word := BitVec.ofNat 32 (tr.cause + (if strm then 2 ^ 31 else 0))
  let t := s.teamAt tid
  if t.trap.sup || t.trap.tvec = 0 then
    endTeamBad (s.setTeamAt tid { t with trap := { t.trap with tcause := code, tpc := tpc } }) tid 1
  else
    let s := drainSfu s tid
    let t := s.teamAt tid
    let hdr := t.clause.isNone
    let s := stashWrite s t.block (saveOff s t) (saveImage s t hdr)
    s.setTeamAt tid { t with
      rep := 0, inRep := none, mask := lanes, pc := t.trap.tvec, clause := none, wait := .none, xlat := [], walkFault := [],
      trap := { t.trap with sup := true, tpc := tpc, tcause := code, tinfo0 := tr.i0, tinfo1 := tr.i1, tinfo2 := tr.i2,
                            tinfo3 := tr.i3, tmask := lanes, tpcWritten := false, savedClause := t.clause, savedWait := t.wait } }

/-- A trap of the instruction at hand. In a forked stream it ends the stream and waits for the team (R125); a team without lanes issues no
further instruction that could take it. -/
def trapLanes (s : State) (tr : Trap) (lanes : LaneSet) : Out :=
  let t := s.team
  match s.curStream with
  | none => .next (enterTrap s s.cur tr lanes t.pc false)
  | some e =>
    let p : PendTrap := { cause := tr.cause, i0 := tr.i0, i1 := tr.i1, i2 := tr.i2, i3 := t.pc.extractLsb' 0 32, strm := true }
    let fin (x : Option Stream) : Option Stream := x.map (fun st => { st with ended := true })
    .next (s.setTeam { t with pendStream := if t.live = 0 then t.pendStream else t.pendStream ++ [p], walkFault := [],
                              streamA := if e = .mat then fin t.streamA else t.streamA,
                              streamC := if e = .copy then fin t.streamC else t.streamC })

/-- A trap whose involved lanes are the whole mask (R268). -/
def trapAll (s : State) (tr : Trap) : Out := trapLanes s tr s.team.mask

def illegalClause : Trap := { cause := 0x01 }
def illegalInstruction : Trap := { cause := 0x02 }
def illegalOperand : Trap := { cause := 0x03 }
def privilege : Trap := { cause := 0x07 }
/-- Mask Stack trap (R120). -/
def maskStack (t : Team) (reason : Nat) : Trap :=
  { cause := 0x04, i0 := BitVec.ofNat 32 reason, i1 := BitVec.ofNat 32 t.stack.length, i2 := BitVec.ofNat 32 t.topKind }
/-- Control Order trap (R133). -/
def controlOrder (reason what : Nat) : Trap := { cause := 0x05, i0 := BitVec.ofNat 32 reason, i1 := BitVec.ofNat 32 what }
/-- Faults with an address (R175, R269). -/
def addrFault (cause addr reason : Nat) : Trap :=
  { cause := cause, i0 := loWord addr, i1 := hiWord addr, i3 := BitVec.ofNat 32 reason }

/-! ### Returning from an exception (R274) -/

/-- Team state restored from its save area (R273, R274), before the resume point is chosen. What a handler may leave there that R275 gives no meaning is
log entry 24's: reserved bits do not matter, a latch pointer of 3 is taken as 0 and a count of 3 remaining reads as 2. -/
def restoreImage (s : State) (t : Team) : Team :=
  let b := (s.blockAt t.block).stash
  let off := saveOff s t
  let w (a : Nat) : Word := BitVec.ofNat 32 (leNat (bRead b (off + a) 4))
  let t := (List.range 8).foldl (fun t i => t.setSreg (56 + i) (w (4 * i))) t
  let lanesOf (i : Nat) : Nat → Word := fun l => w (256 + 44 * l + 4 * i)
  let t := (List.range 8).foldl (fun t i =>
    if t.viewV.toNat + 4 * (80 + i) + 4 ≤ t.regBytes then t.setWord (t.vWord (80 + i)) (fullMask t.warps) (lanesOf i) else t) t
  let row (i : Nat) : KMap Word := (List.range t.lanes).filterMap (fun l =>
    let v := lanesOf i l
    if v = 0 then none else some (l, v))
  let c28 := (bGet b (off + 0x28)).toNat
  let c29 := (bGet b (off + 0x29)).toNat
  let v (n : Nat) : Nat := min 2 (c29 / 4 ^ n % 4)
  let m := (List.range 32).foldl (fun a i => a + leNat (bRead b (off + 0x80 + 4 * i) 4) * 2 ^ (32 * i)) 0
  { t with mask := BitVec.ofNat 1024 m &&& t.live,
           latch := { k0 := row 8, k1 := row 9, k2 := row 10, v0 := v 0, v1 := v 1, v2 := v 2, ptr := c28 % 4 % 3 } }

/-- `tret` (R274): restore, clear supervisor mode, and resume as HDR and the handler's write of %tpc say; a stack depth that differs from
the depth at entry ends the team (R276). HDR that a handler clears after a trap at a clause boundary leaves no clause to resume in: the team goes on at
the header at %tpc, without the wait it had left (log entry 24). -/
def returnTrap (s : State) (tid : Nat) : State :=
  let t := s.teamAt tid
  let b := (s.blockAt t.block).stash
  let off := saveOff s t
  let depth := leNat (bRead b (off + 0x2A) 2)
  let hdr := (bGet b (off + 0x28)).toNat / 4 % 2 = 1
  let rep := BitVec.ofNat 7 ((bGet b (off + 0x2C)).toNat)
  if depth ≠ t.stack.length then endTeamBad s tid 1
  else
    let s := serveMerges s (dieOf t.core) tid
    let r := (restoreImage s t).issued s.cc
    let r := { r with trap := { r.trap with sup := false, savedClause := none, savedWait := .none }, wait := .none, inRep := none }
    let latched := { r with latch := (restoreImage s t).latch }
    let out :=
      if t.trap.tpcWritten then { latched with pc := t.trap.tpc, clause := none, rep := 0 }
      else if hdr then
        match t.trap.savedClause, t.trap.savedWait with
        | none, .contDone target m => { latched with pc := target, clause := none, rep := rep, mask := m &&& t.live }
        | none, w => { latched with pc := t.trap.tpc, clause := none, rep := rep, wait := w }
        | some _, _ => { latched with pc := t.trap.tpc, clause := none, rep := rep }
      else { latched with pc := t.trap.tpc, clause := t.trap.savedClause, rep := rep }
    s.setTeamAt tid out

end Sys2Proof.Machine
end

