-- ==== Sys2Proof/Machine/Flags.lean ====
section
/-! DEFINITION. Predicate results of comparisons (R143, R149, R151), guards (R60) and the selected completion flag (R52). -/

namespace Sys2Proof.Machine

/-- Comparisons of R143. -/
inductive Cmp where
  | eq | ne | ltI | leI | ltZ | leZ
  deriving DecidableEq, Repr

/-- Signed or unsigned value of a word. -/
def intVal (signed : Bool) (w : Word) : Int := if signed then w.toInt else (w.toNat : Int)

/-- Result of a comparison (R143). -/
def cmpWord (c : Cmp) (a b : Word) : Bool :=
  match c with
  | .eq => a = b
  | .ne => a ≠ b
  | .ltI => a.toInt < b.toInt
  | .leI => a.toInt ≤ b.toInt
  | .ltZ => a.toNat < b.toNat
  | .leZ => a.toNat ≤ b.toNat

/-- FP32 comparisons (R151). -/
inductive FCmp where
  | eq | lt | le | un | ne
  deriving DecidableEq, Repr

/-- Result of an FP32 comparison (R151). -/
def fcmpVal (c : FCmp) (a b : XVal) : Bool :=
  match c with
  | .eq => XVal.eqV a b
  | .lt => XVal.lt a b
  | .le => XVal.le a b
  | .un => a.isNaN || b.isNaN
  | .ne => !XVal.eqV a b

/-- Lanes whose guard holds: every lane without a guard (R60). -/
def guardSet (t : Team) (m : Word) : LaneSet :=
  if mPen m then (if mPneg m then ~~~(t.pred (mPred m)) else t.pred (mPred m)) else BitVec.allOnes 1024

/-- Present lanes: active and guarded on (R110, R137). -/
def presentSet (t : Team) (m : Word) : LaneSet := t.mask &&& guardSet t m

/-- A guard read in the lowest active lane; false with an empty mask (R60). -/
def uniformHolds (t : Team) (m : Word) : Bool :=
  if mPen m then
    match lowestLane t.lanes t.mask with
    | some l => (guardSet t m).getLsbD l
    | none => false
  else true

/-- A predicate read in the lowest active lane; false with an empty mask (R143). -/
def lowestPred (t : Team) (p : Nat) (neg : Bool) : Bool :=
  match lowestLane t.lanes t.mask with
  | some l => (t.pred p).getLsbD l != neg
  | none => false

/-- The flag that FLG selects; none for a set field of 15 (R52). -/
def selFlag (t : Team) (m : Word) : Option Nat :=
  match t.clause with
  | some c => let v := if mFlg m then c.setB else c.setA; if v < 12 then some v else none
  | none => none

/-- The selected flag stands at 63, so that the issue waits (R52). -/
def flagFull (t : Team) (m : Word) : Bool :=
  match selFlag t m with
  | some f => 63 ≤ t.flag f
  | none => false

end Sys2Proof.Machine
end

