-- ==== Sys2Proof/Machine/Operands.lean ====
section
/-! DEFINITION. Operand forms (R62-R67): sources, subfields and their widening, narrowed destinations, the operand latch (R47-R50),
and the checks and guard that stand before every instruction's own effect (R60, R75, R76). -/

namespace Sys2Proof.Machine

/-! ### Sources (R62) -/

/-- A 32-bit vector source in a lane. -/
def srcV (t : Team) (code : Nat) (imm : Word) (l : Nat) : Word :=
  if code < 88 then t.word (t.vWord code) l
  else if code < 120 then t.sreg (code - 88)
  else if code = 120 then 0
  else if code = 121 then BitVec.ofNat 32 (l % 32)
  else if code = 122 then BitVec.ofNat 32 (l / 32)
  else if code = 124 then kGetD l 0 t.latch.k0
  else if code = 125 then kGetD l 0 t.latch.k1
  else if code = 126 then kGetD l 0 t.latch.k2
  else imm

/-- A 32-bit scalar source. -/
def srcS (t : Team) (code : Nat) (imm : Word) : Word :=
  if code < 64 then t.sreg code else if code = 120 then 0 else imm

/-- A 64-bit scalar source; a 64-bit immediate is sign-extended (R41, R61). -/
def srcS64 (t : Team) (code : Nat) (imm : Word) : DWord :=
  if code < 64 then t.spair code else if code = 120 then 0 else imm.signExtend 64

/-- A uniform source of classes M and C: codes 88-119, 120 as zero (R134, R217). -/
def srcU (t : Team) (code : Nat) (imm : Word) : Word :=
  if 88 ≤ code && code < 120 then t.sreg (code - 88) else if code = 120 then 0 else imm

/-- An address base: the pair of an even code from 88, or zero (R63, R172). -/
def srcBase (t : Team) (code : Nat) : DWord := if code = 120 then 0 else t.spair (code - 88)

/-! ### Subfields (R64-R66) -/

/-- Width of a subfield code; 0 for a reserved code. -/
def subWidth (c : Nat) : Nat :=
  if c = 0 then 32 else if c ≤ 2 then 16 else if c ≤ 6 then 8 else if c ≤ 11 then 6 else if c ≤ 19 then 4 else 0

/-- Index of a subfield within its group, and lowest bit. -/
def subIndex (c : Nat) : Nat :=
  if c = 0 then 0 else if c ≤ 2 then c - 1 else if c ≤ 6 then c - 3 else if c ≤ 11 then c - 7 else c - 12
def subLow (c : Nat) : Nat := subWidth c * subIndex c

/-- Fields in the group of a subfield code. -/
def subCount (c : Nat) : Nat := if c = 0 then 1 else if c ≤ 2 then 2 else if c ≤ 6 then 4 else if c ≤ 11 then 5 else 8

/-- A byte, six-bit or nibble subfield (R136). -/
def subNarrow (c : Nat) : Bool := 3 ≤ c

/-- Bits of a subfield, in the low bits. -/
def subBits (c : Nat) (w : Word) : Nat := (w.toNat >>> subLow c) % 2 ^ subWidth c

/-- Integer widening: sign-extended for .i32, zero-extended otherwise (R65). -/
def widenInt (signed : Bool) (c : Nat) (w : Word) : Word :=
  let v := subBits c w
  let n := subWidth c
  if signed && v / 2 ^ (n - 1) = 1 then BitVec.ofNat 32 (v + (2 ^ 32 - 2 ^ n)) else BitVec.ofNat 32 v

/-- The FP32 code a floating-point source subfield is widened to (R65, R100). -/
def widenFloat (t : Team) (nfs c : Nat) (w : Word) : Word :=
  if c = 0 then w
  else if c ≤ 2 then toF32 (widen fp16 (subBits c w)) .rne false
  else toF32 (widen (nfFmt (t.nf nfs)) (subBits c w)) .rne false

/-- Insert v into a subfield; the other bits keep their values (R66). -/
def subInsert (c : Nat) (old : Word) (v : Nat) : Word :=
  let lo := subLow c; let n := subWidth c
  let keep := old.toNat - ((old.toNat >>> lo) % 2 ^ n) * 2 ^ lo
  BitVec.ofNat 32 (keep + (v % 2 ^ n) * 2 ^ lo)

/-- Integer result into a destination word (R66, R135). -/
def narrowInt (signed sat : Bool) (c : Nat) (old r : Word) : Word :=
  if c = 0 then r
  else
    let n := subWidth c
    let v : Int := intVal signed r
    let lo : Int := if signed then -(2 ^ (n - 1)) else 0
    let hi : Int := if signed then 2 ^ (n - 1) - 1 else 2 ^ n - 1
    let u : Nat := if sat then ((clampI lo hi v) % (2 ^ n : Nat)).toNat else r.toNat
    subInsert c old u

/-- Rounding mode of an instruction: RND, or %fmode when RND is 111 (R89, R90). -/
def modeOf (t : Team) (m : Word) : RMode :=
  if mRndCode m = 7 then RMode.ofCode (bitsOf t.fmode 2 0) else RMode.ofCode (mRndCode m)

/-- Floating-point result into a destination word (R66, R135). -/
def narrowFloat (t : Team) (m : Word) (old : Word) (v : XVal) : Word :=
  let c := mDnar m
  if c = 0 then toF32 v (modeOf t m) (mSat m)
  else if c ≤ 2 then subInsert c old (narrow fp16 v (modeOf t m) (mSat m))
  else subInsert c old (narrow (nfFmt (t.nf (mNfs m))) v (modeOf t m) (mSat m))

/-! ### Vector destinations -/

/-- Old 32 bits of a vector destination: code 120 reads as zero (R47, R147). -/
def dstOld (t : Team) (code l : Nat) : Word := if code < 88 then t.word (t.vWord code) l else 0

/-- Write a 32-bit vector destination in the lanes of a set; code 120 discards (R63). -/
def Team.setV (t : Team) (code : Nat) (set : LaneSet) (val : Nat → Word) : Team :=
  if code < 88 then t.setWord (t.vWord code) set val else t

/-! ### The operand latch (R47) -/

/-- Cells of a latch entry for every lane of the team. -/
def latchRow (n : Nat) (val : Nat → Word) : KMap Word :=
  (List.range n).filterMap (fun l => let v := val l; if v = 0 then none else some (l, v))

/-- Write the entry the pointer names and advance the pointer; the entry is valid for the next two instructions (R47, R49). -/
def Latch.write (k : Latch) (row : KMap Word) : Latch :=
  if k.ptr = 0 then { k with k0 := row, v0 := 2, ptr := 1 }
  else if k.ptr = 1 then { k with k1 := row, v1 := 2, ptr := 2 }
  else { k with k2 := row, v2 := 2, ptr := 0 }

/-- Hold A or B before the instruction, or the destination after it; `age` first, so that the new entry keeps its two reads. -/
def Team.holdRow (t : Team) (row : KMap Word) : Team := { t with latch := t.latch.write row }

/-- End of an instruction with HOLD: bookkeeping, the latch entry, then the next instruction. -/
def finishHold (s : State) (t : Team) (x : Fields) (row : Option (KMap Word)) : Out :=
  let t := t.issued s.cc
  let t := match row with
    | some r => t.holdRow r
    | none => t
  .next (s.setTeam (t.advance (lenOf x)))

/-- The held row: `a` and `b` give the widened sources before the instruction, `res` what code 120 leaves (R47). -/
def holdOf (t0 t1 : Team) (x : Fields) (set : LaneSet) (a b res : Nat → Word) : Option (KMap Word) :=
  match x.hold.toNat with
  | 0 => none
  | 1 => some (latchRow t0.lanes a)
  | 2 => some (latchRow t0.lanes b)
  | _ => some (latchRow t0.lanes (fun l =>
      if x.d.toNat < 88 then t1.word (t1.vWord x.d.toNat) l
      else if set.getLsbD l then res l else 0))

/-! ### Checks before the effect (R75) -/

/-- An instruction that writes a register when it completes, so that its set field may not be 15 (R52). A discarded result writes none, but `mstat`
and `mdrain.a` always name one (R301). -/
def writesReg (i : Instr) (f : Form) (x : Fields) : Bool :=
  let d := x.d.toNat
  match i with
  | .append _ => d != 120 || x.b.toNat != 31
  | .mdrainA _ => true
  | .fcall _ => true
  | .fret _ => true
  | .mstat _ => true
  | .fsqry _ => d != 120
  | .fmap _ => d != 120
  | .sld _ => d != 120
  | _ => (f.cls = .q && f.op != 0 && d != 120) || (f.cls = .m && (f.d = .v32d || f.d = .v64d || f.d = .v128d) && d != 120)

/-- Nothing follows the instruction in its clause: it is the last, or the last repeat of the last (R69, R114). -/
def lastOfClause (t : Team) (c : Clause) : Bool :=
  match t.inRep with
  | none => c.left = 1
  | some r => c.left = 2 && (t.rep.extractLsb' 0 6).toNat = r.cnt.toNat

/-- Dynamic part of check 3: an instruction that ends its clause stands last (R114, R220), and a register result names a flag (R52). -/
def placeOk (t : Team) (i : Instr) (f : Form) (x : Fields) : Bool :=
  match t.clause with
  | none => true
  | some c =>
    let m := modOf f.cls x
    let ends := f.ends || (f.cls = .c && f.op != 0 && mCont m)
    let set := if mFlg m then c.setB else c.setA
    (!ends || lastOfClause t c) && (!f.var || set != 15 || !writesReg i f x)

/-- Instructions that a forked stream holds (R124): its engine's class, class S, and `nop`, `bra` and its own `rdv`; an `rdv` that names no
engine fails check 4 (R113). -/
def streamOk (e : Option Eng) (i : Instr) (f : Form) (x : Fields) : Bool :=
  match e with
  | none => true
  | some e =>
    match f.cls with
    | .s => true
    | .a => e = .mat
    | .c => e = .copy
    | .x =>
      match i with
      | .nop _ _ => true
      | .bra _ => true
      | .rdv _ => 2 ≤ x.b.toNat || x.b.toNat = (if e = .mat then 0 else 1)
      | _ => false
    | _ => false

/-- Bytes a register code of a kind covers in the register space; 0 where it names none (R40). -/
def kindBytes (k : Kind) (code : Nat) : Nat :=
  if 88 ≤ code then 0
  else match k with
    | .v32 => 4
    | .v32d => 4
    | .vr => 4
    | .v64 => 8
    | .v64d => 8
    | .v128 => 16
    | .v128d => 16
    | _ => 0

/-- No register beyond the declared size (R40). -/
def regOk (t : Team) (k : Kind) (code : Nat) : Bool :=
  match k with
  | .acc => t.viewA.toNat + 8 * code + 8 ≤ t.regBytes
  | _ => kindBytes k code = 0 || t.viewV.toNat + 4 * code + kindBytes k code ≤ t.regBytes

/-- A format register a subfield uses is set and no wider than the subfield (R65, R66, R93). -/
def nfFits (t : Team) (nfs c : Nat) : Bool := !subNarrow c || (nfValid (t.nf nfs) && nfBits (t.nf nfs) ≤ subWidth c)

/-- Bits of a cvt source or destination type; none for an unset format register (R153). -/
def cvtBits (t : Team) (ty : Nat) : Option Nat :=
  if ty ≤ 2 then some 32 else if ty ≤ 4 then some 16
  else if nfValid (t.nf (ty - 5)) then some (nfBits (t.nf (ty - 5))) else none

/-- Destination type of a cvt opcode (R80); type 5 + n is NFn. -/
def cvtDst (i : Instr) (m : Word) : Nat :=
  match i with
  | .cvtI32 _ => 0
  | .cvtZ32 _ => 1
  | .cvtF32 _ => 2
  | .cvtF16 _ => 3
  | .cvtBf16 _ => 4
  | _ => 5 + mNfs m

/-- Widths of a cvt (R153). -/
def cvtOk (t : Team) (i : Instr) (x : Fields) (m : Word) : Bool :=
  let src := x.b.toNat
  let dst := cvtDst i m
  (match cvtBits t src with
   | none => false
   | some n => src < 2 || mAsub m = 0 || n ≤ subWidth (mAsub m)) &&
  (match cvtBits t dst with
   | none => false
   | some n => dst < 2 || mDnar m = 0 || n ≤ subWidth (mDnar m))

/-- Subfields of `pack` (R154) and `unpk` (R155). -/
def packOk (m : Word) : Bool :=
  mAsub m != 0 && mBsub m != 0 && mDnar m != 0 && subWidth (mAsub m) = subWidth (mDnar m) &&
  subWidth (mBsub m) = subWidth (mDnar m) && subIndex (mDnar m) + 1 < subCount (mDnar m)
def unpkOk (m : Word) : Bool := mAsub m != 0 && subIndex (mAsub m) + 1 < subCount (mAsub m)

/-- Rest of check 4: registers inside the space, formats that fit, single forms (R40, R65, R93, R145, R153-R155, R286). -/
def check4Team (t : Team) (i : Instr) (f : Form) (x : Fields) : Bool :=
  let m := modOf f.cls x
  let isCvt := f.cls = .v && 0x40 ≤ f.op && f.op ≤ 0x45
  regOk t (kindD f x) x.d.toNat && regOk t (kindA f x) x.a.toNat && regOk t (kindB f x) x.b.toNat &&
  (f.mods &&& fNfs == 0#32 || (f.cls != .v && f.cls != .q) || isCvt ||
    (nfFits t (mNfs m) (mAsub m) && nfFits t (mNfs m) (mBsub m) && nfFits t (mNfs m) (mDnar m))) &&
  (match i with
   | .pack _ => packOk m
   | .unpk _ => unpkOk m
   | .srd _ => (x.a.toNat != 0x20 && x.a.toNat != 0x21) || x.d.toNat % 2 = 0
   | .srr _ => (x.a.toNat != 0x20 && x.a.toNat != 0x21) || x.d.toNat % 2 = 0
   | _ => !isCvt || cvtOk t i x m)

/-- A source field that names a latch entry with no valid read left (R49). -/
def latchBad (t : Team) (k : Kind) (code : Nat) : Bool :=
  k = .v32 && ((code = 124 && t.latch.v0 = 0) || (code = 125 && t.latch.v1 = 0) || (code = 126 && t.latch.v2 = 0))

/-- Checks 3 to 5 of R75: the trap they decide, if any. -/
def encodingTrap (t : Team) (i : Instr) (f : Form) (x : Fields) : Option Trap :=
  if !check3 i f x || !placeOk t i f x then some illegalInstruction
  else if !check4Static f x || !check4Team t i f x then some illegalOperand
  else if latchBad t (kindD f x) x.d.toNat || latchBad t (kindA f x) x.a.toNat || latchBad t (kindB f x) x.b.toNat then
    some illegalOperand
  else none

/-- The instruction counts on its flag: a variable-latency one that some present lane runs, and not a copy with a
continuation (R52, R170, R180, R220). -/
def counts (t : Team) (f : Form) (m : Word) : Bool :=
  f.var && !(f.cls = .c && mCont m) && (f.guard != .lane || presentSet t m != 0#1024)

/-- What stands before every instruction's own effect: the checks of R75 whatever the mask and guard (R76), a uniform guard that skips the
instruction (R60), and the wait for a full flag (R52). What a forked stream may not hold is refused first (R124; log entry 70). -/
def issue (i : Instr) (s : State) (body : Team → Form → Fields → Out) : Out :=
  match encOf i with
  | none => .next s
  | some (f, x) =>
    let t := s.team
    match (if streamOk s.curStream i f x then encodingTrap t i f x else some illegalInstruction) with
    | some tr => trapAll s tr
    | none =>
      if f.guard = .uniform && !uniformHolds t (modOf f.cls x) then finish s t x
      else if counts t f (modOf f.cls x) && flagFull t (modOf f.cls x) then .next s
      else body t f x

end Sys2Proof.Machine
end

