-- ==== Sys2Proof/Machine/Alu.lean ====
section
/-! DEFINITION. What the integer instructions compute (R140, R141, R148) and the skeletons that read sources, compute and write results
for classes S and V (R135, R137, R143, R150-R153). -/

namespace Sys2Proof.Machine

/-! ### Integer results (R140, R141, R148) -/

def mulhiI (a b : Word) : Word := BitVec.ofInt 32 ((a.toInt * b.toInt) / 2 ^ 32)
def mulhiZ (a b : Word) : Word := BitVec.ofNat 32 (a.toNat * b.toNat / 2 ^ 32)
def shlW (a b : Word) : Word := if b.toNat < 32 then BitVec.ofNat 32 (a.toNat * 2 ^ b.toNat) else 0
def shrW (a b : Word) : Word := if b.toNat < 32 then BitVec.ofNat 32 (a.toNat / 2 ^ b.toNat) else 0
def sraW (a b : Word) : Word := BitVec.ofInt 32 (a.toInt / 2 ^ min b.toNat 31)
def minI (a b : Word) : Word := if a.toInt ≤ b.toInt then a else b
def minZ (a b : Word) : Word := if a.toNat ≤ b.toNat then a else b
def maxI (a b : Word) : Word := if b.toInt ≤ a.toInt then a else b
def maxZ (a b : Word) : Word := if b.toNat ≤ a.toNat then a else b
def popcW (a : Word) : Word := BitVec.ofNat 32 ((List.range 32).countP (fun i => a.getLsbD i))
def clzW (a : Word) : Word := if a = 0 then 32 else BitVec.ofNat 32 (31 - Nat.log2 a.toNat)
def brevW (a : Word) : Word :=
  BitVec.ofNat 32 ((List.range 32).foldl (fun v i => if a.getLsbD (31 - i) then v + 2 ^ i else v) 0)
def absW (a : Word) : Word := BitVec.ofNat 32 a.toInt.natAbs

/-- Offset and width of a bit field operand (R141). -/
def bfOff (b : Word) : Nat := bitsOf b 7 0
def bfLen (b : Word) : Nat := min (bitsOf b 15 8) 32

def bfeZ (a b : Word) : Word := BitVec.ofNat 32 (a.toNat / 2 ^ bfOff b % 2 ^ bfLen b)
def bfeI (a b : Word) : Word :=
  let w := bfLen b
  if w = 0 then 0
  else
    let v := (a.toInt / 2 ^ bfOff b) % 2 ^ w
    BitVec.ofInt 32 (if v < 2 ^ (w - 1) then v else v - 2 ^ w)
def bfiW (a b c : Word) : Word :=
  let m : Word := BitVec.ofNat 32 ((2 ^ bfLen b - 1) * 2 ^ bfOff b)
  (c &&& ~~~m) ||| (BitVec.ofNat 32 (a.toNat * 2 ^ bfOff b) &&& m)

/-- Division truncated toward zero, with the cases of R148. -/
def divI (a b : Word) : Word := if b = 0 then BitVec.allOnes 32 else BitVec.ofInt 32 (a.toInt.tdiv b.toInt)
def divZ (a b : Word) : Word := if b = 0 then BitVec.allOnes 32 else BitVec.ofNat 32 (a.toNat / b.toNat)
def remI (a b : Word) : Word := if b = 0 then a else BitVec.ofInt 32 (a.toInt.tmod b.toInt)
def remZ (a b : Word) : Word := if b = 0 then a else BitVec.ofNat 32 (a.toNat % b.toNat)

/-! ### Class S (R135, R137, R143) -/

/-- A 32-bit scalar source after subfield selection and widening. -/
def sA (t : Team) (x : Fields) (signed : Bool) : Word := widenInt signed (mAsub (modOf .s x)) (srcS t x.a.toNat (immOf x))
def sB (t : Team) (x : Fields) (signed : Bool) : Word := widenInt signed (mBsub (modOf .s x)) (srcS t x.b.toNat (immOf x))

/-- x := fn a b c, written by `write(D, x)`; c is D as third source. -/
def scalarOp (i : Instr) (s : State) (signed : Bool) (fn : Word → Word → Word → Word) : Out :=
  issue i s (fun t _ x =>
    let m := modOf .s x
    let old := srcS t x.d.toNat 0
    finish s (t.setSdst x.d.toNat (narrowInt signed (mSat m) (mDnar m) old (fn (sA t x signed) (sB t x signed) old))) x)

/-- 64-bit forms (R142). -/
def scalarOp64 (i : Instr) (s : State) (fn : DWord → DWord → DWord) : Out :=
  issue i s (fun t _ x =>
    finish s (t.setSpair x.d.toNat (fn (srcS64 t x.a.toNat (immOf x)) (srcS64 t x.b.toNat (immOf x)))) x)

/-- A comparison into a predicate, in every lane of the team (R137, R143). -/
def scalarCmp (i : Instr) (s : State) (signed : Bool) (c : Cmp) : Out :=
  issue i s (fun t _ x =>
    let full := fullMask t.warps
    finish s (t.setPred x.d.toNat full (if cmpWord c (sA t x signed) (sB t x signed) then full else 0)) x)

/-! ### Class V (R135, R137) -/

/-- 32-bit integer sources after selection and widening. -/
def vA (t : Team) (x : Fields) (signed : Bool) (l : Nat) : Word := widenInt signed (mAsub (modOf .v x)) (srcV t x.a.toNat (immOf x) l)
def vB (t : Team) (x : Fields) (signed : Bool) (l : Nat) : Word := widenInt signed (mBsub (modOf .v x)) (srcV t x.b.toNat (immOf x) l)

/-- Write a vector result in the present lanes, and what HOLD asks (R47, R137). -/
def vecWrite (s : State) (t : Team) (x : Fields) (a b res : Nat → Word) : Out :=
  let set := presentSet t (modOf .v x)
  let t1 := t.setV x.d.toNat set res
  finishHold s t1 x (holdOf t t1 x set a b res)

/-- Integer form: x := fn a b c per present lane; c is D as third source. -/
def vecOp (i : Instr) (s : State) (signed : Bool) (fn : Word → Word → Word → Word) : Out :=
  issue i s (fun t _ x =>
    let m := modOf .v x
    let old := dstOld t x.d.toNat
    vecWrite s t x (vA t x signed) (vB t x signed)
      (fun l => narrowInt signed (mSat m) (mDnar m) (old l) (fn (vA t x signed l) (vB t x signed l) (old l))))

/-- Write a predicate result in the present lanes, and what HOLD asks. -/
def predWrite (s : State) (t : Team) (x : Fields) (a b : Nat → Word) (res : LaneSet) : Out :=
  let set := presentSet t (modOf .v x)
  let t1 := t.setPred x.d.toNat set res
  finishHold s t1 x (holdOf t t1 x set a b (fun _ => 0))

/-- Integer comparison (R149). -/
def vecCmp (i : Instr) (s : State) (signed : Bool) (c : Cmp) : Out :=
  issue i s (fun t _ x =>
    predWrite s t x (vA t x signed) (vB t x signed) (laneSetOf t.lanes (fun l => cmpWord c (vA t x signed l) (vB t x signed l))))

/-! ### FP32 (R150, R151) -/

/-- FP32 sources after selection and widening, as codes (R65, R100). -/
def fA (t : Team) (x : Fields) (l : Nat) : Word :=
  let m := modOf .v x
  widenFloat t (mNfs m) (mAsub m) (srcV t x.a.toNat (immOf x) l)
def fB (t : Team) (x : Fields) (l : Nat) : Word :=
  let m := modOf .v x
  widenFloat t (mNfs m) (mBsub m) (srcV t x.b.toNat (immOf x) l)

/-- Floating-point form: the exact result of fn, rounded once by `write` (R135). -/
def floatOp (i : Instr) (s : State) (fn : RMode → XVal → XVal → XVal → XVal) : Out :=
  issue i s (fun t _ x =>
    let m := modOf .v x
    let old := dstOld t x.d.toNat
    vecWrite s t x (fA t x) (fB t x)
      (fun l => narrowFloat t m (old l) (fn (modeOf t m) (ofF32 (fA t x l)) (ofF32 (fB t x l)) (ofF32 (old l)))))

/-- Floating-point comparison (R151). -/
def floatCmp (i : Instr) (s : State) (c : FCmp) : Out :=
  issue i s (fun t _ x =>
    predWrite s t x (fA t x) (fB t x) (laneSetOf t.lanes (fun l => fcmpVal c (ofF32 (fA t x l)) (ofF32 (fB t x l)))))

/-- Class word of an FP32 code (R151); `quiet` tells whether a NaN is quiet. -/
def fclassWord (v : XVal) (quiet : Bool) : Word :=
  match v with
  | .nan => if quiet then 0x200 else 0x100
  | .inf n => if n then 1 else 0x80
  | .fin n m e =>
    if m = 0 then (if n then 8 else 0x10)
    else
      let normal : Bool := -126 ≤ (Nat.log2 m : Int) + e
      if n then (if normal then 2 else 4) else (if normal then 0x40 else 0x20)

/-- The quiet bit of the source's own code: full words and halves keep it, a narrow NaN is quiet (R151). -/
def quietBit (c : Nat) (w : Word) : Bool := if c = 0 then w.getLsbD 22 else if c ≤ 2 then w.getLsbD (subLow c + 9) else true

/-! ### Packed halves (R88, R152) -/

def halfOf (h : Nat) (w : Word) : Nat := bitsOf w (16 * h + 15) (16 * h)

/-- One word from two halves computed apart. -/
def packedWord (f : Fmt) (mode : RMode) (sat : Bool) (fn : RMode → XVal → XVal → XVal → XVal) (a b c : Word) : Word :=
  let one (h : Nat) : Nat := narrow f (fn mode (widen f (halfOf h a)) (widen f (halfOf h b)) (widen f (halfOf h c))) mode sat
  BitVec.ofNat 32 (one 0 + 2 ^ 16 * one 1)

def packedOp (i : Instr) (s : State) (f : Fmt) (fn : RMode → XVal → XVal → XVal → XVal) : Out :=
  issue i s (fun t _ x =>
    let m := modOf .v x
    let a := srcV t x.a.toNat (immOf x)
    let b := srcV t x.b.toNat (immOf x)
    vecWrite s t x a b (fun l => packedWord f (modeOf t m) (mSat m) fn (a l) (b l) (dstOld t x.d.toNat l)))

/-! ### Conversions (R101, R153) -/

/-- Format of a cvt type from 2 up: f32, f16, bf16, NF0 to NF3. -/
def cvtFmt (t : Team) (ty : Nat) : Fmt :=
  if ty = 2 then fp32 else if ty = 3 then fp16 else if ty = 4 then bf16 else nfFmt (t.nf (ty - 5))

/-- Source of a cvt: integer types widened by their type, float codes from their subfield or the low bits (R153). -/
def cvtSrc (ty c : Nat) (w : Word) : Word :=
  if ty = 0 then widenInt true c w else if ty = 1 then widenInt false c w
  else if c = 0 then w else BitVec.ofNat 32 (subBits c w)

/-- Value of a cvt source. -/
def cvtVal (t : Team) (ty : Nat) (w : Word) : XVal :=
  if ty = 0 then XVal.ofInt w.toInt else if ty = 1 then XVal.ofInt (w.toNat : Int) else widen (cvtFmt t ty) w.toNat

/-- What HOLD keeps of a cvt source: its value widened to 32 bits, an integer by its type (R153), a narrower float code to the FP32 code of its
value (R47, R65, R100). -/
def cvtHeld (t : Team) (ty : Nat) (w : Word) : Word := if ty ≤ 2 then w else toF32 (cvtVal t ty w) .rne false

/-- Integer result of a cvt (R101). -/
def cvtToInt (t : Team) (signed sat : Bool) (mode : RMode) (ty : Nat) (w : Word) : Word :=
  if ty ≤ 1 then
    (if sat then BitVec.ofInt 32 (clampI (if signed then -(2 ^ 31) else 0) (if signed then 2 ^ 31 - 1 else 2 ^ 32 - 1)
        (intVal (decide (ty = 0)) w)) else w)
  else toInt32 signed mode (cvtVal t ty w)

/-- Conversion to i32 or z32. -/
def cvtIntOp (i : Instr) (s : State) (signed : Bool) : Out :=
  issue i s (fun t _ x =>
    let m := modOf .v x
    let ty := x.b.toNat
    let a (l : Nat) := cvtSrc ty (mAsub m) (srcV t x.a.toNat (immOf x) l)
    let held (l : Nat) := cvtHeld t ty (a l)
    vecWrite s t x held held (fun l =>
      narrowInt signed (mSat m) (mDnar m) (dstOld t x.d.toNat l) (cvtToInt t signed (mSat m) (modeOf t m) ty (a l))))

/-- Conversion to a floating-point type: one rounding, DNAR only places the code (R153). -/
def cvtFloatOp (i : Instr) (s : State) : Out :=
  issue i s (fun t _ x =>
    let m := modOf .v x
    let ty := x.b.toNat
    let dst := cvtFmt t (cvtDst i m)
    let a (l : Nat) := cvtSrc ty (mAsub m) (srcV t x.a.toNat (immOf x) l)
    let held (l : Nat) := cvtHeld t ty (a l)
    vecWrite s t x held held (fun l =>
      let code := narrow dst (cvtVal t ty (a l)) (modeOf t m) (mSat m)
      if mDnar m = 0 then BitVec.ofNat 32 code else subInsert (mDnar m) (dstOld t x.d.toNat l) code))

end Sys2Proof.Machine
end

