-- ==== Sys2Proof/Machine/Order.lean ====
section
/-! DEFINITION. The orders that do not depend on memory: level groups (07_control.md R129, 11_memory.md R174), barriers and ticket phases, the turns of a
deterministic launch (24_determinism.md R111, R371-R373), the order within a memory queue (11_memory.md R182, R196, R197), and the log of decisions that a grid records or replays (R374-R377). -/

namespace Sys2Proof.Machine

/-! ### Level groups and peers (R129, R174) -/

/-- Divide a run of blocks once: the piece of size n that holds block b. -/
def pieceOf (b : Nat) (r : Nat × Nat) (n : Nat) : Nat × Nat :=
  if n = 0 then r
  else
    let f := r.1 + (b - r.1) / n * n
    (f, min n (r.1 + r.2 - f))

/-- First block and block count of the level group of block b (R28, R129); the block itself at core level. -/
def levelGroup (g : Grid) (lvl b : Nat) : Nat × Nat :=
  if lvl = 0 || g.cohSize = 0 then (b, 1)
  else
    let cohort := pieceOf b (0, g.blocks) g.cohSize
    ((List.range 5).reverse.filter (fun l => lvl ≤ l && l < g.cohLvl)).foldl (fun r l => pieceOf b r (g.groups.getD (l - 1) 0)) cohort

/-- A block of a grid by its linear index. -/
def blockBy (s : State) (gid idx : Nat) : Option (Nat × Block) := s.blocks.find? (fun p => p.2.grid = gid && p.2.idx = idx)

/-! ### Operations that a deterministic launch stages (R372) -/

/-- Bytes of a staged write. -/
def StagedWrite.size (w : StagedWrite) : Nat := if w.red.isSome then 4 else w.bytes.length

/-- Team index under which the write-backs of a block's windows are staged: behind those of its teams (log entry 35). -/
def backTeam : Nat := 16

/-- A byte that a window's write-back has staged lies in n bytes. -/
def backIn (pa n : Nat) (w : StagedWrite) : Bool := w.team = backTeam && pa ≤ w.pa && w.pa < pa + n

/-- Whether a deterministic launch stages the operation: an `append` of a block that does not write in place, within its share (R372). -/
def isStagedAppend (s : State) (tid : Nat) (o : MemOp) : Bool :=
  (s.gridAt (s.teamAt tid).grid).det && !(s.blockAt (s.teamAt tid).block).inPlace && !o.overflow && (match o.kind with
    | .append _ _ _ r => !r
    | _ => false)

/-- A `seal` of a page that an earlier `append` of its team, staged, is still to write: it comes with that one, at the release of the phase (R182, R372). -/
def isStagedSeal (s : State) (tid : Nat) (o : MemOp) : Bool :=
  match o.kind with
  | .sealPg p _ => !o.performed && (s.teamAt tid).memQ.any (fun q => q.id < o.id && !q.performed && isStagedAppend s tid q && (match q.kind with
      | .append _ k _ _ => k = p
      | _ => false))
  | _ => false

/-- An operation that is performed with a phase's release. -/
def isStagedOp (s : State) (tid : Nat) (o : MemOp) : Bool := isStagedAppend s tid o || isStagedSeal s tid o

/-- Bytes that the staged appends of a block's teams hold of its share. -/
def stagedAppends (s : State) (bid : Nat) : Nat :=
  ((s.teams.filter (fun p => p.2.block = bid)).map (fun p => (p.2.memQ.map (fun o => match o.kind with
    | .append e _ _ _ => if !o.performed && isStagedAppend s p.1 o then e * o.accs.length else 0
    | _ => 0)).foldl (· + ·) 0)).foldl (· + ·) 0

/-- Bytes a block has staged of its share: its windows' are outside it (R372; log entry 35). -/
def stagedBytes (s : State) (bid : Nat) : Nat :=
  (((s.blockAt bid).staged.filter (fun w => !w.seen)).map StagedWrite.size).foldl (· + ·) 0 + stagedAppends s bid

/-- Order of the operations of a block in ticket order: phase, team, issue order (R372, R373). -/
def comesBefore (p₁ i₁ n₁ p₂ i₂ n₂ : Nat) : Bool := p₁ < p₂ || (p₁ = p₂ && (i₁ < i₂ || (i₁ = i₂ && n₁ < n₂)))

/-! ### Turns under the ticket (R111, R371, R372; log entry 66) -/

/-- Number of a barrier: level, and the block, or the grid and first block of the level group (R127). -/
def barrierKey (s : State) (bid lvl : Nat) : Nat :=
  let b := s.blockAt bid
  if lvl = 0 then 8 * bid else 8 * (b.grid * 2 ^ 32 + (levelGroup (s.gridAt b.grid) lvl b.idx).1) + lvl

/-- Teams of a block that have not ended. -/
def liveTeams (s : State) (bid : Nat) : KMap Team := s.teams.filter (fun p => p.2.block = bid && p.2.status != .ended)

/-- Teams of a block that have not arrived at the open generation of a barrier. -/
def missing (s : State) (bid lvl : Nat) : KMap Team :=
  (liveTeams s bid).filter (fun p => !(s.barrierAt (barrierKey s bid lvl)).arrived.contains p.1)

/-- The ticket phase that a team is in: its block's, and one more for each arrival of its own that its block has not completed yet (R371). -/
def teamPhase (s : State) (tid : Nat) : Nat :=
  let bid := (s.teamAt tid).block
  (s.blockAt bid).phase +
  ([1, 2, 3, 4].filter (fun l => (s.barrierAt (barrierKey s bid l)).arrived.contains tid && missing s bid l != [])).length

/-- Float reductions and atomics, which keep the ticket order in every space (R111). -/
def AOp.float : AOp → Bool
  | .fadd => true
  | .fmin => true
  | .fmax => true
  | _ => false

/-- A write of so many bytes does not go into the block's staging share: it is full, or the block writes in place (R372). -/
def pastShare (s : State) (bid bytes : Nat) : Bool := (s.blockAt bid).inPlace || decide (Config.stagingShare < stagedBytes s bid + bytes)

/-- An operation of a deterministic launch that keeps the order of its block's teams: an atomic with its result, a float atomic in a stash, a write
that is not staged. -/
def inOrder (s : State) (tid : Nat) (o : MemOp) : Bool :=
  let bid := (s.teamAt tid).block
  let glob := o.accs.any (fun a => a.blk.isNone)
  !o.performed && (match o.kind with
    | .atom op ret => (glob && (ret || pastShare s bid (4 * o.accs.length))) || (op.float && o.accs.any (fun a => a.blk.isSome))
    | .store n => glob && pastShare s bid (n * o.accs.length)
    | .append _ _ _ _ => (s.blockAt bid).inPlace || o.overflow
    | _ => false)

/-- An operation in a queue that writes global memory, or is a float atomic in a stash, and is neither applied nor staged yet. -/
def unapplied (s : State) (tid : Nat) (o : MemOp) : Bool :=
  !o.performed && (match o.kind with
    | .atom op _ => o.accs.any (fun a => a.blk.isNone || op.float)
    | .store _ => o.accs.any (fun a => a.blk.isNone)
    | .append _ _ _ _ => !isStagedAppend s tid o
    | _ => false)

/-- Some operation of the block's teams that comes before a place in ticket order has not been applied or staged. -/
def pendingBefore (s : State) (bid phase index id : Nat) : Bool :=
  s.teams.any (fun q => q.2.block = bid && q.2.memQ.any (fun o => unapplied s q.1 o && comesBefore o.phase q.2.index o.id phase index id))

/-- A team stands at a barrier generation that is open, and that a team of the block has not arrived at. -/
def atOpenBarrier (s : State) (p : Nat × Team) : Option Nat :=
  match p.2.wait with
  | .barrier l gen _ =>
    if (s.barrierAt (barrierKey s p.2.block (lvlNum l))).gen = gen && missing s p.2.block (lvlNum l) != [] then some (lvlNum l) else none
  | _ => none

/-- A team stands still until others of its block act: before its turn, with an operation before its turn, or at an open barrier. -/
def standsStill (s : State) (u : Nat × Team) : Bool := u.2.wait = .ticket || u.2.memQ.any (inOrder s u.1) || (atOpenBarrier s u).isSome

/-- A team of lower index lets another act in a phase: it has ended, or has arrived at the end of that phase, or it stands at a barrier that the other
team, or else only teams that themselves stand still, have yet to arrive at. -/
def givesWay (s : State) (tid phase : Nat) (q : Nat × Team) : Bool :=
  q.2.status = .ended || q.2.live = 0 || phase < teamPhase s q.1 || (match atOpenBarrier s q with
    | none => false
    | some l => (missing s q.2.block l).any (fun u => u.1 = tid) || (missing s q.2.block l).all (standsStill s))

/-- The turn of a team's operation of a phase under its block's ticket: the block holds the ticket of that phase, all that comes before the operation is
applied or staged, and every team of lower index gives way, so that the order is phase, team index, then issue order (R111, R372). -/
def ticketTurnAt (s : State) (tid phase id : Nat) : Bool :=
  let t := s.teamAt tid
  let b := s.blockAt t.block
  b.ticket && phase ≤ b.phase && !pendingBefore s t.block phase t.index id &&
  s.teams.all (fun q => q.2.block ≠ t.block || t.index ≤ q.2.index || givesWay s tid phase q)

/-- The turn of an operation of a team's queue. -/
def MemOp.turn (o : MemOp) (s : State) (tid : Nat) : Bool := ticketTurnAt s tid o.phase o.id

/-- The turn of the instruction that a team is to issue. -/
def ticketTurn (s : State) (tid : Nat) : Bool := ticketTurnAt s tid (teamPhase s tid) (s.teamAt tid).nextOp

/-! ### Stash offsets within windows (R200, R201) -/

/-- Physical address of byte o of a window. -/
def winPa (w : Window) (o : Nat) : Option Nat :=
  (w.maps.find? (fun p => p.1 ≤ o && o < p.1 + p.2.2)).map (fun p => p.2.1 + (o - p.1))

/-- The window of a block that holds a stash offset. -/
def winAt (b : Block) (o : Nat) : Option Window := b.windows.find? (fun w => w.off ≤ o && o < w.off + w.len)

/-- Pieces of n stash bytes that do not cross a multiple of 64: start and length. -/
def pieces64 (a n : Nat) : List (Nat × Nat) :=
  (List.range ((a % 64 + n + 63) / 64)).map (fun i =>
    let lo := if i = 0 then a else (a / 64 + i) * 64
    (lo, min (a + n) ((a / 64 + i + 1) * 64) - lo))

/-! ### Order within a memory queue (R182, R196, R197) -/

/-- Bytes of a row of a tile, borders included, and the tile's bytes. -/
def Tile.pitch (t : Tile) : Nat := (t.cols + 2 * t.h) * t.elem
def Tile.bytes (t : Tile) : Nat := (t.rows + 2 * t.h) * t.pitch

/-- Byte ranges an operation touches: block of the stash or global, start, length. Window operations touch the windows that earlier `smap`s of the team
will have made. -/
def opRanges (s : State) (tid : Nat) (o : MemOp) : List (Option Nat × Nat × Nat) :=
  let t := s.teamAt tid
  let bid := t.block
  let acc (n : Nat) : List (Option Nat × Nat × Nat) := o.accs.flatMap (fun a =>
    (a.blk, a.addr, n) :: (match a.blk with
      | none => []
      | some b => (pieces64 a.addr n).flatMap (fun p => match winAt (s.blockAt b) p.1 with
        | none => []
        | some w => match winPa w (p.1 - w.off) with
          | some pa => [(none, pa, p.2)]
          | none => [])))
  let win (w : Window) : List (Option Nat × Nat × Nat) := (some bid, w.off, w.len) :: w.maps.map (fun m => (none, m.2.1, m.2.2))
  let ahead (p : Nat → Bool) : List (Option Nat × Nat × Nat) := t.memQ.flatMap (fun q => match q.kind with
    | .smap off _ len maps => if !q.performed && q.id < o.id && p off then (some bid, off, len) :: maps.map (fun m => (none, m.2.1, m.2.2)) else []
    | _ => [])
  match o.kind with
  | .load n _ _ => acc n
  | .sload => acc 4
  | .store n => acc n
  | .atom _ _ => acc 4
  | .append _ p n _ => [(none, p, n)]
  | .sealPg p n => [(none, p, n)]
  | .smap off _ len maps => (some bid, off, len) :: maps.map (fun m => (none, m.2.1, m.2.2))
  | .hdecl => acc 32
  | .sunmap off => (s.blockAt bid).windows.flatMap (fun w => if w.off = off then win w else []) ++ ahead (fun k => k = off)
  | .sflush => (s.blockAt bid).windows.flatMap win ++ ahead (fun _ => true)
  | .hpush k => match kGet k (s.blockAt bid).tiles with
    | some t => [(some bid, t.off, t.bytes)]
    | none => []
  | _ => []

def rangesMeet (a b : List (Option Nat × Nat × Nat)) : Bool :=
  a.any (fun x => b.any (fun y => x.1 = y.1 && x.2.1 < y.2.1 + y.2.2 && y.2.1 < x.2.1 + x.2.2))

/-- An operation that joins the memory queue's later operations behind it. -/
def isBarrierOp (o : MemOp) : Bool :=
  o.acq || (match o.kind with
    | .fence => true
    | .fenceq m => m.testBit 0
    | _ => false)

def isFenceq (o : MemOp) : Bool := match o.kind with
  | .fenceq _ => true
  | _ => false

/-- An `fmap` answers for its page alone; it is in no fence and no order. -/
def isFmap (o : MemOp) : Bool := match o.kind with
  | .fmap _ _ => true
  | _ => false

/-- Operations of a team in the queue of a bit of R197 that are not yet performed, older than operation id. -/
def olderInQueue (s : State) (tid bit id : Nat) : Bool :=
  let t := s.teamAt tid
  match bit with
  | 0 => t.memQ.any (fun o => o.id < id && !o.performed && !isFenceq o && !isFmap o && !isStagedOp s tid o)
  | 1 => (s.partAt t.partNo).copyQ.any (fun o => o.tid = tid && o.id < id)
  | 2 => t.matQ.any (fun o => o.id < id)
  | 3 => (s.partAt t.partNo).sfuQ.any (fun o => o.tid = tid && o.id < id)
  | _ => (s.coreAt t.core).fsQ.any (fun o => o.tid = tid && o.id < id)

/-- An earlier `fenceq` of the team that names a queue has not been joined: an operation of that queue waits inside it (R197). -/
def heldByFenceq (s : State) (tid bit id : Nat) : Bool :=
  (s.teamAt tid).memQ.any (fun o => o.id < id && !o.performed && (match o.kind with
    | .fenceq m => m.testBit bit
    | _ => false))

/-- The operation may be performed: nothing older of its team holds it. -/
def opReady (s : State) (tid : Nat) (o : MemOp) : Bool :=
  let older := (s.teamAt tid).memQ.filter (fun p => p.id < o.id && !isFmap p)
  match o.kind with
  | .fmap _ _ => true
  | .fenceq m => (List.range 5).all (fun b => !m.testBit b || !olderInQueue s tid b o.id)
  | _ =>
    !isStagedSeal s tid o && older.all (fun p =>
      p.performed || isStagedOp s tid p || (!isBarrierOp p && (isFenceq p || (!rangesMeet (opRanges s tid p) (opRanges s tid o) && !o.rel && o.kind != .fence))))

/-! ### The log of decisions (R374-R377) -/

/-- Record a decision of a grid unless recording has stopped; the entry that would pass QLOGN stops it (R376). -/
def record (s : State) (gid kind key team lane block : Nat) : State :=
  let g := s.gridAt gid
  if !g.recording || g.logFull then s
  else if g.logBytes < 64 + 32 * (g.log.length + 1) then s.setGrid gid { g with logFull := true }
  else
    let n := (g.log.filter (fun d => d.kind = kind && d.key = key)).length
    s.setGrid gid { g with log := g.log ++ [{ kind := kind, team := team, lane := lane, block := block, key := key, seq := n, idx := 0 }] }

/-- Entries of a replayed log that are not applied yet, for one kind and key. -/
def logLeft (g : Grid) (kind key : Nat) : List Decision := g.log.filter (fun d => d.kind = kind && d.key = key)

/-- Take the first entry of a kind and key off the log. -/
def logTake (kind key : Nat) : List Decision → List Decision
  | [] => []
  | d :: r => if d.kind = kind && d.key = key then r else d :: logTake kind key r

/-- The next entry of a kind and key names this participant. -/
def logNames (g : Grid) (kind key team lane block : Nat) : Bool :=
  match logLeft g kind key with
  | [] => false
  | d :: _ => d.team = team && d.block = block && d.lane = lane

/-- The entry of a kind and key comes off a replayed log. -/
def takeEntry (s : State) (gid kind key : Nat) : State :=
  s.modGrid gid (fun g => { g with
    log := logTake kind key g.log
    fsTaken := match kind, logLeft g kind key with
      | 2, d :: _ => kPut (256 * d.block + d.team) (d.idx + 1) g.fsTaken
      | _, _ => g.fsTaken })

/-- Key of an access's address: the global address, or, of a stash byte, its block's linear index and its offset, with bit 63 set (R375; log entry 67). -/
def accKey (s : State) (a : LaneAcc) : Nat :=
  match a.blk with
  | none => a.va % 2 ^ 64
  | some b => 2 ^ 63 + (s.blockAt b).idx * 2 ^ 22 + a.addr

/-- Whether an operation's applications are decisions, and at which addresses: atomics and reductions at `pkg` or wider, in every space (R374). -/
def decisionKeys (s : State) (o : MemOp) : List (Nat × Nat) :=
  match o.kind with
  | .atom _ _ => if 4 ≤ o.scope then o.accs.map (fun a => (accKey s a, a.lane)) else []
  | _ => []

/-- Apply an operation's decisions: record them, or take their entries off a replayed log; none while the log names another first. -/
def decide1 (s : State) (tid : Nat) (keys : List (Nat × Nat)) (kind : Nat) : Option State :=
  let t := s.teamAt tid
  let b := (s.blockAt t.block).idx
  keys.foldl (fun o k => o.bind (fun s =>
    let g := s.gridAt t.grid
    if g.replay then
      if logNames g kind k.1 t.index k.2 b then some (takeEntry s t.grid kind k.1) else none
    else some (record s t.grid kind k.1 t.index k.2 b))) (some s)

end Sys2Proof.Machine
end

