-- ==== Sys2Proof/Machine/Coherence.lean ====
section
/-! DEFINITION. Homes, the directory protocol between dies, the memory-side cache (22_coherence.md R350-R363, R405), and the lines of a die's
L2 with their timestamps (13_consistency.md R241-R244). A line is named by its physical address divided by 64. -/

namespace Sys2Proof.Machine

/-! ### Bytes of a line -/

/-- Bits of the bytes of a mask. -/
def bitMask (m : ByteMask) : Line :=
  BitVec.ofNat 512 ((List.range 64).foldl (fun a i => if m.getLsbD i then a + 255 * 2 ^ (8 * i) else a) 0)

/-- Bytes of a line replaced under a mask. -/
def mergeLine (old : Line) (m : ByteMask) (d : Line) : Line :=
  if m = BitVec.allOnes 64 then d else (old &&& ~~~(bitMask m)) ||| (d &&& bitMask m)

/-- Mask of n bytes from offset o of a line. -/
def maskOf (o n : Nat) : ByteMask := BitVec.ofNat 64 ((2 ^ n - 1) * 2 ^ o)

/-- Bytes placed at offset o of a line. -/
def lineData (o : Nat) (bs : List Byte) : Line := BitVec.ofNat 512 (leNat bs * 2 ^ (8 * o))

/-- n bytes from offset o of a line, as a number. -/
def lineNat (d : Line) (o n : Nat) : Nat := d.toNat / 2 ^ (8 * o) % 2 ^ (8 * n)

/-- The bytes of a line. -/
def lineBytes (d : Line) : List Byte := leBytes 64 d.toNat

/-! ### Memory and homes (R350, R405) -/

/-- The canonical form of memory: addresses strictly rising, no listed byte equal to what an unlisted address reads as (log entry 7). -/
def Memory.wf (m : List Host.Cell) : Bool := kCanon 0 m

/-- Bytes of device memory. -/
def memRead (s : State) (pa n : Nat) : List Byte := bRead (s.mem.filter (fun p => pa ≤ p.1 && p.1 < pa + n)) pa n
def memWrite (s : State) (pa : Nat) (bs : List Byte) : State := { s with mem := bWrite s.mem pa bs }
def memLine (s : State) (line : Nat) : Line := BitVec.ofNat 512 (leNat (memRead s (64 * line) 64))

/-- The tier extent that holds an address. -/
def extentOf (s : State) (pa : Nat) : Option Extent := s.plat.extents.find? (fun e => e.base ≤ pa && pa < e.base + e.len)

/-- An address lies in a closing or lost extent (R364). -/
def extentGone (s : State) (pa : Nat) : Bool :=
  match extentOf s pa with
  | some e => e.st != .present
  | none => false

/-- Home die of a line; none where no memory is attached. -/
def homeDie (s : State) (line : Nat) : Option Nat :=
  if 64 * line < Config.hbmBytes then some (64 * line / Config.hbmPerDie) else (extentOf s (64 * line)).map (fun e => e.port)

/-- The address lies in HBM or in a tier extent. -/
def backed (s : State) (pa : Nat) : Bool := (homeDie s (pa / 64)).isSome

def isTier (line : Nat) : Bool := Config.hbmBytes ≤ 64 * line

def dirAt (s : State) (h line : Nat) : Dir := kGetD line Dir.reset (s.dieAt h).dir
def setDir (s : State) (h line : Nat) (e : Dir) : State := s.modDie h (fun d => { d with dir := kPut line e d.dir })
def l2At (s : State) (d line : Nat) : Option L2Line := kGet line (s.dieAt d).l2
def setL2 (s : State) (d line : Nat) (e : L2Line) : State := s.modDie d (fun x => { x with l2 := kPut line e x.l2 })
def dropL2 (s : State) (d line : Nat) : State := s.modDie d (fun x => { x with l2 := kDel line x.l2 })

/-- What the home reads: the memory-side cache for a tier line that it holds, else memory (R363). -/
def homeLine (s : State) (h line : Nat) : Line :=
  match kGet line (s.dieAt h).msc with
  | some e => e.data
  | none => memLine s line

/-- What the home writes to a line that needs no room: the memory-side cache for a tier line that it holds, else memory (R363). -/
def homePut (s : State) (h line : Nat) (d : Line) : State :=
  if (kGet line (s.dieAt h).msc).isSome then
    s.modDie h (fun x => { x with msc := kPut line { data := d, dirty := true, used := s.cc } x.msc })
  else memWrite s (64 * line) (lineBytes d)

/-! ### The current value of a line -/

/-- Data of the line wherever it stands: with an owner, on its way, in a write-back buffer, or at home. -/
def viewLine (s : State) (line : Nat) : Line :=
  match homeDie s line with
  | none => 0
  | some h =>
    match (dirAt s h line).tr.bind (fun t => t.data) with
    | some d => d.1
    | none =>
      match s.dies.findSome? (fun p => (kGet line p.2.l2).bind (fun c => if c.st = .m || c.st = .o then some c.data else none)) with
      | some d => d
      | none =>
        match s.dies.findSome? (fun p => (kGet line p.2.wbuf).bind (fun w => if w.acked then none else some w.data)) with
        | some d => d
        | none => homeLine s h line

/-! ### Replacement (R204, R205) -/

/-- Fields of a residency schedule entry (R204). -/
def schedPhase (e : BitVec 128) : Nat := (e.extractLsb' 120 8).toNat
def schedPrio (e : BitVec 128) : Nat := (e.extractLsb' 112 3).toNat
def schedLen (e : BitVec 128) : Nat := (e.extractLsb' 64 48).toNat
def schedBase (e : BitVec 128) : Nat := (e.extractLsb' 6 46).toNat

/-- Priority of a line on a die in its current phase (R205). -/
def linePrio (s : State) (die line : Nat) : Nat :=
  let d := s.dieAt die
  d.sched.foldl (fun p e =>
    if schedLen e != 0 && schedBase e ≤ line && line < schedBase e + schedLen e && (schedPhase e = d.phase || schedPhase e = 255) then
      max p (schedPrio e) else p) 0

/-- Which of two candidates goes first: by priority and address under a schedule, else the least recently used (R205), and of
two used in one cycle the one of lower address (log entry 102). -/
def victimFirst (s : State) (die : Nat) (used : Nat → Nat) (a b : Nat) : Bool :=
  if (s.dieAt die).sched.any (fun e => schedLen e != 0) then
    linePrio s die a < linePrio s die b || (linePrio s die a = linePrio s die b && a ≤ b)
  else used a < used b || (used a = used b && a ≤ b)

/-- The victim among candidates. -/
def victim (s : State) (die : Nat) (used : Nat → Nat) : List Nat → Option Nat
  | [] => none
  | a :: r =>
    match victim s die used r with
    | none => some a
    | some b => some (if victimFirst s die used a b then a else b)

/-! ### The memory-side cache (R363) -/

/-- Every die's copy of a line returns to its home (R361, R363, R366). -/
def recallLine (s : State) (h line : Nat) : State :=
  let d := viewLine s line
  let v := match s.dies.findSome? (fun p => (kGet line p.2.l2).map (fun c => c.ver)) with
    | some v => v
    | none => (dirAt s h line).ver
  let dirty := s.dies.any (fun p => (match kGet line p.2.l2 with
    | some c => c.st = .m || c.st = .o
    | none => false) || (match kGet line p.2.wbuf with
    | some w => !w.acked
    | none => false)) || ((dirAt s h line).tr.bind (fun t => t.data)).any (fun d => d.2.2)
  let s := (List.range Config.dies).foldl (fun s k => s.modDie k (fun x => { x with l2 := kDel line x.l2, wbuf := kDel line x.wbuf })) s
  let s := if dirty then homePut s h line d else s
  setDir s h line { dirAt s h line with ver := v, shr := 0, own := 0, st := 0, tr := none }

/-- A line leaves the memory-side cache: every die copy returns, a dirty line goes to the device (R363). -/
def evictMsc (s : State) (h line : Nat) : State :=
  let s := recallLine s h line
  match kGet line (s.dieAt h).msc with
  | none => s
  | some e =>
    let s := if e.dirty then memWrite s (64 * line) (lineBytes e.data) else s
    s.modDie h (fun d => { d with msc := kDel line d.msc, dir := kDel line d.dir })

/-- Lines that each die's memory-side cache holds. -/
def mscLines (s : State) : Nat := s.plat.mscBytes / 64

/-- The victim among candidates that the cache holds and whose entries are at rest (R205). -/
def mscVictim (s : State) (h : Nat) (cands : List Nat) : Option Nat :=
  let used (l : Nat) : Nat := match kGet l (s.dieAt h).msc with
    | some e => e.used
    | none => 0
  victim s h used (cands.filter (fun l => (kGet l (s.dieAt h).msc).isSome && (dirAt s h l).tr.isNone && (dirAt s h l).waiting = []))

/-- A full cache makes room for a line that it does not hold. -/
def mscRoom (s : State) (h line : Nat) : State :=
  let m := (s.dieAt h).msc
  if (kGet line m).isSome || m.length < mscLines s then s
  else match mscVictim s h (m.map (fun p => p.1)) with
    | none => s
    | some l => evictMsc s h l

/-- What the home writes: the memory-side cache for a tier line, where it has any lines, else memory (R363). -/
def homeWrite (s : State) (h line : Nat) (d : Line) : State :=
  if isTier line && mscLines s ≠ 0 then
    (mscRoom s h line).modDie h (fun x => { x with msc := kPut line { data := d, dirty := true, used := s.cc } x.msc })
  else memWrite s (64 * line) (lineBytes d)

/-- A tier line enters the memory-side cache with VER 0; one that is there is used (R205, R363). -/
def enterMsc (s : State) (h line : Nat) : State :=
  if !isTier line || mscLines s = 0 then s
  else match kGet line (s.dieAt h).msc with
    | some e => s.modDie h (fun x => { x with msc := kPut line { e with used := s.cc } x.msc })
    | none =>
      let s := mscRoom s h line
      setDir (s.modDie h (fun x => { x with msc := kPut line { data := memLine s line, dirty := false, used := s.cc } x.msc })) h line
        { dirAt s h line with ver := 0 }

/-! ### Append pages (R186, R361) -/

/-- The append page that holds an address. -/
def pageOf (s : State) (pa : Nat) : Option (Nat × APage) := s.pages.find? (fun p => p.1 ≤ pa && pa < p.1 + p.2.size)

/-- Lines of an open append page are held in S only (R361). -/
def appendLine (s : State) (line : Nat) : Bool :=
  match pageOf s (64 * line) with
  | some p => p.2.st != .sealed
  | none => false
def sealedLine (s : State) (line : Nat) : Bool :=
  match pageOf s (64 * line) with
  | some p => p.2.st = .sealed
  | none => false
/-- The line's entry stands in BW (R356, R361). -/
def sealingLine (s : State) (line : Nat) : Bool :=
  match pageOf s (64 * line) with
  | some p => p.2.st = .sealing
  | none => false

/-- Lines of a range that a die or a memory-side cache holds, or that are on their way between dies. -/
def heldLines (s : State) (b n : Nat) : List Nat :=
  let here (l : Nat) : Bool := b ≤ 64 * l && 64 * l < b + n
  let sent (d : Dir) : Bool := (d.tr.bind (fun t => t.data)).isSome
  s.dies.foldl (fun a p => ((p.2.msc.map (fun q => q.1)) ++ (p.2.l2.map (fun q => q.1)) ++ (p.2.wbuf.map (fun q => q.1)) ++
    (p.2.dir.filter (fun q => sent q.2)).map (fun q => q.1)).foldl (fun a l => if here l && !a.contains l then a ++ [l] else a) a) []

/-- Every die copy of a range's lines returns to its home (R361). -/
def recallRange (s : State) (b n : Nat) : State :=
  (heldLines s b n).foldl (fun s l => match homeDie s l with
    | none => s
    | some h => recallLine s h l) s

/-! ### Granting a line (R353, R360) -/

/-- The sharer mask without a die, and the bit of a die. -/
def dieBit (d : Nat) : BitVec 8 := BitVec.ofNat 8 (2 ^ d)
def without (m : BitVec 8) (d : Nat) : BitVec 8 := m &&& ~~~(dieBit d)

/-- The home acknowledges a write-back; the data is written only when the sender is the recorded owner (R358). -/
def takeWb (s : State) (h die line : Nat) : State :=
  let e := dirAt s h line
  match kGet line (s.dieAt die).wbuf with
  | none => s
  | some w =>
    let s := if 2 ≤ e.st && e.own = die then
        setDir (homeWrite s h line w.data) h line { e with ver := w.ver, own := 0, st := if e.shr = 0 then 0 else 1 }
      else s
    s.modDie die (fun x => { x with wbuf := kPut line { w with acked := true } x.wbuf })

/-- A write-back reaches its home: acknowledged at once, or behind what the home handles for the line (R356, R358). -/
def sendWb (s : State) (die line : Nat) : State :=
  match homeDie s line with
  | none => s
  | some h =>
    let e := dirAt s h line
    if e.tr.isSome || e.waiting ≠ [] || sealingLine s line then setDir s h line { e with waiting := e.waiting ++ [{ kind := .wb, die := die }] }
    else takeWb s h die line

/-- A die evicts a line of its L2: a clean one silently, a dirty one through its write-back buffer (R354, R358). -/
def evictLine (s : State) (die line : Nat) : State :=
  match l2At s die line with
  | none => s
  | some c =>
    let s := dropL2 s die line
    if c.st = .m || c.st = .o then
      sendWb (s.modDie die (fun x => { x with wbuf := kPut line { data := c.data, ver := c.ver, acked := false } x.wbuf })) die line
    else s

/-- The lanes of an atomic that name a line, as an operation of their own. -/
def MemOp.onLine (o : MemOp) (line : Nat) : MemOp := { o with accs := o.accs.filter (fun a => a.blk.isNone && a.addr / 64 = line) }

/-- An atomic or reduction would write the line as soon as the die may: nothing older of its team holds it (R182, R197), no buffered store has to be
performed first (R182, R233), it has lanes on the line that are not applied, its block applies it now (R372), and no entry of a log comes first (R377). -/
def writesNext (s : State) (tid line : Nat) (o : MemOp) : Bool :=
  let q := o.onLine line
  let first := (s.coreAt (s.teamAt tid).core).sbuf
  match o.kind with
  | .atom _ ret => q.accs ≠ [] && !o.done.contains line && !o.performed && opReady s tid o && !heldByFenceq s tid 0 o.id &&
      (if o.rel && !o.released && 2 ≤ o.scope then first = [] else first.all (fun e => e.line ≠ line)) &&
      (!(s.gridAt (s.teamAt tid).grid).det || ret || (pastShare s (s.teamAt tid).block (4 * o.accs.length) && o.turn s tid)) &&
      (decide1 s tid (decisionKeys s q) 1).isSome
  | _ => false

/-- A write to the line is the next that a core of the die performs: its oldest buffered store, or an atomic (log entry 81). -/
def storeWaits (s : State) (die line : Nat) : Bool :=
  s.cores.any (fun p => dieOf p.1 = die && (match p.2.sbuf with
    | [] => false
    | e :: _ => e.line = line)) ||
  s.teams.any (fun p => p.2.status = .live && dieOf p.2.core = die && p.2.memQ.any (writesNext s p.1 line))

/-- The line was granted for a write that its die performs next (R357). -/
def kept (s : State) (die line : Nat) : Bool := (l2At s die line).any (fun c => c.granted) && storeWaits s die line

/-- The victim among the candidates that the die holds leaves (R205; log entry 15); a line stays until the write that it was granted for (R357). -/
def makeRoom (s : State) (die : Nat) (cands : List Nat) : State :=
  let used (l : Nat) : Nat := match l2At s die l with
    | some c => c.used
    | none => 0
  match victim s die used (cands.filter (fun l => (l2At s die l).isSome && !kept s die l)) with
  | none => s
  | some l => evictLine s die l

/-- A full L2 makes room for one more line: it holds what the memory-side cache leaves of its 768 MiB (R6, R363). -/
def l2Room (s : State) (die : Nat) : State :=
  let l := (s.dieAt die).l2
  if l.length + mscLines s < Config.l2Lines then s else makeRoom s die (l.map (fun p => p.1))

/-- A line enters a die's L2 with wts and rts at the broadcast value (R244), as the die's next arrival, or takes the place of its copy there. -/
def grantLine (s : State) (die line : Nat) (st : L2St) (data : Line) (ver : BitVec 16) : State :=
  let s := if (l2At s die line).isSome then s else l2Room s die
  s.modDie die (fun d => { d with
    l2 := kPut line { st := st, data := data, wts := d.bcast, rts := d.bcast, ver := ver, used := s.cc, arr := d.nextArr } d.l2
    nextArr := d.nextArr + 1 })

/-- A grant of write permission that a store waits for is kept for that store (R357). -/
def keepFor (s : State) (die line : Nat) : State :=
  match l2At s die line with
  | some c => setL2 s die line { c with granted := storeWaits s die line }
  | none => s

/-- Write permission for a die that is the only one left: its own copy changes state, else the home supplies the data (R353, R357). -/
def grantExclusive (s : State) (h die line : Nat) : State :=
  let e := dirAt s h line
  let s := match l2At s die line with
    | some c => setL2 s die line { c with st := if c.st = .o || c.st = .m then .m else .e, used := s.cc }
    | none => grantLine s die line .e (homeLine s h line) e.ver
  keepFor (setDir s h line { e with shr := 0, own := die, st := 2, tr := none }) die line

/-- Shared data from the home: E when no other die holds the line and it may be written, else S (R353, R361). -/
def grantShared (s : State) (h die line : Nat) : State :=
  let e := dirAt s h line
  let others := without e.shr die
  if others = 0 && !appendLine s line then
    setDir (grantLine s die line .e (homeLine s h line) e.ver) h line { e with shr := 0, own := die, st := 2, tr := none }
  else setDir (grantLine s die line .s (homeLine s h line) e.ver) h line { e with shr := e.shr ||| dieBit die, st := 1, tr := none }

/-- Take one request whose entry is not transient (R353, R356). An Upg whose sender has lost its copy is served as the RdX it becomes, and one
whose sender still holds it needs no data; either way the others' copies go first (R357). A request for a line that has been sealed is answered
`sealed`, and a request for write permission on it, or on a line of an open append page, is refused: neither grants anything (R361). Nor does one for
a line of a closing or lost extent, whose access takes its fault at the core (R364). -/
def takeReq (s : State) (h line : Nat) (r : Req) : State :=
  if r.kind ≠ .wb && (sealedLine s line || extentGone s (64 * line) || (appendLine s line && r.kind ≠ .rds)) then s
  else
  let s := enterMsc s h line
  let e := dirAt s h line
  let owned : Bool := 2 ≤ e.st && e.own ≠ r.die
  let tr (k : TrKind) (inv : BitVec 8) (fwd : Option Nat) : State :=
    let t : Trans := { kind := k, req := r.die, waitInv := inv, waitFwd := fwd, data := none, answered := fwd.isNone }
    setDir s h line { e with tr := some t }
  match r.kind with
  | .wb => takeWb s h r.die line
  | .rds => if owned then tr .bfs 0 (some e.own) else grantShared s h r.die line
  | _ =>
    if owned then tr .bfx (without (without e.shr r.die) e.own) (some e.own)
    else if without e.shr r.die = 0 then grantExclusive s h r.die line
    else tr .bi (without e.shr r.die) none

/-- Serve waiting requests in arrival order until one leaves the entry transient (R356). -/
def serveLine (h line : Nat) : Nat → State → State
  | 0, s => s
  | n + 1, s =>
    let e := dirAt s h line
    if e.tr.isSome || sealingLine s line then s
    else match e.waiting with
      | [] => s
      | r :: rest => serveLine h line n (takeReq (setDir s h line { e with waiting := rest }) h line r)

/-- A request arrives at the line's home. -/
def sendReq (s : State) (line : Nat) (r : Req) : State :=
  match homeDie s line with
  | none => s
  | some h =>
    let e := dirAt s h line
    serveLine h line (e.waiting.length + 1) (setDir s h line { e with waiting := e.waiting ++ [r] })

/-! ### Snoops (R353-R355, R358) -/

/-- The owner answers a forward from its L2, from its write-back buffer, or that it has no copy (R354, R358). -/
def ownerAnswer (s : State) (o line : Nat) : Option (Line × BitVec 16 × Bool) :=
  match l2At s o line with
  | some c => some (c.data, c.ver, c.st = .m || c.st = .o)
  | none =>
    match kGet line (s.dieAt o).wbuf with
    | some w => if w.acked then none else some (w.data, w.ver, true)
    | none => none

/-- FwdS and FwdX reach the owner: it keeps S, or goes to I (R353). A forward waits for the write that the owner's grant was for (R357). -/
def answerFwd (s : State) (line : Nat) (kind : TrKind) : State :=
  match homeDie s line with
  | none => s
  | some h =>
    let e := dirAt s h line
    match e.tr with
    | none => s
    | some t =>
      match t.waitFwd with
      | none => s
      | some o =>
        if t.kind ≠ kind || t.answered || kept s o line then s
        else
          let ans := ownerAnswer s o line
          let s := setDir s h line { e with tr := some { t with data := ans, answered := true } }
          match l2At s o line with
          | none => s
          | some c => if kind = .bfs then setL2 s o line { c with st := .s } else dropL2 s o line

/-- Inv reaches a sharer: its L2 loses the line, its cores' copies stay (R355). -/
def answerInv (s : State) (die line : Nat) : State :=
  match homeDie s line with
  | none => s
  | some h =>
    let e := dirAt s h line
    match e.tr with
    | none => s
    | some t =>
      if t.waitInv.getLsbD die then
        setDir (dropL2 s die line) h line { e with tr := some { t with waitInv := without t.waitInv die } }
      else s

/-- A request for write permission ends without it, since the line has become one of an append page (R361): the home has the data, and the requester
keeps a copy that it shared. -/
def refuseReq (s : State) (h line : Nat) (t : Trans) : State :=
  let e := dirAt s h line
  let s := match t.data with
    | some (d, _, true) => homeWrite s h line d
    | _ => s
  let shr := if (l2At s t.req line).isSome then dieBit t.req else 0
  setDir s h line { e with ver := (t.data.map (fun d => d.2.1)).getD e.ver, shr := shr, own := 0, st := if shr = 0 then 0 else 1, tr := none }

/-- A transient request completes: the requester has its data and permission, the directory its new state (R353, R356, R360). -/
def completeReq (s : State) (h line : Nat) (t : Trans) : State :=
  let e := dirAt s h line
  if t.kind ≠ .bfs && appendLine s line then refuseReq s h line t
  else match t.kind, t.data, t.waitFwd with
  | .bfs, some (d, v, dirty), some o =>
    let s := if dirty then homeWrite s h line d else s
    setDir (grantLine s t.req line .s d v) h line
      { e with ver := v, shr := e.shr ||| dieBit o ||| dieBit t.req, own := 0, st := 1, tr := none }
  | .bfs, _, _ =>
    let s := setDir s h line { e with own := 0, st := if e.shr = 0 then 0 else 1, tr := none }
    grantShared s h t.req line
  | .bfx, some (d, v, dirty), _ =>
    keepFor (setDir (grantLine s t.req line (if dirty then .m else .e) d v) h line
      { e with ver := v, shr := 0, own := t.req, st := 2, tr := none }) t.req line
  | .bfx, none, _ =>
    keepFor (setDir (grantLine s t.req line .e (homeLine s h line) e.ver) h line { e with shr := 0, own := t.req, st := 2, tr := none }) t.req line
  | .bi, _, _ => grantExclusive s h t.req line

/-- Every acknowledgement and the data have arrived: the request completes and the next is taken (R353, R356). -/
def snoopDone (s : State) (line : Nat) : State :=
  match homeDie s line with
  | none => s
  | some h =>
    let e := dirAt s h line
    match e.tr with
    | none => s
    | some t =>
      if t.waitInv = 0 && t.answered then serveLine h line (e.waiting.length + 1) (completeReq s h line t)
      else s

/-- Every snoop of a transient request answered in turn, then completed. -/
def settleLine (s : State) (line : Nat) : State :=
  let s := answerFwd (answerFwd s line .bfs) line .bfx
  let s := (List.range Config.dies).foldl (fun s d => answerInv s d line) s
  snoopDone s line

/-! ### Access by a die (R351) -/

/-- The line's entry is free: no transient request, none waiting, not sealing. -/
def lineFree (s : State) (line : Nat) : Bool :=
  match homeDie s line with
  | none => false
  | some h => let e := dirAt s h line; e.tr.isNone && e.waiting = [] && !sealingLine s line

/-- A die obtains a line, with write permission or shared, by its request carried to its end, or uses the copy that it has (R205); none while the entry is transient, or where
write permission is refused (R361). -/
def gainLine (s : State) (die line : Nat) (excl : Bool) : Option State :=
  match l2At s die line with
  | some c =>
    if !excl || c.st = .m || c.st = .e then some (setL2 s die line { c with used := s.cc })
    else if lineFree s line && !appendLine s line then
      some (settleLine (sendReq s line { kind := if c.st = .s then .upg else .rdx, die := die }) line)
    else none
  | none =>
    if lineFree s line && !(excl && appendLine s line) then
      some (settleLine (sendReq s line { kind := if excl then .rdx else .rds, die := die }) line)
    else none

/-- n bytes from a physical address, each from its line's current value. -/
def viewBytes (s : State) (pa n : Nat) : List Byte :=
  ((List.range ((pa % 64 + n + 63) / 64)).flatMap (fun i => lineBytes (viewLine s (pa / 64 + i)))).drop (pa % 64) |>.take n

/-- n bytes as a number. -/
def viewNat (s : State) (pa n : Nat) : Nat := leNat (viewBytes s pa n)

/-! ### Timestamps (R241, R242) -/

/-- a ≤ b modulo 2^16. -/
def tsLe (a b : BitVec 16) : Bool := (b - a).toNat < 2 ^ 15
def tsMax (a b : BitVec 16) : BitVec 16 := if tsLe a b then b else a

/-- A lease end still holds at a logical time (R242). -/
def leaseOk (le pts : BitVec 16) : Bool := (le - pts).toNat ≤ 255

/-- Blocks whose stash is on a core. -/
def onCore (s : State) (c : Nat) : KMap Block :=
  s.blocks.filter (fun p => p.2.core = c && (match p.2.status with
    | .saved => false
    | .flushed => false
    | .retired => false
    | _ => true))

/-- Change every window of the blocks on a core. -/
def mapWindows (s : State) (c : Nat) (g : Window → Window) : State :=
  (onCore s c).foldl (fun s p => s.modBlock p.1 (fun b => { b with windows := b.windows.map g })) s

/-- A core's logical time moves; copies and window lines it passes stay expired (R242). -/
def setPts (s : State) (c : Nat) (v : BitVec 16) : State :=
  if v = (s.coreAt c).pts then s
  else
    let s := s.modCore c (fun k => { k with
      pts := v
      l1 := k.l1.map (fun p => (p.1, { p.2 with expired := p.2.expired || !leaseOk p.2.le v })) })
    mapWindows s c (fun w => { w with
      lines := w.lines.map (fun p => (p.1, { p.2 with expired := p.2.expired || !leaseOk p.2.le v })) })

/-! ### Writes performed at an L2 (R243) -/

/-- Bytes written into a line that the die holds with write permission, at a write timestamp. -/
def l2Put (s : State) (die line : Nat) (m : ByteMask) (d : Line) (ts : BitVec 16) : State :=
  match l2At s die line with
  | none => s
  | some c =>
    setL2 s die line { c with st := .m, data := mergeLine c.data m d, wts := ts, rts := ts, ver := c.ver + 1, used := s.cc, granted := false }

/-- A write by an agent without logical time, at a die's L2: the later of the broadcast value and rts + 1 (R243). One to a closing or lost extent is not
performed, and the error log of its home says so (R364, R366; log entry 64). -/
def agentLineWrite (s : State) (die line : Nat) (m : ByteMask) (d : Line) : Option State :=
  if extentGone s (64 * line) then some (logAt s ((homeDie s line).getD 0) (.extentLostWrite (64 * line)))
  else match gainLine s die line true with
  | none => none
  | some s =>
    match l2At s die line with
    | none => none
    | some c => some (l2Put s die line m d (tsMax (s.dieAt die).bcast (c.rts + 1)))

/-- Pieces of a byte string by line: line, mask, data. -/
def splitLines (pa : Nat) (bs : List Byte) : List (Nat × ByteMask × Line) :=
  (List.range ((pa % 64 + bs.length + 63) / 64)).map (fun i =>
    let lo := if i = 0 then pa % 64 else 0
    let skip := if i = 0 then 0 else 64 * i - pa % 64
    let part := (bs.drop skip).take (64 - lo)
    (pa / 64 + i, maskOf lo part.length, lineData lo part))

/-- A write by an agent without logical time; none while some line's entry is transient. -/
def agentWrite (s : State) (die pa : Nat) (bs : List Byte) : Option State :=
  (splitLines pa bs).foldl (fun o p => o.bind (fun s => agentLineWrite s die p.1 p.2.1 p.2.2)) (some s)

end Sys2Proof.Machine
end

