-- ==== Sys2Proof/Machine/CoreMem.lean ====
section
/-! DEFINITION. A core's view of global memory: L1 copies, stash windows, store buffer, and the loads and stores performed through them
(13_consistency.md R229, R237, R241-R243; 11_memory.md R201, R202). -/

namespace Sys2Proof.Machine

/-! ### Lines that an access may not reach (R177, R364) -/

/-- Some of n bytes are marked poisoned (R177, R367, R392). -/
def poisonIn (s : State) (pa n : Nat) : Bool := s.dies.any (fun d => d.2.poison.any (fun r => r.1 < pa + n && pa < r.1 + r.2))

/-! ### Windows (R200, R201) -/

/-- Line indexes of a window that map a line: several where pages of the window have one frame. -/
def winIndexes (w : Window) (line : Nat) : List Nat :=
  (w.maps.filter (fun p => p.2.1 ≤ 64 * line && 64 * line < p.2.1 + p.2.2)).map (fun p => (p.1 + (64 * line - p.2.1)) / 64)

/-- Replace the window of a block that starts at an offset. -/
def setWindow (s : State) (b : Nat) (w : Window) : State :=
  s.modBlock b (fun k => { k with windows := k.windows.map (fun v => if v.off = w.off then w else v) })

/-- Windows of a core's blocks that map a line: block, window, line index. -/
def winsOf (s : State) (c line : Nat) : List (Nat × Window × Nat) :=
  (onCore s c).flatMap (fun p => p.2.windows.flatMap (fun w => (winIndexes w line).map (fun i => (p.1, w, i))))

/-- The stash bytes of a window line. -/
def winData (s : State) (b : Nat) (w : Window) (i : Nat) : Line := BitVec.ofNat 512 (leNat (stashRead s b (w.off + 64 * i) 64))

/-- Lease of a line of a window: that of the region its page lies in (R241). -/
def winLease (w : Window) (i : Nat) : Nat :=
  match w.maps.find? (fun p => p.1 ≤ 64 * i && 64 * i < p.1 + p.2.2) with
  | some p => kGetD p.1 10 w.leases
  | none => 10

/-- A window line that a load may read in place: dirty, or clean under a valid lease (R201). -/
def winReadable (s : State) (c : Nat) (w : Window) (i : Nat) : Bool :=
  match kGet i w.lines with
  | none => false
  | some l => l.dirty != 0 || (!l.expired && leaseOk l.le (s.coreAt c).pts)

/-- The core's readable copy of a line in its windows. -/
def winCopy (s : State) (c line : Nat) : Option (WLine × Line) :=
  (winsOf s c line).findSome? (fun p =>
    if winReadable s c p.2.1 p.2.2 then (kGet p.2.2 p.2.1.lines).map (fun l => (l, winData s p.1 p.2.1 p.2.2)) else none)

/-- Bytes of a line that some of these windows hold dirty. -/
def dirtyAmong (line : List (Nat × Window × Nat)) : ByteMask :=
  line.foldl (fun m p => match kGet p.2.2 p.2.1.lines with
    | some l => m ||| l.dirty
    | none => m) 0

/-- Bytes of a line that some window of the core holds dirty. -/
def dirtyOf (s : State) (c line : Nat) : ByteMask := dirtyAmong (winsOf s c line)

/-- Bytes of a line that some window of the block holds dirty. -/
def dirtyIn (s : State) (bid line : Nat) : ByteMask := dirtyAmong ((winsOf s (s.blockAt bid).core line).filter (fun p => p.1 = bid))

/-- Put a filled line into a window. -/
def putWLine (s : State) (b off i : Nat) (l : WLine) : State :=
  s.modBlock b (fun k => { k with windows := k.windows.map (fun v => if v.off = off then { v with lines := kPut i l v.lines } else v) })

/-! ### L1 copies (R242) -/

def l1At (s : State) (c line : Nat) : Option L1Copy := kGet line (s.coreAt c).l1
def setL1 (s : State) (c line : Nat) (x : L1Copy) : State := s.modCore c (fun k => { k with l1 := kPut line x k.l1 })
def copyValid (s : State) (c : Nat) (x : L1Copy) : Bool := !x.expired && leaseOk x.le (s.coreAt c).pts

/-- The L2 serves a load or renewal of a core (R242): the read timestamp covers the new lease, the core's time catches up; the data, version,
wts and lease end of the copy. -/
def l2Serve (s : State) (c line lease : Nat) : Option (State × L2Line × BitVec 16) :=
  let die := dieOf c
  match gainLine s die line false with
  | none => none
  | some s =>
    match l2At s die line with
    | none => none
    | some e =>
      let p := (s.coreAt c).pts
      let le := p + BitVec.ofNat 16 lease
      let e := { e with rts := tsMax e.rts le, used := s.cc }
      some (setPts (setL2 s die line e) c (tsMax p e.wts), e, le)

/-- A copy from an L2 service: renewed in place when wts and version still match, else fetched (R242). -/
def fetchCopy (s : State) (c line lease : Nat) : Option (State × Line) :=
  let p := (s.coreAt c).pts
  match l2Serve s c line lease with
  | none => none
  | some (s, e, le) =>
    let x : L1Copy := match l1At s c line with
      | some x =>
        if x.wts = e.wts && x.ver = e.ver && x.arr = e.arr then { x with le := le, fetched := p, expired := false }
        else { data := e.data, wts := e.wts, ver := e.ver, le := le, fetched := p, own := false, expired := false, arr := e.arr }
      | none => { data := e.data, wts := e.wts, ver := e.ver, le := le, fetched := p, own := false, expired := false, arr := e.arr }
    let x := { x with expired := !leaseOk le (s.coreAt c).pts }
    some (setL1 s c line x, x.data)

/-- A load that a valid copy of the core serves does not reach the line (R364). -/
def servedByCopy (s : State) (c line : Nat) : Bool :=
  (winCopy s c line).isSome || (match l1At s c line with
    | some x => copyValid s c x
    | none => false)

/-- Fill a window line as a global load is served (R201): from the core's copy in another window or its L1, with the lease that copy has, else from the
L2 with a lease of its own. The window's line then is the core's copy. -/
def fillWindow (s : State) (c b : Nat) (w : Window) (i line : Nat) : Option State :=
  let put (s : State) (l : WLine) (d : Line) : State :=
    (putWLine (stashWrite s b (w.off + 64 * i) (lineBytes d)) b w.off i l).modCore c (fun k => { k with l1 := kDel line k.l1 })
  match winCopy s c line with
  | some (l, d) => some (put s { l with dirty := 0 } d)
  | none =>
    match (l1At s c line).filter (copyValid s c) with
    | some x => some (put s { pa := line, le := x.le, wts := x.wts, ver := x.ver, expired := false, dirty := 0, fetched := x.fetched, arr := x.arr } x.data)
    | none =>
      let p := (s.coreAt c).pts
      (l2Serve s c line (winLease w i)).map (fun r => put r.1
        { pa := line, le := r.2.2, wts := r.2.1.wts, ver := r.2.1.ver, expired := !leaseOk r.2.2 (r.1.coreAt c).pts, dirty := 0, fetched := p, arr := r.2.1.arr }
        r.2.1.data)

/-- A staged byte that a window on a core held, on a line. -/
def StagedWrite.seenAt (w : StagedWrite) (c line : Nat) : Bool := w.seen && w.core = c && w.pa / 64 = line

/-- A line with the bytes that windows of a core held and that a deterministic launch has staged: until they are performed they are still the core's copy
(R201, R230). Bytes that a window holds dirty are younger. -/
def seenOver (s : State) (c line : Nat) (d : Line) : Line :=
  let young := dirtyOf s c line
  s.blocks.foldl (fun d p => p.2.staged.foldl (fun d w =>
    if w.seenAt c line then mergeLine d (maskOf (w.pa % 64) w.bytes.length &&& ~~~young) (lineData (w.pa % 64) w.bytes) else d) d) d

/-- A write of the core takes the place of such bytes. -/
def dropSeen (s : State) (c line : Nat) (m : ByteMask) : State :=
  let hit (w : StagedWrite) : Bool := w.seenAt c line && m.getLsbD (w.pa % 64)
  if s.blocks.any (fun p => p.2.staged.any hit) then
    { s with blocks := s.blocks.map (fun p => (p.1, { p.2 with staged := p.2.staged.filter (fun w => !hit w) })) }
  else s

/-- A line with what the core's windows have staged, then the core's stores that are not yet at the L2, oldest first (R182, R229, R231). -/
def overlay (s : State) (c line : Nat) (d : Line) : Line :=
  (s.coreAt c).sbuf.foldl (fun d e => if e.line = line then mergeLine d e.mask e.data else d) (seenOver s c line d)

/-- A window line that maps a line and has been filled; one that is unfilled stays so until it is touched through the stash space (R201). -/
def filledWin (s : State) (c line : Nat) : Option (Nat × Window × Nat) := (winsOf s c line).find? (fun p => (kGet p.2.2 p.2.1.lines).isSome)

/-- The line a global load of a core reads (R189, R201, R242): a sealed line as it is, a filled window's copy, a valid L1 copy, or the L2; then the
core's own buffered stores. -/
def loadLine (s : State) (c line lease : Nat) : Option (State × Line) :=
  if sealedLine s line then some (s, viewLine s line)
  else
    let r : Option (State × Line) :=
      match filledWin s c line with
      | some (b, w, i) =>
        match winCopy s c line with
        | some r => some (s, r.2)
        | none => (fillWindow s c b w i line).map (fun s => (s, winData s b w i))
      | none =>
        match l1At s c line with
        | some x => if copyValid s c x then some (s, x.data) else fetchCopy s c line lease
        | none => fetchCopy s c line lease
    r.map (fun p => (p.1, overlay p.1 c line p.2))

/-- What reads that take no lease see from a core: its copy in a window that maps the line, else the current value; then the core's buffered stores
(instruction fetch, engine queues; R201). -/
def coreView (s : State) (c line : Nat) : Line :=
  overlay s c line (match winCopy s c line with
    | some r => r.2
    | none => viewLine s line)

/-- n bytes as a core's fetch or engine queue reads them. -/
def coreBytes (s : State) (c pa n : Nat) : List Byte :=
  ((List.range ((pa % 64 + n + 63) / 64)).flatMap (fun i => lineBytes (coreView s c (pa / 64 + i)))).drop (pa % 64) |>.take n

/-! ### Requests at HBM channels (R380, R381) -/

/-- Stack of a line (R405). -/
def stackOf (line : Nat) : Nat := 2 * (64 * line / Config.hbmPerDie) + 64 * line / 4096 % 2

/-- Deadline stamp of a class now: the clock in 40 ns units and the class's budget (R380, R382). -/
def stampOf (s : State) (cls : Nat) : Nat := (s.cc / 28 + min 2047 ((s.plat.msbud.extractLsb' (12 * cls) 12).toNat)) % 4096

/-- A request of a requester reaches the line's stack. -/
def chanRequest (s : State) (cls who line : Nat) : State :=
  if isTier line then s
  else
    let w := (s.plat.mswgt.extractLsb' (4 * (cls - 1)) 4).toNat
    let r : ChanReq := { stack := stackOf line, line := line, cls := cls, stamp := stampOf s cls, who := who, wgt := w }
    s.setPlat { s.plat with chan := s.plat.chan ++ [r] }

/-! ### Frames (R186, R289) -/

/-- No core keeps anything of a frame from its earlier use: copies, window lines, or stores on their way (R186, R189). -/
def forgetFrame (s : State) (f n : Nat) : State :=
  let out (line : Nat) : Bool := !(f < 64 * line + 64 && 64 * line < f + n)
  { s with
    cores := s.cores.map (fun p => (p.1, { p.2 with l1 := p.2.l1.filter (fun q => out q.1), sbuf := p.2.sbuf.filter (fun e => out e.line) }))
    blocks := s.blocks.map (fun p => (p.1, { p.2 with
      windows := p.2.windows.map (fun w => { w with lines := w.lines.filter (fun q => out q.2.pa) })
      staged := p.2.staged.filter (fun w => out (w.pa / 64)) })) }

/-! ### Stores (R201, R229, R243) -/

/-- The writer's own copies of a line take the bytes it wrote (R201, R243): the L1 copy and clean window lines become the line as it now stands, with
le := pts and that time as their fetch time (log entry 55). Of a dirty window line, which is never refilled, the written bytes alone change, and they are
no longer dirty; so too in the clean windows of a line that another window holds dirty, since all are one copy. `older` marks a write that the core made
before those bytes became dirty: they keep what they hold. -/
def ownCopies (s : State) (c line : Nat) (m : ByteMask) (older : Bool) (e : L2Line) : State :=
  let s := match l1At s c line with
    | some _ => setL1 s c line { data := e.data, wts := e.wts, ver := e.ver, le := e.wts, fetched := e.wts, own := true, expired := false, arr := e.arr }
    | none => s
  let held := dirtyOf s c line
  (winsOf s c line).foldl (fun s p =>
    match kGet p.2.2 p.2.1.lines with
    | none => s
    | some l =>
      let put (k : ByteMask) (l : WLine) : State :=
        putWLine (stashWrite s p.1 (p.2.1.off + 64 * p.2.2) (lineBytes (mergeLine (winData s p.1 p.2.1 p.2.2) k e.data))) p.1 p.2.1.off p.2.2 l
      if held = 0 then put (BitVec.allOnes 64) { l with le := e.wts, wts := e.wts, ver := e.ver, expired := false, fetched := e.wts, arr := e.arr }
      else if older then put (m &&& ~~~held) l
      else put m { l with dirty := l.dirty &&& ~~~m }) s

/-- A store, atomic or engine write of a core performed at its die's L2 (R243): the writer's jump, the new version, the writer's own copies. -/
def coreWriteAs (older : Bool) (s : State) (c line : Nat) (m : ByteMask) (d : Line) : Option State :=
  let die := dieOf c
  match gainLine s die line true with
  | none => none
  | some s =>
    match l2At s die line with
    | none => none
    | some e =>
      let ts := tsMax (s.coreAt c).pts (e.rts + 1)
      let s := l2Put (setPts s c ts) die line m d ts
      match l2At s die line with
      | none => none
      | some e => some (ownCopies (if older then s else dropSeen s c line m) c line m older e)

def coreWrite (s : State) (c line : Nat) (m : ByteMask) (d : Line) : Option State := coreWriteAs false s c line m d

/-- The trap of a queued operation waits for its team. -/
def pendTrap (s : State) (tid : Nat) (tr : Trap) : State :=
  s.modTeam tid (fun t => if t.status = .live && t.live ≠ 0 then
    { t with pendMat := t.pendMat ++ [{ cause := tr.cause, i0 := tr.i0, i1 := tr.i1, i2 := tr.i2, i3 := tr.i3, strm := false }] } else t)

/-- A queued access of a team has reached a line of a closing or lost extent: the Extent Lost trap waits for the team (R175, R364; log entry 64). -/
def pendLost (s : State) (tid a : Nat) : State := pendTrap s tid { cause := 0x13, i0 := loWord a, i1 := hiWord a }

/-- A buffered store that reaches a line of a closing or lost extent is not performed: the die's error log says so, and its team takes the fault (R364; log
entry 64). -/
def lostStore (s : State) (e : SBuf) : State := pendLost (logAt s ((homeDie s e.line).getD 0) (.extentLostWrite (64 * e.line))) e.tid e.va

/-- The oldest store of a core's buffer is performed at the L2 (R229); a line that the die has to fetch for it is a request in the store's class (R380). -/
def performSbuf (s : State) (c : Nat) (e : SBuf) : Option State :=
  let fetched := (l2At s (dieOf c) e.line).isNone
  (coreWrite s c e.line e.mask e.data).map (fun s => if fetched then chanRequest s e.cls c e.line else s)

/-- Perform the n oldest stores of a core's buffer at the L2 (R229). -/
def drainN (c : Nat) : Nat → State → Option State
  | 0, s => some s
  | n + 1, s =>
    match (s.coreAt c).sbuf with
    | [] => some s
    | e :: r =>
      let s := s.modCore c (fun k => { k with sbuf := r })
      if extentGone s (64 * e.line) then drainN c n (lostStore s e)
      else match performSbuf s c e with
      | none => none
      | some s => drainN c n s

/-- Perform every buffered store of a core (R233). -/
def drainAll (s : State) (c : Nat) : Option State := drainN c (s.coreAt c).sbuf.length s

/-- How many stores stand in the buffer up to the last one of a team, or the last one on a line. -/
def sbufUpTo (p : SBuf → Bool) (q : List SBuf) : Nat := q.length - (q.reverse.takeWhile (fun e => !p e)).length

/-- Perform the buffered stores up to the last one that satisfies p. -/
def drainTo (s : State) (c : Nat) (p : SBuf → Bool) : Option State := drainN c (sbufUpTo p (s.coreAt c).sbuf) s

/-- Bytes of a core's engine written line by line (R243), each after the core's buffered stores to the line: a queue's operation that a join or a
flag orders after a store is performed after it (R238). -/
def coreWriteBytes (s : State) (c pa : Nat) (bs : List Byte) : Option State :=
  (splitLines pa bs).foldl (fun o p => o.bind (fun s => (drainTo s c (fun e => e.line = p.1)).bind (fun s => coreWrite s c p.1 p.2.1 p.2.2))) (some s)

/-! ### Acquire (R201, R237) -/

/-- An acquire at `quad` or wider: leased copies expire, but for the core's own current write; clean window lines become unfilled. -/
def acquireAt (s : State) (c scope : Nat) : State :=
  if scope ≤ 1 then s
  else
    let cur (line : Nat) (x : L1Copy) : Bool := x.own && (match l2At s (dieOf c) line with
      | some e => e.wts = x.wts && e.ver = x.ver && e.arr = x.arr
      | none => false)
    let s := s.modCore c (fun k => { k with
      l1 := k.l1.map (fun p => (p.1, { p.2 with expired := p.2.expired || !cur p.1 p.2 })) })
    mapWindows s c (fun w => { w with lines := w.lines.filter (fun p => p.2.dirty != 0) })

/-! ### Requests of a step (R380, R381) -/

/-- The lines that a step brought into a die's L2 were requests at their channels, of a core's buffered stores each in its own class, of the rest in
the step's. -/
def noteFetches (s : State) (core cls : Nat) (s' : State) : State :=
  let told := s'.plat.chan.drop s.plat.chan.length
  ((s'.dieAt (dieOf core)).l2.filter (fun p => (l2At s (dieOf core) p.1).isNone && !told.any (fun r => r.line = p.1))).foldl
    (fun s p => chanRequest s cls core p.1) s'

def noteOut (s : State) (core cls : Nat) (o : Out) : Out :=
  match o with
  | .next s' => .next (noteFetches s core cls s')
  | o => o

end Sys2Proof.Machine
end

