-- ==== Sys2Proof/Machine/Translate.lean ====
section
/-! DEFINITION. Regions, TLBs, page walks and translation faults (16_scheduling_faults.md R278-R284). -/

namespace Sys2Proof.Machine

/-! ### Regions (R278) -/

/-- Fields of a region attribute file entry. -/
def rfRoot (e : BitVec 128) : Nat := (e.extractLsb' 76 40).toNat * 4096
def rfFtp (e : BitVec 128) : Nat := (e.extractLsb' 20 3).toNat
def rfPool (e : BitVec 128) : Nat := (e.extractLsb' 16 4).toNat
def rfFt (e : BitVec 128) : Bool := e.getLsbD 15
def rfLease (e : BitVec 128) : Nat := let n := (e.extractLsb' 7 8).toNat; if n = 0 then 10 else n
def rfClass (e : BitVec 128) : Nat := (e.extractLsb' 4 2).toNat
def rfPsz (e : BitVec 128) : Nat := (e.extractLsb' 2 2).toNat
def rfValid (e : BitVec 128) : Bool := e.getLsbD 0

/-- Reserved bits of a valid entry are zero. -/
def rfOk (e : BitVec 128) : Bool :=
  !rfValid e || (e.extractLsb' 116 12 = 0 && e.extractLsb' 23 53 = 0 && !e.getLsbD 6 && !e.getLsbD 1)

/-- Page size of a PSZ code: log2 of its bytes. -/
def pszBits (p : Nat) : Nat := if p = 0 then 12 else if p = 1 then 16 else if p = 2 then 21 else 30
/-- Level of the leaf (R279). -/
def leafLevel (p : Nat) : Nat := if p ≤ 1 then 1 else p

/-- The region entry of a virtual address in a context, as a die's walkers hold it. -/
def regionOf (s : State) (die asid va : Nat) : BitVec 128 := ((kGetD asid [] (s.dieAt die).rafs)[va / 2 ^ 53 % 16]?).getD 0

/-- Page size in bytes and page base of an address. -/
def pageSize (e : BitVec 128) : Nat := 2 ^ pszBits (rfPsz e)
def pageBase (e : BitVec 128) (va : Nat) : Nat := va / pageSize e * pageSize e

/-! ### Lookup (R281, R282) -/

/-- Outcome of a translation: the physical address and its entry, a miss, or a fault with kind, level, access bits and waiters. -/
inductive XRes where
  | ok (pa : Nat) (e : TlbEntry)
  | miss
  | bad (kind level acc waiters : Nat)
  deriving DecidableEq, Repr

/-- Access bits of %tinfo2 (R281). -/
def accR : Nat := 1
def accW : Nat := 2
def accX : Nat := 4
def accA : Nat := 8

/-- Permission for an access (R281): atomics need R and W. -/
def permOk (e : TlbEntry) (acc : Nat) : Bool :=
  (!acc.testBit 0 || e.r) && (!acc.testBit 1 || e.w) && (!acc.testBit 2 || e.x) && (!acc.testBit 3 || (e.r && e.w))
def isWriteAcc (acc : Nat) : Bool := acc.testBit 1 || acc.testBit 3

def findTlb (l : List TlbEntry) (asid va : Nat) : Option TlbEntry :=
  l.find? (fun e => e.asid = asid && e.vpage ≤ va && va < e.vpage + e.size)

/-- Merged waiters and access types of the fault a team claimed (R281, R283). -/
def claimed (s : State) (die tid page : Nat) : Option Merge :=
  (s.dieAt die).stage.find? (fun m => m.claimant = tid && m.ft && !m.served && m.page = page)

/-- Teams that wait for the service of a merge, its claimant among them (R283). -/
def Merge.count (m : Merge) : Nat := ((if m.ft then [m.claimant] else []) ++ m.waiters ++ m.engines).eraseDups.length

/-- Translate an address for a team: what its walks found, else its core's TLB, else a miss. A first write through a clean leaf misses, so
that the walker sets D (R280). A fault of kind 2, which no walk precedes, gives level 5 (log entry 85). -/
def translate (s : State) (tid va acc : Nat) : XRes :=
  let t := s.teamAt tid
  let die := dieOf t.core
  let asid := (s.gridAt t.grid).asid
  let r := regionOf s die asid va
  if 2 ^ 57 ≤ va || !rfValid r then .bad 2 5 acc 1
  else
    match t.walkFault.find? (fun f => f.va = pageBase r va && f.acc &&& acc != 0) with
    | some f =>
      match claimed s die tid f.va with
      | some m => .bad f.kind f.level m.acc m.count
      | none => .bad f.kind f.level f.acc f.waiters
    | none =>
      match (match findTlb t.xlat asid va with
        | some e => some e
        | none => findTlb (s.coreAt t.core).tlb asid va) with
      | none => .miss
      | some e =>
        if !permOk e acc then .bad 3 (leafLevel (rfPsz r)) acc 1
        else if isWriteAcc acc && !e.dirty then .miss
        else .ok (e.ppage + (va - e.vpage)) e

/-- The Translation fault of an address (R281). -/
def xlatTrap (va kind level acc waiters : Nat) : Trap :=
  { cause := 0x12, i0 := loWord va, i1 := hiWord va, i2 := BitVec.ofNat 32 (acc + 16 * level + 65536 * waiters),
    i3 := BitVec.ofNat 32 kind }

/-- A pending not-present trap of a claimant is taken with what its merge has gathered by then (R281, R283). -/
def mergedTrap (s : State) (tid : Nat) (tr : Trap) : Trap :=
  let t := s.teamAt tid
  let va := tr.i0.toNat + 2 ^ 32 * tr.i1.toNat
  if tr.cause = 0x12 && tr.i3 = 1 then
    match claimed s (dieOf t.core) tid (pageBase (regionOf s (dieOf t.core) (s.gridAt t.grid).asid va) va) with
    | some m => xlatTrap va 1 (tr.i2.toNat / 16 % 16) m.acc m.count
    | none => tr
  else tr

/-! ### The walk (R279, R280) -/

/-- Index of a virtual address at a level. -/
def walkIndex (psz level va : Nat) : Nat :=
  if level = 5 then va / 2 ^ 48 % 32
  else if level = 1 then (if psz = 1 then va / 2 ^ 16 % 32 else va / 2 ^ 12 % 512)
  else va / 2 ^ (12 + 9 * (level - 1)) % 512

/-- A bad entry (R280). -/
def pteBad (psz level e : Nat) : Bool :=
  let leaf := decide (level = leafLevel psz)
  e / 2 ^ 52 != 0 || e / 2 ^ 8 % 16 != 0 || e.testBit 2 || e.testBit 1 != leaf ||
  (!leaf && e / 8 % 32 != 0) || (leaf && e / 4096 % 2 ^ (pszBits psz - 12) != 0)

/-- Physical base of the next table or of the page. -/
def ptePpn (e : Nat) : Nat := e / 4096 % 2 ^ 40 * 4096

/-- Outcome of a descent: the leaf entry with its address, a faulting level, or a table in no memory. -/
inductive Descent where
  | leaf (addr e : Nat)
  | bad (kind level addr : Nat)
  | noMem (pa : Nat)
  deriving DecidableEq, Repr

/-- Descend from a table at a level. -/
def descend (s : State) (psz va : Nat) : Nat → Nat → Descent
  | 0, base => .noMem base
  | n + 1, base =>
    let a := base + 8 * walkIndex psz (n + 1) va
    if !backed s a then .noMem a
    else
      let e := viewNat s a 8
      if e % 2 = 0 then .bad 1 (n + 1) a
      else if pteBad psz (n + 1) e then .bad 4 (n + 1) a
      else if n + 1 = leafLevel psz then .leaf a e
      else descend s psz va n (ptePpn e)

/-- TLB entry of a leaf. -/
def entryOf (r : BitVec 128) (asid va e : Nat) : TlbEntry :=
  { asid := asid, vpage := pageBase r va, size := pageSize r, ppage := ptePpn e, r := e.testBit 3, w := e.testBit 4, x := e.testBit 5,
    dirty := e.testBit 7, mclass := rfClass r, lease := rfLease r }

/-- The level at which a walk of a page that is not present stops. -/
def stopLevel (s : State) (die asid va : Nat) : Nat :=
  let r := regionOf s die asid va
  match descend s (rfPsz r) va 5 (rfRoot r) with
  | .bad _ l _ => l
  | _ => leafLevel (rfPsz r)

/-- A frame of an append-class region that nothing has recorded counts as one just obtained: open, its tail 0, no die holding a line of it but for
reading from then on, no core keeping anything of it (R186, R189, R361; log entry 34). -/
def obtainFrame (s : State) (e : TlbEntry) : State :=
  if e.mclass = 1 && !s.pages.any (fun p => p.1 ≤ e.ppage && e.ppage < p.1 + p.2.size) then
    let s := forgetFrame (recallRange s e.ppage e.size) e.ppage e.size
    { s with pages := kPut e.ppage { size := e.size, tail := 0, st := .opened, pending := 0, recalled := [] } s.pages }
  else s

/-- Outcome of a walk: the translation and the state with A and D set, a fault, no memory, or the entry's line is busy. -/
inductive WalkRes where
  | ok (s : State) (e : TlbEntry)
  | bad (kind level : Nat)
  | noMem (pa : Nat)
  | busy
  deriving Repr

/-- A walk for an access (R279, R280): A is set on the first access through the leaf, D on the first write, as a write of the entry; a frame
of an append-class region is recorded as one. A command processor's walk may end in host memory (R239). -/
def walkIn (host : Bool) (s : State) (die asid va acc : Nat) : WalkRes :=
  let r := regionOf s die asid va
  if 2 ^ 57 ≤ va || !rfValid r then .bad 2 5
  else
    match descend s (rfPsz r) va 5 (rfRoot r) with
    | .noMem pa => .noMem pa
    | .bad k l _ => .bad k l
    | .leaf a e =>
      let x := entryOf r asid va e
      if !permOk x acc then .bad 3 (leafLevel (rfPsz r))
      else if !host && !backed s x.ppage then .noMem x.ppage
      else
        let e1 := e ||| 64 ||| (if isWriteAcc acc then 128 else 0)
        if e1 = e then .ok (obtainFrame s x) x
        else
          match agentWrite s die a (leBytes 8 e1) with
          | none => .busy
          | some s => .ok (obtainFrame s x) (entryOf r asid va e1)

def walk (s : State) (die asid va acc : Nat) : WalkRes := walkIn false s die asid va acc

/-- A translation enters the core's TLB, in place of older ones of the page; past 1,024 entries the oldest leaves. -/
def tlbPut (s : State) (c : Nat) (e : TlbEntry) : State :=
  s.modCore c (fun k => { k with
    tlb := (e :: k.tlb.filter (fun x => !(x.asid = e.asid && x.vpage = e.vpage))).take Config.tlbEntries })

/-! ### Waits of a team and of its streams -/

/-- Who waits: the team's own stream, or a forked one. -/
def Team.waitOf (t : Team) : Option Eng → Wait
  | none => t.wait
  | some .mat => match t.streamA with
    | some x => x.wait
    | none => .none
  | some .copy => match t.streamC with
    | some x => x.wait
    | none => .none
def Team.setWait (t : Team) (e : Option Eng) (w : Wait) : Team :=
  match e with
  | none => { t with wait := w }
  | some .mat => { t with streamA := t.streamA.map (fun x => { x with wait := w }) }
  | some .copy => { t with streamC := t.streamC.map (fun x => { x with wait := w }) }

/-- The first of the team's own stream and its forked ones whose wait passes a test. -/
def Team.waiter (t : Team) (p : Wait → Bool) : Option (Option Eng) :=
  [none, some Eng.mat, some Eng.copy].find? (fun e => p (t.waitOf e))

/-- A team becomes ready: its waiting time starts (R35). -/
def wake (s : State) (tid : Nat) (e : Option Eng) : State :=
  s.modTeam tid (fun t => let t := t.setWait e .none; { t with sched := { t.sched with readySince := s.cc } })

/-- Every stream of a team whose wait passes a test becomes ready. -/
def wakeAll (s : State) (tid : Nat) (p : Wait → Bool) : State :=
  [none, some Eng.mat, some Eng.copy].foldl (fun s e => if p ((s.teamAt tid).waitOf e) then wake s tid e else s) s

/-! ### PAGE_WALK (R279, R283) -/

/-- A not-present fault enters the die's stage: it joins the page's merge of its region's kind of service (a first touch page that an `fmap` has
forwarded is no such merge), opens one, or finds the stage full (R283, R289). -/
def stageFault (s : State) (tid : Nat) (who : Option Eng) (va acc level : Nat) : State :=
  let t := s.teamAt tid
  let die := dieOf t.core
  let asid := (s.gridAt t.grid).asid
  let r := regionOf s die asid va
  let page := pageBase r va
  let d := s.dieAt die
  let same (m : Merge) : Bool := m.asid = asid && m.page = page && m.ft = rfFt r && !m.served
  let waits (s : State) : State := s.modTeam tid (fun t => t.setWait who (.service die asid page))
  let again (s : State) : State :=
    let s := s.modTeam tid (fun t => { t with
      walkFault := t.walkFault ++ [{ va := page, acc := acc, kind := 1, level := level, waiters := 1 }] })
    wake s tid who
  if rfFt r && d.stage.any (fun m => same m && m.claimant = tid) then again s
  else if d.stage.any same then
    waits (s.setDie die { d with
      stage := d.stage.map (fun m => if same m then
        { m with waiters := if m.waiters.contains tid then m.waiters else m.waiters ++ [tid], acc := m.acc ||| acc } else m) })
  else if Config.stageEntries ≤ d.stage.length then s
  else
    let m : Merge := { asid := asid, page := page, size := pageSize r, claimant := tid, waiters := if rfFt r then [] else [tid],
                       acc := acc, level := level, ft := rfFt r, served := false }
    let s := s.setDie die { d with stage := d.stage ++ [m] }
    if rfFt r then again s else waits s

def isWalkWait : Wait → Bool
  | .walk _ _ => true
  | _ => false

/-- Places of the entries that a descent reads, from a table at a level. -/
def walkReads (s : State) (psz va : Nat) : Nat → Nat → List Nat
  | 0, _ => []
  | n + 1, base =>
    let a := base + 8 * walkIndex psz (n + 1) va
    let e := viewNat s a 8
    if !backed s a then []
    else if e % 2 = 0 || pteBad psz (n + 1) e || n + 1 = leafLevel psz then [a]
    else a :: walkReads s psz va n (ptePpn e)

/-- A core's walk in a state asks the channels for the entries that its die's L2 does not hold (R380). -/
def noteWalk (s : State) (core asid va : Nat) (s' : State) : State :=
  let r := regionOf s (dieOf core) asid va
  (walkReads s (rfPsz r) va 5 (rfRoot r)).foldl
    (fun s' a => if (l2At s (dieOf core) (a / 64)).isNone then chanRequest s' 0 core (a / 64) else s') s'

/-- The leaf of a page is written to already (R280). -/
def leafDirty (s : State) (die asid va : Nat) : Bool :=
  let r := regionOf s die asid va
  match descend s (rfPsz r) va 5 (rfRoot r) with
  | .leaf _ e => e.testBit 7
  | _ => false

/-- PAGE_WALK: the walk of a team that missed ends with a translation, a fault of its own, or a fault in the stage. -/
def execPageWalk (s : State) : Out :=
  let tid := s.ev.x
  let t := s.teamAt tid
  match t.waiter isWalkWait with
  | none => .next s
  | some who =>
    match t.waitOf who with
    | .walk va acc =>
      let die := dieOf t.core
      let asid := (s.gridAt t.grid).asid
      let noted (s' : State) : Out := .next (noteWalk s t.core asid va s')
      match walk s die asid va acc with
      | .busy => .next s
      | .noMem pa => .fault (.noSuchAddress pa)
      | .ok s e =>
        let s := tlbPut s t.core e
        let s := s.modTeam tid (fun t => { t with xlat := e :: t.xlat })
        noted (wake s tid who)
      | .bad 1 level => noted (stageFault s tid who va acc level)
      | .bad kind level =>
        let page := pageBase (regionOf s die asid va) va
        let s := s.modTeam tid (fun t => { t with
          walkFault := t.walkFault ++ [{ va := page, acc := acc, kind := kind, level := level, waiters := 1 }] })
        noted (wake s tid who)
    | _ => .next s

def isServiceOf (die asid page : Nat) : Wait → Bool
  | .service d a p => d = die && a = asid && p = page
  | _ => false

/-- FAULT_WAITER_REPLAY: once the service of its fault has ended, a waiter is ready again, with each of its streams that waits for the page,
and replays its instruction (R283). -/
def execFaultWaiterReplay (s : State) : Out :=
  let tid := s.ev.x
  let t := s.teamAt tid
  match t.waiter (fun w => match w with
    | .service _ _ _ => true
    | _ => false) with
  | none => .next s
  | some who =>
    match t.waitOf who with
    | .service die asid page =>
      let d := s.dieAt die
      let hit (m : Merge) : Bool := m.asid = asid && m.page = page && m.served && m.waiters.contains tid
      if d.stage.any hit then
        let s := s.setDie die { d with
          stage := (d.stage.map (fun m => if hit m then { m with waiters := m.waiters.filter (fun k => k != tid) } else m)).filter
            (fun m => !m.served || m.waiters != []) }
        .next (wakeAll s tid (isServiceOf die asid page))
      else .next s
    | _ => .next s

/-- HOST_FAULT_ACKNOWLEDGE: the host has mapped a page, so its waiters replay, or refuses, so that each takes the Translation trap of kind 1,
a copy's with the copy's own address and level; an `fmap` forwarded for the page has its answer (R283, R289). -/
def execHostFaultAcknowledge (s : State) : Out :=
  let die := s.ev.x
  let asid := s.ev.y
  let page := s.ev.z
  let ok := s.ev.ok
  let d := s.dieAt die
  let hit (m : Merge) : Bool := m.asid = asid && m.page = page && !m.ft && !m.served
  let s1 : State :=
    match d.stage.find? hit with
    | none => s
    | some m =>
      if ok then endService s die hit
      else
        let s := s.setDie die { d with stage := d.stage.filter (fun m => !hit m) }
        let s := m.waiters.foldl (fun s tid =>
          if ((s.teamAt tid).waiter (isServiceOf die asid page)).isNone then s
          else
            let s := s.modTeam tid (fun t => { t with
              walkFault := t.walkFault ++ [{ va := page, acc := m.acc, kind := 1, level := m.level, waiters := m.count }] })
            wakeAll s tid (isServiceOf die asid page)) s
        m.engines.foldl (fun s tid =>
          match (s.partAt (s.teamAt tid).partNo).copyQ.find? (fun o => o.tid = tid && waitsFor s m o) with
          | some { svc := some w, .. } =>
            let tr := xlatTrap w.va 1 w.level m.acc m.count
            let s := s.modPart (s.teamAt tid).partNo (fun p => { p with
              copyQ := p.copyQ.map (fun o => if o.tid = tid && waitsFor s m o then { o with svc := none, paused := true } else o) })
            if (s.teamAt tid).live = 0 then s
            else s.modTeam tid (fun t => { t with
              pendCopy := some { cause := tr.cause, i0 := tr.i0, i1 := tr.i1, i2 := tr.i2, i3 := tr.i3, strm := false } })
          | _ => s) s
  let answer (o : MemOp) : MemOp :=
    match o.kind with
    | .fmap p true => if p = page && !o.performed then { o with performed := true, pdst := if ok then 2 else 3 } else o
    | _ => o
  let here (t : Team) : Bool := dieOf t.core = die && (s.gridAt t.grid).asid = asid
  .next { s1 with
    teams := s1.teams.map (fun p => if here p.2 then (p.1, { p.2 with memQ := p.2.memQ.map answer }) else p) }

end Sys2Proof.Machine
end

