-- ==== Sys2Proof/Machine/MemCheck.lean ====
section
/-! DEFINITION. The checks of R175 on one access (11_memory.md), halo cells
(R207, R211), and the fault or wait that an instruction's lanes lead to (R176, R277). -/

namespace Sys2Proof.Machine

/-! ### Halo tiles (R207, R211) -/

/-- A stash byte is a halo cell's. -/
def Tile.halo (t : Tile) (a : Nat) : Bool :=
  t.off ≤ a && a < t.off + t.bytes &&
  (let r := (a - t.off) / t.pitch
   let c := (a - t.off) % t.pitch / t.elem
   r < t.h || t.h + t.rows ≤ r || c < t.h || t.h + t.cols ≤ c)

/-- Some of n stash bytes of a block is a halo cell's. -/
def haloHit (b : Block) (a n : Nat) : Bool := b.tiles.any (fun p => (List.range n).any (fun i => p.2.halo (a + i)))

/-! ### One access (R175) -/

/-- What an access asks for: permission bits (R281), whether it is a write, and the class it needs: 0 any, 1 append, 2 ordinary or
tier. -/
structure Want where
  bits : Nat
  write : Bool
  cls : Nat
  deriving DecidableEq, Repr

def wantRead : Want := { bits := accR, write := false, cls := 0 }
def wantWrite : Want := { bits := accW, write := true, cls := 0 }
def wantAtom : Want := { bits := accA, write := true, cls := 0 }
def wantAppend : Want := { bits := accW, write := false, cls := 1 }
def wantMap : Want := { bits := accR, write := false, cls := 2 }

/-- Outcome of the checks: the block whose stash is meant (none: global), the address there, lease and class; a page to walk for; a fault by
its order in R175; no memory. -/
inductive Chk where
  | ok (blk : Option Nat) (a lease mclass : Nat)
  | miss
  | bad (order : Nat) (tr : Trap)
  | noMem (pa : Nat)
  deriving DecidableEq, Repr

/-- Seal state that governs a write: of the page recorded for the address, else open in an append-class region (R186). -/
def sealOf (s : State) (mclass pa : Nat) : Option SealSt :=
  match pageOf s pa with
  | some p => some p.2.st
  | none => if mclass = 1 then some .opened else none

/-- Checks 2 to 7 of a global access of n bytes; an alignment of 1 asks for none. -/
def checkGlobal (s : State) (tid va align : Nat) (w : Want) : Chk :=
  if va % align ≠ 0 then .bad 2 (addrFault 0x11 va 0)
  else
    match translate s tid va w.bits with
    | .miss => .miss
    | .bad k l a n => .bad 3 (xlatTrap va k l a n)
    | .ok pa e =>
      if !backed s pa then .noMem pa
      else if extentGone s pa && (w.bits != accR || !servedByCopy s (s.teamAt tid).core (pa / 64)) then .bad 4 (addrFault 0x13 va 0)
      else if w.cls = 1 && e.mclass ≠ 1 then .bad 5 (addrFault 0x14 va 0)
      else if w.cls = 2 && e.mclass ≠ 0 && e.mclass ≠ 3 then .bad 5 (addrFault 0x14 va 0)
      else
        match if w.write then sealOf s e.mclass pa else none with
        | some .opened => .bad 7 (addrFault 0x16 va 0)
        | some _ => .bad 6 (addrFault 0x15 va 0)
        | none => .ok none pa e.lease e.mclass

/-- Stash bytes that a team's own accesses may reach (R173, R267); for a segment of a queued copy, in the team's mode at the check (log entry 103). -/
def stashLimit (s : State) (t : Team) : Nat :=
  let n := (s.blockAt t.block).stashBytes
  if t.trap.sup then roundUp64 n + (s.gridAt t.grid).teams * saveBytes t.warps else n

def stashFault (sa reason : Nat) : Chk :=
  .bad 1 { cause := 0x10, i0 := loWord sa, i3 := BitVec.ofNat 32 reason }

/-- The window line of a stash byte cannot be had: it is not readable here and its extent has gone (R175, R364). -/
def lostLine (s : State) (b : Block) (off : Nat) : Bool :=
  match winAt b off with
  | none => false
  | some w =>
    let i := (off - w.off) / 64
    !winReadable s b.core w i && (match winPa w (64 * i) with
      | some pa => extentGone s pa && !servedByCopy s b.core (pa / 64)
      | none => false)

/-- A byte of every line that n bytes from an offset touch. -/
def lineStarts (off n : Nat) : List Nat := (List.range ((n + 63) / 64 + 1)).map (fun i => min (off + 64 * i) (off + n - 1))

/-- Checks 2, 4 and 8 of a stash access that lies in range. -/
def checkInStash (s : State) (bid sa off n align : Nat) (write : Bool) : Chk :=
  let b := s.blockAt bid
  if sa % align ≠ 0 then .bad 2 { cause := 0x11, i0 := loWord sa }
  else
    if (lineStarts off n).any (lostLine s b) then .bad 4 { cause := 0x13, i0 := loWord sa }
    else if write && haloHit b off n then .bad 8 { cause := 0x17, i0 := loWord sa }
    else .ok (some bid) off 10 0

/-- A stash (space 1) or peer stash (space 2) access of n bytes (R172-R174). -/
def checkStash (s : State) (tid space ea n align : Nat) (write : Bool) : Chk :=
  let t := s.teamAt tid
  let g := s.gridAt t.grid
  if 2 ^ 32 ≤ ea then stashFault ea 1
  else if space ≠ 2 then
    if ea / 2 ^ 22 ≠ 0 || stashLimit s t < ea + n then stashFault ea 1 else checkInStash s t.block ea ea n align write
  else if g.cohLvl = 0 then stashFault ea 3
  else
    let grp := levelGroup g 1 (s.blockAt t.block).idx
    let q := ea / 2 ^ 22
    let off := ea % 2 ^ 22
    if grp.2 ≤ q then stashFault ea 2
    else
      match blockBy s t.grid (grp.1 + q) with
      | none => stashFault ea 7
      | some p =>
        if p.2.status = .retired then stashFault ea 7
        else if p.2.stashBytes < off + n then stashFault ea 1
        else checkInStash s p.1 ea off n align write

/-- An access of n aligned bytes in a space; the global address is taken modulo 2^64 (R172). -/
def checkAccess (s : State) (tid space ea n : Nat) (w : Want) : Chk :=
  if space = 0 then checkGlobal s tid (ea % 2 ^ 64) n w else checkStash s tid space ea n n w.write

/-! ### All lanes of an instruction (R176, R277) -/

/-- What the checks of an instruction's accesses lead to. -/
inductive Gather where
  | go (accs : List LaneAcc)
  | walk (va : Nat)
  | trap (tr : Trap) (lanes : LaneSet)
  | noMem (pa : Nat)
  deriving DecidableEq, Repr

def Chk.order : Chk → Option Nat
  | .bad o _ => some o
  | _ => none

/-- Combine the outcomes: stash range and alignment come before any translation; then every translation; then the first fault in the order of
R175, its lanes, and the address of the lowest of them. Lanes whose faults are of one order fail one check, whatever their pages or the kinds of their
translation faults (log entry 32). -/
def gather (rs : List (Nat × Nat × Chk)) : Gather :=
  let orders := rs.filterMap (fun r => r.2.2.order)
  let least := orders.foldl min 99
  let isMiss (r : Nat × Nat × Chk) : Bool := r.2.2 = .miss
  let faulty := rs.filter (fun r => r.2.2.order = some least)
  let trap : Gather :=
    match faulty with
    | (_, _, .bad _ tr) :: _ => .trap tr (BitVec.ofNat 1024 (faulty.foldl (fun a r => a + 2 ^ r.1) 0))
    | _ => .go []
  if least ≤ 2 then trap
  else match rs.find? isMiss with
    | some r => .walk (r.2.1 % 2 ^ 64)
    | none =>
      if least < 99 then trap
      else match rs.findSome? (fun r => match r.2.2 with
        | .noMem pa => some pa
        | _ => none) with
        | some pa => .noMem pa
        | none => .go (rs.filterMap (fun r => match r.2.2 with
          | .ok b a l c => some { lane := r.1, blk := b, addr := a, va := r.2.1, data := 0, data2 := 0, lease := l, mclass := c }
          | _ => none))

/-- Go on with the accesses, or walk, trap or stop as the checks say; `lanes` gives the mask of a trap from its lanes. -/
def withGather (s : State) (bits : Nat) (g : Gather) (lanes : LaneSet → LaneSet) (k : List LaneAcc → Out) : Out :=
  match g with
  | .go accs => k accs
  | .walk va => .next (s.setTeam { s.team with wait := .walk va bits })
  | .trap tr m => trapLanes s tr (lanes m)
  | .noMem pa => .fault (.noSuchAddress pa)

end Sys2Proof.Machine
end

