-- ==== Sys2Proof/Machine/MemOps.lean ====
section
/-! DEFINITION. How the operations of a team's memory queue are performed (11_memory.md R181-R185, R192-R210; 13_consistency.md R229-R237;
24_determinism.md R372): stash accesses with windows, halo pushes, staged writes, watch entries, read-modify-write functions, and the order
among the operations of one queue. -/

namespace Sys2Proof.Machine

/-! ### Read-modify-write functions (R183) -/

/-- f(old, x); `cas` compares with x and stores y. -/
def atomFn (op : AOp) (old x y : Word) : Word :=
  match op with
  | .add => old + x
  | .minI => minI old x
  | .minZ => minZ old x
  | .maxI => maxI old x
  | .maxZ => maxZ old x
  | .and => old &&& x
  | .or => old ||| x
  | .xor => old ^^^ x
  | .xchg => x
  | .cas => if old = x then y else old
  | .fadd => toF32 (XVal.add .rne (ofF32 old) (ofF32 x)) .rne false
  | .fmin => toF32 (XVal.minV (ofF32 old) (ofF32 x)) .rne false
  | .fmax => toF32 (XVal.maxV (ofF32 old) (ofF32 x)) .rne false

/-! ### The stash with its windows (R201) -/

/-- The window line of a stash byte is readable: filled, or not in a window at all. -/
def stashTouch (s : State) (bid a : Nat) : Option State :=
  let b := s.blockAt bid
  match winAt b a with
  | none => some s
  | some w =>
    let i := (a - w.off) / 64
    if winReadable s b.core w i then some s
    else
      match winPa w (64 * i) with
      | none => some s
      | some pa => fillWindow s b.core bid w i (pa / 64)

/-! ### Staged writes of a deterministic launch (R372) -/

/-- Ticket order within a block: phase, team, issue order, lane. -/
def stagedLe (a b : StagedWrite) : Bool :=
  comesBefore a.phase a.team a.seq b.phase b.team b.seq || (a.phase = b.phase && a.team = b.team && a.seq = b.seq && a.lane ≤ b.lane)

def stagedInsert (w : StagedWrite) : List StagedWrite → List StagedWrite
  | [] => [w]
  | v :: r => if stagedLe v w then v :: stagedInsert w r else w :: v :: r

/-- What a block's staged writes make of n bytes: stores replace, reductions combine. -/
def stagedView (l : List StagedWrite) (pa : Nat) (bs : List Byte) : List Byte :=
  let n := bs.length
  l.foldl (fun bs w =>
    match w.red with
    | none => (List.range n).map (fun i => if w.pa ≤ pa + i && pa + i < w.pa + w.bytes.length then w.bytes.getD (pa + i - w.pa) 0 else bs.getD i 0)
    | some (op, v) =>
      if pa ≤ w.pa && w.pa + 4 ≤ pa + n then
        let o := w.pa - pa
        let r := atomFn op (BitVec.ofNat 32 (leNat ((bs.drop o).take 4))) (BitVec.ofNat 32 v) 0
        bs.take o ++ leBytes 4 r.toNat ++ bs.drop (o + 4)
      else bs) bs

/-- A line as the teams of a block read it: the block's staged writes over it, but for bytes that a window of the block holds dirty, which are younger
(R182, R372). -/
def stagedLine (s : State) (bid line : Nat) (d : Line) : Line :=
  let b := s.blockAt bid
  if b.staged = [] then d
  else mergeLine (BitVec.ofNat 512 (leNat (stagedView b.staged (64 * line) (lineBytes d)))) (dirtyIn s bid line) d

/-- A write joins the block's staged ones at its place; what a write-back has staged of its bytes comes just before it (R182). -/
def stageWrite (s : State) (bid : Nat) (w : StagedWrite) : State :=
  s.modBlock bid (fun b =>
    let keep := b.staged.filter (fun v => !backIn w.pa w.size v)
    let back := (b.staged.filter (backIn w.pa w.size)).map (fun v => { v with team := w.team, seq := w.seq, lane := w.lane, phase := w.phase })
    { b with staged := stagedInsert w (back.foldl (fun l v => stagedInsert v l) keep) })

/-- Dirty bytes of a window line are staged, byte by byte, behind all that the block has staged. -/
def stageBack (s : State) (bid line : Nat) (m : ByteMask) (d : Line) : State :=
  s.modBlock bid (fun b =>
    let keep := b.staged.filter (fun w => !(backIn (64 * line) 64 w && m.getLsbD (w.pa - 64 * line)))
    let last := b.staged.foldl (fun a w => max a w.phase) b.phase
    { b with staged := keep ++ ((List.range 64).filter m.getLsbD).map (fun i =>
      { team := backTeam, seq := 0, lane := 0, pa := 64 * line + i, bytes := leBytes 1 (lineNat d i 1), red := none, core := b.core, lease := 0, phase := last
        seen := true }) })

/-! ### Write-back (R202) -/

/-- A block's window write-backs are staged with its other writes, as long as a phase of it is to be released (R372). -/
def stagesBack (s : State) (bid : Nat) : Bool := (s.gridAt (s.blockAt bid).grid).det && (s.blockAt bid).relPhase ≤ (s.blockAt bid).phase

/-- Write back the dirty bytes of one window line; the line is then clean. One of a closing or lost extent is not written: the error log of its
home says so (R366). In a deterministic launch the bytes are staged (R372). -/
def writeBackLine (s : State) (c b : Nat) (off i : Nat) (l : WLine) : Option State :=
  let clean (s : State) : State := s.modBlock b (fun k => { k with windows := k.windows.map (fun v =>
    if v.off = off then { v with lines := match kGet i v.lines with
      | some x => kPut i { x with dirty := 0 } v.lines
      | none => v.lines } else v) })
  if l.dirty = 0 then some s
  else if extentGone s (64 * l.pa) then some (logAt (clean s) ((homeDie s l.pa).getD 0) (.extentLostWrite (64 * l.pa)))
  else
    let d := BitVec.ofNat 512 (leNat (stashRead s b (off + 64 * i) 64))
    if stagesBack s b then some (clean (stageBack s b l.pa l.dirty d)) else (coreWrite s c l.pa l.dirty d).map clean

/-- Write back every dirty line of a window. -/
def writeBackWindow (s : State) (c b : Nat) (w : Window) : Option State :=
  w.lines.foldl (fun o p => o.bind (fun s => writeBackLine s c b w.off p.1 p.2)) (some s)

/-- Write back every dirty line of a block's windows. -/
def writeBackBlock (s : State) (b : Nat) : Option State :=
  let k := s.blockAt b
  k.windows.foldl (fun o w => o.bind (fun s => writeBackWindow s k.core b w)) (some s)

/-- Bytes of one piece: a window line shows the core's buffered stores and the block's staged ones (R182, R201). -/
def stashPiece (s : State) (bid a n : Nat) : List Byte :=
  let b := s.blockAt bid
  match winAt b a with
  | none => stashRead s bid a n
  | some w =>
    let i := (a - w.off) / 64
    match winPa w (64 * i) with
    | none => stashRead s bid a n
    | some pa =>
      ((lineBytes (stagedLine s bid (pa / 64) (overlay s b.core (pa / 64) (winData s bid w i)))).drop (a % 64)).take n

/-- A stash load of n bytes. -/
def stashLoad (s : State) (bid a n : Nat) : Option (State × List Byte) :=
  match (pieces64 a n).foldl (fun o p => o.bind (fun s => stashTouch s bid p.1)) (some s) with
  | none => none
  | some s => some (s, (pieces64 a n).flatMap (fun p => stashPiece s bid p.1 p.2))

/-- A read of a block's stash as requests of a class see it: the lines that its windows fill on demand are requests of that class (R203, R380). -/
def classLoad (s : State) (cls bid a n : Nat) : Option (State × List Byte) :=
  (stashLoad s bid a n).map (fun r => (noteFetches s (s.blockAt bid).core cls r.1, r.2))

/-- Some of n stash bytes lies in a window line that would have to be filled from a closing or lost extent (R364). -/
def fillLost (s : State) (bid a n : Nat) : Bool := (lineStarts a n).any (lostLine s (s.blockAt bid))

/-- Some of n stash bytes lies in a window line that would have to be filled from poisoned data (R177). -/
def fillBad (s : State) (bid a n : Nat) : Bool :=
  let b := s.blockAt bid
  (pieces64 a n).any (fun p => match winAt b p.1 with
    | none => false
    | some w =>
      let o := (p.1 - w.off) / 64 * 64
      !winReadable s b.core w (o / 64) && (match winPa w o with
        | none => false
        | some pa => !servedByCopy s b.core (pa / 64) && poisonIn s (pa / 64 * 64) 64))

/-- Bytes written to the core's other copies of a line, in its windows but for the one that is written, named by block, start and line index: they are the
same copy (R201). The bytes are dirty nowhere there. -/
def shareBytes (s : State) (c line : Nat) (own : Nat × Nat × Nat) (m : ByteMask) (d : Line) : State :=
  (winsOf s c line).foldl (fun s p =>
    match kGet p.2.2 p.2.1.lines with
    | none => s
    | some l =>
      if (p.1, p.2.1.off, p.2.2) = own then s
      else putWLine (stashWrite s p.1 (p.2.1.off + 64 * p.2.2) (lineBytes (mergeLine (winData s p.1 p.2.1 p.2.2) m d))) p.1 p.2.1.off p.2.2
        { l with dirty := l.dirty &&& ~~~m }) s

/-- The walker sets D on the first write of a window's page (R280); none where the entry's line is busy. A page that the walk cannot write stays as it is
(log entry 31). -/
def winDirty (s : State) (bid : Nat) (w : Window) (o : Nat) : Option State :=
  let b := s.blockAt bid
  let asid := (s.gridAt b.grid).asid
  match walk s (dieOf b.core) asid (w.base + o) accW with
  | .ok s' _ => some (if leafDirty s (dieOf b.core) asid (w.base + o) then s' else noteWalk s b.core asid (w.base + o) s')
  | .busy => none
  | _ => some s

/-- A stash store within one piece: a window line is filled first, takes the core's earlier stores, and its bytes become dirty, and so does its page. -/
def stashStorePiece (s : State) (bid a : Nat) (bs : List Byte) : Option State :=
  let b := s.blockAt bid
  match winAt b a with
  | none => some (stashWrite s bid a bs)
  | some w =>
    let i := (a - w.off) / 64
    match winPa w (64 * i) with
    | none => some (stashWrite s bid a bs)
    | some pa =>
      match ((winDirty s bid w (64 * i)).bind (fun s => stashTouch s bid a)).bind (fun s => drainTo s b.core (fun e => e.line = pa / 64)) with
      | none => none
      | some s =>
        let s := shareBytes (stashWrite s bid a bs) b.core (pa / 64) (bid, w.off, i) (maskOf (a % 64) bs.length) (lineData (a % 64) bs)
        some (s.modBlock bid (fun k => { k with windows := k.windows.map (fun v =>
          if v.off = w.off then
            { v with lines := match kGet i v.lines with
              | some l => kPut i { l with dirty := l.dirty ||| maskOf (a % 64) bs.length } v.lines
              | none => v.lines }
          else v) }))

/-- A stash store of consecutive bytes. -/
def stashStore (s : State) (bid a : Nat) (bs : List Byte) : Option State :=
  (pieces64 a bs.length).foldl (fun o p => o.bind (fun s => stashStorePiece s bid p.1 ((bs.drop (p.1 - a)).take p.2))) (some s)

/-! ### Halo pushes (R209, R210) -/

/-- Row and column ranges of the strip sent towards a neighbour (0 north, 1 south, 2 west, 3 east), and the corner it lands at: first row, rows,
first column, columns, destination row, destination column. -/
def strip (t : Tile) (dir : Nat) : Nat × Nat × Nat × Nat × Nat × Nat :=
  match dir with
  | 0 => (t.h, t.h, t.h, t.cols, t.rows + t.h, t.h)
  | 1 => (t.rows, t.h, t.h, t.cols, 0, t.h)
  | 2 => (t.h, t.rows, t.h, t.h, t.h, t.cols + t.h)
  | _ => (t.h, t.rows, t.cols, t.h, t.h, 0)

/-- Push one tile of a block in one direction, its strip at once (R210). Stash bytes that a window was mapped over later are read and written as plain
stash, neither filled nor made dirty (log entry 77). A tile that is not declared is not pushed, and nothing is logged (log entry 101). -/
def pushDir (s : State) (bid tile dir : Nat) : State :=
  let b := s.blockAt bid
  match kGet tile b.tiles with
  | none => s
  | some t =>
    let n := t.nbr.getD dir 0xFFFF
    if n = 0xFFFF then s
    else
      let gone := logAt s (dieOf b.core) (.pushDiscard b.idx tile)
      match blockBy s b.grid ((levelGroup (s.gridAt b.grid) 1 b.idx).1 + n) with
      | none => gone
      | some p =>
        match kGet tile p.2.tiles with
        | none => gone
        | some d =>
          if p.2.status = .retired || d.rows ≠ t.rows || d.cols ≠ t.cols || d.elem ≠ t.elem || d.h ≠ t.h then gone
          else
            let k := strip t dir
            (List.range k.2.1).foldl (fun s r =>
              stashWrite s p.1 (d.off + (k.2.2.2.2.1 + r) * d.pitch + k.2.2.2.2.2 * d.elem)
                (stashRead s bid (t.off + (k.1 + r) * t.pitch + k.2.2.1 * t.elem) (k.2.2.2.1 * t.elem))) s

/-- Push one tile towards each neighbour that a mask of directions leaves open. -/
def pushTile (s : State) (bid tile skip : Nat) : State :=
  (List.range 4).foldl (fun s d => if skip.testBit d then s else pushDir s bid tile d) s

/-- Push every declared tile of a block, but for the strips that have been sent (R210). -/
def pushAll (s : State) (bid : Nat) (sent : List (Nat × Nat)) : State :=
  (s.blockAt bid).tiles.foldl (fun s p => pushTile s bid p.1 ((List.range 4).foldl (fun m d => if sent.contains (p.1, d) then m + 2 ^ d else m) 0)) s

/-! ### Performing staged writes (R372) -/

/-- Perform one staged write at the L2 of the die it was staged on; one that reaches a closing or lost extent is not performed, and the error log says
so (R364; log entry 64). -/
def performStaged (s : State) (c : Nat) (w : StagedWrite) : Option State :=
  let line := w.pa / 64
  let put (s : State) (bs : List Byte) : Option State := coreWriteAs true s c line (maskOf (w.pa % 64) bs.length) (lineData (w.pa % 64) bs)
  if extentGone s w.pa then some (logAt s ((homeDie s line).getD 0) (.extentLostWrite (64 * line)))
  else match w.red with
  | none => put s w.bytes
  | some (op, v) =>
    match gainLine s (dieOf c) line true with
    | none => none
    | some s =>
      let old := lineNat (viewLine s line) (w.pa % 64) 4
      put s (leBytes 4 (atomFn op (BitVec.ofNat 32 old) (BitVec.ofNat 32 v) 0).toNat)

/-- Perform a list of staged writes in order. -/
def performStagedAll (s : State) (c : Nat) (l : List StagedWrite) : Option State :=
  l.foldl (fun o w => o.bind (fun s => performStaged s c w)) (some s)

/-- A staged write that comes before an operation of a team in ticket order; what a write-back has staged was there first. -/
def StagedWrite.before (w : StagedWrite) (phase index id : Nat) : Bool := w.team = backTeam || comesBefore w.phase w.team w.seq phase index id

/-- The block's writes go in place from now on: of what it staged, that which comes before the operation is performed first (R372). -/
def goInPlace (s : State) (tid : Nat) (o : MemOp) : Option State :=
  let t := s.teamAt tid
  let b := s.blockAt t.block
  let first (w : StagedWrite) : Bool := w.before o.phase t.index o.id
  (performStagedAll s b.core (b.staged.filter first)).map (fun s => s.modBlock t.block (fun k =>
    { k with inPlace := true, staged := k.staged.filter (fun w => !first w) }))

/-! ### Watch entries (R191-R193) -/

def teamWatches (s : State) (tid : Nat) : List Watch := (s.coreAt (s.teamAt tid).core).watch.filter (fun w => w.tid = tid)

/-- The core's copy of a line that a watched load may read though its lease has ended: the entry it leaves, and the data. -/
def expiredCopy (s : State) (c line : Nat) : Option (Watch × Line) :=
  let entry (ver wts fetched : BitVec 16) (arr : Nat) : Watch :=
    { id := 0, tid := 0, line := line, ver := ver, wts := wts, fetched := fetched, st := .pending, arr := arr }
  if servedByCopy s c line then none
  else match (winsOf s c line).findSome? (fun p => (kGet p.2.2 p.2.1.lines).map (fun l => (entry l.ver l.wts l.fetched l.arr, winData s p.1 p.2.1 p.2.2))) with
    | some r => some r
    | none => (l1At s c line).map (fun x => (entry x.ver x.wts x.fetched x.arr, x.data))

/-- `ldw` of one line: it reads an expired copy at once and leaves an entry; none where it is served as an ordinary load (R192). -/
def watchLine (s : State) (tid line : Nat) : Option (State × Line) :=
  let c := (s.teamAt tid).core
  let k := s.coreAt c
  if sealedLine s line || Config.watchPerTeam ≤ (teamWatches s tid).length || Config.watchEntries ≤ k.watch.length then none
  else
    match expiredCopy s c line with
    | none => none
    | some (w, d) =>
      some (s.setCore c { k with watch := k.watch ++ [{ w with id := k.nextWatch, tid := tid }], nextWatch := k.nextWatch + 1 }, overlay s c line d)

/-- The coherence point confirms an entry, or strikes it (R193). -/
def watchConfirmed (s : State) (c : Nat) (w : Watch) : Bool :=
  (s.coreAt c).sbuf.all (fun e => e.line != w.line) &&
  (match l2At s (dieOf c) w.line with
   | none => false
   | some e => e.wts = w.wts && e.ver = w.ver && e.arr = w.arr && !((e.rts - w.fetched).toNat < 2 ^ 15 && 2 ^ 14 < (e.rts - w.fetched).toNat))

/-- A team still has to wait before a release, or must not release (R194). -/
inductive Gate where
  | wait | struck | clear
  deriving DecidableEq, Repr

/-- Watched loads that have not reached their lines yet. -/
def pendingWatched (t : Team) : Bool :=
  t.memQ.any (fun o => !o.performed && (match o.kind with
    | .load _ _ w => w
    | _ => false))

def releaseGate (s : State) (tid : Nat) : Gate :=
  let t := s.teamAt tid
  let ws := teamWatches s tid
  if pendingWatched t || ws.any (fun w => w.st = .pending) then .wait
  else if t.struck || ws.any (fun w => w.st = .struck) then .struck
  else .clear

def watchOrder : Trap := { cause := 0x19 }

/-- Run k past the watch rule: wait for entries to resolve, take the Watch Order fault on a strike (R194). -/
def withGate (s : State) (rel : Bool) (k : Out) : Out :=
  if !rel then k
  else match releaseGate s s.cur with
    | .wait => .next s
    | .struck => trapAll s watchOrder
    | .clear => k

/-- A release that is to be performed at a scope: the core's earlier stores reach the L2 where the scope is `quad` or wider, the block's tiles are
pushed, and the block has released (R210, R233, R263). What a deterministic launch stages stays staged (R372; log entry 105). -/
def performRelease (s : State) (tid scope : Nat) (sent : List (Nat × Nat) := []) : Option State :=
  let t := s.teamAt tid
  let s := s.modBlock t.block (fun b => { b with released := true })
  if scope ≤ 1 then some s
  else (drainAll s t.core).map (fun s => pushAll s t.block sent)

/-- The release that an operation is, performed once, before its own first effect (R210, R233). -/
def releaseOp (s : State) (tid : Nat) (o : MemOp) : Option (State × MemOp) :=
  if !o.rel || o.released then some (s, o)
  else (performRelease s tid o.scope o.pushed).map (fun s => (s, { o with released := true }))

end Sys2Proof.Machine
end

