-- ==== Sys2Proof/Machine/Record.lean ====
section
/-! DEFINITION. Recording the decisions of a grid and holding a replay to them (24_determinism.md R374-R377). -/

namespace Sys2Proof.Machine

/-- The participant an entry names has ended. -/
def namedEnded (s : State) (gid : Nat) (d : Decision) : Bool :=
  match blockBy s gid d.block with
  | none => false
  | some p => p.2.status = .retired || s.teams.all (fun t => !(t.2.block = p.1 && t.2.index = d.team) || t.2.status = .ended)

/-- The participant that an entry of store queue order names has passed it: a team's operations reach the queue in its program order, and a later entry
of the team has been applied (R346, R377; log entry 68). -/
def passed (g : Grid) (d : Decision) : Bool := d.kind = 2 && d.idx < kGetD (256 * d.block + d.team) 0 g.fsTaken

/-- Outcome of a decision point for an operation that arrives: it may be issued, must be held, or diverges (R377). -/
inductive Replay where
  | go | hold | diverge (tr : Trap)
  deriving DecidableEq, Repr

def divergence (idx kind reason : Nat) : Trap :=
  { cause := 0x23, i0 := loWord idx, i1 := hiWord idx, i2 := BitVec.ofNat 32 kind, i3 := BitVec.ofNat 32 reason }

/-- A participant's first entry for an atomic at a key, and in a lane, is spoken for by an operation under way. -/
def claimEntry (team block : Nat) (k : Nat × Nat) : List Decision → List Decision
  | [] => []
  | d :: r => if d.kind = 1 && d.key = k.1 && d.lane = k.2 && d.team = team && d.block = block then r else d :: claimEntry team block k r

/-- Decisions of a team's queued operations, which have entries of the log to themselves. -/
def spokenFor (s : State) (tid : Nat) : List (Nat × Nat) := ((s.teamAt tid).memQ.filter (fun o => !o.performed)).flatMap (decisionKeys s)

/-- A team's operation of a kind, key and lane arrives in a replay, where some entries are spoken for (R377). A team's operations at one key apply in
program order, so the first entry of its own for the key must be this lane's. Store queue operations come in program order over all keys, so the
team's next entry of that kind must have this key; atomics at different addresses have no such order. An operation with no entry of its own diverges
where an atomic or store queue entry of its team is left, and waits for the other teams' operations at its key where none is (log entry 68). -/
def replayArrive (s : State) (tid kind : Nat) (claims : List (Nat × Nat)) (k : Nat × Nat) : Replay :=
  let t := s.teamAt tid
  let g := s.gridAt t.grid
  let b := (s.blockAt t.block).idx
  let log := claims.foldl (fun l c => claimEntry t.index b c l) g.log
  let mine (d : Decision) : Bool := d.team = t.index && d.block = b
  match log.filter (fun d => d.kind = kind && d.key = k.1) with
  | [] => .diverge (divergence g.logCount kind 3)
  | left =>
    let gone := (logLeft g kind k.1).head?.bind (fun h => if !mine h && (namedEnded s t.grid h || passed g h) then some h else none)
    let astray := if kind = 2 then (log.find? (fun d => mine d && d.kind = 2)).bind (fun d => if d.key = k.1 then none else some d) else none
    match gone, astray, left.find? mine with
    | some h, _, _ => .diverge (divergence h.idx kind 1)
    | none, some d, _ => .diverge (divergence d.idx 2 2)
    | none, none, some d => if d.lane = k.2 then .go else .diverge (divergence d.idx kind 2)
    | none, none, none =>
      match log.find? (fun d => mine d && d.kind ≤ 2) with
      | some d => .diverge (divergence d.idx d.kind 2)
      | none => .hold

/-- The outcome for several decisions of one operation, each with an entry to itself: the first divergence, else a hold, else go. -/
def replayAll (s : State) (tid kind : Nat) : List (Nat × Nat) → List (Nat × Nat) → Replay
  | _, [] => .go
  | claims, k :: r =>
    match replayArrive s tid kind claims k with
    | .diverge tr => .diverge tr
    | .go => replayAll s tid kind (claims ++ [k]) r
    | .hold => match replayAll s tid kind claims r with
      | .diverge tr => .diverge tr
      | _ => .hold

/-- Go on, hold the team, or take the Replay Divergence trap. -/
def withReplay (s : State) (kind : Nat) (keys : List (Nat × Nat)) (k : Out) : Out :=
  if !(s.gridAt s.team.grid).replay then k
  else match replayAll s s.cur kind (spokenFor s s.cur) keys with
  | .go => k
  | .hold => .next (s.setTeam { s.team with wait := .replay })
  | .diverge tr => trapAll s tr

/-- A queued operation waits for an entry of the log that no operation will come for: its participant has ended (R377). -/
def queuedDivergence (s : State) (tid : Nat) (o : MemOp) : Option Trap :=
  let t := s.teamAt tid
  let g := s.gridAt t.grid
  if !g.replay then none
  else (decisionKeys s o).findSome? (fun k => match logLeft g 1 k.1 with
    | [] => some (divergence g.logCount 1 3)
    | h :: _ =>
      if (h.team ≠ t.index || h.block ≠ (s.blockAt t.block).idx) && namedEnded s t.grid h then some (divergence h.idx 1 1) else none)

end Sys2Proof.Machine
end

