-- ==== Sys2Proof/Machine/Ready.lean ====
section
/-! DEFINITION. Reading instruction words (16_scheduling_faults.md R277, R281), and when a team is ready (01_machine.md R34; 03_instruction_words.md
R51, R55). -/

namespace Sys2Proof.Machine

/-! ### Reading instruction words -/

/-- Outcome of reading one word, or some. -/
inductive Fetch (α : Type) where
  | ok (v : α)
  | miss (va : Nat)
  | bad (tr : Trap)
  | noMem (pa : Nat)
  | poison
  deriving DecidableEq, Repr

/-- The word at a virtual address, with X permission. -/
def fetchWord (s : State) (tid va : Nat) : Fetch Word :=
  match translate s tid va accX with
  | .miss => .miss va
  | .bad k l a n => .bad (xlatTrap va k l a n)
  | .ok pa _ =>
    let c := (s.teamAt tid).core
    if !backed s pa then .noMem pa
    else if extentGone s pa && !servedByCopy s c (pa / 64) then .bad (addrFault 0x13 va 0)
    else if poisonIn s pa 4 then .poison
    else .ok (BitVec.ofNat 32 (leNat (coreBytes s c pa 4)))

/-- n words from a virtual address. -/
def fetchWords (s : State) (tid : Nat) : Nat → Nat → Fetch (List Word)
  | 0, _ => .ok []
  | n + 1, va =>
    match fetchWord s tid (va % 2 ^ 64) with
    | .ok w => match fetchWords s tid n (va + 4) with
      | .ok r => .ok (w :: r)
      | .miss v => .miss v
      | .bad t => .bad t
      | .noMem p => .noMem p
      | .poison => .poison
    | .miss v => .miss v
    | .bad t => .bad t
    | .noMem p => .noMem p
    | .poison => .poison

/-- Words of an instruction that starts with this word: the extension words that EXT announces; `rep` has none. -/
def wordCount (w : Word) : Nat := if opOf w = 0x7F then 1 else (encodedLen (bitsOf w 1 0))
where
  encodedLen (e : Nat) : Nat := 1 + e % 2 + e / 2

/-- The words of the instruction at an address. The extension words that EXT announces are read before the opcode is looked at, so that their fetch fault
comes before the Illegal Instruction trap of a reserved opcode (log entry 70). -/
def fetchInstr (s : State) (tid va : Nat) : Fetch (List Word) :=
  match fetchWord s tid va with
  | .ok w => fetchWords s tid (wordCount w) va
  | .miss v => .miss v
  | .bad t => .bad t
  | .noMem p => .noMem p
  | .poison => .poison

/-- Go on with what was read; a miss waits for a walk, a fault takes the whole mask (R281). -/
def withFetch {α : Type} (s : State) (f : Fetch α) (k : α → Out) : Out :=
  match f with
  | .ok v => k v
  | .miss va => .next (s.setTeam { s.team with wait := .walk va accX })
  | .bad tr => trapAll s tr
  | .noMem pa => .fault (.noSuchAddress pa)
  | .poison => .next (endTeamBad s s.cur 2)

/-! ### Clause headers (R51, R56) -/

def hdrN (w : Word) : Nat := bitsOf w 31 28
def hdrCls (w : Word) : Nat := bitsOf w 27 25
def hdrWait (w : Word) : Nat := bitsOf w 24 13
def hdrSetA (w : Word) : Nat := bitsOf w 12 9
def hdrSetB (w : Word) : Nat := bitsOf w 8 5
def hdrYld (w : Word) : Bool := bitsOf w 4 4 = 1

/-- Every flag that WAIT names is clear. -/
def waitClear (t : Team) (w : Word) : Bool := (List.range 12).all (fun f => !(hdrWait w).testBit f || t.flag f = 0)

/-- The header is well formed (R56). -/
def hdrOk (w : Word) : Bool :=
  hdrN w != 0 && bitsOf w 3 0 = 0 && (hdrSetA w ≤ 11 || hdrSetA w = 15) && (hdrSetB w ≤ 11 || hdrSetB w = 15)

/-- The team stands at a clause whose WAIT names a flag that is not clear. -/
def waitBlocked (s : State) (tid : Nat) : Bool :=
  let t := s.teamAt tid
  t.clause.isNone && t.wait = .none && (match fetchWord s tid t.pc.toNat with
    | .ok w => !waitClear t w
    | _ => false)

/-! ### Waits that are over (R122, R126, R127, R132, R372, R377) -/

/-- Live teams of a partition. -/
def teamsOn (s : State) (p : Nat) : KMap Team := s.teams.filter (fun q => q.2.status = .live && q.2.partNo = p)

/-- A wait that ends by itself, once what it waits for has come; of a `yield`, that each of the teams it waits for has issued or ended. A team whose release
waits for its watch entries or whose atomic waits for its turn is not ready meanwhile (R34; log entry 98). -/
def waitDone (s : State) (tid : Nat) (w : Wait) : Bool :=
  let t := s.teamAt tid
  match w with
  | .none => true
  | .rdv e => (match (if e = .mat then t.streamA else t.streamC) with
    | some x => x.ended
    | none => true)
  | .watch => !pendingWatched t && (teamWatches s tid).all (fun x => x.st != .pending)
  | .yielded l => l.all (fun k => (s.teamAt k).status = .ended)
  | .ticket => ticketTurn s tid
  | .replay => true
  | _ => false

/-- The team's block is in a pre-emption sequence (R265). -/
def inPreemption (s : State) (tid : Nat) : Bool :=
  let b := (s.blockAt (s.teamAt tid).block).status
  b = .toSave || b = .toFlush

/-- A team with lanes stands in no wait that its `wait` field names, before no WAIT that is not clear, in no pre-emption sequence (R34). -/
def standsReady (s : State) (tid : Nat) : Bool :=
  (s.teamAt tid).status = .live && (s.teamAt tid).live ≠ 0 && !inPreemption s tid && !waitBlocked s tid

/-- Other ready teams of a team's partition; a team whose own `yield` still waits for others is not ready (R34, R122), nor is one whose instruction waits
for a page walk (log entry 90). -/
def otherReady (s : State) (tid : Nat) : List Nat :=
  (teamsOn s (s.teamAt tid).partNo).filterMap (fun q =>
    if q.1 ≠ tid && standsReady s q.1 && waitDone s q.1 q.2.wait then some q.1 else none)

/-- The wait is done, or is a `yield` on a partition where no other team is ready (R122). -/
def waitOver (s : State) (tid : Nat) (w : Wait) : Bool :=
  waitDone s tid w || (match w with
    | .yielded _ => otherReady s tid = []
    | _ => false)

/-- A team could issue but for its turn (R34). -/
def teamReady (s : State) (tid : Nat) : Bool := standsReady s tid && waitOver s tid (s.teamAt tid).wait

/-- The rises in class that a ready team's waiting time has brought: one for each 1,024 cc, up to class 7 (R35). -/
def Sched.aged (k : Sched) (cc : Nat) : Sched :=
  let n := (cc - k.readySince) / 1024
  if n = 0 then k else { k with cls := min 7 (k.cls + n), readySince := k.readySince + 1024 * n }

/-- A team that has left an unready state starts to wait for issue; one that stays ready rises in class (R35). -/
def markReady (s s' : State) : State :=
  { s' with teams := s'.teams.map (fun (p : Nat × Team) =>
      if !teamReady s' p.1 then p
      else if teamReady s p.1 then (p.1, { p.2 with sched := p.2.sched.aged s'.cc })
      else (p.1, { p.2 with sched := { p.2.sched with readySince := s'.cc } })) }

end Sys2Proof.Machine
end

