-- ==== Sys2Proof/Machine/Control.lean ====
section
/-! DEFINITION. Clauses, repeats and class X (03_instruction_words.md R51-R56, R68-R71; 07_control.md R112-R133). -/

namespace Sys2Proof.Machine

/-! ### Clause start and repeats -/

/-- CLAUSE_START: once every flag that WAIT names is clear, the clause opens, or a malformed header traps (R51, R56). -/
def execClauseStart (w : Word) (s : State) : Out :=
  let t := s.team
  if t.clause.isSome then .next s
  else if !waitClear t w then .next s
  else if !hdrOk w then trapAll s illegalClause
  else .next (s.setTeam { t with
    clause := some { hdr := t.pc, cls := clsOf (hdrCls w), left := hdrN w, setA := hdrSetA w, setB := hdrSetB w, yld := hdrYld w }
    pc := t.pc + 4
    sched := { t.sched with yld := false } })

/-- NOP: no effect (R77). -/
def execNop (cls : Cls) (f : Fields) (s : State) : Out := issue (.nop cls f) s (fun t _ x => finish s t x)

/-- Fields of repeat j (R69). -/
def stepFields (p : RepWord) (j : Nat) (x : Fields) : Fields :=
  let d : BitVec 7 := BitVec.ofNat 7 (j * (if p.by2 then 2 else 1))
  { x with d := if p.sd then x.d + d else x.d, a := if p.sa then x.a + d else x.a, b := if p.sb then x.b + d else x.b }

/-- Instructions that `rep` may not stand before (R70). -/
def noRepeat (i : Instr) (f : Form) : Bool :=
  match i with
  | .fcall _ => true
  | .fret _ => true
  | .tret => true
  | .halt _ => true
  | .nop _ _ => false
  | _ => f.cls = .x

/-- Every repeat keeps a stepped field inside its kind (R70). -/
def stepOk (k : Kind) (n by2 : Nat) (c : Nat) : Bool := (List.range (n + 1)).all (fun j => c + j * by2 < 128 && kindAccepts k (c + j * by2))

/-- The trap of a prefix before the instruction it repeats (R70). -/
def repTrap (t : Team) (p : RepWord) (i : Instr) : Option Trap :=
  match encOf i with
  | none => some illegalInstruction
  | some (f, x) =>
    let by2 := if p.by2 then 2 else 1
    let n := p.cnt.toNat
    let kd := kindD f x
    let ka := kindA f x
    let kb := kindB f x
    if noRepeat i f || (match t.clause with
        | some c => c.left ≤ 1
        | none => false) ||
       (p.sd && !kindIsReg kd) || (p.sa && !kindIsReg ka) || (p.sb && !kindIsReg kb) then some illegalInstruction
    else if (p.sd && !stepOk kd n by2 x.d.toNat) || (p.sa && !stepOk ka n by2 x.a.toNat) || (p.sb && !stepOk kb n by2 x.b.toNat) then
      some illegalOperand
    else none

/-- A forked stream holds a prefix, an instruction of class X, only in the clauses where it repeats others: those of its engine's class and of class S
(R78, R124). -/
def streamRep (e : Option Eng) (cls : Cls) : Bool :=
  match e with
  | none => true
  | some .mat => cls = .a || cls = .s
  | some .copy => cls = .c || cls = .s

/-- REP: the prefix is checked against the next instruction of its clause, and its repeats begin at %rep.NEXT, or at 0 when no sequence is in
progress (R69-R71). A prefix whose next word does not decode takes its trap before any repeat (log entry 70). -/
def execRep (cls : Cls) (p : RepWord) (s : State) : Out :=
  let t := s.team
  let last : Bool := match t.clause with
    | some k => k.left ≤ 1
    | none => false
  if last || !streamRep s.curStream cls then trapAll s illegalInstruction
  else withFetch s (fetchInstr s s.cur (t.pc + 4).toNat) (fun ws =>
    match decode cls ws with
    | .bad _ => trapAll s illegalInstruction
    | .ok i _ =>
      match repTrap t p i with
      | some tr => trapAll s tr
      | none =>
        let next := if t.rep.getLsbD 6 then (t.rep.extractLsb' 0 6).toNat else 0
        if p.cnt.toNat < next then
          .next (s.setTeam (({ t with rep := 0, inRep := none, pc := t.pc + BitVec.ofNat 64 (4 + 4 * ws.length) }.takeLeft 2).closeClause))
        else .next (s.setTeam { t with rep := 64#7 ||| BitVec.ofNat 7 next, inRep := some p }))

/-! ### Branches and calls (R115-R118) -/

/-- Target of a label (R115). -/
def labelOf (t : Team) (x : Fields) : DWord := selfPc t + (immOf x).signExtend 64

/-- Branch to the label, or go on. -/
def branchOp (i : Instr) (s : State) (taken : Team → Fields → Bool) : Out :=
  issue i s (fun t _ x => if taken t x then transfer s t (labelOf t x) else finish s t x)

def execBra (f : Fields) (s : State) : Out := branchOp (.bra f) s (fun t _ => t.mask != 0)
def execBraAny (f : Fields) (s : State) : Out := branchOp (.braAny f) s (fun t x => t.mask &&& t.pred x.a.toNat != 0)
def execBraAll (f : Fields) (s : State) : Out :=
  branchOp (.braAll f) s (fun t x => t.mask != 0 && t.mask &&& ~~~(t.pred x.a.toNat) == 0#1024)
def execBraNone (f : Fields) (s : State) : Out :=
  branchOp (.braNone f) s (fun t x => t.mask != 0 && t.mask &&& t.pred x.a.toNat == 0#1024)

/-- Reason 6 of R133, with the target. -/
def badTarget (v : DWord) : Trap :=
  { cause := 0x05, i0 := 6, i2 := v.extractLsb' 0 32, i3 := v.extractLsb' 32 32 }

def execBrx (f : Fields) (s : State) : Out :=
  issue (.brx f) s (fun t _ x =>
    let v := srcS64 t x.a.toNat 0
    if t.mask = 0 then finish s t x
    else if v.extractLsb' 0 2 != 0 then trapAll s (badTarget v)
    else transfer s t v)

/-- Push an entry, or take the Mask Stack trap at a 33rd (R119, R120). -/
def withPush (s : State) (t : Team) (e : Entry) (k : Team → Out) : Out :=
  if Config.stackEntries ≤ t.stack.length then trapAll s (maskStack t 1) else k { t with stack := e :: t.stack }

/-- A call entry that returns after the call's clause (R118). -/
def callEntry (t : Team) (x : Fields) : Entry :=
  { kind := .callK, save := t.mask, pend := 0, addr := t.pc + BitVec.ofNat 64 (lenOf x) }

def execCall (f : Fields) (s : State) : Out :=
  issue (.call f) s (fun t _ x =>
    if t.mask = 0 then finish s t x else withPush s t (callEntry t x) (fun t' => transfer s t' (labelOf t x)))

/-- `callx`: with lanes active, a misaligned target comes before a full mask stack (R118, R120, R133; log entry 70). -/
def execCallx (f : Fields) (s : State) : Out :=
  issue (.callx f) s (fun t _ x =>
    let v := srcS64 t x.a.toNat 0
    if t.mask = 0 then finish s t x
    else if v.extractLsb' 0 2 != 0 then trapAll s (badTarget v)
    else withPush s t (callEntry t x) (fun t' => transfer s t' v))

/-- A `require` of R119 that fails (R120). -/
def stackTrap (s : State) (t : Team) : Out := trapAll s (maskStack t 2)

/-- `ret`: the top entry is a CALL; its mask comes back and execution goes on after the call (R118). -/
def execRet (s : State) : Out :=
  issue .ret s (fun t _ _ =>
    match t.stack with
    | e :: r => if e.kind = .callK then transfer s { t with mask := e.save &&& t.live, stack := r } e.addr else stackTrap s t
    | [] => stackTrap s t)

/-! ### Structured instructions (R119) -/

/-- {l in M : p(l) XOR sense}. -/
def senseSet (t : Team) (x : Fields) : LaneSet :=
  t.mask &&& (if x.b = 1 then ~~~(t.pred x.a.toNat) else t.pred x.a.toNat)

def execIfP (f : Fields) (s : State) : Out :=
  issue (.ifP f) s (fun t _ x =>
    let k := senseSet t x
    withPush s t { kind := .ifK, save := t.mask, pend := t.mask &&& ~~~k, addr := 0 } (fun t' => finish s { t' with mask := k } x))

def execElseP (s : State) : Out :=
  issue .elseP s (fun t _ x =>
    match t.stack with
    | e :: r =>
      if e.kind = .ifK then finish s { t with mask := e.pend, stack := { e with pend := 0, kind := .elseK } :: r } x else stackTrap s t
    | [] => stackTrap s t)

def execEndifP (s : State) : Out :=
  issue .endifP s (fun t _ x =>
    match t.stack with
    | e :: r => if e.kind = .ifK || e.kind = .elseK then finish s { t with mask := e.save &&& t.live, stack := r } x else stackTrap s t
    | [] => stackTrap s t)

def execLoopP (s : State) : Out :=
  issue .loopP s (fun t _ x =>
    withPush s t { kind := .loopK, save := t.mask, pend := 0, addr := t.pc + BitVec.ofNat 64 (lenOf x) } (fun t' => finish s t' x))

/-- Take lanes out of every entry above the highest LOOP, with no CALL or FN entry between; `keep` adds them to that LOOP's pending set. None
where there is no such LOOP. -/
def leaveLoop (k : LaneSet) (keep : Bool) : List Entry → Option (List Entry)
  | [] => none
  | e :: r =>
    match e.kind with
    | .loopK => some ((if keep then { e with pend := e.pend ||| k } else e) :: r)
    | .callK => none
    | .fnK => none
    | _ => (leaveLoop k keep r).map (fun r => { e with save := e.save &&& ~~~k, pend := e.pend &&& ~~~k } :: r)

/-- `break` and `cont`. -/
def leaveOp (i : Instr) (s : State) (keep : Bool) : Out :=
  issue i s (fun t _ x =>
    let k := senseSet t x
    match leaveLoop k keep t.stack with
    | none => stackTrap s t
    | some st => finish s { t with mask := t.mask &&& ~~~k, stack := st } x)

def execBreakP (f : Fields) (s : State) : Out := leaveOp (.breakP f) s false
def execContP (f : Fields) (s : State) : Out := leaveOp (.contP f) s true

def execEndloopP (s : State) : Out :=
  issue .endloopP s (fun t _ x =>
    match t.stack with
    | e :: r =>
      if e.kind = .loopK then
        let c := (t.mask ||| e.pend) &&& t.live
        if c != 0 then transfer s { t with mask := c, stack := { e with pend := 0 } :: r } e.addr
        else finish s { t with mask := e.save &&& t.live, stack := r } x
      else stackTrap s t
    | [] => stackTrap s t)

/-! ### Releases of class X (R194, R233) -/

/-- Every memory operation of the team is performed. -/
def memDone (s : State) (tid : Nat) : Bool :=
  (s.teamAt tid).memQ.all (fun o => o.performed || isFmap o || isFenceq o || isStagedOp s tid o)

/-- Past the watch rule, and once the team's accesses are performed, the release is performed at its scope. -/
def withRelease (s : State) (scope : Nat) (k : State → Out) : Out :=
  withGate s true (if !memDone s s.cur then .next s else match performRelease s s.cur scope with
    | none => .next s
    | some s => k s)

/-! ### Ending lanes and giving way (R121-R123) -/

/-- No forked stream of the team still runs. -/
def Team.streamsOver (t : Team) : Bool :=
  (match t.streamA with
   | none => true
   | some x => x.ended) &&
  (match t.streamC with
   | none => true
   | some x => x.ended)

/-- Nothing that a team without lanes has still to do keeps it from ending: no stream runs and its matrix queue is empty (R126, R320). -/
def Team.idle (t : Team) : Bool := t.streamsOver && t.matQ.isEmpty

/-- A team without lanes ends once its streams have ended and its matrix queue is empty (R121, R126, R320). -/
def Team.settle (t : Team) : Team :=
  if t.live = 0 && t.status = .live then
    { t with status := if t.idle then .ended else .live, clause := none, rep := 0, inRep := none }
  else t

/-- Lanes leave the team and every entry of its stack (R121). -/
def Team.dropLanes (t : Team) (k : LaneSet) : Team :=
  { t with
    mask := t.mask &&& ~~~k
    live := t.live &&& ~~~k
    stack := t.stack.map (fun e => { e with save := e.save &&& ~~~k, pend := e.pend &&& ~~~k }) }

/-- Blocks of a barrier: the block itself, or its level group. -/
def barrierBlocks (s : State) (bid lvl : Nat) : List Nat :=
  let b := s.blockAt bid
  if lvl = 0 then [bid]
  else
    let r := levelGroup (s.gridAt b.grid) lvl b.idx
    s.blocks.filterMap (fun p => if p.2.grid = b.grid && r.1 ≤ p.2.idx && p.2.idx < r.1 + r.2 then some p.1 else none)

/-- Every participant that has not ended has arrived (R127). -/
def barrierFull (s : State) (bid lvl : Nat) (arrived : List Nat) : Bool :=
  arrived != [] && (barrierBlocks s bid lvl).all (fun b => (liveTeams s b).all (fun p => arrived.contains p.1))

/-- A team that ends without arriving can complete its block's arrival at a generation above core level (R127), and so the block's phase (R371); one that
completes several ends their phases in the order of the last arrivals, as arrivals of the last team would have. Where such an arrival completes the
generation, the block is the participant that did (R128). -/
def endArrivals (s : State) (tid : Nat) : State :=
  let t := s.teamAt tid
  let rest := liveTeams s t.block
  let lvls := (s.blockAt t.block).arrOrder.filter (fun lvl =>
    let arrived := (s.barrierAt (barrierKey s t.block lvl)).arrived
    !arrived.contains tid && rest.all (fun p => arrived.contains p.1))
  match rest, lvls with
  | r :: _, _ :: _ =>
    let ph := (s.blockAt t.block).phase
    let s := lvls.zipIdx.foldl (fun s p =>
      let key := barrierKey s t.block p.1
      let b := s.barrierAt key
      s.setBarrier key { b with
        last := if barrierFull s t.block p.1 b.arrived then r.1 + 1 else b.last
        phases := kPut t.block (ph + p.2) b.phases }) s
    s.modBlock t.block (fun k => { k with phase := k.phase + lvls.length, ticket := false, arrOrder := k.arrOrder.filter (fun l => !lvls.contains l) })
  | _, _ => s

/-- A team that ends frees its watch entries (R195), and its claimed merges are served (R283). -/
def afterEnd (s : State) (tid : Nat) : State :=
  let t := s.teamAt tid
  if t.status = .ended then
    endArrivals (leaveStage (s.modCore t.core (fun k => { k with watch := k.watch.filter (fun w => w.tid != tid) })) (dieOf t.core) tid) tid
  else s

/-- A team without lanes whose last stream, or last matrix operation, is done ends (R121, R126, R320). -/
def endIfIdle (s : State) (tid : Nat) : State :=
  let t := s.teamAt tid
  if t.live = 0 && t.status = .live && t.idle then afterEnd (s.setTeamAt tid t.settle) tid else s

def execExit (f : Fields) (s : State) : Out :=
  issue (.exit f) s (fun t _ x =>
    let k := presentSet t (modOf .x x)
    if k = 0 then finish s t x
    else withRelease s (s.gridAt t.grid).lrec.cscope (fun s =>
      match finish s (s.team.dropLanes k) x with
      | .next s => .next (afterEnd (s.setTeam s.team.settle) s.cur)
      | o => o))

def execYield (f : Fields) (s : State) : Out :=
  issue (.yield f) s (fun t _ x =>
    match otherReady s s.cur with
    | [] => finish s t x
    | l => finish s { t with wait := .yielded l } x)

/-- Longest sleep (R123). -/
def sleepMax : Nat := 1048576

def execSleep (f : Fields) (s : State) : Out :=
  issue (.sleep f) s (fun t _ x =>
    let n := min (srcS t x.a.toNat (immOf x)).toNat sleepMax
    finish s (if n = 0 then t else { t with wait := .sleep (s.cc + n) }) x)

/-- SLEEP_EXPIRY: a sleep that has run out ends (R123). -/
def execSleepExpiry (s : State) : Out :=
  let tid := s.ev.x
  match (s.teamAt tid).wait with
  | .sleep till => if till ≤ s.cc then .next (wake s tid none) else .next s
  | _ => .next s

/-! ### Forked streams (R124-R126) -/

def engNum : Eng → Nat
  | .mat => 0
  | .copy => 1
def engOf (x : Fields) : Eng := if x.b = 0 then .mat else .copy
def Team.stream (t : Team) : Eng → Option Stream
  | .mat => t.streamA
  | .copy => t.streamC
def Team.setStream (t : Team) (e : Eng) (v : Option Stream) : Team :=
  match e with
  | .mat => { t with streamA := v }
  | .copy => { t with streamC := v }

def execFork (f : Fields) (s : State) : Out :=
  issue (.fork f) s (fun t _ x =>
    let e := engOf x
    if (t.stream e).isSome then trapAll s (controlOrder 4 (engNum e))
    else finish s (t.setStream e (some { pc := labelOf t x, clause := none, mask := t.mask, rep := 0, inRep := none, wait := .none, ended := false })) x)

/-- `rdv`: ends the stream it closes; in the team it joins a stream that has ended, or waits (R124, R126). -/
def execRdv (f : Fields) (s : State) : Out :=
  issue (.rdv f) s (fun t _ x =>
    let e := engOf x
    match s.curStream with
    | some _ => finish s (t.setStream e ((t.stream e).map (fun k => { k with ended := true }))) x
    | none =>
      match t.stream e with
      | none => finish s t x
      | some k => if k.ended then finish s (t.setStream e none) x else .next (s.setTeam { t with wait := .rdv e }))

/-! ### Barriers (R127-R129) -/

/-- Arrival at the open generation (R127): the outstanding arrival is recorded, and in a deterministic launch the block's phase advances once its
last live team arrives above core level (R371). -/
def arrive (s : State) (tid lvl : Nat) : State :=
  let t := s.teamAt tid
  let key := barrierKey s t.block lvl
  let b := s.barrierAt key
  let arrived := b.arrived ++ [tid]
  let s := s.setTeamAt tid { t with arrivals := kPut lvl b.gen t.arrivals }
  let whole := lvl ≠ 0 && (liveTeams s t.block).all (fun p => arrived.contains p.1)
  let s := s.setBarrier key { b with
    arrived := arrived
    last := if barrierFull s t.block lvl arrived then tid + 1 else 0
    phases := if whole then kPut t.block (s.blockAt t.block).phase b.phases else b.phases }
  let others (k : Block) : List Nat := k.arrOrder.filter (fun l => l != lvl)
  if whole then s.modBlock t.block (fun k => { k with phase := k.phase + 1, ticket := false, arrOrder := others k })
  else if lvl = 0 then s
  else s.modBlock t.block (fun k => { k with arrOrder := others k ++ [lvl] })

/-- The participant a generation elects, as a team at core level, else a block (R128); one that has ended since it arrived stays a candidate (log
entry 91). -/
def electOf (s : State) (bid lvl : Nat) (b : Barrier) : Nat :=
  let g := s.gridAt (s.blockAt bid).grid
  let part (tid : Nat) : Nat := if lvl = 0 then tid else (s.teamAt tid).block
  let rank (p : Nat) : Nat := if lvl = 0 then (s.teamAt p).index else (s.blockAt p).idx
  let ps := b.arrived.map part
  let top := ps.foldl (fun a p => if rank a ≤ rank p then p else a) (ps.headD 0)
  if g.det || b.last = 0 then top else part (b.last - 1)

/-- Key of an election in the log: level and generation (R375). -/
def electKey (lvl gen : Nat) : Nat := lvl + 2 ^ 32 * gen

/-- The entries of a replayed log for an election of this group, and the block each names. -/
def electEntries (s : State) (bid lvl gen : Nat) : List (Decision × Nat) :=
  let gid := (s.blockAt bid).grid
  (logLeft (s.gridAt gid) 3 (electKey lvl gen)).filterMap (fun d => match blockBy s gid d.block with
    | some p => if (barrierBlocks s bid lvl).contains p.1 then some (d, p.1) else none
    | none => none)

/-- Take one entry off a log. -/
def dropEntry (idx : Nat) (l : List Decision) : List Decision := l.filter (fun d => d.idx ≠ idx)

/-- The log's participant for an election of this group in a replay, where one without an entry elects nobody, so that a `bare` diverges; else the elected
one. Groups that share a key do not compete (R377; log entry 68). -/
def electLogged (s : State) (bid lvl : Nat) (b : Barrier) : Option Nat × State :=
  let gid := (s.blockAt bid).grid
  let g := s.gridAt gid
  let own := electOf s bid lvl b
  if !g.replay then (some own, s)
  else match electEntries s bid lvl b.gen with
  | [] => (none, s)
  | (d, p) :: _ =>
    (some <| if lvl = 0 then (s.teams.find? (fun q => q.2.block = p && q.2.index = d.team)).elim own (fun q => q.1) else p,
     s.setGrid gid { g with log := dropEntry d.idx g.log })

/-- The divergence of a `bare` at an election that has not been held: no entry of its group is left, or the one that is left names a participant that
has ended (R377). -/
def bareDiverges (s : State) (t : Team) (lvl gen : Nat) : Option Trap :=
  let g := s.gridAt t.grid
  if !g.replay || (kGet gen (s.barrierAt (barrierKey s t.block lvl)).elected).isSome then none
  else match electEntries s t.block lvl gen with
    | [] => some (divergence g.logCount 3 3)
    | (d, p) :: _ =>
      let gone := (s.blockAt p).status = .retired || (lvl = 0 && namedEnded s t.grid d)
      if gone then some (divergence d.idx 3 1) else none

/-- A `bare` reads its generation's election, which the log records once (R374). -/
def tellElection (s : State) (tid lvl gen : Nat) : State :=
  let t := s.teamAt tid
  let key := barrierKey s t.block lvl
  let b := s.barrierAt key
  if b.told.contains gen || (s.gridAt t.grid).det then s
  else
    let who := kGetD gen 0 b.elected
    let w := if lvl = 0 then (s.teamAt who).index else 0
    let blk := if lvl = 0 then (s.blockAt (s.teamAt who).block).idx else (s.blockAt who).idx
    record (s.setBarrier key { b with told := gen :: b.told }) t.grid 3 (electKey lvl gen) w 0 blk

/-- A team's completed wait: acquire at the level, the outstanding arrival gone, `bare`'s predicate in every lane of M (R127, R128). -/
def leaveBarrier (s : State) (tid lvl gen : Nat) (elect : Option Nat) : State :=
  let t := s.teamAt tid
  let s := acquireAt s t.core (lvl + 1)
  let s := if elect.isSome then tellElection s tid lvl gen else s
  let who := kGetD gen 0 (s.barrierAt (barrierKey s t.block lvl)).elected
  let won : Bool := if lvl = 0 then who = tid else who = t.block
  let t := s.teamAt tid
  let t := { t with arrivals := kDel lvl t.arrivals }
  s.setTeamAt tid (match elect with
    | none => t
    | some p => t.setPred p t.mask (if won then BitVec.allOnes 1024 else 0))

/-- Go on after an arrival: wait for the generation, or leave at once when it is complete. -/
def awaitBarrier (s : State) (x : Fields) (lvl gen : Nat) (elect : Option Nat) : Out :=
  let t := s.team
  if gen < (s.barrierAt (barrierKey s t.block lvl)).gen then
    let s := leaveBarrier s s.cur lvl gen elect
    finish s s.team x
  else finish s { t with wait := .barrier (lvlOf lvl) gen elect } x

/-- A level above the launch's cohort level traps (R129), before a release's watch entries are looked at (log entry 100). -/
def withLevel (s : State) (t : Team) (lvl : Nat) (k : Out) : Out :=
  if lvl ≠ 0 && (s.gridAt t.grid).cohLvl < lvl then trapAll s (controlOrder 3 lvl) else k

/-- `bara`: arrives, as a release at the level's scope (R127). -/
def execBara (l : Lvl) (f : Fields) (s : State) : Out :=
  issue (.bara l f) s (fun t _ x =>
    withLevel s t (lvlNum l)
      (if (kGet (lvlNum l) t.arrivals).isSome then trapAll s (controlOrder 1 (lvlNum l))
       else withRelease s ((lvlNum l) + 1) (fun s => let s := arrive s s.cur (lvlNum l); finish s s.team x)))

/-- `barw`: waits for the outstanding arrival's generation (R127). -/
def execBarw (l : Lvl) (f : Fields) (s : State) : Out :=
  issue (.barw l f) s (fun t _ x =>
    withLevel s t (lvlNum l)
      (match kGet (lvlNum l) t.arrivals with
       | none => trapAll s (controlOrder 2 (lvlNum l))
       | some gen => awaitBarrier s x (lvlNum l) gen none))

/-- `bar`: arrives and waits (R127). -/
def execBar (l : Lvl) (f : Fields) (s : State) : Out :=
  issue (.bar l f) s (fun t _ x =>
    withLevel s t (lvlNum l)
      (if (kGet (lvlNum l) t.arrivals).isSome then trapAll s (controlOrder 1 (lvlNum l))
       else withRelease s ((lvlNum l) + 1) (fun s =>
         let s := arrive s s.cur (lvlNum l)
         awaitBarrier s x (lvlNum l) (kGetD (lvlNum l) 0 s.team.arrivals) none)))

/-- `bare`: arrives if it has not, waits, and writes whether this team is elected (R127, R128), unless a replay diverges (R377). -/
def execBare (l : Lvl) (f : Fields) (s : State) : Out :=
  issue (.bare l f) s (fun t _ x =>
    withLevel s t (lvlNum l)
      (let key := barrierKey s t.block (lvlNum l)
       let gen := (kGet (lvlNum l) t.arrivals).getD (s.barrierAt key).gen
       match bareDiverges s t (lvlNum l) gen with
       | some tr => trapAll s tr
       | none =>
         let p := some x.d.toNat
         withGate s true (match kGet (lvlNum l) t.arrivals with
           | some gen => awaitBarrier s x (lvlNum l) gen p
           | none => withRelease s ((lvlNum l) + 1) (fun s =>
               let s := arrive s s.cur (lvlNum l)
               awaitBarrier s x (lvlNum l) (kGetD (lvlNum l) 0 s.team.arrivals) p))))

/-- Teams of a barrier that wait for a generation already complete. -/
def barrierWaiters (s : State) (bid lvl : Nat) : List (Nat × Nat × Option Nat) :=
  let done := (s.barrierAt (barrierKey s bid lvl)).gen
  s.teams.filterMap (fun p =>
    if (barrierBlocks s bid lvl).contains p.2.block then
      match p.2.wait with
      | .barrier l gen e => if l = lvlOf lvl && gen < done then some (p.1, gen, e) else none
      | _ => none
    else none)

/-- A block's phase up to its part in a generation is released (R373): the phase that its arrival ended; of a block that ended without arriving its last, or
as far as the lower blocks that wait at this generation let its phases be released (log entry 36). -/
def phaseFreed (s : State) (b : Barrier) (bs : List Nat) (k : Nat) : Bool :=
  let v := s.blockAt k
  match kGet k b.phases with
  | some p => p < v.relPhase
  | none => ((bs.filter (fun j => (s.blockAt j).idx < v.idx)).filterMap (fun j => kGet j b.phases)).foldl min v.phase < v.relPhase

/-- BARRIER_GENERATION_COMPLETE: the open generation of the barrier of a block at a level completes once every participant that has not ended has
arrived, in a deterministic launch once each participant's phase is released (R373); then its waiting teams go on (R127, R128). -/
def execBarrierGenerationComplete (s : State) : Out :=
  let lvl := s.ev.x
  let bid := s.ev.y
  let key := barrierKey s bid lvl
  let b := s.barrierAt key
  let bs := barrierBlocks s bid lvl
  let freed := !(s.gridAt (s.blockAt bid).grid).det || lvl = 0 || bs.all (phaseFreed s b bs)
  let s :=
    if barrierFull s bid lvl b.arrived && freed then
      let r := electLogged s bid lvl b
      r.2.setBarrier key { b with gen := b.gen + 1, arrived := [], last := 0, phases := [], elected := r.1.elim b.elected (fun w => kPut b.gen w b.elected) }
    else s
  .next ((barrierWaiters s bid lvl).foldl (fun s p => wake (leaveBarrier s p.1 lvl p.2.1 p.2.2) p.1 none) s)

/-! ### Tail, trap, watch check (R130-R132) -/

/-- `tail`: reads a launch record after the team's earlier accesses to it, as a release, and keeps it with the grid (R130); a misaligned
address comes before a full buffer (log entry 70), and both of these, a fault of the address and poisoned data come before a struck watch entry (log
entry 99). Once the grid has failed a record is dropped without being counted (log entry 83). -/
def execTail (f : Fields) (s : State) : Out :=
  issue (.tail f) s (fun t _ x =>
    let va := (srcS64 t x.a.toNat 0).toNat
    let g := s.gridAt t.grid
    if va % 64 ≠ 0 then trapAll s (controlOrder 7 0)
    else if Config.tailRecords ≤ g.tails.length then trapAll s (controlOrder 5 0)
    else withGather s accR (gather [(0, va, checkGlobal s s.cur va 1 wantRead)]) (fun _ => t.mask) (fun accs =>
      match accs with
      | [] => .next s
      | a :: _ => if poisonIn s a.addr 64 && !servedByCopy s t.core (a.addr / 64) then .next (endTeamBad s s.cur 2) else withRelease s g.lrec.cscope (fun r =>
          match loadLine r t.core (a.addr / 64) a.lease with
          | none => .next s
          | some (s, d) =>
            let b := s.blockAt t.block
            let bs := lineBytes (stagedLine s t.block (a.addr / 64) d)
            let s := s.modGrid t.grid (fun g => if g.failed then g else { g with tails := g.tails ++ [{ block := b.idx, seq := g.tails.length, bytes := bs }] })
            finish s s.team x)))

/-- `trap`: the Software trap; `tret` goes on at the word after the clause (R131). -/
def execTrap (f : Fields) (s : State) : Out :=
  issue (.trap f) s (fun t _ x =>
    let next := t.pc + BitVec.ofNat 64 (lenOf x)
    let s := s.setTeam { t.issued s.cc with clause := none, inRep := none }
    .next (enterTrap s s.cur { cause := 0x06, i0 := immOf x } t.mask next false))

/-- `chkw`: once every watch entry has resolved, clears them, and branches when one was struck (R132). -/
def execChkw (f : Fields) (s : State) : Out :=
  issue (.chkw f) s (fun t _ x =>
    match releaseGate s s.cur with
    | .wait => .next (s.setTeam { t with wait := .watch })
    | g =>
      if t.mask = 0 then finish s t x
      else
        let s := s.modCore t.core (fun k => { k with watch := k.watch.filter (fun w => w.tid != s.cur) })
        let t' := { t with struck := false }
        if g = .struck then transfer s t' (labelOf t x) else finish s t' x)

end Sys2Proof.Machine
end

