-- ==== Sys2Proof/Machine/Aes.lean ====
section
/-! DEFINITION. XTS-AES-256 of one 64-byte unit (11_memory.md R214: IEEE 1619 over FIPS 197) and AES-256-GCM (25_platform.md R387). A block is a list of 16 bytes as numbers, in the order
of the text; keys are lists of 32 bytes. -/

namespace Sys2Proof.Machine

/-- The S-box and its inverse of FIPS 197, entry i in byte i. -/
def aesBox : Nat := 0x16bb54b00f2d99416842e6bf0d89a18cdf2855cee9871e9b948ed9691198f8e19e1dc186b95735610ef6034866b53e708a8bbd4b1f74dde8c6b4a61c2e2578ba08ae7a65eaf4566ca94ed58d6d37c8e779e4959162acd3c25c2406490a3a32e0db0b5ede14b8ee4688902a22dc4f816073195d643d7ea7c41744975fec130ccdd2f3ff1021dab6bcf5389d928f40a351a89f3c507f02f94585334d43fbaaefd0cf584c4a39becb6a5bb1fc20ed00d153842fe329b3d63b52a05a6e1b1a2c830975b227ebe28012079a059618c323c7041531d871f1e5a534ccf73f362693fdb7c072a49cafa2d4adf04759fa7dc982ca76abd7fe2b670130c56f6bf27b777c63
def aesInvBox : Nat := 0x7d0c2155631469e126d677ba7e042b17619953833cbbebc8b0f52aae4d3be0a0ef9cc9939f7ae52d0d4ab519a97f51605fec8027591012b131c7078833a8dd1ff45acd78fec0db9a2079d2c64b3e56fc1bbe18aa0e62b76f89c5291d711af1476edf751ce837f9e28535ade72274ac9673e6b4f0cecff297eadc674f4111913a6b8a130103bdafc1020f3fca8f1e2cd00645b3b80558e4f70ad3bc8c00abd890849d8da75746155edab9edfd5048706c92b6655dcc5ca4d41698688664f6f87225d18b6d49a25b76b224d92866a12e084ec3fa420b954cee3d23c2a632947b54cbe9dec444438e3487ff2f9b8239e37cfbd7f3819ea340bf38a53630d56a0952

def aesSub (b : Nat) : Nat := aesBox >>> (8 * b) % 256
def aesInvSub (b : Nat) : Nat := aesInvBox >>> (8 * b) % 256

/-- Multiplication by x in GF(2^8), and by a small factor. -/
def xtime (b : Nat) : Nat := if b < 128 then 2 * b else (2 * b) ^^^ 0x11B
def gfMul (k b : Nat) : Nat :=
  let b2 := xtime b
  let b4 := xtime b2
  let b8 := xtime b4
  (if k.testBit 0 then b else 0) ^^^ (if k.testBit 1 then b2 else 0) ^^^ (if k.testBit 2 then b4 else 0) ^^^ (if k.testBit 3 then b8 else 0)

/-- Exclusive or of two byte lists. -/
def xorBytes (a b : List Nat) : List Nat := a.zipWith (fun x y => x ^^^ y) b

/-- The schedule of a 256-bit key: 60 words of 4 bytes, from the words so far, newest first. -/
def aesExpand : Nat → List (List Nat) → Nat → List (List Nat)
  | 0, ws, _ => ws
  | n + 1, ws, rcon =>
    let i := ws.length
    let prev := ws.getD 0 []
    let t :=
      if i % 8 = 0 then xorBytes ((prev.drop 1 ++ prev.take 1).map aesSub) [rcon, 0, 0, 0]
      else if i % 8 = 4 then prev.map aesSub
      else prev
    aesExpand n (xorBytes (ws.getD 7 []) t :: ws) (if i % 8 = 0 then xtime rcon else rcon)

/-- Round keys 0 to 14 of a 32-byte key. -/
def aesKeys (key : List Nat) : List (List Nat) :=
  let first := (List.range 8).map (fun i => (key.drop (4 * i)).take 4)
  let ws := (aesExpand 52 first.reverse 1).reverse
  (List.range 15).map (fun r => ((ws.drop (4 * r)).take 4).flatten)

/-- Rows shifted left, or right. -/
def shiftRows (s : List Nat) : List Nat := (List.range 16).map (fun i => s.getD ((i + 4 * (i % 4)) % 16) 0)
def unshiftRows (s : List Nat) : List Nat := (List.range 16).map (fun i => s.getD ((i + 12 * (i % 4)) % 16) 0)

/-- Columns times the circulant of four factors. -/
def mixWith (k : List Nat) (s : List Nat) : List Nat :=
  (List.range 16).map (fun i => (List.range 4).foldl (fun a j => a ^^^ gfMul (k.getD ((j + 4 - i % 4) % 4) 0) (s.getD (4 * (i / 4) + j) 0)) 0)

/-- The cipher (FIPS 197) with round keys given. -/
def aesEnc (ks : List (List Nat)) (b : List Nat) : List Nat :=
  let mid := (List.range 13).foldl (fun s r => xorBytes (mixWith [2, 3, 1, 1] (shiftRows (s.map aesSub))) (ks.getD (r + 1) [])) (xorBytes b (ks.getD 0 []))
  xorBytes (shiftRows (mid.map aesSub)) (ks.getD 14 [])

/-- The inverse cipher. -/
def aesDec (ks : List (List Nat)) (b : List Nat) : List Nat :=
  let mid := (List.range 13).foldl (fun s r => mixWith [14, 11, 13, 9] (xorBytes ((unshiftRows s).map aesInvSub) (ks.getD (13 - r) []))) (xorBytes b (ks.getD 14 []))
  xorBytes ((unshiftRows mid).map aesInvSub) (ks.getD 0 [])

/-- n bytes of a number, lowest first, and back. -/
def natBytes (n v : Nat) : List Nat := (List.range n).map (fun i => v >>> (8 * i) % 256)
def bytesNat (l : List Nat) : Nat := l.foldr (fun b a => b + 256 * a) 0

/-- Multiplication of a tweak by alpha (IEEE 1619). -/
def xtsDouble (t : Nat) : Nat := if t < 2 ^ 127 then 2 * t else (2 * t - 2 ^ 128) ^^^ 0x87

/-- Tweaks of four consecutive blocks. -/
def xtsTweaks : Nat → Nat → List Nat
  | 0, _ => []
  | n + 1, t => t :: xtsTweaks n (xtsDouble t)

/-- Encrypt or decrypt a 64-byte unit with data key, tweak key and tweak number. -/
def xtsUnit (enc : Bool) (key tweakKey : BitVec 256) (tweak : Nat) (unit : Line) : Line :=
  let kd := aesKeys (natBytes 32 key.toNat)
  let t0 := bytesNat (aesEnc (aesKeys (natBytes 32 tweakKey.toNat)) (natBytes 16 tweak))
  let out := (xtsTweaks 4 t0).zipIdx.map (fun p =>
    let t := natBytes 16 p.1
    let b := natBytes 16 (unit.toNat >>> (128 * p.2))
    xorBytes (if enc then aesEnc kd (xorBytes b t) else aesDec kd (xorBytes b t)) t)
  BitVec.ofNat 512 (bytesNat out.flatten)

/-! AES-256-GCM (NIST SP 800-38D) without additional data, for the key mailbox (25_platform.md R387; log entry 71). -/

/-- A number from bytes, highest first, and back. -/
def beNat (l : List Nat) : Nat := l.foldl (fun a b => 256 * a + b) 0
def beBytes (n v : Nat) : List Nat := (List.range n).map (fun i => v >>> (8 * (n - 1 - i)) % 256)

/-- Multiplication in the field of GCM, whose first bit is the highest. -/
def gcmMul (x y : Nat) : Nat :=
  ((List.range 128).foldl (fun (p : Nat × Nat) i =>
    (if x.testBit (127 - i) then p.1 ^^^ p.2 else p.1, if p.2 % 2 = 1 then (p.2 / 2) ^^^ (0xE1 * 2 ^ 120) else p.2 / 2)) (0, y)).1

/-- GHASH of blocks. -/
def ghash (h : Nat) (bs : List (List Nat)) : Nat := bs.foldl (fun a b => gcmMul (a ^^^ beNat b) h) 0

/-- Blocks of 16 bytes. -/
def blocks16 (l : List Nat) : List (List Nat) := (List.range ((l.length + 15) / 16)).map (fun i => (l.drop (16 * i)).take 16)

/-- The plain text of an authentic cipher text of whole blocks. -/
def gcmOpen (key : BitVec 256) (nonce cipher tag : List Nat) : Option (List Nat) :=
  let ks := aesKeys (natBytes 32 key.toNat)
  let h := beNat (aesEnc ks (List.replicate 16 0))
  let ctr (i : Nat) : List Nat := aesEnc ks (nonce ++ beBytes 4 i)
  let bs := blocks16 cipher
  let t := xorBytes (beBytes 16 (ghash h (bs ++ [beBytes 8 0 ++ beBytes 8 (8 * cipher.length)]))) (ctr 1)
  if t = tag then some (bs.zipIdx.flatMap (fun p => xorBytes p.1 (ctr (p.2 + 2)))) else none

end Sys2Proof.Machine
end

