-- ==== Sys2Proof/Machine/MemQueue.lean ====
section
/-! DEFINITION. Performing and completing the operations of a team's memory queue (11_memory.md R181-R188, R192, R196-R203, R209, R210;
16_scheduling_faults.md R289; 22_coherence.md R361; 24_determinism.md R372). An operation that cannot be performed now answers none. -/

namespace Sys2Proof.Machine

/-! ### Loads -/

/-- Unique lines of the global accesses, ascending, each with the lease of the first lane that names it. -/
def lineLeases (accs : List LaneAcc) : KMap Nat :=
  accs.foldl (fun m a => if a.blk.isNone && (kGet (a.addr / 64) m).isNone then kPut (a.addr / 64) a.lease m else m) []

/-- Bring each line to the core, in ascending order; a watched load may read an expired copy (R192, R242). -/
def bringLines (s : State) (tid : Nat) (watched : Bool) (ls : KMap Nat) : Option (State × KMap Line) :=
  let c := (s.teamAt tid).core
  ls.foldl (fun o p => o.bind (fun r =>
    match (if watched then watchLine r.1 tid p.1 else none) with
    | some (s, d) => some (s, kPut p.1 d r.2)
    | none => (loadLine r.1 c p.1 p.2).map (fun q => (q.1, kPut p.1 q.2 r.2)))) (some (s, []))

/-- Bind the data of n bytes for every lane; the block's own staged bytes show (R372). -/
def bindLoads (s : State) (tid n : Nat) (watched : Bool) (accs : List LaneAcc) : Option (State × List LaneAcc) :=
  match bringLines s tid watched (lineLeases accs) with
  | none => none
  | some (s, lines) =>
    accs.foldl (fun o a => o.bind (fun r =>
      match a.blk with
      | none =>
        let d := stagedLine r.1 (s.teamAt tid).block (a.addr / 64) (kGetD (a.addr / 64) 0 lines)
        some (r.1, r.2 ++ [{ a with data := lineNat d (a.addr % 64) n }])
      | some b => (stashLoad r.1 b a.addr n).map (fun q => (q.1, r.2 ++ [{ a with data := leNat q.2 }])))) (some (s, []))

/-! ### Stores -/

/-- Bytes and mask that the lanes write into each line, in lane order. -/
def storeLines (n : Nat) (accs : List LaneAcc) : KMap (ByteMask × Line) :=
  accs.foldl (fun m a =>
    if a.blk.isNone then
      let o := kGetD (a.addr / 64) (0, 0) m
      let k := maskOf (a.addr % 64) n
      kPut (a.addr / 64) (o.1 ||| k, mergeLine o.2 k (lineData (a.addr % 64) (leBytes n a.data))) m
    else m) []

/-- Dirty bytes that the block's windows hold of a line, before a staged write that meets them: they are staged just before it and clean from then on, so
that they stay what the core's teams read until the write is performed (R182, R201, R230). The windows do not show a write that is not performed yet. -/
def stageDirty (s : State) (tid line : Nat) (m : ByteMask) (w : StagedWrite) : State :=
  let t := s.teamAt tid
  let hit := dirtyIn s t.block line &&& m
  match if hit = 0 then none else winCopy s t.core line with
  | none => s
  | some c =>
    let s := ((List.range 64).filter hit.getLsbD).foldl (fun s i => stageWrite s t.block
      { w with pa := 64 * line + i, bytes := leBytes 1 (lineNat c.2 i 1), red := none, seen := true }) s
    s.modBlock t.block (fun b => { b with windows := b.windows.map (fun v => { v with
      lines := v.lines.map (fun p => if p.2.pa = line then (p.1, { p.2 with dirty := p.2.dirty &&& ~~~hit }) else p) }) })

/-- One write of a block's share, in ticket order, with what it meets in the block's windows (R372). -/
def stageOne (s : State) (tid seq phase n : Nat) (a : LaneAcc) (bytes : List Byte) (red : Option AOp) : State :=
  let t := s.teamAt tid
  let w : StagedWrite := { team := t.index, seq := seq, lane := a.lane, pa := a.addr, bytes := bytes, red := red.map (fun r => (r, a.data)), core := t.core
                           lease := a.lease, phase := phase }
  stageWrite (stageDirty s tid (a.addr / 64) (maskOf (a.addr % 64) n) w) t.block w

/-- Stage the lanes' global writes in the block's share, in ticket order (R372). -/
def stageWrites (s : State) (tid : Nat) (o : MemOp) (n : Nat) (red : Option AOp) : State :=
  (o.accs.filter (fun a => a.blk.isNone)).foldl (fun s a =>
    stageOne s tid o.id o.phase n a (if red.isSome then [] else leBytes n a.data) red) s

/-- Bytes that an engine writes for a team in a deterministic launch: staged line by line as its store (R372; log entry 35). -/
def stageBytes (s : State) (tid seq phase pa : Nat) (bs : List Byte) : State :=
  (splitLines pa bs).foldl (fun s p =>
    let lo := if 64 * p.1 ≤ pa then pa else 64 * p.1
    let a : LaneAcc := { lane := 0, blk := none, addr := lo, va := lo, data := 0, data2 := 0, lease := 0, mclass := 0 }
    let part := (bs.drop (lo - pa)).take (64 * p.1 + 64 - lo)
    stageOne s tid seq phase part.length a part none) s

/-- How a block's global write is treated: as it comes, staged, or in order once the team has its turn. -/
inductive Treat where
  | inPlace | stage | hold
  deriving DecidableEq, Repr

def treatment (s : State) (tid bytes : Nat) : Treat :=
  let t := s.teamAt tid
  if !(s.gridAt t.grid).det then .inPlace
  else if pastShare s t.block bytes then .hold
  else .stage

/-- Run a write of a block as it comes, or stage it; a write that overflows the share waits for the team's turn under the ticket, and from then on the
block's writes go in place, each in its turn (R372). -/
def treated (s : State) (tid : Nat) (o : MemOp) (bytes : Nat) (stage : State → State) (go : State → Option State) : Option State :=
  match treatment s tid bytes with
  | .inPlace => go s
  | .stage => some (stage s)
  | .hold => if o.turn s tid then (goInPlace s tid o).bind go else none

/-- The lanes' stash writes, in lane order. -/
def stashStores (s : State) (n : Nat) (accs : List LaneAcc) : Option State :=
  accs.foldl (fun o a => o.bind (fun s => match a.blk with
    | none => some s
    | some b => stashStore s b a.addr (leBytes n a.data))) (some s)

/-- A store: global bytes enter the core's store buffer, one entry for each line; stash bytes are written. -/
def performStore (s : State) (tid : Nat) (o : MemOp) (n : Nat) : Option State :=
  let c := (s.teamAt tid).core
  match stashStores s n o.accs with
  | none => none
  | some s =>
    if o.accs.all (fun a => a.blk.isSome) then some s
    else treated s tid o (n * o.accs.length) (fun s => stageWrites s tid o n none) (fun s =>
      some (s.modCore c (fun k => { k with sbuf := k.sbuf ++ (storeLines n o.accs).map (fun p =>
        { tid := tid, line := p.1, mask := p.2.1, data := p.2.2, cls := o.scls
          va := ((o.accs.find? (fun a => a.blk.isNone && a.addr / 64 = p.1)).map (fun a => a.va)).getD 0 }) })))

/-! ### Atomics and reductions (R183-R185) -/

/-- Apply the lanes that name a line, in lane order, to its bytes: the new line, the written mask, the lanes with their old values. -/
def applyLanes (op : AOp) (d : Line) (accs : List LaneAcc) : Line × ByteMask × List LaneAcc :=
  accs.foldl (fun r a =>
    let o := a.addr % 64
    let old := BitVec.ofNat 32 (lineNat r.1 o 4)
    let new := atomFn op old (BitVec.ofNat 32 a.data) (BitVec.ofNat 32 a.data2)
    (mergeLine r.1 (maskOf o 4) (lineData o (leBytes 4 new.toNat)), r.2.1 ||| maskOf o 4, r.2.2 ++ [{ a with data := old.toNat }])) (d, 0, [])

/-- The line as an atomic of the core finds it: the die's copy, what the core's windows have staged over it, then their dirty bytes. -/
def atomLine (s : State) (c line : Nat) : Line :=
  let d := seenOver s c line (match l2At s (dieOf c) line with
    | some e => e.data
    | none => viewLine s line)
  (winsOf s c line).foldl (fun d p => match kGet p.2.2 p.2.1.lines with
    | some l => mergeLine d l.dirty (winData s p.1 p.2.1 p.2.2)
    | none => d) d

/-- The global lanes of one line, applied at the die's L2 as one step. -/
def atomGlobal (s : State) (c : Nat) (op : AOp) (line : Nat) (accs : List LaneAcc) : Option (State × List LaneAcc) :=
  match (drainTo s c (fun e => e.line = line)).bind (fun s => gainLine s (dieOf c) line true) with
  | none => none
  | some s =>
    let r := applyLanes op (atomLine s c line) accs
    (coreWrite s c line r.2.1 r.1).map (fun s => (s, r.2.2))

/-- A stash lane, applied where the stash is (R185). -/
def atomStash (s : State) (op : AOp) (b : Nat) (a : LaneAcc) : Option (State × LaneAcc) :=
  match stashLoad s b a.addr 4 with
  | none => none
  | some (s, bs) =>
    let old := BitVec.ofNat 32 (leNat bs)
    let new := atomFn op old (BitVec.ofNat 32 a.data) (BitVec.ofNat 32 a.data2)
    (stashStore s b a.addr (leBytes 4 new.toNat)).map (fun s => (s, { a with data := old.toNat }))

/-- What a staged write leaves outside the word at an address, and what it has within it. -/
def cutStaged (w : StagedWrite) (pa : Nat) : List StagedWrite × List StagedWrite :=
  if pa + 4 ≤ w.pa || w.pa + w.size ≤ pa then ([w], [])
  else if w.red.isSome then ([], [w])
  else
    let lo := pa - w.pa
    let hi := pa + 4 - w.pa
    let piece (o n : Nat) : List StagedWrite :=
      if n = 0 || w.bytes.length ≤ o then [] else [{ w with pa := w.pa + o, bytes := (w.bytes.drop o).take n }]
    (piece 0 lo ++ piece hi w.bytes.length, piece lo (pa + 4 - (w.pa + lo)))

/-- The block's writes staged earlier, in the order of R372, to the words of an atomic are applied first; of a wider store the word's bytes alone. -/
def unstage (s : State) (tid : Nat) (o : MemOp) : Option State :=
  let t := s.teamAt tid
  (o.accs.filter (fun a => a.blk.isNone)).foldl (fun r a => r.bind (fun s =>
    let b := s.blockAt t.block
    let cuts := b.staged.map (fun w => if w.before o.phase t.index o.id then cutStaged w a.addr else ([w], []))
    (performStagedAll s b.core (cuts.flatMap (fun c => c.2))).map (fun s =>
      s.modBlock t.block (fun k => { k with staged := cuts.flatMap (fun c => c.1) })))) (some s)

/-- Lines of an atomic's global lanes that are not applied yet, ascending. -/
def linesLeft (o : MemOp) : List Nat := ((lineLeases o.accs).map (fun p => p.1)).filter (fun l => !o.done.contains l)

/-- The lanes of one line are applied as one step, once their decisions are due and the die has the line (R183, R377); none where they must wait. -/
def atomLineStep (s : State) (tid : Nat) (op : AOp) (o : MemOp) (line : Nat) : Option (State × MemOp) :=
  let q := o.onLine line
  (((decide1 s tid (decisionKeys s q) 1).bind (fun s => unstage s tid q)).bind (fun s => atomGlobal s (s.teamAt tid).core op line q.accs)).map (fun r =>
    (r.1, { o with
      done := o.done ++ [line]
      accs := o.accs.map (fun a => if a.blk.isNone && a.addr / 64 = line then (r.2.find? (fun b => b.lane = a.lane)).getD a else a) }))

/-- The stash lanes, in lane order, once their decisions are due. -/
def atomStashes (s : State) (tid : Nat) (op : AOp) (o : MemOp) : Option (State × MemOp) :=
  (decide1 s tid (decisionKeys s { o with accs := o.accs.filter (fun a => a.blk.isSome) }) 1).bind (fun s =>
    (o.accs.foldl (fun r a => r.bind (fun q => match a.blk with
      | none => some (q.1, q.2 ++ [a])
      | some b => (atomStash q.1 op b a).map (fun z => (z.1, q.2 ++ [z.2])))) (some (s, []))).map (fun q => (q.1, { o with accs := q.2, performed := true })))

/-- An atomic or reduction in place: each line that can be applied now is, and the stash lanes after the last; none where nothing could be applied. -/
def atomAll (s : State) (tid : Nat) (op : AOp) (o : MemOp) : Option (State × MemOp) :=
  let r := (linesLeft o).foldl (fun r l => (atomLineStep r.1 tid op r.2 l).getD r) (s, o)
  let moved := if r.2.done = o.done then none else some r
  if linesLeft r.2 ≠ [] then moved
  else match atomStashes r.1 tid op r.2 with
    | some q => some q
    | none => moved

/-- An atomic with its result, in place; a reduction, in place or staged. A float one in a stash keeps the ticket order too (R111, R372). -/
def performAtom (s : State) (tid : Nat) (o : MemOp) (op : AOp) (ret : Bool) : Option (State × MemOp) :=
  if ret || o.accs.all (fun a => a.blk.isSome) then
    if (s.gridAt (s.teamAt tid).grid).det && !ret && op.float && !o.turn s tid then none else atomAll s tid op o
  else match treatment s tid (4 * o.accs.length) with
    | .inPlace => atomAll s tid op o
    | .stage => (atomStashes s tid op o).map (fun r => (stageWrites r.1 tid o 4 (some op), r.2))
    | .hold => if o.turn s tid then (goInPlace s tid o).bind (fun s => atomAll s tid op o) else none

/-! ### Append and seal (R186-R188, R361) -/

/-- Offset that marks a failed lane of `append`. -/
def appendFail : Nat := 0xFFFFFFFF

/-- The append page of a frame; a frame that no event named counts as just obtained (R186). -/
def pageRec (s : State) (p size : Nat) : APage := kGetD p { size := size, tail := 0, st := .opened, pending := 0, recalled := [] } s.pages
def setPageRec (s : State) (p : Nat) (v : APage) : State := { s with pages := kPut p v s.pages }

/-- The home's indivisible step of `append`: offsets in lane order, or failures; a reservation that some lane has is pending until its data is written
(R187, R188). -/
def reserveAppend (s : State) (o : MemOp) (e p size : Nat) : State × MemOp :=
  let g := pageRec s p size
  let done (accs : List LaneAcc) : MemOp := { o with accs := accs, kind := .append e p size true }
  if g.st != .opened then (s, done (o.accs.map (fun a => { a with addr := appendFail })))
  else
    let r := o.accs.foldl (fun (r : Nat × List LaneAcc) a =>
      if size < r.1 + e then (r.1, r.2 ++ [{ a with addr := appendFail }]) else (r.1 + e, r.2 ++ [{ a with addr := r.1 }])) ((g.tail + e - 1) / e * e, [])
    (setPageRec s p { g with tail := r.1, pending := if r.2.any (fun a => a.addr ≠ appendFail) then g.pending + 1 else g.pending }, done r.2)

/-- Bytes of one line are written at its home: every die's copy goes, VER rises (R361). -/
def appendPiece (s : State) (line : Nat) (m : ByteMask) (d : Line) : Option State :=
  match homeDie s line with
  | none => some s
  | some h =>
    if (dirAt s h line).tr.isSome then none
    else
      let s := recallLine s h line
      let s := homeWrite s h line (mergeLine (homeLine s h line) m d)
      some (setDir s h line { dirAt s h line with ver := (dirAt s h line).ver + 1 })

/-- An element, or a record, is written at the home, line by line. -/
def appendWrite (s : State) (pa : Nat) (bs : List Byte) : Option State :=
  (splitLines pa bs).foldl (fun o p => o.bind (fun s => appendPiece s p.1 p.2.1 p.2.2)) (some s)

/-- The core that wrote n bytes at their home keeps no older copy of them in its L1 (R182); no window maps an append-class page (R200). -/
def forgetLines (s : State) (c pa n : Nat) : State :=
  s.modCore c (fun k => { k with l1 := k.l1.filter (fun p => !(pa < 64 * p.1 + 64 && 64 * p.1 < pa + n)) })

/-- The data of a reserved `append` is written at the home. -/
def writeAppend (s : State) (o : MemOp) (e p size : Nat) : Option State :=
  let ok := o.accs.filter (fun a => a.addr ≠ appendFail)
  (ok.foldl (fun r a => r.bind (fun s => appendWrite s (p + a.addr) (leBytes e a.data))) (some s)).map (fun s =>
    let g := pageRec s p size
    if kGet p s.pages = none || ok = [] then s else setPageRec s p { g with pending := g.pending - 1 })

/-- Lines that an `append` writes at their home; an element lies in one (R187). -/
def appendLines (o : MemOp) (p : Nat) : List Nat := ((o.accs.filter (fun a => a.addr ≠ appendFail)).map (fun a => (p + a.addr) / 64)).eraseDups

/-- The `append` of a team is performed: its core, whose later loads see it, keeps no older copy of the lines (R182, R187), and the home's writes of them
are requests in its class (R380). -/
def finishAppend (s : State) (tid : Nat) (o : MemOp) (e p size : Nat) : Option State :=
  (writeAppend s o e p size).map (fun s =>
    (appendLines o p).foldl (fun s l => chanRequest (forgetLines s (s.teamAt tid).core (64 * l) 64) o.scls (s.teamAt tid).core l) s)

/-! ### Windows (R200-R203) -/

/-- The windows of a team's block as its next window operation will find them: start and length. The team's own queued `smap` and `sunmap` come first;
of another team's, the windows it will make count, and those it will remove still stand (R200, R203). -/
def windowsAhead (s : State) (tid : Nat) : List (Nat × Nat) :=
  let bid := (s.teamAt tid).block
  let waiting (q : MemOp) : Bool := !q.performed
  let made : List (Nat × Nat) := (s.teams.filter (fun p => p.1 ≠ tid && p.2.block = bid && p.2.status = .live)).flatMap (fun p =>
    (p.2.memQ.filter waiting).filterMap (fun o => match o.kind with
      | .smap off _ len _ => some (off, len)
      | _ => none))
  ((s.teamAt tid).memQ.filter waiting).foldl (fun l o => match o.kind with
    | .smap off _ len _ => l ++ [(off, len)]
    | .sunmap off => l.filter (fun w => w.1 ≠ off)
    | _ => l) ((s.blockAt bid).windows.map (fun w => (w.off, w.len))) ++ made

/-- An `smap` of the block's teams that will make a window at an offset has not been performed. -/
def mapPending (s : State) (bid off : Nat) : Bool :=
  s.teams.any (fun p => p.2.block = bid && p.2.status = .live && p.2.memQ.any (fun o => !o.performed && (match o.kind with
    | .smap k _ _ _ => k = off
    | _ => false)))

/-- The filled lines of a window become plain stash as the block reads them: with its staged writes (R203, R372). -/
def settleWindow (s : State) (bid : Nat) (w : Window) : State :=
  if (s.blockAt bid).staged = [] then s
  else w.lines.foldl (fun s p => stashWrite s bid (w.off + 64 * p.1) (lineBytes (stagedLine s bid p.2.pa (winData s bid w p.1)))) s

/-- Write back a window and remove it, once it has been made (R203). -/
def performSunmap (s : State) (tid off : Nat) : Option State :=
  let t := s.teamAt tid
  match (s.blockAt t.block).windows.find? (fun w => w.off = off) with
  | none => if mapPending s t.block off then none else some s
  | some w =>
    ((drainAll s t.core).bind (fun s => writeBackWindow s t.core t.block w)).map (fun s =>
      (settleWindow s t.block w).modBlock t.block (fun b => { b with windows := b.windows.filter (fun v => v.off ≠ off) }))

/-! ### Prefetch (R199) -/

/-- One kept line of a prefetch arrives; lanes whose checks fail are dropped, and so are poisoned pages and encrypted ones without a binding. -/
def prefLane (s : State) (tid : Nat) (l2 : Bool) (va : Nat) : Option State :=
  let t := s.teamAt tid
  let die := dieOf t.core
  match (match findTlb (s.coreAt t.core).tlb (s.gridAt t.grid).asid va with
    | some e => if e.r then WalkRes.ok s e else .bad 3 1
    | none => match walk s die (s.gridAt t.grid).asid va accR with
      | .ok s' e => .ok (noteWalk s t.core (s.gridAt t.grid).asid va s') e
      | w => w) with
  | .busy => none
  | .bad _ _ => some s
  | .noMem _ => some s
  | .ok s e =>
    let pa := e.ppage + (va - e.vpage)
    let s := tlbPut s t.core e
    let poisoned := poisonIn s e.ppage e.size
    let bare := e.mclass = 2 && !t.binds.any (fun b => b.2.base ≤ va && va < b.2.base + b.2.extent)
    if !backed s pa || extentGone s pa || poisoned || bare then some s
    else if l2 then (if sealedLine s (pa / 64) then some s else gainLine s die (pa / 64) false)
    else (loadLine s t.core (pa / 64) e.lease).map (fun r => r.1)

/-! ### First-touch service (R289) -/

/-- Take an aligned frame of n bytes out of a pool: of the first range of its list that holds one (log entry 95). -/
def takeFrame (n : Nat) : List (Nat × Nat) → Option (Nat × List (Nat × Nat))
  | [] => none
  | (a, k) :: r =>
    let f := (a + n - 1) / n * n
    if f + n ≤ a + k then
      some (f, (if a < f then [(a, f - a)] else []) ++ (if f + n < a + k then [(f + n, a + k - f - n)] else []) ++ r)
    else (takeFrame n r).map (fun q => (q.1, (a, k) :: q.2))

/-- A frame is zeroed: no die and no core holds a line of it, its home's data is zero. -/
def zeroFrame (s : State) (f n : Nat) : State :=
  let out (line : Nat) : Bool := !(f ≤ 64 * line && 64 * line < f + n)
  { forgetFrame s f n with
    mem := s.mem.filter (fun p => p.1 < f || f + n ≤ p.1)
    dies := s.dies.map (fun p => (p.1, { p.2 with
      l2 := p.2.l2.filter (fun q => out q.1)
      wbuf := p.2.wbuf.filter (fun q => out q.1)
      msc := p.2.msc.filter (fun q => out q.1)
      dir := p.2.dir.map (fun q => if out q.1 then q else (q.1, { Dir.reset with ver := q.2.ver + 1 })) })) }

/-- What became of an installation: the state and the pool, the pool lacks a table frame, or an entry's line is busy. -/
inductive Install where
  | ok (s : State) (pool : List (Nat × Nat))
  | noFrame
  | busy
  deriving Repr

/-- Create the missing tables below level n from the pool and install the leaf. -/
def installLeaf (psz va leaf : Nat) (die : Nat) : Nat → Nat → State → List (Nat × Nat) → Install
  | 0, _, _, _ => .noFrame
  | n + 1, base, s, pool =>
    let a := base + 8 * walkIndex psz (n + 1) va
    if n + 1 = leafLevel psz then
      match agentWrite s die a (leBytes 8 leaf) with
      | none => .busy
      | some s => .ok s pool
    else
      let e := viewNat s a 8
      if e % 2 = 1 then installLeaf psz va leaf die n (ptePpn e) s pool
      else
        match takeFrame 4096 pool with
        | none => .noFrame
        | some (f, pool) =>
          match agentWrite (zeroFrame s f 4096) die a (leBytes 8 (f + 1)) with
          | none => .busy
          | some s => installLeaf psz va leaf die n f s pool

/-- The leaf that `fmap` installs: permissions FTP, A and D clear (R289). -/
def ftLeaf (r : BitVec 128) (f : Nat) : Nat := f + 8 * rfFtp r + 3

/-- The walker's step for `fmap`: the result, or the fault is forwarded to the host; none where an entry's line is busy. A walk that meets
a bad entry or no memory, or that finds no frame for a missing table, takes nothing and is forwarded too; an address above the translated ones is in no
region (log entry 95). -/
def fmapStep (s : State) (tid va : Nat) : Option (State × Option Nat) :=
  let t := s.teamAt tid
  let die := dieOf t.core
  let asid := (s.gridAt t.grid).asid
  let r := regionOf s die asid va
  if 2 ^ 57 ≤ va || !rfValid r || !rfFt r then some (s, some 4)
  else
    match descend s (rfPsz r) va 5 (rfRoot r) with
    | .leaf _ _ => some (s, some 1)
    | .noMem _ => some (s, none)
    | .bad 1 _ _ =>
      let pool := kGetD (rfPool r) [] s.pools
      match takeFrame (pageSize r) pool with
      | none => some (s, none)
      | some (f, pool) =>
        match installLeaf (rfPsz r) va (ftLeaf r f) die 5 (rfRoot r) (zeroFrame s f (pageSize r)) pool with
        | .busy => none
        | .noFrame => some (s, none)
        | .ok s pool =>
          let s := { s with pools := kPut (rfPool r) pool s.pools }
          some (if rfClass r = 1 then setPageRec s f { size := pageSize r, tail := 0, st := .opened, pending := 0, recalled := [] } else s, some 0)
    | .bad _ _ _ => some (s, none)

/-- Forward a page to the host: it enters the die's stage for the host to answer; false when the stage is full. -/
def forwardPage (s : State) (tid page : Nat) : State × Bool :=
  let t := s.teamAt tid
  let die := dieOf t.core
  let asid := (s.gridAt t.grid).asid
  let d := s.dieAt die
  if d.stage.any (fun m => m.asid = asid && m.page = page && !m.ft && !m.served) then (s, true)
  else if Config.stageEntries ≤ d.stage.length then (s, false)
  else
    let m : Merge := { asid := asid, page := page, size := pageSize (regionOf s die asid page), claimant := tid, waiters := [], acc := 0,
                       level := stopLevel s die asid page,
                       ft := false, served := false }
    (s.setDie die { d with stage := d.stage ++ [m] }, true)

/-! ### Performing -/

/-- Perform an operation of a team's queue: the state and the operation with what it carries now; none where it must wait. -/
def performOp (s : State) (tid : Nat) (o : MemOp) : Option (State × MemOp) :=
  let t := s.teamAt tid
  let bid := t.block
  let did (s : State) (o : MemOp) : State × MemOp := (if o.acq then acquireAt s t.core o.scope else s, { o with performed := true })
  match releaseOp s tid o with
  | none => none
  | some (s, o) =>
    match o.kind with
    | .load n _ w => (bindLoads s tid n (w && !(s.gridAt t.grid).det) o.accs).map (fun r => did r.1 { o with accs := r.2 })
    | .sload => (bindLoads s tid 4 false o.accs).map (fun r => did r.1 { o with accs := r.2 })
    | .store n => (performStore s tid o n).map (fun s => did s o)
    | .atom op ret => (performAtom s tid o op ret).map (fun r => if r.2.performed then did r.1 r.2 else r)
    | .append e p size reserved =>
      let det := (s.gridAt t.grid).det
      if isStagedAppend s tid o || (det && !reserved && !o.turn s tid) then none
      else if det && !(s.blockAt bid).inPlace then (goInPlace s tid o).map (fun s => (s, o))
      else
        let r := if reserved then (s, o) else reserveAppend s o e p size
        (finishAppend r.1 tid r.2 e p size).map (fun s => did s r.2)
    | .sealPg p size =>
      let g := pageRec s p size
      match g.st with
      | .opened => some (setPageRec s p { g with st := .sealing }, o)
      | .sealing => none
      | .sealed => some (did s o)
    | .pref l2 => (o.accs.foldl (fun r a => r.bind (fun s => prefLane s tid l2 a.va)) (some s)).map (fun s => did s o)
    | .smap off va len maps =>
      let w : Window := { off := off, base := va, len := len, leases := o.accs.foldl (fun m a => kPut a.lane a.lease m) [], maps := maps, lines := [] }
      some (did (s.modBlock bid (fun b => { b with windows := b.windows ++ [w] })) o)
    | .sunmap off => (performSunmap s tid off).map (fun s => did s o)
    | .sflush => ((drainAll s t.core).bind (fun s => writeBackBlock s bid)).map (fun s => did s o)
    | .hpush k => some (did (pushTile s bid k o.pdst) o)
    | .fmap page fwd =>
      if fwd then none
      else
        match fmapStep s tid page with
        | none => none
        | some (s, some v) => some (did s { o with pdst := v })
        | some (s, none) =>
          let q := forwardPage s tid (pageBase (regionOf s (dieOf t.core) (s.gridAt t.grid).asid page) page)
          if q.2 then some (q.1, { o with kind := .fmap (pageBase (regionOf s (dieOf t.core) (s.gridAt t.grid).asid page) page) true }) else none
    | _ => some (did s o)

/-- Sign extension of an n-byte datum to 32 bits. -/
def signExt (n v : Nat) : Nat := if v / 2 ^ (8 * n - 1) = 1 && n < 4 then v + (2 ^ 32 - 2 ^ (8 * n)) else v

/-- Registers an operation writes when it completes (R53, R181, R183, R187, R289): all lanes in one step (R54; log entry 88). -/
def writeResults (t : Team) (o : MemOp) : Team :=
  let set := BitVec.ofNat 1024 (o.accs.foldl (fun a x => a + 2 ^ x.lane) 0)
  let val (f : LaneAcc → Nat) (l : Nat) : Word := BitVec.ofNat 32 (match o.accs.find? (fun a => a.lane = l) with
    | some a => f a
    | none => 0)
  match o.kind with
  | .load n sg _ =>
    match o.dst with
    | none => t
    | some q => (List.range ((n + 3) / 4)).foldl (fun t i =>
        t.setWord (q + i) set (val (fun a => (if sg then signExt n a.data else a.data) / 2 ^ (32 * i) % 2 ^ 32))) t
  | .sload => match o.dst with
    | none => t
    | some q => t.setSreg q (BitVec.ofNat 32 ((o.accs.map (fun a => a.data)).headD 0))
  | .atom _ true => match o.dst with
    | none => t
    | some q => t.setWord q set (val (fun a => a.data))
  | .append _ _ _ _ =>
    let t := match o.dst with
      | none => t
      | some q => t.setWord q set (val (fun a => a.addr))
    t.setPred o.pdst set (BitVec.ofNat 1024 (o.accs.foldl (fun a x => if x.addr = appendFail then a else a + 2 ^ x.lane) 0))
  | .fmap _ _ => match o.dst with
    | none => t
    | some q => t.setSreg q (BitVec.ofNat 32 o.pdst)
  | _ => t

/-- Complete a performed operation: its stores are at the L2, its registers are written, its flag counts down. -/
def completeOp (s : State) (tid : Nat) (o : MemOp) : Option State :=
  let c := (s.teamAt tid).core
  let drained : Option State := match o.kind with
    | .store _ => drainTo s c (fun e => e.tid = tid)
    | _ => some s
  drained.map (fun s => s.modTeam tid (fun t =>
    let t := (writeResults t o).flagDown o.flag
    { t with memQ := t.memQ.filter (fun p => p.id ≠ o.id) }))

/-- Put an operation back into its team's queue. -/
def putOp (s : State) (tid : Nat) (o : MemOp) : State :=
  s.modTeam tid (fun t => { t with memQ := t.memQ.map (fun p => if p.id = o.id then o else p) })

end Sys2Proof.Machine
end

