-- ==== Sys2Proof/Machine/Copy.lean ====
section
/-! DEFINITION. The copy engine (11_memory.md R212-R226): class C at issue, segments with their checks and faults, encrypted tensors, completion. -/

namespace Sys2Proof.Machine

/-! ### Elementary moves (R221-R223) -/

/-- One elementary move: source and destination address, bytes, how far it advances, and for a plane copy the source and destination bit. -/
structure Elem where
  src : Option Nat
  dst : Nat
  len : Nat
  adv : Nat
  fill : Nat
  sbit : Nat
  dbit : Nat
  deriving DecidableEq, Repr

/-- Lowest and highest address of rows, as exact numbers. -/
def rowSpan (base : Nat) (stride : Int) (rows rowBytes : Nat) : Int × Int :=
  let last : Int := (base : Int) + ((rows : Int) - 1) * stride
  (min (base : Int) last, max (base : Int) last + (rowBytes : Int))

/-- Source and destination ranges of a global block copy overlap (R221): the spans from first to last byte, gaps between rows included (log entry 94). -/
def CopyOp.overlaps (o : CopyOp) : Bool :=
  let a := rowSpan o.src o.strideS o.rows o.rowBytes
  let b := rowSpan o.dst o.strideD o.rows o.rowBytes
  o.kind = .g2g && o.rows * o.rowBytes ≠ 0 && a.1 < b.2 && b.1 < a.2

/-- The first 64-byte chunk of the destination, and how many chunks its range takes. -/
def CopyOp.chunk0 (o : CopyOp) : Int := (rowSpan o.dst o.strideD o.rows o.rowBytes).1 / 64 * 64
def CopyOp.chunks (o : CopyOp) : Nat := (((rowSpan o.dst o.strideD o.rows o.rowBytes).2 - o.chunk0 + 63) / 64).toNat

/-- Moves of a copy in all; those of an overlapping one are counted by chunk, row and byte of the chunk. -/
def CopyOp.total (o : CopyOp) : Nat :=
  if o.overlaps then o.chunks * (64 * o.rows) else
  match o.kind with
  | .gath => o.offs.length
  | .scat => o.offs.length
  | .plane => o.rows * o.pbits * 256
  | .tlr => 1
  | _ => o.rows * o.rowBytes

/-- Which sides are global. -/
def CopyOp.srcGlobal (o : CopyOp) : Bool := o.kind = .g2s || o.kind = .g2g || o.kind = .gath || o.kind = .plane || o.kind = .tlr
def CopyOp.dstGlobal (o : CopyOp) : Bool := o.kind = .s2g || o.kind = .g2g || o.kind = .scat || (o.kind = .fill && o.space = 0)

/-- An address plus a signed distance, modulo 2^64. -/
def addrPlus (a : Nat) (d : Int) : Nat := (((a : Int) + d) % (2 ^ 64 : Nat)).toNat

/-- Container bits of a p-bit code (R223). -/
def containerBits (p : Nat) : Nat := if p ≤ 2 then p else if p ≤ 4 then 4 else 8

/-- Bytes left in the page of a global address. -/
def pageLeft (s : State) (o : CopyOp) (va : Nat) : Nat :=
  let t := s.teamAt o.tid
  let n := pageSize (regionOf s (dieOf t.core) (s.gridAt t.grid).asid va)
  n - va % n

/-- Start of a row of the destination, as an exact number. -/
def CopyOp.rowAt (o : CopyOp) (r : Nat) : Int := (o.dst : Int) + (r : Int) * o.strideD

/-- The rows, from row r on, with a byte in the 64 bytes at `a`: the first of them. -/
def CopyOp.rowIn (o : CopyOp) (a : Int) (r : Nat) : Option Nat :=
  let d := o.strideD
  let first : Int :=
    if d = 0 then (r : Int)
    else if 0 < d then (a - (o.rowBytes : Int) - (o.dst : Int)) / d + 1
    else ((o.dst : Int) - a - 64) / (-d) + 1
  let q := (max first (r : Int)).toNat
  if q < o.rows && o.rowAt q < a + 64 && a < o.rowAt q + (o.rowBytes : Int) then some q else none

/-- The next chunk after `a` with a byte of the destination. -/
def CopyOp.chunkAfter (o : CopyOp) (a : Int) : Int :=
  if (o.rowIn (a + 64) 0).isSome then a + 64
  else if 0 < o.strideD then o.rowAt (((a + 63 - (o.dst : Int)) / o.strideD + 1).toNat) / 64 * 64
  else if o.strideD < 0 then o.rowAt ((((o.dst : Int) - a - 64) / (-o.strideD)).toNat) / 64 * 64
  else a + 64

/-- The move of an overlapping copy at position k: chunk by chunk in ascending address order, in a chunk by row and byte (R221). -/
def chunkElem (o : CopyOp) (k : Nat) : Elem :=
  let c := k / (64 * o.rows)
  let a : Int := o.chunk0 + 64 * (c : Int)
  let r := k % (64 * o.rows) / 64
  let b := k % 64
  let r := if o.rowAt r + (o.rowBytes : Int) ≤ a + (b : Int) then r + 1 else r
  let at' : Int × Nat × Nat :=
    match o.rowIn a r with
    | some q => (a, q, if q = k % (64 * o.rows) / 64 then b else 0)
    | none => let n := o.chunkAfter a; (n, (o.rowIn n 0).getD 0, 0)
  let start := o.rowAt at'.2.1
  let b := max (at'.2.2 : Int) (start - at'.1)
  let j := (at'.1 + b - start).toNat
  let src := addrPlus o.src ((at'.2.1 : Int) * o.strideS + (j : Int))
  let n := min (min (o.rowBytes - j) (64 - b.toNat)) (4096 - src % 4096)
  let next := ((at'.1 - o.chunk0) / 64).toNat * (64 * o.rows) + 64 * at'.2.1 + b.toNat + n
  let last := (j + n = o.rowBytes || b.toNat + n = 64) && (o.rowIn at'.1 (at'.2.1 + 1)).isNone && o.chunk0 + 64 * (o.chunks : Int) ≤ at'.1 + 64
  { src := some src, dst := addrPlus 0 (at'.1 + b), len := n, adv := (if last then o.chunks * (64 * o.rows) else next) - k, fill := 0,
    sbit := 0, dbit := 0 }

/-- The move at position k; a block copy moves up to the end of the row, of the 64-byte chunk of the destination, and of the source's 4 KiB. -/
def elemAt (o : CopyOp) (k : Nat) : Elem :=
  if o.overlaps then chunkElem o k else
  match o.kind with
  | .gath =>
    let p := o.offs.getD k (0, 0)
    { src := some (addrPlus o.src p.2), dst := o.dst + o.elem * p.1, len := o.elem, adv := 1, fill := 0, sbit := 0, dbit := 0 }
  | .scat =>
    let p := o.offs.getD k (0, 0)
    { src := some (o.src + o.elem * p.1), dst := addrPlus o.dst p.2, len := o.elem, adv := 1, fill := 0, sbit := 0, dbit := 0 }
  | .plane =>
    let i := k % 256
    let j := k / 256 % o.pbits
    let q := k / 256 / o.pbits
    let w := containerBits o.pbits
    let at' := (if o.orient = 0 then q * w else i * w) + j
    let row := if o.orient = 0 then i else q
    { src := if i < o.nl then some (addrPlus o.src (row * o.strideS + (at' / 8 : Nat))) else none,
      dst := o.dst + 32 * (o.pbits * q + j) + i / 8, len := 1, adv := 1, fill := 0, sbit := at' % 8, dbit := i % 8 }
  | .tlr => { src := if o.orient = 1 then none else some o.src, dst := o.dst, len := 64, adv := 1, fill := 0, sbit := 0, dbit := 0 }
  | _ =>
    let r : Int := (k / o.rowBytes : Nat)
    let j := k % o.rowBytes
    let src := addrPlus o.src (r * o.strideS + (j : Int))
    let dst := addrPlus o.dst (r * o.strideD + (j : Int))
    let n := min (o.rowBytes - j) (64 - dst % 64)
    let n := if o.srcGlobal then min n (4096 - src % 4096) else n
    { src := if o.kind = .fill then none else some src, dst := dst, len := n, adv := n, fill := j, sbit := 0, dbit := 0 }

/-- Page of an address on a side: global by its page, a stash as a whole. -/
def sidePage (s : State) (o : CopyOp) (global : Bool) (a : Nat) : Nat := if global then a + pageLeft s o a else 0

/-- Moves of the next segment: the longest run within one page on each side (R224). -/
def segment (s : State) (o : CopyOp) (ps pd : Option Nat) : Nat → Nat → List Elem
  | 0, _ => []
  | n + 1, k =>
    if o.total ≤ k then []
    else
      let e := elemAt o k
      let qs := e.src.map (sidePage s o o.srcGlobal)
      let qd := sidePage s o o.dstGlobal e.dst
      if (ps.isSome && qs.isSome && ps ≠ qs) || (pd.isSome && pd ≠ some qd) then []
      else e :: segment s o (if qs.isSome then qs else ps) (some qd) n (k + e.adv)

/-! ### Keys and bindings (R212-R215) -/

/-- A key handle names a loaded slot with its generation, granted to the grid (R213, R253, R387). -/
def keyGranted (s : State) (t : Team) (h : Nat) : Bool :=
  let slot := h % 8192
  let first := (s.gridAt t.grid).lrec.keys % 8192
  let count := (s.gridAt t.grid).lrec.keys / 65536 % 16384
  let k := kGetD slot KeySlot.reset s.plat.keys
  k.loaded && k.gen = h / 65536 && first ≤ slot && slot < first + count

/-- The binding that contains a unit (R214), the lowest-numbered of several (log entry 78). -/
def bindingOf (t : Team) (va : Nat) : Option Tlr :=
  (t.binds.find? (fun p => p.2.base ≤ va && va < p.2.base + p.2.extent)).map (fun p => p.2)

/-- Reason of the Key Access fault for the unit of an encrypted region (R215). -/
def keyReason (s : State) (t : Team) (va : Nat) : Option Nat :=
  match bindingOf t (va / 64 * 64) with
  | none => some 3
  | some b => if keyGranted s t b.key then none else some 2

/-! ### Checks of a segment (R224) -/

/-- Outcome of a translation for an engine. -/
inductive EngX where
  | ok (s : State) (e : TlbEntry)
  | bad (kind level : Nat)
  | noMem (pa : Nat)
  | busy
  deriving Repr

def EngX.entry : EngX → Option TlbEntry
  | .ok _ e => some e
  | _ => none

/-- An engine's translation: its core's TLB, else a walk, which asks the channels for its entries (R380); permission and the first write are checked as
for a team (R280, R281). -/
def coreXlat (s : State) (c asid va acc : Nat) : EngX :=
  let go : EngX := match walk s (dieOf c) asid va acc with
    | .ok s' e => .ok (noteWalk s c asid va (tlbPut s' c e)) e
    | .bad k l => .bad k l
    | .noMem p => .noMem p
    | .busy => .busy
  match findTlb (s.coreAt c).tlb asid va with
  | some e => if permOk e acc && (!isWriteAcc acc || e.dirty) then .ok s e else go
  | none => go

/-- Translation for an engine that works for a team. -/
def engineXlat (s : State) (tid va acc : Nat) : EngX := coreXlat s (s.teamAt tid).core (s.gridAt (s.teamAt tid).grid).asid va acc

/-- A found fault: its order, where in the segment it lies, the trap. -/
structure SegFault where
  order : Nat
  elem : Nat
  byte : Nat
  dst : Bool
  tr : Trap
  deriving DecidableEq, Repr

/-- The failing check of n bytes that comes first in the order of R175, at the first byte that has it. -/
def firstBad (n : Nat) (f : Nat → Chk) : Option (Nat × Nat × Trap) :=
  ((List.range n).filterMap (fun j => match f j with
    | .bad o tr => some (o, j, tr)
    | _ => none)).foldl (fun b x => match b with
      | none => some x
      | some y => if x.1 < y.1 then some x else some y) none

/-- Checks of the stash side of a move: of its alignment and of each byte, the first in the order of R175. -/
def stashSide (s : State) (o : CopyOp) (a n align : Nat) (write : Bool) : Option (Nat × Nat × Trap) :=
  let sp := if o.kind = .fill then o.space else if o.space = 2 then 2 else 1
  let bytes : Option (Nat × Nat × Trap) :=
    match checkStash s o.tid sp a n 1 write with
    | .ok _ _ _ _ => none
    | _ => firstBad n (fun j => checkStash s o.tid sp (a + j) 1 1 write)
  if a % align = 0 then bytes
  else match bytes with
    | some (1, j, tr) => some (1, j, tr)
    | _ => some (2, 0, { cause := 0x11, i0 := loWord a })

/-- Checks of the global side of a move, its page translated: alignment, extent, seal state, keys. The record that `cp.tlr` reads is taken as a plain
load takes it, without a key, whatever its region (log entry 86). -/
def globalSide (s : State) (o : CopyOp) (e : TlbEntry) (a n align : Nat) (write : Bool) : Option (Nat × Nat × Trap) :=
  let t := s.teamAt o.tid
  let pa := e.ppage + (a - e.vpage)
  if a % align ≠ 0 then some (2, 0, addrFault 0x11 a 0)
  else
    match (List.range n).find? (fun j => extentGone s (pa + j)) with
    | some j => some (4, j, addrFault 0x13 (a + j) 0)
    | none =>
      match if write then sealOf s e.mclass pa else none with
      | some .opened => some (7, 0, addrFault 0x16 a 0)
      | some _ => some (6, 0, addrFault 0x15 a 0)
      | none =>
        if e.mclass = 2 && o.kind ≠ .tlr then
          (List.range n).findSome? (fun j => (keyReason s t (a + j)).map (fun r => (9, j, addrFault 0x18 (a + j) r)))
        else none

/-- Alignment that a copy asks of its addresses (R213, R222). -/
def CopyOp.align (o : CopyOp) : Nat :=
  match o.kind with
  | .gath => o.elem
  | .scat => o.elem
  | .tlr => 64
  | _ => 1

/-- Of two faults, the one that is taken: by order, then by place, a source byte before the destination byte it is written to. -/
def earlier (a b : SegFault) : SegFault :=
  if a.order < b.order then a else if b.order < a.order then b
  else if a.elem < b.elem then a else if b.elem < a.elem then b
  else if a.byte < b.byte then a else if b.byte < a.byte then b
  else if a.dst then b else a

/-- The faults of the moves of a segment; `xs` and `xd` are the translations of its global sides. -/
def segFaults (s : State) (o : CopyOp) (es : List Elem) (xs xd : Option TlbEntry) : List SegFault :=
  es.zipIdx.flatMap (fun p =>
    let e := p.1
    let side (x : Option TlbEntry) (a : Nat) (w : Bool) : Option (Nat × Nat × Trap) := match x with
      | some x => globalSide s o x a e.len o.align w
      | none => if a % o.align ≠ 0 then some (2, 0, addrFault 0x11 a 0) else none
    let mk (dst : Bool) (r : Option (Nat × Nat × Trap)) : List SegFault := r.toList.map (fun q => { order := q.1, elem := p.2, byte := q.2.1, dst := dst, tr := q.2.2 })
    mk false (match e.src with
      | none => none
      | some a => if o.srcGlobal then side xs a false else stashSide s o a e.len o.align false) ++
    mk true (if o.kind = .tlr then none
      else if o.dstGlobal then side xd e.dst true else stashSide s o e.dst e.len o.align true))

/-! ### Moving bytes -/

/-- n bytes as an engine sees them for a team: its core's buffered stores show, and its block's staged writes (R238, R372). -/
def engineBytes (s : State) (t : Team) (pa n : Nat) : List Byte :=
  ((List.range ((pa % 64 + n + 63) / 64)).flatMap (fun i =>
    lineBytes (stagedLine s t.block (pa / 64 + i) (coreView s t.core (pa / 64 + i))))).drop (pa % 64) |>.take n

/-- n bytes as an engine reads them for a team: each line is brought to the die. -/
def engineRead (s : State) (t : Team) (pa n : Nat) : Option (State × List Byte) :=
  let lines := (List.range ((pa % 64 + n + 63) / 64)).map (fun i => pa / 64 + i)
  (lines.foldl (fun o l => o.bind (fun s => if sealedLine s l then some s else gainLine s (dieOf t.core) l false)) (some s)).map
    (fun s => (s, engineBytes s t pa n))

/-- Who an engine writes for: the team, and the operation with its ticket phase (R372). -/
structure Writer where
  tid : Nat
  id : Nat
  phase : Nat
  deriving DecidableEq, Repr

def CopyOp.writer (o : CopyOp) : Writer := { tid := o.tid, id := o.id, phase := o.phase }

/-- Bytes that an engine writes at an address: as stores by the team's core (R243), or, in a deterministic launch, staged with its block's writes (R372;
log entry 35). -/
def engineWrite (s : State) (w : Writer) (pa : Nat) (bs : List Byte) : Option State :=
  let t := s.teamAt w.tid
  if (s.gridAt t.grid).det then some (stageBytes s w.tid w.id w.phase pa bs) else coreWriteBytes s t.core pa bs

/-- One unit of an encrypted tensor, decrypted or as it is to be stored (R214). -/
def cryptUnit (s : State) (t : Team) (enc : Bool) (va : Nat) (d : Line) : Line :=
  match bindingOf t va with
  | none => d
  | some b =>
    let k := kGetD (b.key % 8192) KeySlot.reset s.plat.keys
    xtsUnit enc k.data k.tweak ((va - b.base) / 64) d

/-- Units that n bytes from an address touch: unit address, offset in it, bytes, offset in the bytes. -/
def unitsOf (va n : Nat) : List (Nat × Nat × Nat × Nat) :=
  (pieces64 va n).map (fun p => (p.1 / 64 * 64, p.1 % 64, p.2, p.1 - va))

/-- Read n bytes of a global side; an encrypted region is decrypted unit by unit. -/
def readGlobal (s : State) (t : Team) (e : TlbEntry) (va n : Nat) (raw : Bool) : Option (State × List Byte) :=
  let pa (a : Nat) : Nat := e.ppage + (a - e.vpage)
  if e.mclass ≠ 2 || raw then engineRead s t (pa va) n
  else (unitsOf va n).foldl (fun o u => o.bind (fun r =>
    (engineRead r.1 t (pa u.1) 64).map (fun q =>
      (q.1, r.2 ++ ((lineBytes (cryptUnit s t false u.1 (BitVec.ofNat 512 (leNat q.2)))).drop u.2.1).take u.2.2.1)))) (some (s, []))

/-- Write bytes of a global side (R243); a partial unit of an encrypted region is read, merged and encrypted again (R216),
at once (log entry 79). -/
def writeGlobal (s : State) (w : Writer) (e : TlbEntry) (va : Nat) (bs : List Byte) : Option State :=
  let t := s.teamAt w.tid
  let pa (a : Nat) : Nat := e.ppage + (a - e.vpage)
  if e.mclass ≠ 2 then engineWrite s w (pa va) bs
  else (unitsOf va bs.length).foldl (fun o u => o.bind (fun s =>
    match engineRead s t (pa u.1) 64 with
    | none => none
    | some (s, old) =>
      let part := (bs.drop u.2.2.2).take u.2.2.1
      let d := mergeLine (cryptUnit s t false u.1 (BitVec.ofNat 512 (leNat old))) (maskOf u.2.1 part.length) (lineData u.2.1 part)
      engineWrite s w (pa u.1) (lineBytes (cryptUnit s t true u.1 d)))) (some s)

/-- Block and offset that a stash address of a copy names. -/
def stashPlace (s : State) (o : CopyOp) (a n : Nat) (write : Bool) : Nat × Nat :=
  let sp := if o.kind = .fill then o.space else if o.space = 2 then 2 else 1
  match checkStash s o.tid sp a n 1 write with
  | .ok (some b) x _ _ => (b, x)
  | _ => ((s.teamAt o.tid).block, a)

/-- Read the source bytes of a move. -/
def readElem (s : State) (o : CopyOp) (e : Elem) (xs : Option TlbEntry) : Option (State × List Byte) :=
  match e.src with
  | none => some (s, (List.range e.len).map (fun i => BitVec.ofNat 8 (o.pattern.toNat >>> (8 * ((e.fill + i) % 4)))))
  | some a =>
    if o.srcGlobal then
      match xs with
      | some x => readGlobal s (s.teamAt o.tid) x a e.len (o.kind = .tlr)
      | none => none
    else let p := stashPlace s o a e.len false; stashLoad s p.1 p.2 e.len

/-- Replace one bit of a byte. -/
def putBit (b : Byte) (i : Nat) (v : Bool) : Byte :=
  BitVec.ofNat 8 (b.toNat - (if b.getLsbD i then 2 ^ i else 0) + (if v then 2 ^ i else 0))

/-- The record of a binding from its 64 bytes (R212). -/
def tlrOf (bs : List Byte) : Tlr × Nat :=
  let n (o k : Nat) : Nat := leNat ((bs.drop o).take k)
  let t : Tlr := { base := n 0 8, extent := n 0x30 8, key := n 0x3C 4 }
  let e := n 0x39 1
  let ok := 1 ≤ n 0x38 1 && n 0x38 1 ≤ 4 && (e = 1 || e = 2 || e = 4 || e = 8) && t.extent ≠ 0 && t.extent % 64 = 0 && t.base % 64 = 0 &&
    n 0x3A 2 = 0 && t.key / 2 ^ 13 % 8 = 0
  (t, if ok then 0 else 1)

/-- One move is performed. -/
def moveElem (s : State) (o : CopyOp) (e : Elem) (xs xd : Option TlbEntry) : Option State :=
  match readElem s o e xs with
  | none => none
  | some (s, bs) =>
    if o.kind = .tlr then
      some (s.modTeam o.tid (fun t => { t with binds := if o.orient = 1 then kDel o.dst t.binds else kPut o.dst (tlrOf bs).1 t.binds }))
    else if o.kind = .plane then
      let p := stashPlace s o e.dst 1 true
      match stashLoad s p.1 p.2 1 with
      | none => none
      | some (s, old) => stashStore s p.1 p.2 [putBit (old.headD 0) e.dbit (e.src.isSome && (bs.headD 0).getLsbD e.sbit)]
    else if o.dstGlobal then
      match xd with
      | some x => writeGlobal s o.writer x e.dst bs
      | none => none
    else let p := stashPlace s o e.dst e.len true; stashStore s p.1 p.2 bs

/-- One move of an overlapping copy: source bytes that its chunk has already overwritten count as they were before (R221). -/
def moveOverlap (s : State) (o : CopyOp) (e : Elem) (xs xd : TlbEntry) (held : List (Nat × Byte)) : Option (State × List (Nat × Byte)) :=
  let t := s.teamAt o.tid
  let held := held.filter (fun p => p.1 / 64 = e.dst / 64)
  let src := e.src.getD 0
  match readGlobal s t xs src e.len false with
  | none => none
  | some (s, bs) =>
    match readGlobal s t xd e.dst e.len false with
    | none => none
    | some (s, old) =>
      let bs := bs.zipIdx.map (fun p => (kGet (src + p.2) held).getD p.1)
      let fresh := (old.zipIdx.map (fun p => (e.dst + p.2, p.1))).filter (fun p => (kGet p.1 held).isNone)
      (writeGlobal s o.writer xd e.dst bs).map (fun s => (s, held ++ fresh))

/-- One move of a segment is performed. -/
def moveNext (s : State) (o : CopyOp) (e : Elem) (xs xd : Option TlbEntry) (held : List (Nat × Byte)) : Option (State × List (Nat × Byte)) :=
  if o.overlaps then
    match xs, xd with
    | some x, some y => moveOverlap s o e x y held
    | _, _ => none
  else (moveElem s o e xs xd).map (fun s => (s, []))

/-! ### COPY_SEGMENT (R224) -/

/-- Change the head copy of a partition's queue. -/
def modHeadCopy (s : State) (p : Nat) (g : CopyOp → CopyOp) : State :=
  s.modPart p (fun k => { k with copyQ := match k.copyQ with
    | [] => []
    | o :: r => g o :: r })

/-- The head copy leaves its queue without its effect. -/
def dropCopy (s : State) (p : Nat) (o : CopyOp) : State :=
  (s.modPart p (fun k => { k with copyQ := k.copyQ.drop 1 })).modTeam o.tid (fun t => t.flagDown o.flag)

/-- A segment fault pauses the copy and waits for its team; the copy of a team without lanes is dropped (log entry 93). -/
def copyFault (s : State) (p : Nat) (o : CopyOp) (tr : Trap) : State :=
  if (s.teamAt o.tid).live = 0 then dropCopy s p o
  else
    (modHeadCopy s p (fun o => { o with paused := true })).modTeam o.tid (fun t =>
      { t with pendCopy := some { cause := tr.cause, i0 := tr.i0, i1 := tr.i1, i2 := tr.i2, i3 := tr.i3, strm := false } })

/-- A copy joins the merge of a page, of a first touch region or not: its team counts as a waiter, its access type is added (R283). -/
def joinStage (s : State) (die asid page tid acc : Nat) (ft : Bool) : State :=
  s.modDie die (fun d => { d with stage := d.stage.map (fun m =>
    if m.asid = asid && m.page = page && m.ft = ft && !m.served then
      { m with engines := if m.engines.contains tid then m.engines else m.engines ++ [tid], acc := m.acc ||| acc } else m) })

/-- A translation fault of a copy: kinds 2 to 4 at once; a page that is not present is served as for a team (R283).
A team without lanes claims no merge: it takes no trap that could serve one. -/
def copyXlatFault (s : State) (p : Nat) (o : CopyOp) (va acc kind level : Nat) : State :=
  let t := s.teamAt o.tid
  let die := dieOf t.core
  let asid := (s.gridAt t.grid).asid
  let r := regionOf s die asid va
  let page := pageBase r va
  let fault (s : State) : State := copyFault s p o (xlatTrap va kind level acc 1)
  let wait : CopyWait := { page := page, va := va, acc := acc, level := level }
  if kind ≠ 1 then fault s
  else if rfFt r then
    let d := s.dieAt die
    if d.stage.any (fun m => m.asid = asid && m.page = page && m.ft && !m.served && m.claimant ≠ o.tid) then
      modHeadCopy (joinStage s die asid page o.tid acc true) p (fun o => { o with svc := some wait })
    else if d.stage.any (fun m => m.asid = asid && m.page = page && m.ft && !m.served) then fault s
    else if Config.stageEntries ≤ d.stage.length then s
    else if t.live = 0 then dropCopy s p o
    else fault (s.setDie die { d with stage := d.stage ++ [{ asid := asid, page := page, size := pageSize r, claimant := o.tid, waiters := [],
                                                             acc := acc, level := level, ft := true, served := false }] })
  else
    let q := forwardPage s o.tid page
    if q.2 then modHeadCopy (joinStage q.1 die asid page o.tid acc false) p (fun o => { o with svc := some wait }) else s

/-- A walk for a copy that ended in a fault has asked the channels for the entries it read; one in no region reads none (R279, R380). -/
def noteBadWalk (s : State) (o : CopyOp) (va kind : Nat) (s' : State) : State :=
  let t := s.teamAt o.tid
  if kind = 2 then s' else noteWalk s t.core (s.gridAt t.grid).asid va s'

/-- The first element whose side is global needs a translation. -/
def sideXlat (s : State) (o : CopyOp) (global : Bool) (a : Option Nat) (acc : Nat) : Option EngX :=
  if global then a.map (fun a => engineXlat s o.tid a acc) else none

/-- Bytes of a global side that a move reads are poisoned: of an encrypted region, some unit it touches. -/
def sidePoisoned (s : State) (x : TlbEntry) (a n : Nat) : Bool :=
  let pa := x.ppage + (a - x.vpage)
  if x.mclass = 2 then (unitsOf a n).any (fun u => poisonIn s (x.ppage + (u.1 - x.vpage)) 64) else poisonIn s pa n

/-- A segment would read poisoned data (R177): its global source, a window line that a stash side is filled from, or a unit of an encrypted
destination that it writes in part. -/
def segPoisoned (s : State) (o : CopyOp) (es : List Elem) (xs xd : Option TlbEntry) : Bool :=
  es.any (fun e =>
    (match e.src with
     | none => false
     | some a =>
       if o.srcGlobal then (match xs with
         | some x => sidePoisoned s x a e.len
         | none => false)
       else let p := stashPlace s o a e.len false; fillBad s p.1 p.2 e.len) ||
    (!o.dstGlobal && o.kind ≠ .tlr && (let p := stashPlace s o e.dst e.len true; fillBad s p.1 p.2 e.len)) ||
    (match xd with
     | none => false
     | some x => x.mclass = 2 && (unitsOf e.dst e.len).any (fun u => u.2.2.1 < 64 && poisonIn s (x.ppage + (u.1 - x.vpage)) 64)))

/-- Memory tier and interleave region of an address: the HBM of a die, or one extent (R405). -/
def regionNo (s : State) (pa : Nat) : Option Nat :=
  if pa < Config.hbmBytes then some (pa / Config.hbmPerDie) else (extentOf s pa).map (fun e => 8 + e.base)

/-- A translated move lies in the same interleave regions as another. -/
def sameRegions (s : State) (xs xd : Option TlbEntry) (e f : Elem) : Bool :=
  let at' (x : Option TlbEntry) (a : Nat) : Option Nat := x.bind (fun x => regionNo s (x.ppage + (a - x.vpage)))
  at' xd e.dst = at' xd f.dst && (match e.src, f.src with
    | some a, some b => at' xs a = at' xs b
    | _, _ => true)

/-- The moves that lie in one interleave region on each side (R224, R226). -/
def cutRegion (s : State) (xs xd : Option TlbEntry) : List Elem → List Elem
  | [] => []
  | e :: r => e :: r.takeWhile (sameRegions s xs xd e)

/-- Check and perform a segment whose translations are known; poisoned data ends the team by machine error. -/
def runSegment (s : State) (p : Nat) (o : CopyOp) (es : List Elem) (xs xd : Option TlbEntry) : State :=
  match segFaults s o es xs xd with
  | f :: r => copyFault s p o (r.foldl earlier f).tr
  | [] =>
    if segPoisoned s o es xs xd then endTeamBad (dropCopy s p o) o.tid 2
    else
    let tlr : Option Trap :=
      if o.kind = .tlr && o.orient = 0 then
        match readElem s o (elemAt o 0) xs with
        | some (s, bs) =>
          let k := tlrOf bs
          if k.2 = 1 then some (addrFault 0x18 o.src 1) else if keyGranted s (s.teamAt o.tid) k.1.key then none else some (addrFault 0x18 o.src 2)
        | none => none
      else none
    match tlr with
    | some tr => copyFault s p o tr
    | none =>
      match es.foldl (fun r e => r.bind (fun q => moveNext q.1 o e xs xd q.2)) (some (s, o.held)) with
      | none => s
      | some (s, held) => modHeadCopy s p (fun o => { o with pos := o.pos + (es.map (fun e => e.adv)).foldl (· + ·) 0, held := held })

/-- COPY_SEGMENT: the head copy of a partition checks and performs its next segment (R224); later copies of the partition move no
byte before it has completed (log entry 104). -/
def execCopySegment (s : State) : Out :=
  let p := s.ev.x
  match (s.partAt p).copyQ with
  | [] => .next s
  | o :: _ =>
    noteOut s (p / Config.partsPerCore) o.scls (
    if o.paused && (s.teamAt o.tid).live = 0 then .next (dropCopy s p o)
    else if o.paused || o.svc.isSome || o.total ≤ o.pos || heldByFenceq s o.tid 1 o.id then .next s
    else
      let es := segment s o none none (o.total - o.pos) o.pos
      let srcA := es.findSome? (fun e => e.src)
      let dstA := if o.kind = .tlr then none else es.head?.map (fun e => e.dst)
      let es := cutRegion s ((sideXlat s o o.srcGlobal srcA accR).bind EngX.entry) ((sideXlat s o o.dstGlobal dstA accW).bind EngX.entry) es
      let early := (segFaults s o es none none).filter (fun f => f.order ≤ 2)
      match early with
      | f :: r => .next (copyFault s p o (r.foldl earlier f).tr)
      | [] =>
        let bad (va acc k l : Nat) : Out := .next (noteBadWalk s o va k (copyXlatFault s p o va acc k l))
        match sideXlat s o o.srcGlobal srcA accR with
        | some (.bad k l) => bad (srcA.getD 0) accR k l
        | some (.noMem a) => .fault (.noSuchAddress a)
        | some .busy => .next s
        | some (.ok s1 xs) =>
          (match sideXlat s1 o o.dstGlobal dstA accW with
           | some (.bad k l) => bad (dstA.getD 0) accW k l
           | some (.noMem a) => .fault (.noSuchAddress a)
           | some .busy => .next s
           | some (.ok s xd) => .next (runSegment s p o es (some xs) (some xd))
           | none => .next (runSegment s1 p o es (some xs) none))
        | none =>
          (match sideXlat s o o.dstGlobal dstA accW with
           | some (.bad k l) => bad (dstA.getD 0) accW k l
           | some (.noMem a) => .fault (.noSuchAddress a)
           | some .busy => .next s
           | some (.ok s xd) => .next (runSegment s p o es none (some xd))
           | none => .next (runSegment s p o es none none)))

/-! ### Completion (R220, R225) -/

def isCont : Wait → Bool
  | .cont _ _ => true
  | _ => false

/-- The team, or its copy stream, goes on at the label with the mask it had; in a handler the completion is remembered. -/
def continueAt (s : State) (o : CopyOp) : State :=
  let t := s.teamAt o.tid
  if o.strm then
    match t.streamC with
    | some x => (match x.wait with
      | .cont l _ => s.setTeamAt o.tid { t with streamC := some { x with pc := l, clause := none, wait := .none } }
      | _ => s)
    | none => s
  else match t.wait with
    | .cont l m => s.setTeamAt o.tid { t with
        pc := l, clause := none, mask := m &&& t.live, wait := .none, sched := { t.sched with readySince := s.cc } }
    | _ => match t.trap.savedWait with
      | .cont l m => s.setTeamAt o.tid { t with trap := { t.trap with savedWait := .contDone l m } }
      | _ => s

/-- COPY_COMPLETION: the head copy, all moved, completes as a release at its scope (R225). -/
def execCopyCompletion (s : State) : Out :=
  let p := s.ev.x
  match (s.partAt p).copyQ with
  | [] => .next s
  | o :: r =>
    noteOut s (p / Config.partsPerCore) o.scls <|
    if o.pos < o.total || o.paused || heldByFenceq s o.tid 1 o.id then .next s
    else
      match (if o.scope ≤ 1 then some s else drainAll s (s.teamAt o.tid).core) with
      | none => .next s
      | some s' =>
        let s2 := s'.setPart p { s'.partAt p with copyQ := r }
        if o.cont then .next (continueAt s2 o)
        else .next (s2.modTeam o.tid (fun t => t.flagDown o.flag))

/-! ### Class C at issue (R217-R220) -/

/-- A word as a signed number. -/
def sWord (w : Word) : Int := w.toInt

/-- An operation with the fields every copy has. -/
def newCopy (s : State) (t : Team) (k : CKind) (m : Word) : CopyOp :=
  { id := t.nextOp, tid := s.cur, kind := k, src := 0, dst := 0, space := mSpace m, rows := 0, rowBytes := 0, strideS := 0, strideD := 0,
    pattern := 0, offs := [], elem := 1, nl := 0, pbits := 1, orient := 0, scope := if mScope m = 0 then 1 else mScope m, scls := mSclsV m,
    flag := if mCont m then none else selFlag t m, cont := mCont m, strm := s.curStream.isSome, pos := 0, paused := false, svc := none,
    phase := teamPhase s s.cur }

/-- The copy enters its partition's queue; with CONT the team waits after the clause for its completion (R220). -/
def enqueueCopy (s : State) (t : Team) (x : Fields) (o : CopyOp) (hold : Option (KMap Word)) : Out :=
  let s := s.modPart t.partNo (fun p => { p with copyQ := p.copyQ ++ [o] })
  let t := { t.flagUp o.flag with nextOp := t.nextOp + 1 }
  finishHold s (if o.cont then { t with wait := .cont (labelOf t x) t.mask } else t) x hold

/-- A copy that is skipped: to its label, if it has one, with what HOLD asks (R47, R180, R220). -/
def skipCopy (s : State) (t : Team) (x : Fields) (cont : Bool) (hold : Option (KMap Word)) : Out :=
  if !cont then finishHold s t x hold
  else
    let u := t.issued s.cc
    .next (s.setTeam ((match hold with
      | some r => u.holdRow r
      | none => u).jump (labelOf t x)))

/-- A copy at issue: skipped with no present lane, then at its label if it has one (R180, R220); a quad out of range traps (R218). -/
def copyOp (i : Instr) (s : State) (ok : Team → Fields → Bool) (mk : Team → Fields → CopyOp → LaneSet → CopyOp) (k : CKind) : Out :=
  issue i s (fun t _ x =>
    let m := modOf .c x
    let set := presentSet t m
    let hold := if x.hold = 2 then some (latchRow t.lanes (srcV t x.b.toNat 0)) else none
    if set = 0 then skipCopy s t x (mCont m) hold
    else if !ok t x then trapAll s illegalOperand
    else enqueueCopy s t x (mk t x (newCopy s t k m) set) hold)

/-- Word i of a quad. -/
def quad (t : Team) (code i : Nat) : Word := t.sreg (code - 88 + i)

/-- A shape quad in range (R218). -/
def shapeOk (t : Team) (x : Fields) : Bool := (quad t x.b.toNat 0).toNat ≤ 65535 && (quad t x.b.toNat 1).toNat ≤ 2 ^ 24
def withShape (t : Team) (x : Fields) (o : CopyOp) : CopyOp :=
  { o with rows := (quad t x.b.toNat 0).toNat, rowBytes := (quad t x.b.toNat 1).toNat, strideS := sWord (quad t x.b.toNat 2),
           strideD := sWord (quad t x.b.toNat 3) }

/-- CP_G2S: rows of global memory into the stash (R221). -/
def execCpG2s (f : Fields) (s : State) : Out :=
  copyOp (.cpG2s f) s shapeOk (fun t x o _ =>
    { withShape t x o with src := (srcBase t x.a.toNat).toNat, dst := (srcU t x.d.toNat 0).toNat }) .g2s

/-- CP_S2G: rows of the stash into global memory (R221). -/
def execCpS2g (f : Fields) (s : State) : Out :=
  copyOp (.cpS2g f) s shapeOk (fun t x o _ =>
    { withShape t x o with src := (srcU t x.a.toNat 0).toNat, dst := (srcBase t x.d.toNat).toNat }) .s2g

/-- CP_G2G: rows of global memory into global memory (R221). -/
def execCpG2g (f : Fields) (s : State) : Out :=
  copyOp (.cpG2g f) s shapeOk (fun t x o _ =>
    { withShape t x o with src := (srcBase t x.a.toNat).toNat, dst := (srcBase t x.d.toNat).toNat }) .g2g

/-- CP_FILL: a four-byte pattern into rows of global memory or a stash (R221). -/
def execCpFill (f : Fields) (s : State) : Out :=
  copyOp (.cpFill f) s shapeOk (fun t x o _ =>
    { withShape t x o with
      pattern := srcU t x.a.toNat 0
      dst := if o.space = 0 then (srcBase t x.d.toNat).toNat else (srcU t x.d.toNat 0).toNat }) .fill

/-- A gather quad in range (R218). -/
def gatherOk (t : Team) (x : Fields) : Bool := [1, 2, 4, 8, 16, 32, 64].contains (quad t x.a.toNat 3).toNat
def gatherBase (t : Team) (x : Fields) : Nat := (quad t x.a.toNat 0).toNat + 2 ^ 32 * (quad t x.a.toNat 1).toNat
def laneOffs (t : Team) (x : Fields) (set : LaneSet) : List (Nat × Int) :=
  (laneList t.lanes set).map (fun l => (l, sWord (srcV t x.b.toNat 0 l)))

/-- CP_GATH: one element for each present lane from global memory into the stash (R222). -/
def execCpGath (f : Fields) (s : State) : Out :=
  copyOp (.cpGath f) s gatherOk (fun t x o set =>
    { o with src := gatherBase t x, dst := (quad t x.a.toNat 2).toNat, elem := (quad t x.a.toNat 3).toNat, offs := laneOffs t x set }) .gath

/-- CP_SCAT: one element for each present lane from the stash into global memory (R222). -/
def execCpScat (f : Fields) (s : State) : Out :=
  copyOp (.cpScat f) s gatherOk (fun t x o set =>
    { o with src := (quad t x.a.toNat 2).toNat, dst := gatherBase t x, elem := (quad t x.a.toNat 3).toNat, offs := laneOffs t x set }) .scat

/-- A plane quad in range (R218). -/
def planeOk (t : Team) (x : Fields) : Bool :=
  let k := (quad t x.b.toNat 1).toNat
  let nl := (quad t x.b.toNat 2).toNat
  let w := (quad t x.b.toNat 3).toNat
  32 ≤ k && k ≤ 65536 && k % 32 = 0 && 1 ≤ nl && nl ≤ 256 && 1 ≤ w % 16 && w % 16 ≤ 8 && w / 32 = 0

/-- CP_PLANE: codes of global memory into bit planes of the stash (R223). -/
def execCpPlane (f : Fields) (s : State) : Out :=
  copyOp (.cpPlane f) s planeOk (fun t x o _ =>
    let w := (quad t x.b.toNat 3).toNat
    { o with src := (srcBase t x.a.toNat).toNat, dst := (srcU t x.d.toNat 0).toNat, strideS := ((quad t x.b.toNat 0).toNat : Int),
             rows := (quad t x.b.toNat 1).toNat, nl := (quad t x.b.toNat 2).toNat, pbits := w % 16, orient := w / 16 % 2 }) .plane

/-- CP_TLR: reads a tensor layout record into a binding, or empties it (R213). -/
def execCpTlr (f : Fields) (s : State) : Out :=
  copyOp (.cpTlr f) s (fun _ _ => true) (fun t x o _ =>
    { o with src := (srcBase t x.a.toNat).toNat, dst := x.d.toNat, orient := if x.a = 120 then 1 else 0 }) .tlr

end Sys2Proof.Machine
end

