-- ==== Sys2Proof/Machine/Memory.lean ====
section
/-! DEFINITION. Class M and `sld` at issue (09_vector_scalar.md R144; 11_memory.md R171-R211), and the events of memory queues, append pages, halo
pushes and watch entries. -/

namespace Sys2Proof.Machine

/-! ### Shared parts of issue -/

/-- The held B source (R47, R178). -/
def mHold (t : Team) (x : Fields) : Option (KMap Word) :=
  if x.hold = 2 then some (latchRow t.lanes (srcV t x.b.toNat (immOf x))) else none

/-- An exact address, negative ones as the natural numbers that a 64-bit address is congruent to and no stash holds. -/
def exactEa (v : Int) : Nat := if v < 0 then (v + 2 ^ 65).toNat else v.toNat

/-- ea(l) of R172, exact: the global space takes it modulo 2^64. -/
def eaOf (t : Team) (x : Fields) (l : Nat) : Nat :=
  exactEa (((srcBase t x.a.toNat).toNat : Int) + (srcV t x.b.toNat 0 l).toInt + (immOf x).toInt)

/-- n bytes of the D source of a lane, lowest first as a number; code 120 gives zeros (R178, R181). -/
def dData (t : Team) (code n l : Nat) : Nat :=
  if n ≤ 4 then (srcV t code 0 l).toNat % 2 ^ (8 * n)
  else if code < 88 then
    (List.range (n / 4)).foldl (fun a i => a + (t.word (t.vWord code + i) l).toNat * 2 ^ (32 * i)) 0
  else if code < 120 then (t.spair (code - 88)).toNat
  else 0

/-- Destination word; code 120 discards. -/
def dstWord (t : Team) (code : Nat) : Option Nat := if code < 88 then some (t.vWord code) else none

/-- An operation as issue makes it, before its own fields are set. -/
def newOp (t : Team) (k : MKind) (m : Word) : MemOp :=
  { id := t.nextOp, kind := k, dst := none, pdst := 31, accs := [], acq := mSem m % 2 = 1, rel := 2 ≤ mSem m, scope := mScope m,
    scls := mSclsV m, flag := selFlag t m, phase := 0, performed := false }

/-- The operation enters the team's memory queue and counts on its flag (R52). -/
def enqueueOp (s : State) (t : Team) (x : Fields) (o : MemOp) (hold : Option (KMap Word)) : Out :=
  finishHold s { t.flagUp o.flag with memQ := t.memQ ++ [{ o with phase := teamPhase s s.cur }], nextOp := t.nextOp + 1 } x hold

/-- The lanes' checks for accesses of n bytes. -/
def laneChecks (s : State) (t : Team) (x : Fields) (set : LaneSet) (n : Nat) (w : Want) : List (Nat × Nat × Chk) :=
  (laneList t.lanes set).map (fun l => let ea := eaOf t x l; (l, ea, checkAccess s s.cur (mSpace (modOf .m x)) ea n w))

/-- A per-lane instruction: nothing with no present lane (R180); the checks of every lane; then the instruction's own part. -/
def perLane (i : Instr) (s : State) (n : Nat) (w : Want) (k : Team → Fields → List LaneAcc → Out) : Out :=
  issue i s (fun t _ x =>
    let set := presentSet t (modOf .m x)
    if set = 0 then finishHold s t x (mHold t x)
    else withGather s w.bits (gather (laneChecks s t x set n w)) id (k t x))

/-- A load of n bytes (R181, R192). -/
def loadOp (i : Instr) (s : State) (n : Nat) (signed watched : Bool) : Out :=
  perLane i s n wantRead (fun t x accs =>
    enqueueOp s t x { newOp t (.load n signed watched) (modOf .m x) with dst := dstWord t x.d.toNat, accs := accs } (mHold t x))

/-- A store of n bytes, after the watch rule where it releases (R181, R194); a fault of its lanes comes before a struck entry (log entry 92). -/
def storeOp (i : Instr) (s : State) (n : Nat) : Out :=
  perLane i s n wantWrite (fun t x accs =>
    let m := modOf .m x
    withGate s (2 ≤ mSem m) (enqueueOp s t x
      { newOp t (.store n) m with accs := accs.map (fun a => { a with data := dData t x.d.toNat n a.lane }) } (mHold t x)))

/-- An atomic (`ret`) or reduction (R183); scope 000 means `sys` (R179). In a deterministic launch an atomic with its result waits for the block's
turn under the ticket (R111, R372); in a replay it must be the log's (R377). -/
def atomOp (i : Instr) (s : State) (op : AOp) (ret : Bool) : Out :=
  perLane i s 4 (if ret then wantAtom else wantWrite) (fun t x accs =>
    let m := modOf .m x
    let o : MemOp := { newOp t (.atom op ret) m with
      dst := if ret then dstWord t x.d.toNat else none
      scope := if mScope m = 0 then 6 else mScope m
      accs := accs.map (fun a => { a with
        data := dData t x.d.toNat 4 a.lane
        data2 := if op = .cas && x.d.toNat < 88 then (t.word (t.vWord x.d.toNat + 1) a.lane).toNat else 0 }) }
    if ret && (s.gridAt t.grid).det && (mSpace m = 0 || op.float) && !ticketTurn s s.cur then .next (s.setTeam { t with wait := .ticket })
    else withGate s o.rel (withReplay s 1 (decisionKeys s o) (enqueueOp s t x o (mHold t x))))

/-- A team-wide instruction: skipped with no present lane (R180). -/
def teamWide (i : Instr) (s : State) (k : Team → Fields → LaneSet → Out) : Out :=
  issue i s (fun t _ x =>
    let set := presentSet t (modOf .m x)
    if set = 0 then finishHold s t x (mHold t x) else k t x set)

/-- Outcome of one check made for the whole instruction. -/
def withOne (s : State) (set : LaneSet) (va : Nat) (w : Want) (c : Chk) (k : LaneAcc → Out) : Out :=
  withGather s w.bits (gather [(0, va, c)]) (fun _ => set) (fun accs => match accs with
    | a :: _ => k a
    | [] => .next s)

/-! ### Loads, stores, atomics and reductions -/

/-- ld8I: load of 1 byte, sign-extended (R181). -/
def execLd8I (f : Fields) (s : State) : Out := loadOp (.ld8I f) s 1 true false

/-- ld8Z: load of 1 byte, zero-extended (R181). -/
def execLd8Z (f : Fields) (s : State) : Out := loadOp (.ld8Z f) s 1 false false

/-- ld16I: load of 2 bytes, sign-extended (R181). -/
def execLd16I (f : Fields) (s : State) : Out := loadOp (.ld16I f) s 2 true false

/-- ld16Z: load of 2 bytes, zero-extended (R181). -/
def execLd16Z (f : Fields) (s : State) : Out := loadOp (.ld16Z f) s 2 false false

/-- ld32: load of 4 bytes (R181). -/
def execLd32 (f : Fields) (s : State) : Out := loadOp (.ld32 f) s 4 false false

/-- ld64: load of 8 bytes (R181). -/
def execLd64 (f : Fields) (s : State) : Out := loadOp (.ld64 f) s 8 false false

/-- ld128: load of 16 bytes (R181). -/
def execLd128 (f : Fields) (s : State) : Out := loadOp (.ld128 f) s 16 false false

/-- ldw32: watched load of 4 bytes (R192). -/
def execLdw32 (f : Fields) (s : State) : Out := loadOp (.ldw32 f) s 4 false true

/-- ldw64: watched load of 8 bytes (R192). -/
def execLdw64 (f : Fields) (s : State) : Out := loadOp (.ldw64 f) s 8 false true

/-- ldw128: watched load of 16 bytes (R192). -/
def execLdw128 (f : Fields) (s : State) : Out := loadOp (.ldw128 f) s 16 false true

/-- st8: store of 1 byte (R181). -/
def execSt8 (f : Fields) (s : State) : Out := storeOp (.st8 f) s 1

/-- st16: store of 2 bytes (R181). -/
def execSt16 (f : Fields) (s : State) : Out := storeOp (.st16 f) s 2

/-- st32: store of 4 bytes (R181). -/
def execSt32 (f : Fields) (s : State) : Out := storeOp (.st32 f) s 4

/-- st64: store of 8 bytes (R181). -/
def execSt64 (f : Fields) (s : State) : Out := storeOp (.st64 f) s 8

/-- st128: store of 16 bytes (R181). -/
def execSt128 (f : Fields) (s : State) : Out := storeOp (.st128 f) s 16

/-- atomAdd (R183). -/
def execAtomAdd (f : Fields) (s : State) : Out := atomOp (.atomAdd f) s .add true

/-- atomMinI32 (R183). -/
def execAtomMinI32 (f : Fields) (s : State) : Out := atomOp (.atomMinI32 f) s .minI true

/-- atomMinZ32 (R183). -/
def execAtomMinZ32 (f : Fields) (s : State) : Out := atomOp (.atomMinZ32 f) s .minZ true

/-- atomMaxI32 (R183). -/
def execAtomMaxI32 (f : Fields) (s : State) : Out := atomOp (.atomMaxI32 f) s .maxI true

/-- atomMaxZ32 (R183). -/
def execAtomMaxZ32 (f : Fields) (s : State) : Out := atomOp (.atomMaxZ32 f) s .maxZ true

/-- atomAnd (R183). -/
def execAtomAnd (f : Fields) (s : State) : Out := atomOp (.atomAnd f) s .and true

/-- atomOr (R183). -/
def execAtomOr (f : Fields) (s : State) : Out := atomOp (.atomOr f) s .or true

/-- atomXor (R183). -/
def execAtomXor (f : Fields) (s : State) : Out := atomOp (.atomXor f) s .xor true

/-- atomXchg (R183). -/
def execAtomXchg (f : Fields) (s : State) : Out := atomOp (.atomXchg f) s .xchg true

/-- atomCas (R183). -/
def execAtomCas (f : Fields) (s : State) : Out := atomOp (.atomCas f) s .cas true

/-- atomFadd (R183). -/
def execAtomFadd (f : Fields) (s : State) : Out := atomOp (.atomFadd f) s .fadd true

/-- atomFmin (R183). -/
def execAtomFmin (f : Fields) (s : State) : Out := atomOp (.atomFmin f) s .fmin true

/-- atomFmax (R183). -/
def execAtomFmax (f : Fields) (s : State) : Out := atomOp (.atomFmax f) s .fmax true

/-- mRedAdd (R183). -/
def execMRedAdd (f : Fields) (s : State) : Out := atomOp (.mRedAdd f) s .add false

/-- mRedMinI32 (R183). -/
def execMRedMinI32 (f : Fields) (s : State) : Out := atomOp (.mRedMinI32 f) s .minI false

/-- mRedMinZ32 (R183). -/
def execMRedMinZ32 (f : Fields) (s : State) : Out := atomOp (.mRedMinZ32 f) s .minZ false

/-- mRedMaxI32 (R183). -/
def execMRedMaxI32 (f : Fields) (s : State) : Out := atomOp (.mRedMaxI32 f) s .maxI false

/-- mRedMaxZ32 (R183). -/
def execMRedMaxZ32 (f : Fields) (s : State) : Out := atomOp (.mRedMaxZ32 f) s .maxZ false

/-- mRedAnd (R183). -/
def execMRedAnd (f : Fields) (s : State) : Out := atomOp (.mRedAnd f) s .and false

/-- mRedOr (R183). -/
def execMRedOr (f : Fields) (s : State) : Out := atomOp (.mRedOr f) s .or false

/-- mRedXor (R183). -/
def execMRedXor (f : Fields) (s : State) : Out := atomOp (.mRedXor f) s .xor false

/-- mRedFadd (R183). -/
def execMRedFadd (f : Fields) (s : State) : Out := atomOp (.mRedFadd f) s .fadd false

/-- mRedFmin (R183). -/
def execMRedFmin (f : Fields) (s : State) : Out := atomOp (.mRedFmin f) s .fmin false

/-- mRedFmax (R183). -/
def execMRedFmax (f : Fields) (s : State) : Out := atomOp (.mRedFmax f) s .fmax false

/-- `sld`: a relaxed 4-byte global load for the team, whatever the mask (R144). -/
def execSld (f : Fields) (s : State) : Out :=
  issue (.sld f) s (fun t _ x =>
    let ea := (srcS64 t x.a.toNat 0 + (immOf x).signExtend 64).toNat
    withOne s t.mask ea wantRead (checkGlobal s s.cur ea 4 wantRead) (fun a =>
      let m := modOf .s x
      enqueueOp s t x { newOp t .sload 0 with
        dst := if x.d.toNat < 64 then some x.d.toNat else none
        accs := [a]
        flag := selFlag t m } none))

/-! ### Append and seal -/

/-- `append`: one element for each present lane at the tail of the page of pair(A) (R187). -/
def execAppend (f : Fields) (s : State) : Out :=
  teamWide (.append f) s (fun t x set =>
    let m := modOf .m x
    let e := 2 ^ (immOf x).toNat
    let va := (srcBase t x.a.toNat).toNat
    let size := pageSize (regionOf s (dieOf t.core) (s.gridAt t.grid).asid va)
    withOne s set va wantAppend (checkGlobal s s.cur va 1 wantAppend) (fun a =>
      withGate s (2 ≤ mSem m) (enqueueOp s t x { newOp t (.append e (a.addr / size * size) size false) m with
        dst := dstWord t x.d.toNat
        pdst := x.b.toNat
        accs := (laneList t.lanes set).map (fun l => { a with lane := l, data := dData t x.d.toNat e l })
        overflow := treatment s s.cur (e * (laneList t.lanes set).length) = .hold } none)))

/-- `seal`: the page of pair(A) is sealed at its home; a release at `sys` (R188). -/
def execSealPage (f : Fields) (s : State) : Out :=
  teamWide (.sealPage f) s (fun t x set =>
    let va := (srcBase t x.a.toNat).toNat
    let size := pageSize (regionOf s (dieOf t.core) (s.gridAt t.grid).asid va)
    withOne s set va wantAppend (checkGlobal s s.cur va 1 wantAppend) (fun a =>
      withGate s true (enqueueOp s t x { newOp t (.sealPg (a.addr / size * size) size) (modOf .m x) with rel := true, scope := 6 } none)))

/-! ### Fences, prefetch -/

/-- `fence`: enters the memory queue with its semantics and scope, after the watch rule where it releases (R196). -/
def execFence (f : Fields) (s : State) : Out :=
  teamWide (.fence f) s (fun t x _ =>
    let m := modOf .m x
    withGate s (2 ≤ mSem m) (enqueueOp s t x (newOp t .fence m) none))

/-- `fenceq`: joins the queues of its mask (R197). -/
def execFenceq (f : Fields) (s : State) : Out :=
  teamWide (.fenceq f) s (fun t x _ => enqueueOp s t x (newOp t (.fenceq (immOf x).toNat) (modOf .m x)) none)

/-- `pref`: fetches the present lanes' lines; lanes that fail a check are dropped when it is performed (R199). -/
def execPref (f : Fields) (s : State) : Out :=
  issue (.pref f) s (fun t _ x =>
    let m := modOf .m x
    let set := presentSet t m
    if set = 0 then finishHold s t x (mHold t x)
    else enqueueOp s t x { newOp t (.pref (x.d.toNat = 1)) m with
      accs := (laneList t.lanes set).map (fun l =>
        { lane := l, blk := none, addr := 0, va := eaOf t x l % 2 ^ 64, data := 0, data2 := 0, lease := 0, mclass := 0 }) } (mHold t x))

/-! ### Windows (R200-R203) -/

/-- Pages of a range, each with its first address, in ascending order; the size of each is that of its own region. -/
def pagesFrom (s : State) (t : Team) : Nat → Nat → Nat → List (Nat × Nat)
  | 0, _, _ => []
  | n + 1, va, len =>
    if len = 0 then []
    else
      let size := pageSize (regionOf s (dieOf t.core) (s.gridAt t.grid).asid va)
      let k := min len (size - va % size)
      (va, k) :: pagesFrom s t n (va + k) (len - k)

def pagesOf (s : State) (t : Team) (va len : Nat) : List (Nat × Nat) := pagesFrom s t (len / 4096 + 2) va len

/-- The window that `smap` asks for may be made (R200). -/
def windowOk (s : State) (t : Team) (off va len : Nat) : Bool :=
  let ws := windowsAhead s s.cur
  off % 64 = 0 && va % 64 = 0 && len % 64 = 0 && len ≠ 0 && off + len ≤ (s.blockAt t.block).stashBytes && ws.length < 8 &&
  ws.all (fun w => off + len ≤ w.1 || w.1 + w.2 ≤ off)

/-- `smap`: records a window once every page of its range is translated (R200). -/
def execSmap (f : Fields) (s : State) : Out :=
  teamWide (.smap f) s (fun t x set =>
    let off := (srcU t x.d.toNat 0).toNat
    let va := (srcBase t x.a.toNat).toNat
    let len := (immOf x).toNat
    if !windowOk s t off va len then trapLanes s { cause := 0x10, i0 := loWord off, i3 := 4 } set
    else
      let ps := pagesOf s t va len
      let checks := ps.map (fun p => (p.1 - va, p.1, checkGlobal s s.cur p.1 1 wantMap))
      withGather s accR (gather checks) (fun _ => set) (fun accs =>
        enqueueOp s t x { newOp t (.smap off va len (accs.map (fun a => (a.lane, a.addr, (ps.find? (fun p => p.1 - va = a.lane)).elim 0 (fun p => p.2))))) (modOf .m x) with
          accs := accs } none))

/-- `sunmap`: writes back and removes the window that starts at D (R203). -/
def execSunmap (f : Fields) (s : State) : Out :=
  teamWide (.sunmap f) s (fun t x set =>
    let off := (srcU t x.d.toNat 0).toNat
    if (windowsAhead s s.cur).any (fun w => w.1 = off) then enqueueOp s t x (newOp t (.sunmap off) (modOf .m x)) none
    else trapLanes s { cause := 0x10, i0 := loWord off, i3 := 5 } set)

/-- `sflush`: writes back every dirty line of the block's windows (R203). -/
def execSflush (f : Fields) (s : State) : Out :=
  teamWide (.sflush f) s (fun t x _ => enqueueOp s t x (newOp t .sflush (modOf .m x)) none)

/-! ### Halo tiles (R207-R210) -/

/-- The tile a descriptor describes, with its reserved bytes zero (R207). -/
def tileOf (bs : List Byte) : Tile × Bool :=
  let n (o k : Nat) : Nat := leNat ((bs.drop o).take k)
  ({ off := n 0 4, rows := n 4 2, cols := n 6 2, elem := n 8 1, h := n 9 1, nbr := [n 12 2, n 14 2, n 16 2, n 18 2] }, n 10 2 = 0 && n 20 12 = 0)

/-- The descriptor may be bound to a tile id of the block (R208). -/
def tileOk (s : State) (t : Team) (id : Nat) (d : Tile) (reserved : Bool) : Bool :=
  let b := s.blockAt t.block
  let peers := if (s.gridAt t.grid).cohLvl = 0 then 0 else (levelGroup (s.gridAt t.grid) 1 b.idx).2
  let apart (o n : Nat) : Bool := d.off + d.bytes ≤ o || o + n ≤ d.off
  reserved && d.rows ≤ 1024 && 1 ≤ d.cols && d.cols ≤ 1024 && (d.elem = 1 || d.elem = 2 || d.elem = 4 || d.elem = 8) &&
  1 ≤ d.h && d.h ≤ 8 && d.off % d.elem = 0 && d.nbr.all (fun n => n = 0xFFFF || n < peers) &&
  (d.rows = 0 || (d.off + d.bytes ≤ b.stashBytes && (b.tiles.all (fun p => p.1 = id || apart p.2.off p.2.bytes)) &&
    (windowsAhead s s.cur).all (fun w => apart w.1 w.2)))

/-- `hdecl`: reads the descriptor once the team's earlier accesses to it are performed, and its earlier fences and joins are established, and binds it
(R182, R196, R197, R207, R208). -/
def execHdecl (f : Fields) (s : State) : Out :=
  teamWide (.hdecl f) s (fun t x set =>
    let ea := exactEa (((srcBase t x.a.toNat).toNat : Int) + (immOf x).toInt)
    withOne s set ea wantRead (checkStash s s.cur 1 ea 32 1 false) (fun a =>
      let o : MemOp := { newOp t .hdecl (modOf .m x) with accs := [a] }
      if !opReady s s.cur o || heldByFenceq s s.cur 0 o.id then .next s
      else if fillBad s t.block a.addr 32 then .next (endTeamBad s s.cur 2)
      else match classLoad s (mSclsV (modOf .m x)) t.block a.addr 32 with
        | none => .next s
        | some (s, bs) =>
          let d := tileOf bs
          let id := x.d.toNat
          if !tileOk s t id d.1 d.2 then trapLanes s { cause := 0x10, i0 := loWord ea, i3 := 6 } set
          else
            let s := s.modBlock t.block (fun b => { b with tiles := if d.1.rows = 0 then kDel id b.tiles else kPut id d.1 b.tiles })
            enqueueOp s s.team x { newOp t .hdecl (modOf .m x) with performed := true } none))

/-- `hpush`: pushes one tile (R210). -/
def execHpush (f : Fields) (s : State) : Out :=
  teamWide (.hpush f) s (fun t x _ => enqueueOp s t x { newOp t (.hpush x.d.toNat) (modOf .m x) with pdst := 0 } none)

/-! ### Events -/

/-- An operation of a team's memory queue. -/
def findOp (s : State) (tid id : Nat) : Option MemOp := (s.teamAt tid).memQ.find? (fun o => o.id = id)

/-- Bytes that an operation reads at each lane. -/
def readsBytes (o : MemOp) : Nat :=
  match o.kind with
  | .load n _ _ => n
  | .sload => 4
  | .atom _ _ => 4
  | _ => 0

/-- An operation that no copy of the core serves is performed at a line of global memory: a load that misses, an atomic in place, an `append`. -/
def reachesLine (s : State) (tid : Nat) (o : MemOp) (a : LaneAcc) : Bool :=
  match o.kind with
  | .load _ _ _ => !servedByCopy s (s.teamAt tid).core (a.addr / 64)
  | .sload => !servedByCopy s (s.teamAt tid).core (a.addr / 64)
  | .atom _ _ => !o.done.contains (a.addr / 64)
  | .append _ _ _ _ => true
  | _ => false

/-- Bytes of the stash that an operation touches at each lane, so that a window line may be filled. -/
def touchBytes (o : MemOp) : Nat :=
  match o.kind with
  | .store n => n
  | _ => readsBytes o

/-- An operation would read data that is poisoned (R177). -/
def opPoisoned (s : State) (tid : Nat) (o : MemOp) : Bool :=
  o.accs.any (fun a => match a.blk with
    | none => reachesLine s tid o a && readsBytes o ≠ 0 && poisonIn s a.addr (readsBytes o)
    | some b => fillBad s b a.addr (touchBytes o))

/-- The first access of an operation that would reach a line of an extent that has been lost or is closing since its checks (R364; log entry 64). -/
def lostAcc (s : State) (tid : Nat) (o : MemOp) : Option LaneAcc :=
  match o.kind with
  | .append e p size done =>
    ((if done then o else (reserveAppend s o e p size).2).accs.find? (fun a => a.addr ≠ appendFail && (List.range e).any (fun i => extentGone s (p + a.addr + i))))
  | _ => o.accs.find? (fun a => match a.blk with
    | none => reachesLine s tid o a && extentGone s a.addr
    | some b => fillLost s b a.addr (touchBytes o))

/-- A reservation that will not be written no longer holds up its page's seal (R188). -/
def unreserve (s : State) (o : MemOp) : State :=
  match o.kind with
  | .append _ p size true =>
    if o.accs.any (fun a => a.addr ≠ appendFail) then setPageRec s p { pageRec s p size with pending := (pageRec s p size).pending - 1 } else s
  | _ => s

/-- An operation leaves its queue without its effect, and its flag counts down. -/
def dropOp (s : State) (tid : Nat) (o : MemOp) : State :=
  (unreserve s o).modTeam tid (fun t => { t.flagDown o.flag with memQ := t.memQ.filter (fun p => p.id ≠ o.id) })

/-- An operation reaches a line of a closing or lost extent: the Extent Lost trap waits for its team (R364). -/
def dropLost (s : State) (tid : Nat) (o : MemOp) (a : LaneAcc) : State := pendLost (dropOp s tid o) tid a.va

/-- Service class of an operation's requests (R380). -/
def opClass (o : MemOp) : Nat :=
  match o.kind with
  | .sload => 0
  | .fmap _ _ => 0
  | .pref _ => 3
  | .sunmap _ => 2
  | .sflush => 2
  | _ => o.scls

/-- The queue's operation is performed now, if nothing holds it; one that reaches a closing or lost extent, or that no entry of a replayed log can come
for, leaves a trap, and poisoned data ends the team by machine error. -/
def stepOp (s : State) (tid : Nat) (o : MemOp) : Out :=
  noteOut s (s.teamAt tid).core (opClass o) (
  if o.performed then .next ((completeOp s tid o).getD s)
  else if !opReady s tid o || (!isFmap o && heldByFenceq s tid 0 o.id) then .next s
  else match lostAcc s tid o with
  | some a => .next (dropLost s tid o a)
  | none => match queuedDivergence s tid o with
  | some tr => .next (pendTrap (dropOp s tid o) tid tr)
  | none =>
  if opPoisoned s tid o then
    .next (endTeamBad (s.modTeam tid (fun t => { t with memQ := t.memQ.filter (fun p => p.id ≠ o.id) })) tid 2)
  else match performOp s tid o with
    | none => .next s
    | some (s, o) => .next (putOp s tid o))

/-- VARIABLE_LATENCY_COMPLETION: an operation of a team's memory queue is performed, or, once performed, completes (R53, R182). -/
def execVariableLatencyCompletion (s : State) : Out :=
  match findOp s s.ev.x s.ev.y with
  | none => .next s
  | some o => match stepOp s s.ev.x o with
    | .next s' => .next s'
    | r => r

/-- APPEND_HOME_RESERVATION: the page's home takes an `append`'s reservation (R187); one of a deterministic launch that is not staged first waits for its
turn (R372). -/
def execAppendHomeReservation (s : State) : Out :=
  match findOp s s.ev.x s.ev.y with
  | none => .next s
  | some o =>
    match o.kind with
    | .append e p size false =>
      let waits := isStagedAppend s s.ev.x o || ((s.gridAt (s.teamAt s.ev.x).grid).det && !((s.blockAt (s.teamAt s.ev.x).block).inPlace && o.turn s s.ev.x))
      if o.performed || !opReady s s.ev.x o || heldByFenceq s s.ev.x 0 o.id || waits then .next s
      else match releaseOp s s.ev.x o with
        | none => .next s
        | some (s, o) =>
          let r := reserveAppend s o e p size
          .next (putOp r.1 s.ev.x r.2)
    | _ => .next s

/-- A line of a sealing page leaves a die: its L2, its cores' copies, every window that maps it (R361). -/
def recallSealed (s : State) (die : Nat) (lines : Nat → Bool) : State :=
  let s := s.modDie die (fun d => { d with l2 := d.l2.filter (fun p => !lines p.1) })
  (s.cores.filter (fun p => dieOf p.1 = die)).foldl (fun s p =>
    mapWindows (s.modCore p.1 (fun k => { k with l1 := k.l1.filter (fun q => !lines q.1) })) p.1
      (fun w => { w with lines := w.lines.filter (fun q => !lines q.2.pa) })) s

/-- SEAL_RECALL: the home's recall of one line reaches a die (R361). -/
def execSealRecall (s : State) : Out :=
  let die := s.ev.x
  let line := s.ev.y
  match pageOf s (64 * line) with
  | none => .next s
  | some (p, g) =>
    if g.st = .sealing && g.pending = 0 then
      .next (setPageRec (recallSealed s die (fun l => l = line)) p { g with recalled := g.recalled ++ [(die, line)] })
    else .next s

/-- A page's last copies are gone, its lines' entries are cleared, and it is sealed; the requests that waited for its lines are answered (R188, R356, R361). -/
def sealNow (s : State) (p : Nat) (g : APage) : State :=
  let lines (l : Nat) : Bool := p ≤ 64 * l && 64 * l < p + g.size
  let s := (List.range Config.dies).foldl (fun s d => recallSealed s d lines) s
  let s := { s with dies := s.dies.map (fun q => (q.1, { q.2 with
    dir := q.2.dir.map (fun e => if lines e.1 then (e.1, { Dir.reset with waiting := e.2.waiting }) else e) })) }
  let s := setPageRec s p { g with st := .sealed, recalled := [] }
  s.dies.foldl (fun s d => (d.2.dir.filter (fun e => lines e.1 && e.2.waiting ≠ [])).foldl (fun s e => serveLine d.1 e.1 e.2.waiting.length s) s) s

/-- No line of a page stands in a transient state from before its seal (R356). -/
def pageAtRest (s : State) (p size : Nat) : Bool :=
  s.dies.all (fun d => d.2.dir.all (fun e => !(p ≤ 64 * e.1 && 64 * e.1 < p + size) || e.2.tr.isNone))

/-- SEAL_COMPLETION: the reservations' data is written, the last copies are gone, the page is sealed (R188, R361). -/
def execSealCompletion (s : State) : Out :=
  let p := s.ev.x
  match kGet p s.pages with
  | none => .next s
  | some g => if g.st = .sealing && g.pending = 0 && pageAtRest s p g.size then .next (sealNow s p g) else .next s

/-- HALO_PUSH: one strip of a push reaches the neighbour, for a queued `hpush` or ahead of a release (R209, R210). -/
def execHaloPush (s : State) : Out :=
  let bid := s.ev.x
  let tile := s.ev.y
  let dir := s.ev.z
  let ts := s.teams.filter (fun p => p.2.block = bid && p.2.status = .live)
  let pushing (p : Nat × Team) : Option (Nat × MemOp) :=
    (p.2.memQ.find? (fun o => o.kind = .hpush tile && !o.performed && !o.pdst.testBit dir && opReady s p.1 o)).map (fun o => (p.1, o))
  let releasing (p : Nat × Team) : Option (Nat × MemOp) :=
    (p.2.memQ.find? (fun o => o.rel && !o.released && 2 ≤ o.scope && !o.performed && !o.pushed.contains (tile, dir) && opReady s p.1 o)).map (fun o => (p.1, o))
  if 4 ≤ dir then .next s
  else match ts.findSome? pushing with
    | some (tid, o) => .next (putOp (pushDir s bid tile dir) tid { o with pdst := o.pdst + 2 ^ dir })
    | none =>
      match ts.findSome? releasing with
      | some (tid, o) =>
        if (kGet tile (s.blockAt bid).tiles).isSome then .next (putOp (pushDir s bid tile dir) tid { o with pushed := o.pushed ++ [(tile, dir)] }) else .next s
      | none => .next s

/-- WATCH_VALIDATION: the coherence point answers for a watch entry (R193). -/
def execWatchValidation (s : State) : Out :=
  let c := s.ev.x
  let k := s.coreAt c
  if k.watch.any (fun w => w.id = s.ev.y && w.st = .pending) then
    .next (s.setCore c { k with watch := k.watch.map (fun w =>
      if w.id = s.ev.y && w.st = .pending then { w with st := if watchConfirmed s c w then .confirmed else .struck } else w) })
  else .next s

end Sys2Proof.Machine
end

