-- ==== Sys2Proof/Machine/FnStore.lean ====
section
/-! DEFINITION. The function store (20_function_store.md R322-R349): descriptors, tables and records, search and correction, class Y, and the
events of the store queue and of the staged appends. -/

namespace Sys2Proof.Machine

/-! ### Numbers (R330-R332) -/

/-- rne(x - c) as a value. -/
def diffV (x c : Word) : XVal := rneV (XVal.sub .rne (ofF32 x) (ofF32 c))

/-- dist(x, R) as a value (R330). -/
def fnDist (w x c : List Word) : XVal :=
  (w.zip (x.zip c)).foldl (fun t p =>
    let q := rneV (XVal.mul (diffV p.2.1 p.2.2).absV (ofF32 p.1))
    if t.isNaN || q.isNaN then .nan else if XVal.lt t q then q else t) (ofF32 0)

/-- A record contains an argument. -/
def FnRec.contains (r : FnRec) (w x : List Word) : Bool := XVal.le (fnDist w x r.c) (ofF32 r.radius)

/-- pred(R, x, j) as a code (R332). -/
def FnRec.pred (r : FnRec) (x : List Word) (j : Nat) : Word :=
  let d := x.length
  let xc := x.zip r.c
  ((xc.zip ((r.j.drop (j * d)).take d)).foldl (fun a p => toF32 (XVal.fma .rne (ofF32 p.2) (diffV p.1.1 p.1.2) (ofF32 a)) .rne false) (r.y.getD j 0))

/-- A code that is NaN or infinite. -/
def notFinite (w : Word) : Bool := !(ofF32 w).isFinite

/-- The search of a resident set: the containing record of highest serial (R331). -/
def fnSearch (rs : List FnRec) (w x : List Word) : Option FnRec :=
  if x.any notFinite then none
  else rs.foldl (fun b r => if r.contains w x && (match b with
    | some q => q.serial < r.serial
    | none => true) then some r else b) none

/-! ### Descriptors (R325, R326) -/

/-- An FP32 code whose value is finite and not less than a bound; `strict` excludes the bound. -/
def atLeast (bound : Word) (strict : Bool) (w : Word) : Bool :=
  (ofF32 w).isFinite && (if strict then XVal.lt (ofF32 bound) (ofF32 w) else XVal.le (ofF32 bound) (ofF32 w))

/-- The descriptor in 64 bytes, and whether its fields lie in range; the region of TBASE is not looked at here. -/
def descOf (bs : List Byte) : FnDesc × Bool :=
  let n (o k : Nat) : Nat := leNat ((bs.drop o).take k)
  let f (o : Nat) : Word := BitVec.ofNat 32 (n o 4)
  let d := n 0 1
  let ws := (List.range 6).map (fun i => f (0x10 + 4 * i))
  let r : FnDesc := { d := d, m := n 1 1, staged := n 2 1 = 1, allot := n 4 2, tpages := n 6 2, tbase := n 8 8, w := ws.take d, r0 := f 0x28,
                      tau := f 0x2C, g := f 0x30 }
  (r, 1 ≤ d && d ≤ 6 && 1 ≤ r.m && r.m ≤ 3 && n 2 1 ≤ 1 && n 3 1 = 0 && 64 ≤ r.allot && r.allot ≤ 2048 && r.allot % 64 = 0 && 1 ≤ r.tpages &&
    r.w.all (atLeast 0 false) && (ws.drop d).all (fun v => v = 0) && atLeast 0 true r.r0 && atLeast 0 false r.tau &&
    atLeast 0x3F800000 false r.g && n 0x34 12 = 0)

/-- TBASE lies in an append-class region, at a page boundary. -/
def tbaseClass (s : State) (die asid : Nat) (d : FnDesc) : Bool :=
  let r := regionOf s die asid d.tbase
  d.tbase < 2 ^ 57 && rfValid r && rfClass r = 1
def tbaseOk (s : State) (die asid : Nat) (d : FnDesc) : Bool := d.tbase % pageSize (regionOf s die asid d.tbase) = 0

/-! ### Slots (R322-R324) -/

/-- A slot just bound, or empty. -/
def FnSlot.bound (d : Option FnDesc) (gen : Nat) : FnSlot :=
  { desc := d, gen := gen, resident := [], page := 0, hits := 0, misses := 0, inserted := 0, superseding := 0, dropped := 0 }

def slotKey (gid k : Nat) : Nat := 16 * gid + k
def slotAt (s : State) (c gid k : Nat) : FnSlot := kGetD (slotKey gid k) (FnSlot.bound none 0) (s.coreAt c).fs
def setSlot (s : State) (c gid k : Nat) (v : FnSlot) : State := s.modCore c (fun x => { x with fs := kPut (slotKey gid k) v x.fs })

/-- Records a slot may hold (R323). -/
def slotLimit (g : Grid) (k : Nat) : Nat := ((g.descs[k]?).map (fun d => d.allot)).getD 0

/-- Allotment of a grid (R323). -/
def allotment (g : Grid) : Nat := (g.descs.map (fun d => d.allot)).foldl (· + ·) 0

/-- The descriptor a slot is bound to once the operations queued on the core are performed. -/
def descAhead (s : State) (t : Team) (k : Nat) : Option FnDesc :=
  (s.coreAt t.core).fsQ.foldl (fun d o => match o.kind with
    | .define n v => if n = k && (s.teamAt o.tid).grid = t.grid then some v else d
    | _ => d) (slotAt s t.core t.grid k).desc

/-- Saturating count (R342). -/
def satAdd (a n : Nat) : Nat := min (a + n) 0xFFFFFFFF

/-! ### Records in tables (R327-R329) -/

/-- The 128 bytes of a record (R328). -/
def recBytes (slot : Nat) (r : FnRec) : List Byte :=
  let ws (l : List Word) (n : Nat) : List Byte := (List.range n).flatMap (fun i => leBytes 4 (l.getD i 0).toNat)
  leBytes 1 slot ++ leBytes 1 (if r.grown then 3 else 1) ++ leBytes 2 0 ++ leBytes 4 r.serial ++ leBytes 4 r.radius.toNat ++
  leBytes 4 r.super ++ ws r.c 6 ++ ws r.y 3 ++ ws r.j 18 ++ leBytes 4 0

/-- The record in 128 bytes, when it is loadable (R329). -/
def recOf (d m serial : Nat) (bs : List Byte) : Option FnRec :=
  let n (o k : Nat) : Nat := leNat ((bs.drop o).take k)
  let ws (o k : Nat) : List Word := (List.range k).map (fun i => BitVec.ofNat 32 (n (o + 4 * i) 4))
  let r : FnRec := { serial := serial, radius := BitVec.ofNat 32 (n 8 4), super := n 12 4, grown := (n 1 1).testBit 1, c := ws 0x10 d,
                     y := ws 0x28 m, j := ws 0x34 (m * d) }
  if n 1 1 % 2 = 1 && n 1 1 < 4 && n 2 2 = 0 && n 0x7C 4 = 0 && n 4 4 = serial && atLeast 0 true r.radius &&
    (r.c ++ r.y ++ r.j).all (fun w => !notFinite w) then some r else none

/-- Bytes that two ranges, each an address and a length, have in common. -/
def common (a n b m : Nat) : Nat := min (a + n) (b + m) - max a b

/-- Some byte of a page cannot be read: it has no memory, its extent is gone, or it is poisoned. -/
def pageGone (s : State) (pa size : Nat) : Bool :=
  common pa size 0 Config.hbmBytes + (s.plat.extents.map (fun e => common pa size e.base e.len)).foldl (· + ·) 0 < size ||
  s.plat.extents.any (fun e => e.st != .present && common pa size e.base e.len != 0) || poisonIn s pa size

/-- Records of a page, in descending serial, added to what was taken (R340); below the page's tail, one that is not loadable is counted (R329). -/
def takeRecords (s : State) (die : Nat) (d : FnDesc) (pa tail first : Nat) : Nat → State × List FnRec → State × List FnRec
  | 0, r => r
  | n + 1, (s', taken) =>
    if d.allot ≤ taken.length then (s', taken)
    else
      let bs := viewBytes s (pa + 128 * n) 128
      let r := match recOf d.d d.m (first + n) bs with
        | none => if tail ≤ 128 * n then (s', taken) else (logAt s' die (.fsUnloadable (first + n)), taken)
        | some r => if taken.any (fun q => q.super = r.serial) then (s', taken) else (s', taken ++ [r])
      takeRecords s die d pa tail first n r

/-- The newest sealed records of a table, from its last page (R340); none where a walk must wait. -/
def loadTable (xl : State → Nat → EngX) (isSealed : State → Nat → Nat → Bool) (die size : Nat) (d : FnDesc) : Nat → State → List FnRec → Option (State × List FnRec)
  | 0, s, taken => some (s, taken)
  | n + 1, s, taken =>
    let va := d.tbase + n * size
    if d.allot ≤ taken.length then some (s, taken)
    else match xl s va with
      | .busy => none
      | .ok s e =>
        if pageGone s e.ppage size then loadTable xl isSealed die size d n (logAt s die (.fsPage va)) taken
        else if isSealed s n e.ppage then
          let tail := ((kGet e.ppage s.pages).map (fun p => p.tail)).getD size
          let r := takeRecords s die d e.ppage tail (n * (size / 128) + 1) (size / 128) (s, taken)
          loadTable xl isSealed die size d n r.1 r.2
        else loadTable xl isSealed die size d n s taken
      | _ => loadTable xl isSealed die size d n (logAt s die (.fsPage va)) taken

/-- Seal state that a load of a slot sees: the snapshot's for a staged slot (R345). -/
def sealSeen (g : Grid) (k : Nat) (staged : Bool) (s : State) (page pa : Nat) : Bool :=
  if staged then g.snapshot.contains (k, page) else (match kGet pa s.pages with
    | some p => p.st = .sealed
    | none => false)

/-- Load a slot of a grid on a core (R324, R340). -/
def loadSlot (s : State) (c gid k : Nat) : Option State :=
  let v := slotAt s c gid k
  match v.desc with
  | none => some s
  | some d =>
    let g := s.gridAt gid
    let size := pageSize (regionOf s (dieOf c) g.asid d.tbase)
    (loadTable (fun s va => coreXlat s c g.asid va accR) (sealSeen g k d.staged) (dieOf c) size d d.tpages s []).map
      (fun r => setSlot r.1 c gid k { slotAt r.1 c gid k with resident := r.2 })

/-- Append a record at the current page or a later one: the page it stands at, and its serial if it was not dropped (R327); none where a
walk or a line must wait. The core that appends it, if one does, sees it from then on (R182, R238). -/
def tableAppend (own : Option Nat) (xl : State → Nat → EngX) (die size k : Nat) (d : FnDesc) (r : FnRec) : Nat → State → Nat → Option (State × Nat × Option Nat)
  | 0, s, page => some (s, page, none)
  | n + 1, s, page =>
    let va := d.tbase + page * size
    let bad (s : State) : Option (State × Nat × Option Nat) := tableAppend own xl die size k d r n (logAt s die (.fsPage va)) (page + 1)
    if d.tpages ≤ page then some (s, page, none)
    else match xl s va with
      | .busy => none
      | .ok s e =>
        if pageGone s e.ppage size then bad s
        else
          let g := pageRec s e.ppage size
          let o := (g.tail + 127) / 128 * 128
          if g.st != .opened then tableAppend own xl die size k d r n s (page + 1)
          else if size < o + 128 then tableAppend own xl die size k d r n (setPageRec s e.ppage { g with tail := o }) (page + 1)
          else
            let serial := (page * size + o) / 128 + 1
            (appendWrite (setPageRec s e.ppage { g with tail := o + 128 }) (e.ppage + o) (recBytes k { r with serial := serial })).map
              (fun s => (own.elim s (fun c => forgetLines s c (e.ppage + o) 128), page, some serial))
      | _ => bad s

/-! ### Insertion (R338, R343, R344) -/

/-- A record of the working set: its place among the records this `fret` staged, if it is one. -/
structure WRec where
  r : FnRec
  staged : Option Nat
  deriving DecidableEq, Repr

/-- The growth candidate: of the candidates the one of least distance, the later in the set on a tie. -/
def growth (d : FnDesc) (x : List Word) (ws : List WRec) : Option WRec :=
  (ws.foldl (fun (b : Option (WRec × XVal)) q =>
    let dist := fnDist d.w x q.r.c
    if XVal.le dist (rneV (XVal.mul (ofF32 d.g) (ofF32 q.r.radius))) && (match b with
      | some p => XVal.le dist p.2
      | none => true) then some (q, dist) else b) none).map (fun p => p.1)

/-- The prediction of a record agrees with y within TAU. -/
def agrees (d : FnDesc) (r : FnRec) (x y : List Word) : Bool :=
  (List.range d.m).all (fun j => XVal.le (rneV (XVal.sub .rne (ofF32 (r.pred x j)) (ofF32 (y.getD j 0)))).absV (ofF32 d.tau))

/-- The new record of a lane and the record it supersedes. -/
def newRecord (d : FnDesc) (x y j : List Word) (ws : List WRec) : FnRec × Option WRec :=
  let fresh : FnRec := { serial := 0, radius := d.r0, super := 0, grown := false, c := x, y := y, j := j }
  match growth d x ws with
  | none => (fresh, none)
  | some q =>
    if agrees d q.r x y then
      let dist := fnDist d.w x q.r.c
      ({ q.r with serial := 0, radius := if XVal.lt (ofF32 q.r.radius) dist then toF32 dist .rne false else q.r.radius,
                  super := q.r.serial, grown := true }, some q)
    else (fresh, none)

/-- A record enters the working set (R338). -/
def enterWorking (allot : Nat) (sup : Option WRec) (n : WRec) (ws : List WRec) : List WRec :=
  let ws := match sup with
    | some q => ws.filter (fun p => p ≠ q)
    | none => ws
  (if allot ≤ ws.length then ws.drop 1 else ws) ++ [n]

/-- Insert by serial, ascending. -/
def insertRec (r : FnRec) : List FnRec → List FnRec
  | [] => [r]
  | q :: l => if q.serial < r.serial then q :: insertRec r l else r :: q :: l

def sortRecs (l : List FnRec) : List FnRec := l.foldl (fun a r => insertRec r a) []

/-- A record enters a resident set (R343). -/
def enterResident (allot : Nat) (r : FnRec) (rs : List FnRec) : List FnRec :=
  let rs := sortRecs (if r.super = 0 then rs else rs.filter (fun q => q.serial ≠ r.super))
  insertRec r (if allot ≤ rs.length then rs.drop 1 else rs)

def countDrop (v : FnSlot) : FnSlot := { v with dropped := satAdd v.dropped 1 }
def countInsert (v : FnSlot) (r : FnRec) : FnSlot :=
  { v with inserted := satAdd v.inserted 1, superseding := satAdd v.superseding (if r.grown then 1 else 0) }

/-- Insert one lane's record; the working set goes on to the next lane. -/
def insertLane (tid k seq : Nat) (d : FnDesc) (p : List Word × List Word × List Word) (st : State × List WRec) : Option (State × List WRec) :=
  let s := st.1
  let t := s.teamAt tid
  let c := t.core
  let v := slotAt s c t.grid k
  if (p.1 ++ p.2.1 ++ p.2.2).any notFinite then some (setSlot s c t.grid k (countDrop v), st.2)
  else
    let n := newRecord d p.1 p.2.1 p.2.2 st.2
    if d.staged then
      let g := s.gridAt t.grid
      let b := (s.blockAt t.block).idx
      let mine := g.staged.filter (fun r => r.block = b && r.team = t.index && r.slot = k)
      if d.allot ≤ mine.length then some (setSlot s c t.grid k (countDrop v), st.2)
      else
        let here := (mine.filter (fun r => r.seq = seq)).length
        let e : StagedRec := { block := b, team := t.index, seq := seq, slot := k, frec := n.1, superStaged := n.2.bind (fun q => q.staged) }
        let s := if g.failed then s else s.setGrid t.grid { g with staged := g.staged ++ [e] }
        some (setSlot s c t.grid k (countInsert v n.1), enterWorking d.allot n.2 { r := n.1, staged := some here } st.2)
    else
      let g := s.gridAt t.grid
      let size := pageSize (regionOf s (dieOf c) g.asid d.tbase)
      (tableAppend (some c) (fun s va => coreXlat s c g.asid va accW) (dieOf c) size k d n.1 (d.tpages + 1) s v.page).map (fun r =>
        let v := { slotAt r.1 c t.grid k with page := r.2.1 }
        match r.2.2 with
        | none => (setSlot r.1 c t.grid k (countDrop v), st.2)
        | some serial =>
          let e := { n.1 with serial := serial }
          (setSlot r.1 c t.grid k { countInsert v e with resident := enterResident d.allot e v.resident },
            enterWorking d.allot n.2 { r := e, staged := none } st.2))

/-! ### Issue of class Y (R333) -/

/-- A group of n vector registers from a code lies within `v87` and the register space. -/
def groupOk (t : Team) (code n : Nat) : Bool := code ≤ 87 && code + n ≤ 88 && t.viewV.toNat + 4 * (code + n) ≤ t.regBytes

/-- The group checks of `fcall` and `fret` come with the checks of the encoding, before the guard. -/
def withGroups (i : Instr) (s : State) (ok : Team → Fields → Bool) (k : Out) : Out :=
  match encOf i with
  | none => k
  | some (f, x) =>
    if streamOk s.curStream i f x && (encodingTrap s.team i f x).isNone && !ok s.team x then trapAll s illegalOperand else k

/-- Nested Call trap (R348). -/
def nestedCall (reason slot : Nat) : Trap := { cause := 0x22, i0 := BitVec.ofNat 32 reason, i1 := BitVec.ofNat 32 slot }

/-- Key of the order of a core's store queue in a log (R375). -/
def fsLogKey (c k : Nat) : Nat := c + 2 ^ 32 * k

/-- An operation reaches the core's store queue: its turn is recorded, or is the log's (R374, R377). -/
def reachStore (s : State) (t : Team) (k : Nat) (kind : FsKind) (flag : Option Nat) (go : State → Team → Out) : Out :=
  let key := fsLogKey t.core k
  withReplay s 2 [(key, 0)] (match decide1 s s.cur [(key, 0)] 2 with
    | none => .next (s.setTeam { t with wait := .replay })
    | some s =>
      let o : FsOp := { id := t.nextOp, tid := s.cur, kind := kind, flag := flag }
      go (s.modCore t.core (fun c => { c with fsQ := c.fsQ ++ [o] })) { t.flagUp flag with nextOp := t.nextOp + 1 })

/-- FSDEF: reads a descriptor and binds it in queue order (R334); in a deterministic launch it traps (R370). -/
def execFsdef (f : Fields) (s : State) : Out :=
  issue (.fsdef f) s (fun t _ x =>
    let va := (srcS64 t x.a.toNat 0).toNat
    let k := x.d.toNat
    let g := s.gridAt t.grid
    if g.det then trapAll s illegalOperand else
    withGather s accR (gather [(0, va, checkGlobal s s.cur va 64 wantRead)]) (fun _ => t.mask) (fun accs =>
      match accs with
      | [] => .next s
      | a :: _ =>
        if t.memQ.any (fun o => !o.performed && !isFmap o && rangesMeet (opRanges s s.cur o) [(none, a.addr, 64)]) then .next s
        else if poisonIn s a.addr 64 && !servedByCopy s t.core (a.addr / 64) then .next (endTeamBad s s.cur 2)
        else match loadLine s t.core (a.addr / 64) a.lease with
          | none => .next s
          | some (s, d) =>
            let r := descOf (lineBytes d)
            if !tbaseClass s (dieOf t.core) g.asid r.1 then trapAll s (addrFault 0x14 r.1.tbase 0)
            else if !r.2 || !tbaseOk s (dieOf t.core) g.asid r.1 || r.1.staged || ((descAhead s t k).map (fun q => q.staged)).getD false ||
              slotLimit g k < r.1.allot then trapAll s illegalOperand
            else reachStore s s.team k (.define k r.1) none (fun s t => finish s t x)))

/-- FCALL: the searches go to the queue, and the team waits for them (R335). -/
def execFcall (f : Fields) (s : State) : Out :=
  withGroups (.fcall f) s (fun t x => match descAhead s t x.b.toNat with
    | some d => groupOk t x.d.toNat d.m && groupOk t x.a.toNat d.d
    | none => true) (issue (.fcall f) s (fun t _ x =>
    let k := x.b.toNat
    if t.call.isSome then trapAll s (nestedCall 1 k)
    else match descAhead s t k with
      | none => trapAll s illegalOperand
      | some d =>
        if t.mask = 0 then finish s t x
        else if Config.stackEntries ≤ t.stack.length then trapAll s (maskStack t 1)
        else
          let args := (laneList t.lanes t.mask).map (fun l => (l, (List.range d.d).map (fun i => t.word (t.vWord (x.a.toNat + i)) l)))
          reachStore s t k (.search k x.d.toNat x.a.toNat d.m (labelOf t x) (t.pc + BitVec.ofNat 64 (lenOf x)) t.mask args) (selFlag t (modOf .y x))
            (fun s t => finish s { t with wait := .store } x)))

/-- FRET: results are written, the lanes' records go to the queue, and the call's lanes go on (R337). -/
def execFret (f : Fields) (s : State) : Out :=
  withGroups (.fret f) s (fun t x => match t.call with
    | none => true
    | some c => match descAhead s t c.slot with
      | some d => groupOk t x.d.toNat d.m && groupOk t x.a.toNat (d.m * d.d)
      | none => true) (issue (.fret f) s (fun t _ x =>
    match t.call, t.stack with
    | none, _ => trapAll s (nestedCall 2 0)
    | some _, [] => trapAll s (maskStack t 2)
    | some c, e :: r =>
      if e.kind ≠ .fnK then trapAll s (maskStack t 2)
      else
        let d := ((descAhead s t c.slot).map (fun q => q.d)).getD 0
        let m := ((descAhead s t c.slot).map (fun q => q.m)).getD 0
        let ws (code n l : Nat) : List Word := (List.range n).map (fun i => t.word (t.vWord (code + i)) l)
        let lanes := (laneList t.lanes t.mask).map (fun l => (ws c.a d l, ws x.d.toNat m l, ws x.a.toNat (m * d) l))
        reachStore s t c.slot (.insert c d m lanes) (selFlag t (modOf .y x)) (fun s t1 =>
          let t2 := (List.range m).foldl (fun u j => u.setWord (u.vWord (c.d + j)) t.mask (fun l => t.word (t.vWord (x.d.toNat + j)) l)) t1
          transfer s { t2 with mask := e.save &&& t.live, stack := r, call := none } e.addr)))

/-- FSLOAD (R340). -/
def execFsload (f : Fields) (s : State) : Out :=
  issue (.fsload f) s (fun t _ x =>
    let k := x.d.toNat
    match descAhead s t k with
    | none => trapAll s illegalOperand
    | some d => if d.staged then trapAll s illegalOperand else reachStore s t k (.load k) (selFlag t (modOf .y x)) (fun s t => finish s t x))

/-- FSDROP (R341). -/
def execFsdrop (f : Fields) (s : State) : Out :=
  issue (.fsdrop f) s (fun t _ x =>
    let k := x.d.toNat
    match descAhead s t k with
    | none => trapAll s illegalOperand
    | some d => if d.staged then trapAll s illegalOperand else reachStore s t k (.drop k) none (fun s t => finish s t x))

/-- FSQRY (R342). -/
def execFsqry (f : Fields) (s : State) : Out :=
  issue (.fsqry f) s (fun t _ x =>
    let k := x.b.toNat
    let w := (immOf x).toNat
    if 6 < w || (w ≠ 6 && (descAhead s t k).isNone) then trapAll s illegalOperand
    else reachStore s t k (.query k w x.d.toNat) (selFlag t (modOf .y x)) (fun s t => finish s t x))

/-! ### FS_QUEUE_PERFORM (R346) -/

/-- The searches of a call are done: hits are written; with no miss the team goes on, else the call opens (R335). -/
def performSearch (s : State) (tid : Nat) (k dst a m : Nat) (target after : DWord) (mask : LaneSet) (args : List (Nat × List Word)) : State :=
  let t := s.teamAt tid
  let v := slotAt s t.core t.grid k
  let w := (v.desc.map (fun d => d.w)).getD []
  let found := args.map (fun p => (p.1, p.2, fnSearch v.resident w p.2))
  let setOf (p : Nat × List Word × Option FnRec → Bool) : LaneSet := laneSetOf t.lanes (fun l => found.any (fun q => q.1 = l && p q))
  let hit := setOf (fun q => q.2.2.isSome)
  let miss := setOf (fun q => q.2.2.isNone)
  let hits := (found.filter (fun q => q.2.2.isSome)).length
  let s := setSlot s t.core t.grid k { v with hits := satAdd v.hits hits, misses := satAdd v.misses (found.length - hits) }
  let val (j l : Nat) : Word := match found.find? (fun q => q.1 = l) with
    | some (_, x, some r) => r.pred x j
    | _ => 0
  let t := (List.range m).foldl (fun u j => u.setWord (u.vWord (dst + j)) hit (val j)) t
  let t := { t with wait := .none, sched := { t.sched with readySince := s.cc } }
  s.setTeamAt tid (if miss = 0 then t
    else
      { t with
        call := some { slot := k, d := dst, a := a, gen := v.gen, core := t.core }
        stack := { kind := .fnK, save := mask, pend := 0, addr := after } :: t.stack
        mask := miss
        pc := target
        clause := none })

/-- Perform an operation of a team whole; none where it must wait. -/
def performFs (s : State) (o : FsOp) : Option State :=
  let t := s.teamAt o.tid
  let c := t.core
  match o.kind with
  | .define k d => some (setSlot s c t.grid k (FnSlot.bound (some d) ((slotAt s c t.grid k).gen + 1)))
  | .search k dst a m target after mask args => some (performSearch s o.tid k dst a m target after mask args)
  | .insert ctx d m lanes =>
    let v := slotAt s c t.grid ctx.slot
    (match v.desc with
     | none => some s
     | some q =>
       if (ctx.core = c && ctx.gen ≠ v.gen) || q.d ≠ d || q.m ≠ m then
         some (setSlot s c t.grid ctx.slot { v with dropped := satAdd v.dropped lanes.length })
       else (lanes.foldl (fun r p => r.bind (fun st => insertLane o.tid ctx.slot o.id q p st))
         (some (s, (sortRecs v.resident).map (fun r => { r := r, staged := none })))).map (fun st => st.1))
  | .load k => loadSlot (setSlot s c t.grid k { slotAt s c t.grid k with resident := [] }) c t.grid k
  | .drop k => some (setSlot s c t.grid k { slotAt s c t.grid k with resident := [] })
  | .query k w dst =>
    let v := slotAt s c t.grid k
    let n : Nat := match w, v.desc with
      | 0, _ => v.resident.length
      | 1, _ => v.hits
      | 2, _ => v.misses
      | 3, _ => v.inserted
      | 4, _ => v.superseding
      | 5, _ => v.dropped
      | _, some d => d.d + 16 * d.m + (if d.staged then 256 else 0) + 512 + 65536 * (v.gen % 65536)
      | _, none => 0
    some (s.modTeam o.tid (fun t => t.setSdst dst (BitVec.ofNat 32 n)))

/-- A search, which only its team waits for. -/
def isSearch (o : FsOp) : Bool := match o.kind with
  | .search _ _ _ _ _ _ _ _ => true
  | _ => false

/-- A grid that has failed keeps no staged record (R344). -/
def dropStaged (s : State) (gid : Nat) : State := if (s.gridAt gid).failed then s.modGrid gid (fun g => { g with staged := [] }) else s

/-- FS_QUEUE_PERFORM: the head operation of a core's store queue (R333, R346). Of a team that its grid's failure has ended only a search is given up: its
records are inserted or counted as drops (R337). -/
def execFsQueuePerform (s : State) : Out :=
  let c := s.ev.x
  match (s.coreAt c).fsQ with
  | [] => .next s
  | o :: _ =>
    let pop (s : State) : State := s.modCore c (fun k => { k with fsQ := k.fsQ.drop 1 })
    if isSearch o && (s.teamAt o.tid).status = .ended && (s.gridAt (s.teamAt o.tid).grid).failed then .next ((pop s).modTeam o.tid (fun t => t.flagDown o.flag))
    else if heldByFenceq s o.tid 4 o.id then .next s
    else match performFs s o with
      | none => .next s
      | some s' => .next ((pop (dropStaged s' (s'.teamAt o.tid).grid)).modTeam o.tid (fun t => t.flagDown o.flag))

/-! ### STAGED_RECORD_APPEND (R344) -/

/-- Ticket order of staged records; those of one `fret` keep the order they were staged in. -/
def stagedBefore (a b : StagedRec) : Bool :=
  a.block < b.block || (a.block = b.block && (a.team < b.team || (a.team = b.team && a.seq ≤ b.seq)))

def insertStaged (r : StagedRec) : List StagedRec → List StagedRec
  | [] => [r]
  | q :: l => if stagedBefore q r then q :: insertStaged r l else r :: q :: l

/-- A translation of the command processor, by a die's walkers (their requests come with the channel's event, log entry 82); it may end in host memory (R239). -/
def cpXlat (s : State) (die asid va acc : Nat) : EngX :=
  match walkIn true s die asid va acc with
  | .ok s e => .ok s e
  | .bad k l => .bad k l
  | .noMem p => .noMem p
  | .busy => .busy

/-- What the appends made so far carry on: the slots' pages, the serials of each fret's records, the frames written. -/
structure AppendSt where
  s : State
  pages : KMap Nat
  serials : List (Nat × Nat × Nat × Nat × Option Nat)
  frames : List (Nat × Nat)

/-- Append one staged record. -/
def appendStaged (gid die : Nat) (a : AppendSt) (r : StagedRec) : Option AppendSt :=
  let g := a.s.gridAt gid
  match g.descs[r.slot]? with
  | none => some a
  | some d =>
    let size := pageSize (regionOf a.s die g.asid d.tbase)
    let same := a.serials.filter (fun q => q.1 = r.block && q.2.1 = r.team && q.2.2.1 = r.seq && q.2.2.2.1 = r.slot)
    let sup := match r.superStaged with
      | some i => ((same[i]?).bind (fun q => q.2.2.2.2)).getD 0
      | none => r.frec.super
    (tableAppend none (fun s va => cpXlat s die g.asid va accW) die size r.slot d { r.frec with super := sup } (d.tpages + 1) a.s (kGetD r.slot 0 a.pages)).map
      (fun q =>
        let pa := match q.2.2 with
          | none => none
          | some _ => match cpXlat q.1 die g.asid (d.tbase + q.2.1 * size) accW with
            | .ok _ e => some e.ppage
            | _ => none
        { s := q.1, pages := kPut r.slot q.2.1 a.pages, serials := a.serials ++ [(r.block, r.team, r.seq, r.slot, q.2.2)],
          frames := match pa with
            | some p => if a.frames.contains (p, size) then a.frames else a.frames ++ [(p, size)]
            | none => a.frames })

/-- STAGED_RECORD_APPEND: the ticket unit appends the records of a grid that has wholly retired, after the release of every phase of a deterministic one,
and their pages are sealed (R344, R373). -/
def execStagedRecordAppend (s : State) : Out :=
  let gid := s.ev.x
  let g := s.gridAt gid
  let held := g.det && s.blocks.any (fun p => p.2.grid = gid && p.2.relPhase ≤ p.2.phase)
  if g.ended || g.retired < g.blocks || g.staged = [] || g.failed || held then .next s
  else
    let die := g.tailDie
    match (g.staged.foldl (fun l r => insertStaged r l) []).foldl (fun o r => o.bind (fun a => appendStaged gid die a r))
        (some { s := s, pages := [], serials := [], frames := [] }) with
    | none => .next s
    | some a =>
      if a.frames.any (fun p => (pageRec a.s p.1 p.2).pending ≠ 0) then .next s
      else
        let s := a.frames.foldl (fun s p => sealNow s p.1 (pageRec s p.1 p.2)) a.s
        .next (s.modGrid gid (fun g => { g with staged := [] }))

end Sys2Proof.Machine
end

