-- ==== Sys2Proof/Machine/MatrixArray.lean ====
section
/-! DEFINITION. What the matrix array computes (18_matrix.md R294-R299, R303, R305, R309-R315; 05_numbers.md R102-R109): one step of a loop, the
drains, and the save area. -/

namespace Sys2Proof.Machine

/-! ### Elements and scales (R297, R298, R102-R105) -/

/-- Bits of an element format. -/
def elemBits (f : ElemFmt) : Nat :=
  if f.code < 4 then nfBits f.nf else if f.code ≤ 5 then 8 else if f.code ≤ 7 then 4 else 1

/-- Value of an element code by the finite readings (R298, R105). -/
def elemVal (f : ElemFmt) (c : Nat) : XVal :=
  let signed (n : Nat) : XVal := XVal.ofInt (if c < 2 ^ (n - 1) then (c : Int) else (c : Int) - 2 ^ n)
  if f.code < 4 then widen (nfFmtFinite f.nf) c
  else if f.code = 4 then signed 8
  else if f.code = 6 then signed 4
  else XVal.ofInt c

/-- A code that sets a flag (R309); integer formats have none. -/
def elemSpecial (f : ElemFmt) (c : Nat) : Bool := f.code < 4 && isSpecial (nfFmt f.nf) c

/-- Code of line i at k within a step whose planes are the bits of a number (R297). -/
def planeCode (planes p k i : Nat) : Nat :=
  (List.range p).foldl (fun a t => if planes.testBit (256 * (p * k + t) + i) then a + 2 ^ t else a) 0

/-- Scale byte of a line for a block index; 0x80 is the value 1 where no scales are used. -/
def scaleAt (sc : Option (KMap Byte)) (b i : Nat) : Byte :=
  match sc with
  | none => 0x80
  | some m => kGetD (256 * b + i) 0 m

/-- Scaled value of an element (R105). -/
def scaled (f : ElemFmt) (c : Nat) (sc : Byte) : XVal := XVal.mul (elemVal f c) (scaleVal sc)

/-! ### One step (R305, R309) -/

/-- The 32 scaled values of a line in a step that begins at kk; `bsel` is added to the block index. -/
def lineVals (f : ElemFmt) (planes : Nat) (sc : Option (KMap Byte)) (len bsel kk i : Nat) : List XVal :=
  let p := elemBits f
  (List.range 32).map (fun k => scaled f (planeCode planes p k i) (scaleAt sc (bsel + (kk + k) / len) i))

/-- A line of a step is flagged: a special code, or a scale byte 0xFF it uses. -/
def lineFlag (f : ElemFmt) (planes : Nat) (sc : Option (KMap Byte)) (len bsel kk i : Nat) : Bool :=
  let p := elemBits f
  (List.range 32).any (fun k =>
    elemSpecial f (planeCode planes p k i) || (sc.isSome && scaleAt sc (bsel + (kk + k) / len) i = 0xFF))

/-- An accumulator after the products of a step, in ascending k, each rounded into ACC40 (R109). -/
def accAfter (a : BitVec 40) (xs ys : List XVal) : BitVec 40 :=
  (xs.zip ys).foldl (fun a p => BitVec.ofNat 40 (narrow acc40 (XVal.add .rne (widen acc40 a.toNat) (XVal.mul p.1 p.2)) .rne false)) a

/-- Cells of one array row. -/
def accRow (acc : KMap (BitVec 40)) (i : Nat) : KMap (BitVec 40) := acc.filter (fun p => 256 * i ≤ p.1 && p.1 < 256 * (i + 1))

/-- Block lengths of a LEN code (R299). -/
def blockLen (c : Nat) : Nat := 16 * 2 ^ c

/-- A set of 256 lines. -/
def lineSet (f : Nat → Bool) : BitVec 256 := BitVec.ofNat 256 ((List.range 256).foldl (fun a i => if f i then a + 2 ^ i else a) 0)

/-- One step of a loop over its planes: A's bits, and for each group its rows, B selector offset and B's bits. -/
def matStep (m : Matrix) (fa fb : ElemFmt) (la lb : Nat) (red : Bool) (kk : Nat) (scaA scaB : Option (KMap Byte)) (pa : Nat)
    (gs : List (MGroup × Nat)) : Matrix :=
  let rows := if red then 128 else 256
  let groupOf (r : Nat) : Option Nat := gs.findIdx? (fun g => g.1.first ≤ r && r < g.1.first + g.1.count)
  let bvals := gs.map (fun g => (List.range 256).map (fun j => lineVals fb g.2 scaB lb g.1.bsel kk j))
  let row (i : Nat) : KMap (BitVec 40) :=
    let old := accRow m.acc i
    match groupOf (i % rows) with
    | none => old
    | some g =>
      let av := lineVals fa pa scaA la 0 kk (i % rows)
      ((bvals.getD g []).zipIdx).filterMap (fun q =>
        let v := accAfter (kGetD (256 * i + q.2) 0 old) av q.1
        if v = 0 then none else some (256 * i + q.2, v))
  let used (i : Nat) : Bool := (groupOf (i % rows)).isSome
  { m with
    acc := (List.range 256).flatMap row
    rowFlag := m.rowFlag ||| lineSet (fun i => used i && lineFlag fa pa scaA la 0 kk (i % rows))
    colFlag := m.colFlag ||| lineSet (fun j => gs.any (fun g => lineFlag fb g.2 scaB lb g.1.bsel kk j)) }

/-! ### Drains (R310, R311) -/

/-- Bytes of a drained element. -/
def drainBytes (ty : Nat) : Nat := if ty = 0 then 4 else if ty ≤ 2 then 2 else if ty = 3 then 1 else 8

/-- Format of a drain type. -/
def drainFmt (ty : Nat) (nf : Word) : Fmt := if ty = 0 then fp32 else if ty = 1 then fp16 else if ty = 2 then bf16 else nfFmt nf

/-- Element (i, j) as a drain writes it (R311). -/
def drainElem (m : Matrix) (ty : Nat) (nf : Word) (mode : Nat) (sat : Bool) (i j : Nat) : Nat :=
  let a := (kGetD (256 * i + j) 0 m.acc).toNat
  if m.rowFlag.getLsbD i || m.colFlag.getLsbD j then
    (if ty = 4 then 0x7FC0000000 else ((drainFmt ty nf).nan).getD 0)
  else if ty = 4 then a
  else narrow (drainFmt ty nf) (widen acc40 a) (RMode.ofCode mode) sat

/-- First element, in drain order, that differs from its copy (R310). -/
def mismatch (m : Matrix) (cells : List (Nat × Nat)) : Option (Nat × Nat) :=
  if !m.rm then none
  else cells.find? (fun p => kGetD (256 * p.1 + p.2) 0 m.acc != kGetD (256 * (p.1 + 128) + p.2) 0 m.acc)

/-- The trap a mismatch leaves (R310). -/
def mismatchTrap (m : Matrix) (p : Nat × Nat) : PendTrap :=
  { cause := 0x21, i0 := m.last.extractLsb' 0 32, i1 := m.last.extractLsb' 32 32, i2 := BitVec.ofNat 32 p.1, i3 := BitVec.ofNat 32 p.2, strm := false }

/-- Cells of a rectangle in drain order. -/
def rectCells (row0 nr col0 nc : Nat) : List (Nat × Nat) :=
  (List.range nr).flatMap (fun i => (List.range nc).map (fun j => (row0 + i, col0 + j)))

/-- Position of a cell in the stash (R312). -/
def drainPos (ty off stride row0 col0 : Nat) (tr : Bool) (p : Nat × Nat) : Nat :=
  let e := drainBytes ty
  off + (if tr then (p.2 - col0) * stride + (p.1 - row0) * e else (p.1 - row0) * stride + (p.2 - col0) * e)

/-! ### The save area (R314, R315) -/

def saveAreaBytes : Nat := 524544

/-- The matrix state as its save area. -/
def matImage (m : Matrix) : List Byte :=
  (List.range 256).flatMap (fun i => let r := accRow m.acc i; (List.range 256).flatMap (fun j => leBytes 8 (kGetD (256 * i + j) 0 r).toNat)) ++
  leBytes 32 m.rowFlag.toNat ++ leBytes 32 m.colFlag.toNat ++
  leBytes 4 ((if m.rm then 1 else 0) + (if m.fresh then 2 else 0)) ++ leBytes 4 0 ++ leBytes 8 m.last.toNat ++ List.replicate 176 0

/-- Accumulators of the rest of a save area's cells, from an index on. -/
def cellsOf : Nat → Nat → List Byte → KMap (BitVec 40)
  | 0, _, _ => []
  | n + 1, k, bs =>
    let v : BitVec 40 := BitVec.ofNat 40 (leNat (bs.take 5))
    if v = 0 then cellsOf n (k + 1) (bs.drop 8) else (k, v) :: cellsOf n (k + 1) (bs.drop 8)

/-- The matrix state of a save area; reserved fields are ignored (R315). -/
def matOfImage (bs : List Byte) : Matrix :=
  let r := bs.drop 524288
  let mode := leNat ((r.drop 64).take 4)
  { acc := cellsOf 65536 0 bs, rowFlag := BitVec.ofNat 256 (leNat (r.take 32)), colFlag := BitVec.ofNat 256 (leNat ((r.drop 32).take 32)),
    rm := mode.testBit 0, fresh := mode.testBit 1, last := BitVec.ofNat 64 (leNat ((r.drop 72).take 8)) }

/-- A word of the matrix state (R316). -/
def matWord (m : Matrix) (w : Nat) : Word :=
  if w < 8 then m.rowFlag.extractLsb' (32 * w) 32
  else if w < 16 then m.colFlag.extractLsb' (32 * (w - 8)) 32
  else BitVec.ofNat 32 ((if m.rm then 1 else 0) + (if m.fresh then 2 else 0) + (if m.rowFlag = 0 then 0 else 4) + (if m.colFlag = 0 then 0 else 8))

end Sys2Proof.Machine
end

