-- ==== Sys2Proof/Machine/Matrix.lean ====
section
/-! DEFINITION. Class A (18_matrix.md): the checks and effects of each instruction at issue, and the events of the matrix queue. -/

namespace Sys2Proof.Machine

/-! ### The holder and the issue-order view (R295, R303, R305) -/

/-- Matrix state as the team's next class A instruction finds it: cleared where the team is yet to become the holder. -/
def matOf (s : State) (t : Team) : Matrix :=
  let p := s.partAt t.partNo
  if p.holder = some s.cur then p.mat else Matrix.cleared

/-- RM and FRESH once the queued operations are performed; none while an `mrest` is queued. -/
def modeAhead (m : Matrix) : List MatOp → Option (Bool × Bool)
  | [] => some (m.rm, m.fresh)
  | o :: r =>
    match o.kind with
    | .zero => modeAhead { m with rm := false, fresh := true } r
    | .loop _ _ _ _ red _ _ _ _ _ _ _ _ => modeAhead (if m.fresh then { m with rm := red, fresh := false } else m) r
    | .rest _ _ => none
    | _ => modeAhead m r

/-- The team holds the matrix state from here on: it is cleared when the team takes it (R295). -/
def acquireMat (s : State) (t : Team) : State :=
  let p := s.partAt t.partNo
  if p.holder = some s.cur then s else s.setPart t.partNo { p with holder := some s.cur, mat := Matrix.cleared }

/-- What stands before a class A instruction's own checks: a team of 256 lanes or more (R296), and the wait while another team holds (R295). -/
def matrixIssue (i : Instr) (s : State) (k : Team → Fields → Out) : Out :=
  issue i s (fun t _ x =>
    if t.lanes < 256 then trapAll s illegalInstruction
    else
      match (s.partAt t.partNo).holder with
      | some h => if h = s.cur then k t x else .next s
      | none => k t x)

/-- The operation enters the matrix queue and counts on its flag (R318). -/
def enqueueMat (s : State) (t : Team) (x : Fields) (k : MatKind) : Out :=
  let flag := selFlag t (modOf .a x)
  finish (acquireMat s t) { t.flagUp flag with matQ := t.matQ ++ [{ id := t.nextOp, kind := k, flag := flag, phase := teamPhase s s.cur }], nextOp := t.nextOp + 1, usedMat := true } x

/-- MZERO (R303). -/
def execMzero (f : Fields) (s : State) : Out := matrixIssue (.mzero f) s (fun t x => enqueueMat s t x .zero)

/-! ### The format block and its checks (R299-R306) -/

/-- A format block. -/
structure FBlock where
  fa : Nat
  fb : Nat
  len : Nat
  flags : Nat
  sba : Nat
  sbb : Nat
  sela : Nat
  selb : Nat
  offA : Nat
  offB : Nat
  key : Nat
  rest : Nat
  deriving DecidableEq, Repr

def FBlock.red (b : FBlock) : Bool := b.flags.testBit 0
def FBlock.sca (b : FBlock) : Bool := b.flags.testBit 1
def FBlock.scb (b : FBlock) : Bool := b.flags.testBit 2
def FBlock.la (b : FBlock) : Nat := blockLen (b.len % 4)
def FBlock.lb (b : FBlock) : Nat := blockLen (b.len / 4 % 4)

def fblockOf (bs : List Byte) : FBlock :=
  let n (o k : Nat) : Nat := leNat ((bs.drop o).take k)
  { fa := n 0 1, fb := n 1 1, len := n 2 1, flags := n 3 1, sba := n 4 1, sbb := n 5 1, sela := n 6 1, selb := n 7 1, offA := n 8 4,
    offB := n 12 4, key := n 16 1, rest := n 17 15 }

/-- The block is valid, but for its key (R300); a plane offset that R299 forbids is invalid too (log entry 96). -/
def FBlock.ok (b : FBlock) : Bool :=
  b.fa ≤ 8 && b.fb ≤ 8 && b.len < 16 && b.flags < 8 && (!b.sca || b.sba ≤ 87) && (!b.scb || b.sbb ≤ 87) && b.offA % 32 = 0 &&
  b.offB % 32 = 0 && b.key / 4 % 32 = 0 && b.rest = 0

/-- The element format that a code names (R298). -/
def elemFmt (t : Team) (code : Nat) : ElemFmt := { code := code, nf := if code < 4 then t.nf code else 0 }

/-- The format register that a code names is set (R93). -/
def elemSet (t : Team) (code : Nat) : Bool := 4 ≤ code || nfValid (t.nf code)

/-- The highest scale register of a loop stands within `v87` and within the register space (R104). -/
def scaleOk (t : Team) (base sel last : Nat) : Bool :=
  let r := base + (sel + last) / 4
  r ≤ 87 && t.viewV.toNat + 4 * r + 4 ≤ t.regBytes

/-- Scale bytes of `lines` lines for the block indexes up to `last`, at 256 b + line (R103). -/
def scaleRead (t : Team) (base sel last lines : Nat) : KMap Byte :=
  (List.range (last + 1)).flatMap (fun b => (List.range lines).map (fun i =>
    (256 * b + i, BitVec.ofNat 8 ((t.word (t.vWord (base + (sel + b) / 4)) i).toNat >>> (8 * ((sel + b) % 4))))))

/-- A range of n stash bytes that a loop reads. -/
def rangeTrap (s : State) (t : Team) (a n : Nat) : Option Trap :=
  if a / 2 ^ 22 ≠ 0 || stashLimit s t < a + n then some { cause := 0x10, i0 := loWord a, i3 := 1 } else none

/-- The Extent Lost fault of n stash bytes that issue reads, at the range's first byte (R306, R364). -/
def goneTrap (s : State) (t : Team) (a n : Nat) : Option Trap :=
  if fillLost s t.block a n then some { cause := 0x13, i0 := loWord a } else none

/-- Check 9: the named binding holds a record whose key is granted (R300). -/
def keyTrap (s : State) (t : Team) (f : Nat) (b : FBlock) : Option Trap :=
  if !b.key.testBit 7 then none
  else match kGet (b.key % 4) t.binds with
    | none => some { cause := 0x18, i0 := loWord f, i3 := 3 }
    | some r => if keyGranted s t r.key then none else some { cause := 0x18, i0 := loWord f, i3 := 2 }

/-- First trap of a list of checks. -/
def firstTrap (l : List (Option Trap)) : Option Trap := l.findSome? id

/-- Checks 4 to 7 of R306; `selB` is the highest B selector offset. -/
def blockTrap (t : Team) (ctl : Word) (b : FBlock) (steps selB : Nat) (mode : Bool × Bool) : Option Trap :=
  let k := 32 * steps - 1
  if bitsOf ctl 31 28 ≠ 0 || !b.ok then some illegalOperand
  else if !elemSet t b.fa || !elemSet t b.fb then some illegalOperand
  else if (b.sca && !scaleOk t b.sba b.sela (k / b.la)) || (b.scb && !scaleOk t b.sbb b.selb (selB + k / b.lb)) then some illegalOperand
  else if !mode.2 && b.red != mode.1 then some illegalOperand
  else none

/-- The format block after write-back: offsets and selectors advanced (R304, R305). -/
def writeBack (s : State) (t : Team) (f : Nat) (b : FBlock) (inc ctl : Word) : Option State :=
  (stashStore s t.block (f + 8) (leBytes 4 ((b.offA + 32 * bitsOf inc 15 0) % 2 ^ 32) ++ leBytes 4 ((b.offB + 32 * bitsOf inc 31 16) % 2 ^ 32))).bind
    (fun s => stashStore s t.block (f + 6) (leBytes 1 ((b.sela + bitsOf ctl 19 12) % 256) ++ leBytes 1 ((b.selb + bitsOf ctl 27 20) % 256)))

/-- A loop that has passed its checks: scales read, block written back, the operation queued (R305). -/
def startLoop (s : State) (t : Team) (x : Fields) (f : Nat) (b : FBlock) (inc ctl : Word) (groups : List MGroup) : Out :=
  let steps := bitsOf ctl 11 0 + 1
  let k := 32 * steps - 1
  let last := groups.foldl (fun a g => if g.count = 0 then a else max a (g.bsel + k / b.lb)) 0
  match writeBack s t f b inc ctl with
  | none => .next s
  | some s' =>
    enqueueMat s' t x (.loop (elemFmt t b.fa) (elemFmt t b.fb) b.la b.lb b.red b.offA b.offB steps 0
      (if b.sca then some (scaleRead t b.sba b.sela (k / b.la) (if b.red then 128 else 256)) else none)
      (if b.scb then some (scaleRead t b.sbb b.selb last 256) else none) groups (selfPc t))

/-- The parts of a loop's issue that `mloop` and `mgrp` share: checks 2 and 3, then the block and the rest. The block is read and written back
only once a `fenceq` that names the matrix queue has been joined (R197, R319). -/
def withBlock (s : State) (t : Team) (f : Nat) (k : State → FBlock → Bool × Bool → Out) : Out :=
  if f % 32 ≠ 0 then trapAll s { cause := 0x11, i0 := loWord f }
  else match rangeTrap s t f 32 with
    | some tr => trapAll s tr
    | none =>
      if heldByFenceq s s.cur 2 t.nextOp then .next s
      else match goneTrap s t f 32 with
      | some tr => trapAll s tr
      | none =>
      if fillBad s t.block f 32 then .next (endTeamBad s s.cur 2)
      else match modeAhead (matOf s t) t.matQ, classLoad s 1 t.block f 32 with
      | some mode, some (s, bs) => k s (fblockOf bs) mode
      | _, _ => .next s

/-- MLOOP (R305, R306). -/
def execMloop (f : Fields) (s : State) : Out :=
  matrixIssue (.mloop f) s (fun t x =>
    let fo := (srcS t x.a.toNat 0).toNat
    let ctl := immOf x
    let steps := bitsOf ctl 11 0 + 1
    withBlock s t fo (fun s b mode =>
      match firstTrap [blockTrap t ctl b steps 0 mode,
          rangeTrap s t b.offA (1024 * elemBits (elemFmt t b.fa) * steps), rangeTrap s t b.offB (1024 * elemBits (elemFmt t b.fb) * steps),
          keyTrap s t fo b] with
      | some tr => trapAll s tr
      | none => startLoop s t x fo b (srcS t x.b.toNat 0) ctl [{ first := 0, count := if b.red then 128 else 256, boff := 0, bsel := 0 }]))

/-! ### Grouped loops (R307, R308) -/

/-- Groups of a table: rows and offset of each. -/
def tableGroups (bs : List Byte) (g : Nat) : List (Nat × Nat) :=
  (List.range g).map (fun i => (leNat ((bs.drop (8 + 8 * i)).take 2), leNat ((bs.drop (12 + 8 * i)).take 4)))

/-- Reserved bytes of a table. -/
def tableReserved (bs : List Byte) (g : Nat) : Bool :=
  leNat ((bs.drop 2).take 6) = 0 && (List.range g).all (fun i => leNat ((bs.drop (10 + 8 * i)).take 2) = 0)

/-- Row groups with their starts and B selectors; `step` is what the selector moves by for each index. -/
def rowGroups (step : Nat) : Nat → Nat → List (Nat × Nat) → List MGroup
  | _, _, [] => []
  | i, first, (n, o) :: r => { first := first, count := n, boff := o, bsel := i * step } :: rowGroups step (i + 1) (first + n) r

/-- The first group whose running sum exceeds the rows of the array: its index and the sum. -/
def groupOverflow (cap : Nat) : Nat → Nat → List (Nat × Nat) → Option (Nat × Nat)
  | _, _, [] => none
  | i, sum, (n, _) :: r => if cap < sum + n then some (i, sum + n) else groupOverflow cap (i + 1) (sum + n) r

/-- Why n bytes of a group table cannot be read: out of the stash, or in an extent that is gone. -/
def tablePartTrap (s : State) (t : Team) (a n : Nat) : Option Trap := firstTrap [rangeTrap s t a n, goneTrap s t a n]

/-- What issue learns from a group table: the trap of its checks, its groups as far as they could be read, and that it is poisoned (R177, R308). -/
structure GTable where
  tr : Option Trap := none
  groups : List (Nat × Nat) := []
  bad : Bool := false
  deriving DecidableEq, Repr

/-- A group table as issue reads it. -/
def readTable (s : State) (t : Team) (at_ cap : Nat) : Option (State × GTable) :=
  if at_ % 8 ≠ 0 then some (s, { tr := some { cause := 0x11, i0 := loWord at_ } })
  else match tablePartTrap s t at_ 8 with
    | some tr => some (s, { tr := some tr })
    | none =>
      if fillBad s t.block at_ 8 then some (s, { bad := true })
      else (classLoad s 1 t.block at_ 8).bind (fun r =>
      let g := leNat (r.2.take 2)
      if g = 0 || 64 < g then some (r.1, { tr := some illegalOperand })
      else match tablePartTrap r.1 t at_ (8 + 8 * g) with
        | some tr => some (r.1, { tr := some tr })
        | none =>
          if fillBad r.1 t.block at_ (8 + 8 * g) then some (r.1, { bad := true })
          else (classLoad r.1 1 t.block at_ (8 + 8 * g)).map (fun q =>
          let gs := tableGroups q.2 g
          if !tableReserved q.2 g || gs.any (fun p => 256 < p.1 || p.2 % 32 ≠ 0) then (q.1, { tr := some illegalOperand, groups := gs })
          else match groupOverflow cap 0 0 gs with
            | some (i, n) => (q.1, { tr := some { cause := 0x20, i0 := BitVec.ofNat 32 i, i1 := BitVec.ofNat 32 n }, groups := gs })
            | none => (q.1, { groups := gs })))

/-- MGRP (R306-R308). Checks 6 and 8 take the B operands that the table names as far as it could be read; a poisoned table is found after the checks
(R177). -/
def execMgrp (f : Fields) (s : State) : Out :=
  matrixIssue (.mgrp f) s (fun t x =>
    let fo := (srcS t x.a.toNat 0).toNat
    let ctl := immOf x
    let steps := bitsOf ctl 11 0 + 1
    withBlock s t fo (fun s b mode =>
      match readTable s t (srcS t x.d.toNat ctl).toNat (if b.red then 128 else 256) with
      | none => .next s
      | some (s, table) =>
        let groups := rowGroups (32 * steps / b.lb) 0 0 table.groups
        let used := groups.filter (fun g => g.count ≠ 0)
        let selB := used.foldl (fun a g => max a g.bsel) 0
        let rangesB := used.map (fun g => rangeTrap s t (b.offB + g.boff) (1024 * elemBits (elemFmt t b.fb) * steps))
        let b' := if used = [] then { b with flags := b.flags % 4 } else b
        match firstTrap ((if b.ok then blockTrap t ctl b' steps selB mode else some illegalOperand) ::
            rangeTrap s t b.offA (1024 * elemBits (elemFmt t b.fa) * steps) :: rangesB ++ [keyTrap s t fo b, table.tr]) with
        | some tr => trapAll s tr
        | none =>
          if table.bad then .next (endTeamBad s s.cur 2)
          else startLoop s t x fo b (srcS t x.b.toNat 0) ctl groups))

/-! ### Drains (R310-R313) -/

/-- Rows a drain may name. -/
def drainRows (rm : Bool) : Nat := if rm then 128 else 256

/-- Rounding mode code at issue (R311). -/
def drainMode (t : Team) (m : Word) : Nat := if mRndCode m = 7 then bitsOf t.fmode 2 0 else mRndCode m

/-- A drain type that goes through a format register needs it set (R93). -/
def drainTypeOk (t : Team) (ty : Nat) (m : Word) : Bool := ty ≠ 3 || nfValid (t.nf (mNfs m))

/-- MDRAIN_S: a rectangle into the stash (R312). -/
def execMdrainS (f : Fields) (s : State) : Out :=
  matrixIssue (.mdrainS f) s (fun t x =>
    match modeAhead (matOf s t) t.matQ with
    | none => .next s
    | some mode =>
      let m := modOf .a x
      let ty := x.d.toNat
      let e := drainBytes ty
      let q (i : Nat) : Nat := (t.sreg (x.a.toNat + i)).toNat
      let off := q 0
      let stride := q 1
      let row0 := q 2 % 256
      let nr := q 2 / 256 % 256 + 1
      let col0 := q 2 / 65536 % 256
      let nc := q 2 / 16777216 + 1
      let tr := (q 3).testBit 0
      if 2 ≤ q 3 || drainRows mode.1 < row0 + nr || 256 < col0 + nc || stride % e ≠ 0 || !drainTypeOk t ty m then trapAll s illegalOperand
      else if off % e ≠ 0 then trapAll s { cause := 0x11, i0 := loWord off }
      else
        match (rectCells row0 nr col0 nc).findSome? (fun p => rangeTrap s t (drainPos ty off stride row0 col0 tr p) e) with
        | some r => trapAll s r
        | none => enqueueMat s t x (.drainS ty (t.nf (mNfs m)) (drainMode t m) (mSat m) off stride row0 nr col0 nc tr))

/-- MDRAIN_A: columns into the accumulator view of the active lanes (R313). -/
def execMdrainA (f : Fields) (s : State) : Out :=
  matrixIssue (.mdrainA f) s (fun t x =>
    match modeAhead (matOf s t) t.matQ with
    | none => .next s
    | some _ =>
      let m := modOf .a x
      let ty := x.b.toNat
      let w := (srcS t x.a.toNat (immOf x)).toNat
      let col0 := w % 256
      let nc := w / 256 % 64 + 1
      let top := x.d.toNat + nc - 1
      if w / 16384 ≠ 0 || 256 < col0 + nc || 127 < top || !regOk t .acc top || !drainTypeOk t ty m then trapAll s illegalOperand
      else enqueueMat s t x (.drainA ty (t.nf (mNfs m)) (drainMode t m) (mSat m) x.d.toNat t.mask col0 nc))

/-! ### Save, restore, query (R314-R316) -/

/-- First unit of an encrypted page of the area whose key check fails (R215). -/
def areaKey (s : State) (t : Team) (e : TlbEntry) (va n : Nat) : Option Trap :=
  if e.mclass ≠ 2 then none
  else (List.range ((n + 63) / 64)).findSome? (fun i => (keyReason s t (va + 64 * i)).map (addrFault 0x18 (va + 64 * i)))

/-- An address in each 4 KiB of n bytes, since extents end on such bounds within larger pages (R364). -/
def pageStarts (va n : Nat) : List Nat := (List.range ((n + 4095) / 4096 + 1)).map (fun i => min (va + 4096 * i) (va + n - 1))

/-- The checks of one address of the area; the queue reads and writes the lines themselves, so no copy of the core serves it (R175, R364). -/
def areaCheck (s : State) (a : Nat) (w : Want) : Chk :=
  match checkGlobal s s.cur a 1 w with
  | .ok b pa l c => if extentGone s pa then .bad 4 (addrFault 0x13 a 0) else .ok b pa l c
  | c => c

/-- Issue of `msave` and `mrest`: alignment, then every page of the area translated and checked; the translations stay with the operation. -/
def areaOp (i : Instr) (s : State) (w : Want) (k : Nat → List TlbEntry → MatKind) : Out :=
  matrixIssue i s (fun t x =>
    let va := (srcS64 t x.a.toNat 0).toNat
    if va % 256 ≠ 0 then trapAll s (addrFault 0x11 va 0)
    else
      let ps := (pagesOf s t va saveAreaBytes).map (fun p => (p.1 % 2 ^ 64, p.2))
      withGather s w.bits (gather (ps.flatMap (fun p => (pageStarts p.1 p.2).map (fun a => (0, a, areaCheck s a w))))) (fun _ => t.mask) (fun _ =>
        let xs := ps.filterMap (fun p => match translate s s.cur p.1 w.bits with
          | .ok _ e => some (e, p)
          | _ => none)
        match xs.findSome? (fun r => areaKey s t r.1 r.2.1 r.2.2) with
        | some tr => trapAll s tr
        | none => enqueueMat s t x (k va (xs.map (fun r => r.1)))))

/-- MSAVE (R315). -/
def execMsave (f : Fields) (s : State) : Out := areaOp (.msave f) s wantWrite .save

/-- MREST (R315). -/
def execMrest (f : Fields) (s : State) : Out := areaOp (.mrest f) s wantRead .rest

/-- MSTAT (R316). -/
def execMstat (f : Fields) (s : State) : Out :=
  matrixIssue (.mstat f) s (fun t x =>
    let w := (srcS t x.a.toNat (immOf x)).toNat
    if 16 < w then trapAll s illegalOperand
    else enqueueMat s t x (.stat (if x.d.toNat < 64 then some x.d.toNat else none) w))

/-! ### The matrix queue (R317-R320) -/

/-- The matrix state and the queue of a team after its head operation. -/
def headDone (s : State) (tid : Nat) (m : Matrix) (g : Team → Team) : State :=
  let t := s.teamAt tid
  let p := s.partAt t.partNo
  let s := s.setPart t.partNo { p with mat := m }
  s.modTeam tid (fun t => match t.matQ with
    | [] => t
    | o :: r => g ({ t with matQ := r }.flagDown o.flag))

/-- Planes of one step as a number. -/
def planesAt (s : State) (bid a p : Nat) : Option (State × Nat) := (classLoad s 1 bid a (1024 * p)).map (fun r => (r.1, leNat r.2))

/-- MATRIX_STEP: the loop at the head of a team's queue runs one step of 32 values of k (R305, R308), whose plane bytes are read at once (R319; log
entry 97). -/
def execMatrixStep (s : State) : Out :=
  let tid := s.ev.x
  let t := s.teamAt tid
  let p := s.partAt t.partNo
  match t.matQ with
  | [] => .next s
  | o :: rest =>
    match o.kind with
    | .loop fa fb la lb red offA offB steps ran scaA scaB groups addr =>
      if p.holder ≠ some tid || t.status = .saved || heldByFenceq s tid 2 o.id then .next s
      else
        let pa := elemBits fa
        let pb := elemBits fb
        let used := groups.filter (fun g => g.count ≠ 0)
        match ((offA + 1024 * pa * ran, 1024 * pa) :: used.map (fun g => (offB + g.boff + 1024 * pb * ran, 1024 * pb))).find?
          (fun r => fillLost s t.block r.1 r.2) with
        | some r => .next (endIfIdle (pendLost (headDone s tid p.mat id) tid r.1) tid)
        | none =>
        if fillBad s t.block (offA + 1024 * pa * ran) (1024 * pa) ||
          used.any (fun g => fillBad s t.block (offB + g.boff + 1024 * pb * ran) (1024 * pb)) then .next (endTeamBad s tid 2)
        else match planesAt s t.block (offA + 1024 * pa * ran) pa with
        | none => .next s
        | some (s1, bitsA) =>
          match used.foldl (fun r g => r.bind (fun q =>
              (planesAt q.1 t.block (offB + g.boff + 1024 * pb * ran) pb).map (fun z => (z.1, q.2 ++ [(g, z.2)])))) (some (s1, [])) with
          | none => .next s
          | some (s2, gs) =>
            let m := p.mat
            let m := { m with rm := if m.fresh then red else m.rm, fresh := false, last := addr }
            let m := matStep m fa fb la lb red (32 * ran) scaA scaB bitsA gs
            if ran + 1 = steps then .next (endIfIdle (headDone s2 tid m id) tid)
            else
              let s3 := s2.setPart t.partNo { s2.partAt t.partNo with mat := m }
              .next (s3.modTeam tid (fun t => { t with
                matQ := { o with kind := .loop fa fb la lb red offA offB steps (ran + 1) scaA scaB groups addr } :: rest }))
    | _ => .next s

/-- Write the area of `msave` page by page (R315). -/
def saveArea (s : State) (w : Writer) (va : Nat) (bs : List Byte) (xs : List TlbEntry) : Option State :=
  xs.foldl (fun r e => r.bind (fun s =>
    let lo := max va e.vpage
    let hi := min (va + saveAreaBytes) (e.vpage + e.size)
    writeGlobal s w e lo ((bs.drop (lo - va)).take (hi - lo)))) (some s)

/-- Read the area of `mrest` page by page. -/
def restArea (s : State) (t : Team) (va : Nat) (xs : List TlbEntry) : Option (State × List Byte) :=
  xs.foldl (fun r e => r.bind (fun q =>
    let lo := max va e.vpage
    let hi := min (va + saveAreaBytes) (e.vpage + e.size)
    (readGlobal q.1 t e lo (hi - lo) false).map (fun z => (z.1, q.2 ++ z.2)))) (some (s, []))

/-- The first address of the area that lies in a closing or lost extent by the time it is transferred (R364; log entry 64). -/
def areaLost (s : State) (va : Nat) (xs : List TlbEntry) : Option Nat :=
  xs.findSome? (fun e =>
    let lo := max va e.vpage
    (pageStarts lo (min (va + saveAreaBytes) (e.vpage + e.size) - lo)).find? (fun a => extentGone s (e.ppage + (a - e.vpage))))

/-- The area of `mrest` holds poisoned data (R177). -/
def restPoisoned (s : State) (va : Nat) (xs : List TlbEntry) : Bool :=
  xs.any (fun e =>
    let lo := max va e.vpage
    poisonIn s (e.ppage + (lo - e.vpage)) (min (va + saveAreaBytes) (e.vpage + e.size) - lo))

/-- A drain in redundant mode that finds differing copies writes nothing and leaves its trap (R310). -/
def mismatchDone (s : State) (tid : Nat) (m : Matrix) (p : Nat × Nat) : State :=
  headDone s tid m (fun t => { t with pendMat := t.pendMat ++ [mismatchTrap m p] })

/-- Lanes an `mdrain.a` writes (R313). -/
def drainLanes (t : Team) (m : Matrix) (set : LaneSet) : List Nat :=
  (laneList t.lanes set).filter (fun l => l < drainRows m.rm)

/-- The accumulator words `mdrain.a` writes. -/
def writeColumns (t : Team) (m : Matrix) (ty : Nat) (nf : Word) (mode : Nat) (sat : Bool) (dst : Nat) (ls : List Nat) (col0 nc : Nat) : Team :=
  let set := laneSetOf t.lanes (fun l => ls.contains l)
  (List.range nc).foldl (fun t j =>
    let v (l : Nat) : Nat := drainElem m ty nf mode sat l (col0 + j)
    (t.setWord (t.aWord (dst + j)) set (fun l => BitVec.ofNat 32 (v l))).setWord (t.aWord (dst + j) + 1) set (fun l => BitVec.ofNat 32 (v l / 2 ^ 32))) t

/-- The head operation that is no loop is performed and completes. -/
def performMat (s : State) (tid : Nat) (t : Team) (m : Matrix) (o : MatOp) : Option State :=
  match o.kind with
  | .zero => some (headDone s tid Matrix.cleared id)
  | .drainS ty nf mode sat off stride row0 nr col0 nc tr =>
    let cells := rectCells row0 nr col0 nc
    (match mismatch m cells with
     | some p => some (mismatchDone s tid m p)
     | none =>
       let e := drainBytes ty
       match cells.find? (fun p => fillLost s t.block (drainPos ty off stride row0 col0 tr p) e) with
       | some p => some (pendLost (headDone s tid m id) tid (drainPos ty off stride row0 col0 tr p))
       | none =>
       if cells.any (fun p => fillBad s t.block (drainPos ty off stride row0 col0 tr p) e) then some (endTeamBad s tid 2)
       else (cells.foldl (fun r p => r.bind (fun s =>
         stashStore s t.block (drainPos ty off stride row0 col0 tr p) (leBytes e (drainElem m ty nf mode sat p.1 p.2)))) (some s)).map
         (fun s => headDone s tid m id))
  | .drainA ty nf mode sat dst lanes col0 nc =>
    let ls := drainLanes t m lanes
    (match mismatch m (ls.flatMap (fun l => (List.range nc).map (fun j => (l, col0 + j)))) with
     | some p => some (mismatchDone s tid m p)
     | none => some (headDone s tid m (fun t => writeColumns t m ty nf mode sat dst ls col0 nc)))
  | .save va xs => match areaLost s va xs with
    | some a => some (pendLost (headDone s tid m id) tid a)
    | none => (saveArea s { tid := tid, id := o.id, phase := o.phase } va (matImage m) xs).map (fun s => headDone s tid m id)
  | .rest va xs => match areaLost s va xs with
    | some a => some (pendLost (headDone s tid m id) tid a)
    | none => if restPoisoned s va xs then some (endTeamBad s tid 2)
      else (restArea s t va xs).map (fun q => headDone q.1 tid (matOfImage q.2) id)
  | .stat dst w => some (headDone s tid m (fun t => match dst with
    | some d => t.setSdst d (matWord m w)
    | none => t))
  | .loop _ _ _ _ _ _ _ _ _ _ _ _ _ => some s

/-- MATRIX_QUEUE_PERFORM: the matrix queue of a team performs its head operation that is no loop (R318). -/
def execMatrixQueuePerform (s : State) : Out :=
  let tid := s.ev.x
  let t := s.teamAt tid
  let p := s.partAt t.partNo
  match t.matQ with
  | [] => .next s
  | o :: _ =>
    if p.holder ≠ some tid || t.status = .saved || heldByFenceq s tid 2 o.id then .next s
    else match performMat s tid t p.mat o with
      | none => .next s
      | some s' => .next (noteFetches s t.core 1 (endIfIdle s' tid))

end Sys2Proof.Machine
end

