-- ==== Sys2Proof/Machine/Special.lean ====
section
/-! DEFINITION. Reading the special registers (03_instruction_words.md R43, 16_scheduling_faults.md R286). -/

namespace Sys2Proof.Machine

/-- Core cycles since the team started issuing, saved time excluded, saturated (R286). -/
def teamCycles (s : State) (t : Team) : Nat :=
  match t.sched.firstIssue with
  | some c => min (2 ^ 32 - 1) (s.cc - c - t.sched.savedTime)
  | none => 0

/-- `%sstat` (R286). -/
def sstat (s : State) (t : Team) : Nat :=
  let g := s.gridAt t.grid
  (if t.trap.sup then 1 else 0) + (if g.det then 2 else 0) + (if g.lrec.flags.testBit 2 then 4 else 0) +
  (if (s.blockAt t.block).released then 8 else 0)

/-- A special register by its code, `%tmask` by warp number (R43, R145, R286); the upper bits of a narrow register read zero. -/
def specialVal (s : State) (t : Team) (code warp : Nat) : DWord :=
  let g := s.gridAt t.grid
  let b := (s.blockAt t.block).idx
  let nat (n : Nat) : DWord := BitVec.ofNat 64 n
  let wide (w : Word) : DWord := w.zeroExtend 64
  match code with
  | 0x01 => nat t.index
  | 0x02 => nat (b % g.lrec.gx)
  | 0x03 => nat (b / g.lrec.gx % g.lrec.gy)
  | 0x04 => nat (b / g.lrec.gx / g.lrec.gy)
  | 0x05 => nat g.lrec.gx
  | 0x06 => nat g.lrec.gy
  | 0x07 => nat g.lrec.gz
  | 0x08 => nat t.core
  | 0x09 => nat (quadOf t.core)
  | 0x0A => nat (dieOf t.core)
  | 0x0B => nat s.plat.pkgIndex
  | 0x0C => nat (t.epoch % 2 ^ 32)
  | 0x0D => nat (s.coreAt t.core).pts.toNat
  | 0x0E => nat t.seg
  | 0x0F => nat t.rep.toNat
  | 0x10 => wide t.fmode
  | 0x11 => wide t.est
  | 0x12 => wide t.viewV
  | 0x13 => wide t.viewT
  | 0x14 => wide t.viewA
  | 0x15 => wide t.nf0
  | 0x16 => wide t.nf1
  | 0x17 => wide t.nf2
  | 0x18 => wide t.nf3
  | 0x20 => t.trap.tpc
  | 0x21 => t.trap.tvec
  | 0x22 => wide t.trap.tcause
  | 0x23 => wide t.trap.tinfo0
  | 0x24 => wide t.trap.tinfo1
  | 0x25 => wide t.trap.tinfo2
  | 0x26 => wide t.trap.tinfo3
  | 0x27 => if warp < t.warps then wide (laneWord t.trap.tmask warp) else 0
  | 0x30 => nat (sstat s t)
  | 0x31 => nat (saveOff s t)
  | 0x32 => nat (65536 * g.queue + g.lrec.seq)
  | 0x33 => nat g.asid
  | 0x34 => nat (teamCycles s t)
  | _ => 0

/-- `srd` and `srr` write the register's value: the pair for `%tpc` and `%tvec`, else 32 bits (R145, R286). -/
def readSpecial (s : State) (t : Team) (code dst warp : Nat) : Team :=
  let v := specialVal s t code warp
  if code = 0x20 || code = 0x21 then (if dst < 64 then t.setSpair dst v else t)
  else t.setSdst dst (v.extractLsb' 0 32)

end Sys2Proof.Machine
end

