-- ==== Sys2Proof/Machine/Place.lean ====
section
/-! DEFINITION. Placement, the local pool, pre-emption, save, flush, restart and resume (01_machine.md R8, R9, R17-R19, R28-R29; 03_instruction_words.md
R38-R42; 16_scheduling_faults.md R259-R266; 13_consistency.md R240; 18_matrix.md R295, R321; 20_function_store.md R322-R324). -/

namespace Sys2Proof.Machine

/-! ### Room on a core (R9, R18, R19, R259, R323) -/

/-- Granules of a grid's block. -/
def regGranules (g : Grid) : Nat := (g.hdr.regBytes * g.lanes * g.teams + Config.granuleBytes - 1) / Config.granuleBytes
def stashGranules (g : Grid) : Nat :=
  (roundUp64 g.stash + g.teams * saveBytes (g.lanes / 32) + Config.granuleBytes - 1) / Config.granuleBytes

/-- What a core's blocks occupy: register and stash granules, store records with the grids they belong to, and for each partition its teams, its
used slots, and whether its matrix state is held. -/
structure Room where
  regs : Nat
  stash : Nat
  records : Nat
  held : List Nat
  parts : List (Nat × List Nat × Bool)
  deriving DecidableEq, Repr

def Room.idle : Room := { regs := 0, stash := 0, records := 0, held := [], parts := List.replicate Config.partsPerCore (0, [], false) }

/-- Granules neither in the register file nor in a stash, less the L1's least share (R9, R259). -/
def Room.free (r : Room) : Nat := Config.granules - Config.minL1Granules - max Config.minRegGranules r.regs - r.stash

/-- Room taken by a set of blocks of a core. -/
def roomWith (s : State) (c : Nat) (bs : KMap Block) : Room :=
  let grids := (bs.map (fun p => p.2.grid)).foldl (fun l g => if l.contains g then l else l ++ [g]) []
  let part (p : Nat) : Nat × List Nat × Bool :=
    let ts := s.teams.filter (fun q => q.2.core = c && q.2.part = p && q.2.slots ≠ [] && bs.any (fun b => b.1 = q.2.block))
    (ts.length, ts.flatMap (fun q => q.2.slots), (s.partAt (partNo c p)).holder.isSome)
  { regs := (bs.map (fun p => regGranules (s.gridAt p.2.grid))).foldl (· + ·) 0
    stash := (bs.map (fun p => stashGranules (s.gridAt p.2.grid))).foldl (· + ·) 0
    records := (grids.map (fun g => allotment (s.gridAt g))).foldl (· + ·) 0
    held := grids
    parts := (List.range Config.partsPerCore).map part }

def roomOf (s : State) (c : Nat) : Room := roomWith s c (onCore s c)

/-- The granules and store records of one more block fit (R9, R259, R323). -/
def granulesFit (r : Room) (gid : Nat) (g : Grid) : Bool :=
  let regs := max Config.minRegGranules (r.regs + regGranules g)
  regs ≤ Config.maxRegGranules && regs + r.stash + stashGranules g ≤ Config.granules - Config.minL1Granules &&
  (r.held.contains gid || r.records + allotment g ≤ Config.storeRecords)

/-- The eligible partition with the most free slots, ties to the lowest number (R19). -/
def bestPart (w : Nat) (mat : Bool) (ps : List (Nat × List Nat × Bool)) : Option Nat :=
  (ps.zipIdx.foldl (fun (b : Option (Nat × Nat)) p =>
    let free := Config.slotsPerPart - p.1.2.1.length
    if p.1.1 < Config.teamsPerPart && w ≤ free && (!mat || !p.1.2.2) && (match b with
      | some q => q.2 < free
      | none => true) then some (p.2, free) else b) none).map (fun b => b.1)

/-- The lowest free slots (R18). -/
def lowSlots (w : Nat) (used : List Nat) : List Nat := ((List.range Config.slotsPerPart).filter (fun i => !used.contains i)).take w

/-- Seats for teams in ascending index; each entry says whether the team brings matrix state. -/
def seatTeams (w : Nat) : List Bool → List (Nat × List Nat × Bool) → Option (List (Nat × List Nat × Bool) × List (Nat × List Nat))
  | [], ps => some (ps, [])
  | m :: ms, ps =>
    match bestPart w m ps with
    | none => none
    | some k =>
      let p := ps.getD k (0, [], false)
      let slots := lowSlots w p.2.1
      (seatTeams w ms (ps.set k (p.1 + 1, p.2.1 ++ slots, p.2.2 || m))).map (fun r => (r.1, (k, slots) :: r.2))

/-- One more block on a core: its new room and the seats of its teams. -/
def fitRoom (r : Room) (gid : Nat) (g : Grid) (mats : List Bool) : Option (Room × List (Nat × List Nat)) :=
  if !granulesFit r gid g then none
  else (seatTeams (g.lanes / 32) mats r.parts).map (fun q =>
    ({ regs := r.regs + regGranules g, stash := r.stash + stashGranules g,
       records := r.records + (if r.held.contains gid then 0 else allotment g),
       held := if r.held.contains gid then r.held else r.held ++ [gid], parts := q.1 }, q.2))

/-- A new block's teams bring no matrix state. -/
def freshMats (g : Grid) : List Bool := List.replicate g.teams false

/-- Blocks an idle core holds, counted up to a bound no core exceeds. -/
def idleCapacity (gid : Nat) (g : Grid) : Nat → Room → Nat
  | 0, _ => 0
  | n + 1, r => match fitRoom r gid g (freshMats g) with
    | none => 0
    | some q => 1 + idleCapacity gid g n q.1

/-! ### Units (R7, R28, R29) -/

/-- Enabled cores of the permitted dies in a unit of a level: 1 quad, 2 die, 3 package, 4 pod (this package, R29). -/
def unitCores (s : State) (dies lvl u : Nat) : List Nat :=
  (List.range Config.cores).filter (fun c => (s.coreAt c).enabled && dies.testBit (dieOf c) &&
    (lvl = 0 || 3 ≤ lvl || (lvl = 1 && c / Config.coresPerQuad = u) || (lvl = 2 && dieOf c = u)))

def unitCount (lvl : Nat) : Nat := if lvl = 1 then Config.cores / Config.coresPerQuad else if lvl = 2 then Config.dies else 1

/-- Enabled cores of the pod's other packages (R29). -/
def otherCores (s : State) : Nat :=
  ((List.range s.plat.pkgs).map (fun p => if p = s.plat.pkgIndex then 0 else min Config.cores (Config.packageCores p))).foldl (· + ·) 0

/-- Capacities of the units of a level that have an enabled core on a permitted die; the pod's takes in its other packages. -/
def unitCaps (s : State) (dies lvl cap : Nat) : List (Nat × Nat) :=
  (List.range (unitCount lvl)).filterMap (fun u =>
    let n := (unitCores s dies lvl u).length + (if lvl = 4 then otherCores s else 0)
    if n = 0 then none else some (u, n * cap))

/-- Group sizes of quad, die, package and pod (R129). -/
def groupSizes (s : State) (dies cap : Nat) : List Nat :=
  [1, 2, 3, 4].map (fun lvl => match unitCaps s dies lvl cap with
    | [] => 0
    | u :: r => r.foldl (fun a p => min a p.2) u.2)

/-- Units inside a unit of the next wider level. -/
def subUnits (lvl u : Nat) : List Nat :=
  if lvl = 2 then (List.range (Config.coresPerDie / Config.coresPerQuad)).map (fun q => Config.coresPerDie / Config.coresPerQuad * u + q)
  else if lvl = 3 then List.range Config.dies
  else [0]

/-! ### Choosing cores (R260, R261, R377) -/

/-- The core a replayed log names next for a block; no entry leaves the choice open (R377). -/
def loggedCore (g : Grid) (idx : Nat) : Option Nat :=
  if !g.replay then none else (g.log.find? (fun d => d.kind = 4 && d.block = idx)).map (fun d => d.key)

/-- The next placement on a core in a replayed log is of another block, which has retired, so that it will not come (R377). -/
def endedPlacement (s : State) (gid : Nat) (g : Grid) (idx c : Nat) : Option Decision :=
  (logLeft g 4 c).head?.bind (fun h => if h.block ≠ idx && (blockBy s gid h.block).any (fun p => p.2.status = .retired) then some h else none)

/-- A core may take the block: not marked for another grid, no block of the grid draining there, and the log's where there is one. -/
def coreOpen (s : State) (gid : Nat) (g : Grid) (idx c : Nat) : Bool :=
  (match (s.coreAt c).relayout with
   | some r => r = gid
   | none => true) &&
  !s.blocks.any (fun p => p.2.core = c && p.2.grid = gid && (match p.2.status with
    | .draining _ => true
    | _ => false)) &&
  (match loggedCore g idx with
   | none => true
   | some k => c = k && (logNames g 4 c 0 0 idx || (endedPlacement s gid g idx c).isSome))

/-- A seat for a block: block index, core, partition and slots of its teams. -/
abbrev Seat := Nat × Nat × List (Nat × List Nat)

/-- Place one block on the open core with the most free granules (R260). -/
def placeOne (s : State) (gid : Nat) (g : Grid) (cs : List Nat) (mats : List Bool) (idx : Nat) (rooms : KMap Room) : Option (KMap Room × Seat) :=
  let room (c : Nat) : Room := match kGet c rooms with
    | some r => r
    | none => roomOf s c
  (cs.foldl (fun (b : Option (Nat × Nat × Room × List (Nat × List Nat))) c =>
    if !coreOpen s gid g idx c then b
    else
      let r := room c
      match fitRoom r gid g mats with
      | none => b
      | some q => if b.all (fun k => k.2.1 < r.free) then some (c, r.free, q.1, q.2) else b) none).map
    (fun b => (kPut b.1 b.2.2.1 rooms, (idx, b.1, b.2.2.2)))

/-- A grid whose replayed log has given its entry for a block's placement on a core (R377). -/
def Grid.placed (g : Grid) (idx c : Nat) : Grid := if g.replay && logNames g 4 c 0 0 idx then { g with log := logTake 4 c g.log } else g

/-- Place blocks one after another on a set of cores; in a replay each takes its entry off the log before the next. -/
def placeEach (s : State) (gid : Nat) (g : Grid) (cs : List Nat) (mats : Nat → List Bool) : List Nat → KMap Room → Option (KMap Room × List Seat)
  | [], rooms => some (rooms, [])
  | i :: l, rooms => match placeOne s gid g cs (mats i) i rooms with
    | none => none
    | some (rooms, seat) => (placeEach s gid (g.placed i seat.2.1) cs mats l rooms).map (fun r => (r.1, seat :: r.2))

/-- Cut a range of blocks into runs of a group size. -/
def runsOf (n : Nat) (r : Nat × Nat) : List (Nat × Nat) :=
  if n = 0 then [r] else (List.range ((r.2 + n - 1) / n)).map (fun k => (r.1 + n * k, min n (r.2 - n * k)))

/-- Place a range of blocks within a unit, each narrower level group within one unit of its level (R28, R129). `want` says which blocks of the range
are to be placed. -/
def placeIn (s : State) (gid : Nat) (g : Grid) (mats : Nat → List Bool) (want : Nat → Bool) : Nat → Nat → Nat × Nat → KMap Room → Option (KMap Room × List Seat)
  | 0, _, r, rooms => placeEach s gid g (unitCores s g.diesMask 0 0) mats ((List.range r.2).map (fun i => r.1 + i) |>.filter want) rooms
  | 1, u, r, rooms => placeEach s gid g (unitCores s g.diesMask 1 u) mats ((List.range r.2).map (fun i => r.1 + i) |>.filter want) rooms
  | n + 2, u, r, rooms =>
    (runsOf (g.groups.getD n 0) r).foldl (fun o run => o.bind (fun q =>
      ((subUnits (n + 2) u).findSome? (fun v => placeIn s gid (q.2.foldl (fun g z => g.placed z.1 z.2.1) g) mats want (n + 1) v run q.1)).map (fun z => (z.1, q.2 ++ z.2)))) (some (rooms, []))

/-- Place a whole cohort in one unit of its level whose capacity holds it (R28, R29). -/
def placeCohort (s : State) (gid : Nat) (g : Grid) (mats : Nat → List Bool) (want : Nat → Bool) (r : Nat × Nat) (rooms : KMap Room) : Option (List Seat) :=
  let cap := idleCapacity gid g 64 Room.idle
  (unitCaps s g.diesMask g.cohLvl cap).findSome? (fun u =>
    if u.2 < g.cohSize then none else (placeIn s gid g mats want g.cohLvl u.1 r rooms).map (fun z => z.2))

/-- The blocks placed together with a block: its cohort, or itself (R28). -/
def cohortOf (g : Grid) (idx : Nat) : Nat × Nat := if g.cohLvl = 0 then (idx, 1) else pieceOf idx (0, g.blocks) g.cohSize

/-- Seats for a block's cohort, or for the block, where some cores have the rooms given. -/
def seatsIn (s : State) (gid : Nat) (mats : Nat → List Bool) (want : Nat → Bool) (idx : Nat) (rooms : KMap Room) : Option (List Seat) :=
  let g := s.gridAt gid
  if g.cohLvl = 0 then (placeIn s gid g mats want 0 0 (idx, 1) rooms).map (fun z => z.2) else placeCohort s gid g mats want (cohortOf g idx) rooms

/-- Seats for a block's cohort, or for the block. -/
def seatsFor (s : State) (gid : Nat) (mats : Nat → List Bool) (want : Nat → Bool) (idx : Nat) : Option (List Seat) := seatsIn s gid mats want idx []

/-! ### Starting teams (R38-R42, R258, R324) -/

/-- A team as it starts. -/
def startTeam (s : State) (gid bid i core : Nat) (seat : Nat × List Nat) : Team :=
  let g := s.gridAt gid
  let w := g.lanes / 32
  let h := g.hdr
  let nf (k : Nat) : Word := h.nf.getD k 0
  let args : DWord := BitVec.ofNat 64 g.lrec.args
  ({ Team.blank with
     grid := gid, block := bid, index := i, warps := w, core := core, part := seat.1, slots := seat.2, status := .live,
     pc := BitVec.ofNat 64 (g.codeVa + h.codeOff), mask := fullMask w, live := fullMask w, regBytes := h.regBytes,
     viewV := BitVec.ofNat 32 h.viewV, viewT := BitVec.ofNat 32 (65536 * h.strideT + h.viewT), viewA := BitVec.ofNat 32 h.viewA,
     est := if g.lrec.est = 0xFFFF then BitVec.allOnes 32 else BitVec.ofNat 32 (256 * g.lrec.est),
     nf0 := nf 0, nf1 := nf 1, nf2 := nf 2, nf3 := nf 3, trap := TrapRegs.start g.tvec,
     sched := { prio := g.prio, cls := g.prio, readySince := s.cc, firstIssue := none, savedTime := 0, savedAt := 0, yld := false, issues := 0, stalled := 0 } }).setSpair 0 args

/-- Granules of a core's pool that are its L1 (R9, R259). -/
def l1Granules (r : Room) : Nat := Config.granules - max Config.minRegGranules r.regs - r.stash

/-- Copies in the L1 granules that a block has taken are dropped (R259); which granule holds a copy is free. -/
def dropTaken (s : State) (c before : Nat) : State :=
  let n := l1Granules (roomOf s c)
  if before ≤ n then s else s.modCore c (fun k => { k with l1 := k.l1.filter (fun p => Config.l1Granule p.1 % before < n) })

/-- The first block of a grid on a core binds and loads the grid's slots (R324); none where a load must wait. -/
def bindSlots (s : State) (c gid : Nat) : Option State :=
  if (onCore s c).any (fun p => p.2.grid = gid) then some s
  else
    let g := s.gridAt gid
    (List.range g.descs.length).foldl (fun o k => o.bind (fun s =>
      loadSlot (setSlot s c gid k (FnSlot.bound g.descs[k]? 0)) c gid k)) (some s)

/-- The last block of a grid has left a core: the store discards the grid's records (R322). -/
def dropSlots (s : State) (c gid : Nat) : State :=
  if (onCore s c).any (fun p => p.2.grid = gid) then s else s.modCore c (fun k => { k with fs := k.fs.filter (fun p => p.1 / 16 ≠ gid) })

/-- The placement of a block is a decision: recorded, or taken off a replayed log (R374, R377). -/
def decidePlace (s : State) (gid idx c : Nat) : State :=
  let g := s.gridAt gid
  if g.replay then s.setGrid gid (g.placed idx c)
  else record s gid 4 c 0 0 idx

/-- A placement or resume that a replayed log has no entry for, or that comes after one of a block that has retired, is a divergence: the block's teams
take its trap before they issue (R377; log entry 68). -/
def divergePlaced (s : State) (gid idx bid c : Nat) : State :=
  let g := s.gridAt gid
  let tr := match loggedCore g idx with
    | none => some (divergence g.logCount 4 3)
    | some _ => (endedPlacement s gid g idx c).map (fun h => divergence h.idx 4 1)
  match if g.replay then tr else none with
  | none => s
  | some tr => (s.teams.filter (fun p => p.2.block = bid && p.2.status = .live)).foldl (fun s p =>
      enterTrap s p.1 tr (s.teamAt p.1).mask (s.teamAt p.1).pc false) s

/-- Teams of a block start in the seats given. -/
def startTeams (s : State) (gid bid core : Nat) (seats : List (Nat × List Nat)) : State :=
  seats.zipIdx.foldl (fun s p =>
    { s with teams := kPut s.nextTid (startTeam s gid bid p.2 core p.1) s.teams, nextTid := s.nextTid + 1 }) s

/-- A block of a grid starts on a core. -/
def startBlock (s : State) (gid : Nat) (seat : Seat) : Option State :=
  let g := s.gridAt gid
  (bindSlots s seat.2.1 gid).map (fun s =>
    let bid := s.nextBid
    let l1 := l1Granules (roomOf s seat.2.1)
    let s := { s.setBlock bid { Block.blank with grid := gid, idx := seat.1, core := seat.2.1, status := .resident, stashBytes := g.stash } with nextBid := bid + 1 }
    let s := dropTaken s seat.2.1 l1
    decidePlace (divergePlaced (startTeams s gid bid seat.2.1 seat.2.2) gid seat.1 bid seat.2.1) gid seat.1 seat.2.1)

/-- Marks for a grid are lifted once its block is placed (R261). -/
def unmark (s : State) (gid : Nat) : State :=
  { s with cores := s.cores.map (fun p => if p.2.relayout = some gid then (p.1, { p.2 with relayout := none }) else p) }

/-- Room of a core once its blocks of lower priority are gone. -/
def roomAbove (s : State) (c prio : Nat) : Room := roomWith s c ((onCore s c).filter (fun p => prio ≤ (s.gridAt p.2.grid).prio))

/-- Cores that could hold a waiting block are marked for relayout (R261). Only its placement lifts the marks, so those of a grid that fails first stay
(log entry 84). -/
def markCores (s : State) (gid : Nat) : State :=
  let g := s.gridAt gid
  { s with cores := s.cores.map (fun p =>
      if p.2.enabled && g.diesMask.testBit (dieOf p.1) && p.2.relayout = none && granulesFit (roomAbove s p.1 g.prio) gid g then
        (p.1, { p.2 with relayout := some gid }) else p) }

/-- A grid has a block to place: its next one, its grid running and not failed, dispatch not stopped by a swap (R276, R391). -/
def canPlace (s : State) (g : Grid) : Bool := s.plat.dispatch && !g.ended && !g.failed && g.nextBlock < g.blocks

/-- BLOCK_PLACEMENT: the next block of a grid, or its whole cohort, is placed, or cores are marked (R28, R260, R261, R370). The next one is
that of the lowest linear index left (log entry 76). -/
def execBlockPlacement (s : State) : Out :=
  let gid := s.ev.x
  let g := s.gridAt gid
  if !canPlace s g then .next s
  else match seatsFor s gid (fun _ => freshMats g) (fun _ => true) g.nextBlock with
    | none => .next (markCores s gid)
    | some seats =>
      match seats.foldl (fun o seat => o.bind (fun s => startBlock s gid seat)) (some s) with
      | none => .next s
      | some s => .next (unmark (s.modGrid gid (fun g => { g with nextBlock := g.nextBlock + seats.length })) gid)

/-! ### Costs (R263, R264) -/

def blockTeams (s : State) (bid : Nat) : KMap Team := s.teams.filter (fun p => p.2.block = bid)

/-- Estimated drain time; none is infinite. Only live teams count for either (R263; log entry 106). -/
def drainCost (s : State) (bid : Nat) : Option Nat :=
  ((blockTeams s bid).filter (fun p => p.2.status = .live)).foldl (fun a p => a.bind (fun n =>
    if p.2.est = BitVec.allOnes 32 then none else some (max n (p.2.est.toNat - teamCycles s p.2)))) (some 0)

def stateBytes (s : State) (bid : Nat) : Nat :=
  let g := s.gridAt (s.blockAt bid).grid
  ((blockTeams s bid).map (fun p => g.hdr.regBytes * g.lanes + 12 * g.lanes + 4096 + (if p.2.usedMat then 524288 else 0))).foldl (· + ·) 0 +
  Config.granuleBytes * stashGranules g

def saveCost (s : State) (bid : Nat) : Nat := (stateBytes s bid + 63) / 64

/-- Flush is available. -/
def canFlush (s : State) (bid : Nat) : Bool :=
  let b := s.blockAt bid
  let g := s.gridAt b.grid
  g.lrec.flags.testBit 2 && g.cohLvl = 0 && !b.released && !g.lrec.flags.testBit 4

inductive Option3 where
  | drain | save | flush
  deriving DecidableEq, Repr

/-- The options of a victim with their costs, in the order that ties follow. -/
def optionsOf (s : State) (bid : Nat) : List (Option3 × Nat) :=
  (match drainCost s bid with
   | some n => [(Option3.drain, n)]
   | none => []) ++ [(.save, saveCost s bid)] ++ (if canFlush s bid then [(.flush, 0)] else [])

/-- The cheapest of some options. -/
def cheapest (l : List (Option3 × Nat)) : Option (Option3 × Nat) :=
  l.foldl (fun b p => match b with
    | some q => if p.2 < q.2 then some p else b
    | none => some p) none

/-- The option taken within a remaining bound, or overall (R264). -/
def chooseOption (l : List (Option3 × Nat)) (bound : Nat) : Option3 × Nat :=
  match cheapest (l.filter (fun p => p.2 ≤ bound)) with
  | some p => p
  | none => (cheapest l).getD (.save, 0)

/-- Cycles left of a requester's bound (R262). -/
def remainingBound (s : State) (g : Grid) : Nat := 256 * g.lrec.bound - (s.cc - g.started)

/-! ### PREEMPTION_DECISION (R262) -/

/-- A candidate victim: priority, cost, core, queue, block index, block, option. -/
structure Victim where
  prio : Nat
  cost : Nat
  core : Nat
  queue : Nat
  idx : Nat
  bid : Nat
  opt : Option3
  deriving DecidableEq, Repr

def Victim.key (v : Victim) : List Nat := [v.prio, v.cost, v.core, v.queue, v.idx]

def listLt : List Nat → List Nat → Bool
  | a :: l, b :: r => a < b || (a = b && listLt l r)
  | _, _ => false

def insertVictim (v : Victim) : List Victim → List Victim
  | [] => [v]
  | w :: l => if listLt v.key w.key then v :: w :: l else w :: insertVictim v l

/-- Resident blocks of lower priority on the permitted dies, in the order they are chosen. -/
def victims (s : State) (g : Grid) : List Victim :=
  let bound := remainingBound s g
  (s.blocks.filter (fun p => p.2.status = .resident && g.diesMask.testBit (dieOf p.2.core) && (s.gridAt p.2.grid).prio < g.prio)).foldl (fun l p =>
    let o := chooseOption (optionsOf s p.1) bound
    let v := s.gridAt p.2.grid
    insertVictim { prio := v.prio, cost := o.2, core := p.2.core, queue := v.queue, idx := p.2.idx, bid := p.1, opt := o.1 } l) []

/-- A block has been marked to leave, so that its granules count as returning. -/
def leaving : BStatus → Bool
  | .draining _ => true
  | .toSave => true
  | .toFlush => true
  | _ => false

/-- The requester's block, with its cohort, finds seats on cores open to its grid once the leaving blocks and some victims are gone. -/
def wouldFit (s : State) (gid : Nat) (g : Grid) (gone : List Nat) : Bool :=
  (seatsIn s gid (fun _ => freshMats g) (fun _ => true) g.nextBlock ((unitCores s g.diesMask 0 0).map (fun c =>
    (c, roomWith s c ((onCore s c).filter (fun p => !gone.contains p.1 && !leaving p.2.status)))))).isSome

/-- A block of a block's cohort; only itself where its grid has none (R28). -/
def inCohort (s : State) (bid : Nat) (p : Nat × Block) : Bool :=
  let b := s.blockAt bid
  let r := cohortOf (s.gridAt b.grid) b.idx
  p.2.grid = b.grid && r.1 ≤ p.2.idx && p.2.idx < r.1 + r.2

/-- The blocks that a victim's option sends away: a save takes the whole cohort (R266). -/
def goneWith (s : State) (v : Victim) : List Nat := if v.opt = .save then (s.blocks.filter (inCohort s v.bid)).map (fun p => p.1) else [v.bid]

/-- The shortest run of victims that makes room; where none does, all of them (R262; log entry 108). -/
def takeVictims (s : State) (gid : Nat) (g : Grid) : List Nat → List Victim → List Victim
  | _, [] => []
  | gone, v :: r => if wouldFit s gid g gone then [] else v :: takeVictims s gid g (goneWith s v ++ gone) r

/-- The option of a victim begins; saving one block of a cohort saves them all, and a block that is to be saved neither drains nor is flushed (R266). A
block of a cohort that drains does so alone (log entry 107). -/
def beginOption (s : State) (bid : Nat) (o : Option3) (cost : Nat) : State :=
  let b := s.blockAt bid
  match o with
  | .drain => if b.status = .toSave then s else s.setBlock bid { b with status := .draining (s.cc + cost + 4096) }
  | .flush => if b.status = .toSave then s else s.setBlock bid { b with status := .toFlush }
  | .save =>
    { s with blocks := s.blocks.map (fun p =>
        if inCohort s bid p && (p.2.status = .resident || (match p.2.status with
          | .draining _ => true
          | _ => false)) then (p.1, { p.2 with status := .toSave }) else p) }

/-- PREEMPTION_DECISION: a grid with a bound whose block waits for room takes it from blocks of lower priority (R262-R264). -/
def execPreemptionDecision (s : State) : Out :=
  let gid := s.ev.x
  let g := s.gridAt gid
  if !canPlace s g || g.lrec.bound = 0 || (seatsFor s gid (fun _ => freshMats g) (fun _ => true) g.nextBlock).isSome then .next s
  else .next ((takeVictims s gid g [] (victims s g)).foldl (fun s v => beginOption s v.bid v.opt v.cost) s)

/-- DRAIN_TIMEOUT: a drain that has overrun chooses between save and flush (R265). -/
def execDrainTimeout (s : State) : Out :=
  let bid := s.ev.x
  match (s.blockAt bid).status with
  | .draining till =>
    if till ≤ s.cc then
      let o := (cheapest ((optionsOf s bid).filter (fun p => p.1 ≠ .drain))).getD (.save, 0)
      .next (beginOption s bid o.1 o.2)
    else .next s
  | _ => .next s

/-! ### Quiescence (R265) -/

/-- The team stands at a clause boundary or in a wait that follows one. -/
def atBoundary (t : Team) : Bool :=
  t.clause.isNone && t.inRep.isNone && (match t.wait with
    | .none => true
    | .barrier _ _ _ => true
    | .sleep _ => true
    | .yielded _ => true
    | .cont _ _ => true
    | _ => false)

/-- The team stands at `rdv` or `chkw`, which end their clauses, and will issue it again (R114). -/
def atJoin (t : Team) : Bool := match t.wait with
  | .rdv _ => true
  | .watch => true
  | _ => false

def streamStill : Option Stream → Bool
  | none => true
  | some x => x.ended || (x.clause.isNone && x.inRep.isNone && (match x.wait with
    | .none => true
    | .cont _ _ => true
    | _ => false))

/-- Everything that a team issued outside its matrix queue has completed, and its watch entries are resolved. -/
def quiet (s : State) (p : Nat × Team) : Bool :=
  let t := p.2
  t.memQ.isEmpty && !(s.partAt t.partNo).copyQ.any (fun o => o.tid = p.1) && !(s.coreAt t.core).fsQ.any (fun o => o.tid = p.1) &&
  (teamWatches s p.1).all (fun w => w.st ≠ .pending) && (t.live = 0 || (t.pendCopy.isNone && t.pendStream.isEmpty && t.pendMat.isEmpty))

/-- A team that has claimed a merge of a first-touch region still owes its service (R283). -/
def claims (s : State) (tid : Nat) : Bool := s.dies.any (fun d => d.2.stage.any (fun m => m.claimant = tid && m.ft && !m.served))

/-- A block has an operation under way that is performed at a turn of its teams or at the end of its phase, or a team inside a clause before an
instruction that waits for the ticket or for a replayed log: its teams must go on to reach that (R22, R265, R372, R377; log entry 36). -/
def owesOrder (s : State) (bid : Nat) : Bool :=
  (blockTeams s bid).any (fun p => p.2.wait = .ticket || p.2.wait = .replay ||
    p.2.memQ.any (fun o => inOrder s p.1 o || (!o.performed && isStagedOp s p.1 o)))

/-- A team may be saved; pending fault service ends first (R265). -/
def saveReady (s : State) (p : Nat × Team) : Bool :=
  p.2.status = .ended && p.2.slots = [] || (p.2.status = .live && !claims s p.1 && (atBoundary p.2 || atJoin p.2) && streamStill p.2.streamA && streamStill p.2.streamC && quiet s p)

/-- Watch entries of a team are freed; a strike stays with it (R195). -/
def freeWatches (s : State) (tid : Nat) : State :=
  let t := s.teamAt tid
  let hit := (teamWatches s tid).any (fun w => w.st = .struck)
  (s.modCore t.core (fun k => { k with watch := k.watch.filter (fun w => w.tid ≠ tid) })).modTeam tid (fun t => { t with struck := t.struck || hit })

/-- A team leaves its partition with its matrix state (R295, R321). -/
def carryMatrix (s : State) (tid : Nat) : State :=
  let t := s.teamAt tid
  let p := s.partAt t.partNo
  if p.holder = some tid then
    (s.setPart t.partNo { p with holder := none, mat := Matrix.cleared }).modTeam tid (fun t => { t with heldMat := some p.mat })
  else s

/-- A team is saved: results written, sleeps and yields discarded (R123, R170). -/
def saveTeam (s : State) (tid : Nat) : State :=
  let s := carryMatrix (freeWatches (drainSfu s tid) tid) tid
  s.modTeam tid (fun t => { t with
    status := .saved
    slots := []
    xlat := []
    wait := match t.wait with
      | .barrier l g e => .barrier l g e
      | .cont a m => .cont a m
      | .rdv e => .rdv e
      | _ => .none
    sched := { t.sched with savedAt := s.cc } })

/-- Rungs 2 under way after a change of what each waits for: one that waits for nothing any more has finished (R392). -/
def rung2Now (r : KMap Rung2) (f : Rung2 → Rung2) : KMap Rung2 :=
  (r.map (fun p => (p.1, f p.2))).filter (fun p => p.2.left ≠ [] || p.2.down ≠ [])

/-- A block has been saved or has left: a rung 2 under way waits for it no longer (R392). -/
def rung2Done (s : State) (bid : Nat) : State :=
  if s.plat.rung2 = [] then s
  else s.setPlat { s.plat with rung2 := rung2Now s.plat.rung2 (fun r => { r with left := r.left.filter (fun b => b ≠ bid) }) }

/-- A block whose teams all stand still leaves its core with its state, its window lines written back, as a release (R240, R265). -/
def saveBlock (s : State) (bid : Nat) : Option State :=
  let b := s.blockAt bid
  ((drainAll s b.core).bind (fun s => writeBackBlock s bid)).map (fun s =>
    let s := ((blockTeams s bid).filter (fun p => p.2.status = .live)).foldl (fun s p => saveTeam s p.1) s
    let s := s.modBlock bid (fun b => { b with status := .saved, windows := b.windows.map (fun w => { w with lines := [] }) })
    rung2Done (dropSlots s b.core b.grid) bid)

/-- The blocks of a block's cohort that are neither saved nor retired. -/
def cohortHere (s : State) (bid : Nat) : KMap Block :=
  s.blocks.filter (fun p => inCohort s bid p && p.2.status ≠ .saved && p.2.status ≠ .retired)

/-- BLOCK_SAVE: once every team of the block, and of the others of its cohort, stands still, they are saved together, so that none runs while another is
not resident (R28, R265, R266); teams of a failed grid stop and end instead (R276). -/
def execBlockSave (s : State) : Out :=
  let bid := s.ev.x
  let b := s.blockAt bid
  if b.status ≠ .toSave || (s.gridAt b.grid).failed || !(cohortHere s bid).all (fun p => p.2.status = .toSave && (blockTeams s p.1).all (saveReady s)) then .next s
  else match (cohortHere s bid).foldl (fun o p => o.bind (fun s => saveBlock s p.1)) (some s) with
    | none => .next s
    | some s' => .next ((cohortHere s bid).foldl (fun s' p => noteFetches s p.2.core 2 s') s')

/-- BLOCK_FLUSH: a block whose teams all stand still is given up, its window lines discarded, as a release (R240, R265). -/
def execBlockFlush (s : State) : Out :=
  let bid := s.ev.x
  let b := s.blockAt bid
  let ok := (blockTeams s bid).all (fun p => saveReady s p && p.2.matQ.isEmpty)
  if b.status ≠ .toFlush || (s.gridAt b.grid).failed || !ok then .next s
  else match drainAll s b.core with
    | none => .next s
    | some s =>
      let s := (blockTeams s bid).foldl (fun s p => carryMatrix (freeWatches s p.1) p.1) s
      let s := { s with
        teams := s.teams.filter (fun p => p.2.block ≠ bid)
        parts := s.parts.map (fun (p : Nat × Part) => (p.1, { p.2 with sfuQ := p.2.sfuQ.filter (fun o => (s.teamAt o.tid).block ≠ bid) }))
        barriers := s.barriers.filter (fun p => p.1 ≠ 8 * bid) }
      let s := s.modGrid b.grid (fun g => { g with staged := g.staged.filter (fun r => r.block ≠ b.idx) })
      let s := s.setBlock bid { Block.blank with grid := b.grid, idx := b.idx, core := b.core, status := .flushed, stashBytes := b.stashBytes }
      .next (rung2Done (dropSlots s b.core b.grid) bid)

/-- BLOCK_RESTART: a flushed block starts again from its first clause with a zero stash, after an acquire (R240, R265). -/
def execBlockRestart (s : State) : Out :=
  let bid := s.ev.x
  let b := s.blockAt bid
  let g := s.gridAt b.grid
  if b.status ≠ .flushed || !s.plat.dispatch || g.ended || g.failed then .next s
  else match placeOne s b.grid g (unitCores s g.diesMask 0 0) (freshMats g) b.idx [] with
    | none => .next s
    | some (_, seat) =>
      match bindSlots s seat.2.1 b.grid with
      | none => .next s
      | some s =>
        let l1 := l1Granules (roomOf s seat.2.1)
        let s := dropTaken (s.setBlock bid { b with core := seat.2.1, status := .resident }) seat.2.1 l1
        let s := startTeams s b.grid bid seat.2.1 seat.2.2
        let scope := if seat.2.1 = b.core then 1 else if quadOf seat.2.1 = quadOf b.core && dieOf seat.2.1 = dieOf b.core then 2 else if dieOf seat.2.1 = dieOf b.core then 3 else 4
        .next (decidePlace (acquireAt s seat.2.1 scope) b.grid b.idx seat.2.1)

/-- A saved team goes on in its new seat: placement registers follow, `%epoch` rises, time saved since its first issue does not count (R266, R286). -/
def resumeTeam (s : State) (tid core : Nat) (seat : Nat × List Nat) : State :=
  let s := s.modTeam tid (fun t => { t with
    core := core, part := seat.1, slots := seat.2, status := .live, epoch := t.epoch + 1
    sched := { t.sched with readySince := s.cc, savedTime := if t.sched.firstIssue.isNone then 0 else t.sched.savedTime + (s.cc - t.sched.savedAt) } })
  let t := s.teamAt tid
  match t.heldMat with
  | none => s
  | some m => (s.modPart t.partNo (fun p => { p with holder := some tid, mat := m })).modTeam tid (fun t => { t with heldMat := none })

/-- Saved teams of a block, in ascending index. -/
def savedTeams (s : State) (bid : Nat) : KMap Team := (blockTeams s bid).filter (fun p => p.2.status = .saved)

/-- A saved block goes on in its seat, after an acquire on the new core (R240, R266). -/
def resumeBlock (s : State) (gid : Nat) (seat : Seat) : Option State :=
  match blockBy s gid seat.1 with
  | none => some s
  | some (bid, b) =>
    (bindSlots s seat.2.1 gid).map (fun s =>
      let core := seat.2.1
      let scope := if core = b.core then 1 else if quadOf core = quadOf b.core && dieOf core = dieOf b.core then 2 else if dieOf core = dieOf b.core then 3 else 4
      let l1 := l1Granules (roomOf s core)
      let s := dropTaken (s.setBlock bid { b with core := core, status := .resident }) core l1
      let s := ((savedTeams s bid).zip seat.2.2).foldl (fun s p => resumeTeam s p.1.1 core p.2) s
      decidePlace (divergePlaced (acquireAt s core scope) gid b.idx bid core) gid b.idx core)

/-- BLOCK_RESUME: a saved block, or its whole cohort, finds room and goes on (R266). -/
def execBlockResume (s : State) : Out :=
  let b := s.blockAt s.ev.x
  let gid := b.grid
  let g := s.gridAt gid
  let r := cohortOf g b.idx
  let here (p : Nat × Block) : Bool := p.2.grid = gid && r.1 ≤ p.2.idx && p.2.idx < r.1 + r.2
  if b.status ≠ .saved || !s.plat.dispatch || g.ended || g.failed ||
    !(s.blocks.filter here).all (fun p => p.2.status = .saved || p.2.status = .retired) then .next s
  else
    let saved (i : Nat) : Bool := (blockBy s gid i).any (fun (p : Nat × Block) => p.2.status = .saved)
    let mats (i : Nat) : List Bool := match blockBy s gid i with
      | some p => (savedTeams s p.1).map (fun t => t.2.heldMat.isSome)
      | none => []
    match seatsFor s gid mats saved b.idx with
    | none => .next s
    | some seats =>
      match seats.foldl (fun o seat => o.bind (fun s => resumeBlock s gid seat)) (some s) with
      | none => .next s
      | some s => .next s

/-! ### Leaving a core (R121, R202, R276) -/

/-- A team of a grid that a fault has ended stops without a fault of its own (R276); it ends once its matrix queue is empty (R320). -/
def stopTeam (s : State) (tid : Nat) : State :=
  let t := s.teamAt tid
  let s := leaveStage (drainSfu (freeWatches s tid) tid) (dieOf t.core) tid
  s.modTeam tid (fun t => { t with
    status := if t.matQ.isEmpty then .ended else .live, live := 0, mask := 0, wait := .none, streamA := none, streamC := none, pendStream := [], pendCopy := none,
    pendMat := [], clause := none, inRep := none })

/-- A team of a failed grid that stands at a clause boundary, or in any wait, stops, if it has not. -/
def mustStop (s : State) (tid : Nat) : Bool :=
  let t := s.teamAt tid
  (s.gridAt t.grid).failed && t.status = .live && !(t.live = 0 && t.streamsOver) && (t.clause.isNone || t.wait ≠ .none)

/-- An ended team has nothing left in flight (R121, R320). -/
def endedQuiet (s : State) (p : Nat × Team) : Bool :=
  let t := p.2
  let gone (x : Option Stream) : Bool := match x with
    | none => true
    | some y => y.ended
  t.status = .ended && t.slots ≠ [] && t.memQ.isEmpty && t.matQ.isEmpty && gone t.streamA && gone t.streamC &&
  !(s.partAt t.partNo).copyQ.any (fun o => o.tid = p.1) && !(s.partAt t.partNo).sfuQ.any (fun o => o.tid = p.1) &&
  !(s.coreAt t.core).fsQ.any (fun o => o.tid = p.1) && ((s.gridAt t.grid).failed || t.flags.all (fun f => f.2 = 0))

/-- A block whose last team is gone retires: its window lines are written back, or discarded where its grid has failed (R202, R276). -/
def retireBlock (s : State) (bid : Nat) : Option State :=
  let b := s.blockAt bid
  let g := s.gridAt b.grid
  (if g.failed then some s else (drainAll s b.core).bind (fun s => writeBackBlock s bid)).map (fun s =>
    let s := s.modBlock bid (fun b => { b with status := .retired, windows := [], tiles := [] })
    let s := s.modGrid b.grid (fun g => { g with retired := g.retired + 1 })
    rung2Done (dropSlots s b.core b.grid) bid)

/-- WARP_SLOT_RELEASE: an ended team's slots are free once its flags are zero, its streams have ended and its queues are empty; the matrix state is
free, and the block retires with its last team (R121, R295, R320). -/
def execWarpSlotRelease (s : State) : Out :=
  let tid := s.ev.x
  let t := s.teamAt tid
  noteOut s t.core 2 <|
  if !endedQuiet s (tid, t) then .next s
  else
    let p := s.partAt t.partNo
    let s1 := if p.holder = some tid then s.setPart t.partNo { p with holder := none, mat := Matrix.cleared } else s
    let s1 := (freeWatches s1 tid).modTeam tid (fun t => { t with slots := [] })
    if (blockTeams s1 t.block).all (fun p => p.2.status = .ended && p.2.slots = []) then
      match retireBlock s1 t.block with
      | none => .next s
      | some s2 => .next s2
    else .next s1

/-! ### Scheduling (R35) -/

/-- PRIORITY_AGING: a team ready for 1,024 cc without issuing rises one class (R35). -/
def execPriorityAging (s : State) : Out :=
  let tid := s.ev.x
  let t := s.teamAt tid
  if teamReady s tid && t.sched.readySince + 1024 ≤ s.cc then
    .next (s.setTeamAt tid { t with sched := { t.sched with cls := min 7 (t.sched.cls + 1), readySince := t.sched.readySince + 1024 } })
  else .next s

/-! ### Pending traps (R125, R224, R270, R310) -/

/-- The trap that is pending for a team, in the order it is taken, and the team without it. -/
def pendingOf (t : Team) : Option (PendTrap × Team) :=
  match t.pendStream, t.pendCopy, t.pendMat with
  | p :: r, _, _ => some (p, { t with pendStream := r })
  | [], some p, _ => some (p, { t with pendCopy := none })
  | [], none, p :: r => some (p, { t with pendMat := r })
  | [], none, [] => none

/-- Waits that a pending trap ends (R270). -/
def leavable : Wait → Bool
  | .none => true
  | .barrier _ _ _ => true
  | .rdv _ => true
  | .watch => true
  | .sleep _ => true
  | .cont _ _ => true
  | _ => false

/-- Take the pending trap of a team, outside a handler. -/
def takePending (s : State) (tid : Nat) : Option State :=
  let t := s.teamAt tid
  if t.status ≠ .live || t.live = 0 || t.trap.sup || !leavable t.wait then none
  else (pendingOf t).map (fun p =>
    enterTrap (s.setTeamAt tid p.2) tid
      (mergedTrap s tid { cause := p.1.cause, i0 := p.1.i0, i1 := p.1.i1, i2 := p.1.i2, i3 := p.1.i3 }) t.mask t.pc p.1.strm)

/-- PENDING_TRAP_TAKEN (R270). -/
def execPendingTrapTaken (s : State) : Out := .next ((takePending s s.ev.x).getD s)

end Sys2Proof.Machine
end

