-- ==== Sys2Proof/Machine/Launch.lean ====
section
/-! DEFINITION. Launch queues, launch records, code objects and completion words (16_scheduling_faults.md R248-R258, R278; 01_machine.md R28-R33;
03_instruction_words.md R72, R73; 13_consistency.md R239; 24_determinism.md R375-R377). -/

namespace Sys2Proof.Machine

/-! ### What a command processor reads and writes -/

/-- Key under which a die holds the region file that its command processor uses for a queue. -/
def cpKey (q : Nat) : Nat := 65536 + q

/-- The die whose command processor serves a set of dies: the lowest. -/
def cpDie (dies : Nat) : Nat := ((List.range Config.dies).find? (fun d => dies.testBit d)).getD 0

/-- A physical byte cannot be read or written: an extent that is gone, poison. -/
def byteGone (s : State) (pa : Nat) : Bool := extentGone s pa || poisonIn s pa 1

/-- Outcome of an access by a command processor. -/
inductive Cp (α : Type) where
  | ok (s : State) (v : α)
  | bad (kind : FailKind)
  | busy

/-- Why a translation of a command processor failed (R250, R281). -/
def xlatFail : EngX → FailKind
  | .bad 3 _ => .permission
  | _ => .translation

/-- Bytes as a command processor reads them: of the device's memory as coherence shows them, of host memory as it stands (R239). -/
def cpBytes (s : State) (pa n : Nat) : List Byte := if backed s pa then viewBytes s pa n else memRead s pa n

/-- Bytes as a command processor writes them; none while a line is busy. -/
def cpStore (s : State) (die pa : Nat) (bs : List Byte) : Option State :=
  if backed s pa then agentWrite s die pa bs else some (memWrite s pa bs)

/-- n bytes of a context; reads show every write performed (R250). -/
def cpRead (s : State) (die key va n : Nat) : Cp (List Byte) :=
  (pieces64 va n).foldl (fun o p => match o with
    | .ok s bs => (match cpXlat s die key (p.1 % 2 ^ 64) accR with
      | .ok s e =>
        let pa := e.ppage + (p.1 % 2 ^ 64 - e.vpage)
        if byteGone s pa then .bad .uncorrectable else .ok s (bs ++ cpBytes s pa p.2)
      | .busy => .busy
      | x => .bad (xlatFail x))
    | o => o) (.ok s [])

/-- Bytes written to a context; an append page cannot be written so. -/
def cpWrite (s : State) (die key va : Nat) (bs : List Byte) : Cp Unit :=
  (pieces64 va bs.length).foldl (fun o p => match o with
    | .ok s _ => (match cpXlat s die key (p.1 % 2 ^ 64) accW with
      | .ok s e =>
        let pa := e.ppage + (p.1 % 2 ^ 64 - e.vpage)
        if byteGone s pa then .bad .uncorrectable
        else if e.mclass = 1 then .bad .permission
        else match cpStore s die pa ((bs.drop (p.1 - va)).take p.2) with
          | some s => .ok s ()
          | none => .busy
      | .busy => .busy
      | x => .bad (xlatFail x))
    | o => o) (.ok s ())

/-- The 16 entries of a region attribute file; a file in no memory has none (R278). -/
def rafFile (s : State) (pa : Nat) : List (BitVec 128) :=
  if !backed s pa || !backed s (pa + 255) || byteGone s pa || byteGone s (pa + 255) then []
  else (List.range 16).map (fun i => BitVec.ofNat 128 (viewNat s (pa + 16 * i) 16))

/-- A queue's command processor holds the context's file as memory has it. -/
def cpContext (s : State) (q : Nat) : State :=
  let k := s.queueAt q
  s.modDie (cpDie k.dies.toNat) (fun d => { d with rafs := kPut (cpKey q) (rafFile s k.raf.toNat) d.rafs })

/-! ### Queue registers (R248-R250, R388) -/

/-- IDLE (R249). -/
def queueIdle (k : Queue) : Bool := !k.en && k.running.isNone && k.children = []

/-- The queue halts with ERR (R250). -/
def haltQueue (s : State) (q : Nat) : State := s.setQueue q { s.queueAt q with halt := true, err := true }

/-- A structure of the queue's context failed: the queue halts, and a die's error log says where and why (R250). -/
def failQueue (s : State) (q va : Nat) (k : FailKind) : State :=
  logAt (haltQueue s q) (cpDie (s.queueAt q).dies.toNat) (.queueFail q va k)

/-- The checks of an enable (R249). -/
def enableOk (k : Queue) : Bool :=
  k.dies != 0 && 4 ≤ k.size.toNat && k.size.toNat ≤ 16 && k.base.toNat % 64 = 0 && k.raf.toNat % 256 = 0 && k.comp.toNat % 4096 = 0

/-- A write of QCTL (R249, R388). -/
def writeQctl (s : State) (q : Nat) (v : Word) : State :=
  let k := s.queueAt q
  let dies : Byte := v.extractLsb' 8 8
  let err := k.err && !v.getLsbD 2
  if v.getLsbD 0 then
    if s.plat.bootPhase < 6 then s.setQueue q { k with dies := dies, err := true }
    else if k.en then s.setQueue q { k with dies := dies, err := err }
    else if !queueIdle k then s
    else
      let k := { k with dies := dies, err := err, en := true, halt := false, head := 0, tail := 0, startableAt := none }
      s.setQueue q (if enableOk k then k else { k with halt := true, err := true })
  else s.setQueue q { k with dies := dies, err := err, en := false, startableAt := if k.children = [] then none else k.startableAt }

/-- QUEUE_ENABLE: a QCTL write that sets EN (R249). -/
def execQueueEnable (s : State) : Out := .next (writeQctl s s.ev.x (s.ev.w ||| 1))

/-- QUEUE_DISABLE: a QCTL write that clears EN; pending records are discarded, while a tail child at the head keeps its time (R249, R252). -/
def execQueueDisable (s : State) : Out := .next (writeQctl s s.ev.x (s.ev.w &&& ~~~1))

/-- QUEUE_ERR_CLEAR: ERR is cleared by writing 1 (R249). -/
def execQueueErrClear (s : State) : Out := .next (s.setQueue s.ev.x { s.queueAt s.ev.x with err := false })

/-- A QTAIL write (R250). -/
def writeQtail (s : State) (q : Nat) (v : Word) : State :=
  let k := s.queueAt q
  if !k.en || v = k.tail then s
  else if 2 ^ 31 ≤ (v - k.tail).toNat || 2 ^ k.size.toNat < (v - k.head).toNat then haltQueue s q
  else s.setQueue q { k with tail := v }

/-- QTAIL_WRITE (R250). -/
def execQtailWrite (s : State) : Out := .next (writeQtail s s.ev.x s.ev.w)

/-! ### Launch records (R253, R254) -/

def recordOf (bs : List Byte) : LaunchRec :=
  let n (o k : Nat) : Nat := leNat ((bs.drop o).take k)
  { code := n 0 8, args := n 8 8, gx := n 0x10 4, gy := n 0x14 2, gz := n 0x16 2, lanes := n 0x18 2, teams := n 0x1A 1, coh := n 0x1B 1,
    csize := n 0x1C 2, prio := n 0x1E 1, flags := n 0x1F 1, stash := n 0x20 2, est := n 0x22 2, bound := n 0x24 2, cslot := n 0x26 2,
    seq := n 0x28 2, cscope := n 0x2A 1, ndep := n 0x2B 1, keys := n 0x2C 4, deps := (List.range 4).map (fun i => n (0x30 + 4 * i) 4) }

/-- Lanes per team and teams per block that exist (R17, R72). -/
def lanesOk (n : Nat) : Bool := 32 ≤ n && n ≤ 1024 && n % 32 = 0
def teamsOk (n : Nat) : Bool := 1 ≤ n && n ≤ 16

/-- The record is valid (R254). -/
def recordOk (r : LaunchRec) : Bool :=
  r.code % 256 = 0 && r.args % 8 = 0 && 1 ≤ r.gx && r.gx < 2 ^ 31 && 1 ≤ r.gy && 1 ≤ r.gz && (r.lanes = 0 || lanesOk r.lanes) &&
  (r.teams = 0 || teamsOk r.teams) && r.coh < 8 && r.coh != 5 && r.coh != 6 && (r.coh = 0 || r.coh = 7 || 1 ≤ r.csize) && r.prio < 8 &&
  r.flags < 32 && r.flags % 4 != 3 && !(r.flags.testBit 3 && r.flags.testBit 4) && 1 ≤ r.cscope && r.cscope ≤ 6 && r.ndep ≤ 4 &&
  r.keys / 2 ^ 13 % 8 = 0 && r.keys / 2 ^ 30 = 0 && r.keys / 2 ^ 16 % 2 ^ 14 ≤ 8192

/-- The key grant lies in the store (R254). -/
def grantOk (r : LaunchRec) : Bool := r.keys % 2 ^ 13 + r.keys / 2 ^ 16 % 2 ^ 14 ≤ 8192

/-! ### Code objects (R72, R73, R323, R326) -/

def headerOf (bs : List Byte) : CodeHdr :=
  let n (o k : Nat) : Nat := leNat ((bs.drop o).take k)
  { magic := n 0 4, hash := n 4 4, regBytes := n 8 2, viewV := n 0xA 2, viewT := n 0xC 2, strideT := n 0xE 2, viewA := n 0x10 2, lanes := n 0x12 2,
    teams := n 0x14 1, coh := n 0x15 1, csize := n 0x16 2, stash := n 0x18 4, flags := n 0x1C 1, nfunc := n 0x1D 1,
    nf := (List.range 4).map (fun i => BitVec.ofNat 32 (n (0x20 + 4 * i) 4)), codeOff := n 0x30 4, codeBytes := n 0x34 4, funcOff := n 0x38 4,
    resv := n 0x1E 2 != 0 || n 0x44 12 != 0 }

/-- Fields in range, reserved fields zero, view bases within the register space. -/
def headerOk (h : CodeHdr) : Bool :=
  !h.resv && h.flags < 2 && 64 ≤ h.regBytes && h.regBytes ≤ 1024 && h.regBytes % 64 = 0 && h.viewV % 4 = 0 && h.viewT % 64 = 0 && h.viewA % 8 = 0 &&
  64 ≤ h.strideT && h.strideT ≤ 1024 && h.strideT % 64 = 0 && h.viewV ≤ h.regBytes && h.viewT ≤ h.regBytes && h.viewA ≤ h.regBytes &&
  lanesOk h.lanes && teamsOk h.teams && h.coh ≤ 4 && (h.coh = 0 || 1 ≤ h.csize) && h.nfunc ≤ 16 && h.nf.all (fun w => w = 0 || nfValid w) &&
  h.codeOff % 4 = 0 && h.funcOff % 64 = 0

/-- Values of a launch: the record's where it gives one (R72, R253). -/
def lanesOf (r : LaunchRec) (h : CodeHdr) : Nat := if r.lanes = 0 then h.lanes else r.lanes
def teamsOf (r : LaunchRec) (h : CodeHdr) : Nat := if r.teams = 0 then h.teams else r.teams
def stashOf (r : LaunchRec) (h : CodeHdr) : Nat := if r.stash = 0xFFFF then h.stash else 64 * r.stash
def cohLvlOf (r : LaunchRec) (h : CodeHdr) : Nat := if r.coh = 7 then h.coh else r.coh
def cohSizeOf (r : LaunchRec) (h : CodeHdr) : Nat := if r.coh = 7 then h.csize else r.csize
def detOf (r : LaunchRec) (h : CodeHdr) : Bool := r.flags % 4 = 2 || (r.flags % 4 = 0 && h.flags % 2 = 1)

/-- Register and stash bytes of a block stay within the pool (R73). -/
def sizesOk (r : LaunchRec) (h : CodeHdr) : Bool :=
  let n := h.regBytes * lanesOf r h * teamsOf r h
  n ≤ 2621440 && n + stashOf r h ≤ 3932160

/-- The descriptors of a code object that are all valid; none where one is not, or cannot be read. -/
def readDescs (s : State) (die key va : Nat) : Nat → Cp (List FnDesc)
  | 0 => .ok s []
  | n + 1 => match readDescs s die key va n with
    | .ok s ds => (match cpRead s die key (va + 64 * n) 64 with
      | .ok s bs =>
        let d := descOf bs
        if d.2 && tbaseClass s die key d.1 && tbaseOk s die key d.1 then .ok s (ds ++ [d.1]) else .bad .translation
      | .bad k => .bad k
      | .busy => .busy)
    | o => o

/-- The code object of a record: its header and descriptors, or a status (R73, R326). -/
inductive Code where
  | ok (s : State) (h : CodeHdr) (ds : List FnDesc)
  | bad (status : Nat)
  | busy

def readCode (s : State) (die key : Nat) (r : LaunchRec) : Code :=
  match cpRead s die key r.code 80 with
  | .busy => .busy
  | .bad _ => .bad 0x0D
  | .ok s bs =>
    let h := headerOf bs
    if h.magic ≠ 0x4F524B31 then .bad 0x0D
    else if h.hash ≠ Config.encodingHash then .bad 0x0E
    else if !headerOk h || !sizesOk r h then .bad 0x0D
    else match readDescs s die key (r.code + h.funcOff) h.nfunc with
      | .busy => .busy
      | .bad _ => .bad 0x0D
      | .ok s ds => if (ds.map (fun d => d.allot)).foldl (· + ·) 0 ≤ Config.storeRecords then .ok s h ds else .bad 0x0D

/-! ### Completing a record (R250, R255) -/

/-- The completion word. -/
def completionWord (status seq : Nat) : List Byte := leBytes 4 (65536 * status + seq)

/-- A record completes: its word is written, the ring's count advances; none while the word's line is busy. -/
def completeRecord (s : State) (q die key compVa : Nat) (child : Bool) (r : LaunchRec) (status : Nat) : Option State :=
  let va := compVa + 4 * r.cslot
  let advance (s : State) : State := if child then s else s.setQueue q { s.queueAt q with head := (s.queueAt q).head + 1 }
  match cpWrite s die key va (completionWord status r.seq) with
  | .busy => none
  | .bad k => some (failQueue (advance s) q va k)
  | .ok s _ => some (advance s)

/-! ### The head of a queue (R31, R250-R252, R256) -/

/-- The record at the head: a tail child with its parent's completion scope, or the oldest pending ring record. -/
structure Head where
  bytes : List Byte
  parent : Option Nat
  deriving DecidableEq, Repr

def readHead (s : State) (q : Nat) : State × Option Head :=
  let k := s.queueAt q
  if k.running.isSome then (s, none)
  else match k.children with
    | c :: _ => (cpContext s q, some { bytes := c.1, parent := some c.2 })
    | [] =>
      if !k.en || k.halt || k.head = k.tail then (s, none)
      else
        let s := cpContext s q
        let va := k.base.toNat + 64 * (k.head.toNat % 2 ^ k.size.toNat)
        match cpRead s (cpDie k.dies.toNat) (cpKey q) va 64 with
        | .ok s bs => (s, some { bytes := bs, parent := none })
        | .bad k => (failQueue s q va k, none)
        | .busy => (s, none)

/-- The dependences of a record: all met and whether one failed, or one is unmet or cannot be read, or a read must wait. -/
inductive Deps where
  | met (failed : Bool)
  | unmet
  | busy
  deriving DecidableEq, Repr

def depsMet (s : State) (q : Nat) (r : LaunchRec) : State × Deps :=
  let k := s.queueAt q
  (r.deps.take r.ndep).foldl (fun o d => match o with
    | (s, .unmet) => (s, .unmet)
    | (s, .busy) => (s, .busy)
    | (s, .met f) =>
      let va := k.comp.toNat + 4 * (d % 65536)
      match cpRead s (cpDie k.dies.toNat) (cpKey q) va 4 with
      | .ok s bs =>
        let w := leNat bs
        let st := w / 65536 % 256
        if (w % 65536 + 65536 - d / 65536) % 65536 < 32768 then (s, .met (f || !(st = 0 || st = 3))) else (s, .unmet)
      | .bad k => (failQueue s q va k, .unmet)
      | .busy => (s, .busy)) (s, .met false)

/-- A head that is startable. -/
structure Startable where
  q : Nat
  prio : Nat
  since : Nat
  head : Head
  failed : Bool

/-- Look at the head of a queue: it becomes, stays or is no longer startable; while a read must wait, its time stands. -/
def lookAt (s : State) (q : Nat) : State × Option Startable :=
  let r := readHead s q
  let clear (s : State) : State := s.setQueue q { s.queueAt q with startableAt := none }
  match r.2 with
  | none => (r.1, none)
  | some h =>
    let l := recordOf h.bytes
    if !recordOk l then (clear r.1, none)
    else match depsMet r.1 q l with
      | (s, .unmet) => (clear s, none)
      | (s, .busy) => (s, none)
      | (s, .met f) =>
        let since := (s.queueAt q).startableAt.getD s.cc
        (s.setQueue q { s.queueAt q with startableAt := some since }, some { q := q, prio := l.prio, since := since, head := h, failed := f })

/-- A record stands at the head of a queue. -/
def headWaits (k : Queue) : Bool := k.running.isNone && (k.children != [] || (k.en && !k.halt && k.head != k.tail))

/-- The time at which the head of a queue becomes startable is kept (R252). -/
def noteHead (s : State) (q : Nat) : State :=
  if (lookAt s q).2.isSome then s.setQueue q { s.queueAt q with startableAt := some s.cc } else s

/-- The heads that have become startable in this cycle (R252). -/
def noteHeads (s : State) : State :=
  (s.queues.filter (fun p => headWaits p.2 && p.2.startableAt.isNone)).foldl (fun s p => noteHead s p.1) s

/-- The order among startable heads (R252). -/
def startsBefore (a b : Startable) : Bool :=
  b.prio < a.prio || (a.prio = b.prio && (a.since < b.since || (a.since = b.since && a.q < b.q)))

/-- Every queue's head is looked at; the one that starts first. -/
def firstStartable (s : State) : State × Option Startable :=
  (s.queues.map (fun p => p.1)).foldl (fun a q =>
    let r := lookAt a.1 q
    (r.1, match r.2, a.2 with
      | some x, some y => some (if startsBefore x y then x else y)
      | some x, none => some x
      | none, y => y)) (s, none)

/-- The child at the head leaves the list. -/
def popHead (s : State) (q : Nat) (h : Head) : State :=
  let k := s.queueAt q
  s.setQueue q { k with startableAt := none, children := if h.parent.isSome then k.children.drop 1 else k.children }

/-- A refused record completes without running a block (R255). -/
def refuse (s : State) (q : Nat) (h : Head) (status : Nat) : Option State :=
  let k := s.queueAt q
  completeRecord (popHead s q h) q (cpDie k.dies.toNat) (cpKey q) k.comp.toNat h.parent.isSome (recordOf h.bytes) status

/-! ### The replay log (R375-R377) -/

/-- The entries of a log. -/
def decisionOf (i : Nat) (bs : List Byte) : Decision :=
  let n (o k : Nat) : Nat := leNat ((bs.drop o).take k)
  { kind := n 0 1, team := n 1 1, lane := n 2 2, block := n 8 8, key := n 0x10 8, seq := n 0x18 8, idx := i }

/-- The reserved bytes of an entry are zero; one with others is invalid (R4). -/
def decisionOk (bs : List Byte) : Bool := leNat ((bs.drop 4).take 4) = 0

/-- The log of a replay; one that cannot be read, or is no log, has no entry, and an invalid entry is none (log entry 37). None while a translation is
busy. -/
def readLog (s : State) (die key va bytes : Nat) : Option (List Decision) :=
  match cpRead s die key va 64 with
  | .busy => none
  | .bad _ => some []
  | .ok _ h =>
    let n (o k : Nat) : Nat := leNat ((h.drop o).take k)
    if n 0 4 ≠ 0x52504C31 || n 4 4 ≠ Config.encodingHash || n 0x11 47 ≠ 0 then some []
    else (List.range (min (n 8 8) ((bytes - 64) / 32))).foldl (fun l i => l.bind (fun l => match cpRead s die key (va + 64 + 32 * i) 32 with
      | .busy => none
      | .bad _ => some l
      | .ok _ bs => some (if decisionOk bs then l ++ [decisionOf i bs] else l))) (some [])

def decisionBytes (d : Decision) : List Byte :=
  leBytes 1 d.kind ++ leBytes 1 d.team ++ leBytes 2 d.lane ++ leBytes 4 0 ++ leBytes 8 d.block ++ leBytes 8 d.key ++ leBytes 8 d.seq

def logBytesOf (g : Grid) : List Byte :=
  (leBytes 4 0x52504C31 ++ leBytes 4 Config.encodingHash ++ leBytes 8 g.log.length ++ leBytes 1 (if g.logFull then 1 else 0) ++ leBytes 47 0 ++
    g.log.flatMap decisionBytes).take g.logBytes

/-! ### Starting a grid (R239, R252, R258, R278, R292, R345) -/

/-- The context's file enters the walkers of the grid's dies; translations built under another content go (R278). -/
def loadContext (s : State) (dies asid : Nat) (file : List (BitVec 128)) : State :=
  (List.range Config.dies).foldl (fun s d =>
    if !dies.testBit d then s
    else
      let same : Bool := kGet asid (s.dieAt d).rafs = some file
      let s := s.modDie d (fun x => { x with rafs := kPut asid file x.rafs })
      if same then s
      else { s with cores := s.cores.map (fun p =>
        if dieOf p.1 = d then (p.1, { p.2 with tlb := p.2.tlb.filter (fun e => e.asid ≠ asid) }) else p) }) s

/-- Grids run on a die (R292). -/
def dieBusy (s : State) (d : Nat) : Bool := s.grids.any (fun p => !p.2.ended && p.2.diesMask.testBit d)

/-- The current phase of a die that was idle is 0 when a grid starts on it (R292). -/
def firstPhase (s : State) (dies : Nat) : State :=
  (List.range Config.dies).foldl (fun s d => if dies.testBit d && !dieBusy s d then s.modDie d (fun x => { x with phase := 0 }) else s) s

/-- The acquires of a grid's start, on every core that may take its blocks (R239). -/
def startAcquire (s : State) (dies scope : Nat) : State :=
  (unitCores s dies 0 0).foldl (fun s c => acquireAt s c scope) s

/-- The descriptors of a launch: in a deterministic one every slot is staged (R370). -/
def launchDescs (det : Bool) (ds : List FnDesc) : List FnDesc := ds.map (fun d => if det then { d with staged := true } else d)

/-- Sealed pages of the tables of staged slots (R345); none while a walk must wait. -/
def snapshotOf (s : State) (die key : Nat) (ds : List FnDesc) : Option (State × List (Nat × Nat)) :=
  let pages := ds.zipIdx.flatMap (fun p => if p.1.staged then (List.range p.1.tpages).map (fun n => (p.2, n, p.1.tbase)) else [])
  pages.foldl (fun o p => o.bind (fun r =>
    match cpXlat r.1 die key (p.2.2 + p.2.1 * pageSize (regionOf s die key p.2.2)) accR with
    | .busy => none
    | .ok s e => (match kGet e.ppage s.pages with
      | some g => some (s, if g.st = .sealed then r.2 ++ [(p.1, p.2.1)] else r.2)
      | none => some (s, r.2))
    | _ => some r)) (some (s, []))

/-- A launch replays its queue's log (R370, R377). -/
def replays (h : Head) (hdr : CodeHdr) : Bool := (recordOf h.bytes).flags.testBit 4 && !detOf (recordOf h.bytes) hdr

/-- The log that a grid starts with. -/
def startLog (s : State) (q : Nat) (h : Head) (hdr : CodeHdr) : Option (List Decision) :=
  let k := s.queueAt q
  if replays h hdr then readLog s (cpDie k.dies.toNat) (cpKey q) k.log.toNat k.logn.toNat else some []

/-- The grid of a record, before its checks of fit. -/
def newGrid (s : State) (q : Nat) (h : Head) (hdr : CodeHdr) (ds : List FnDesc) (snap : List (Nat × Nat)) (log : List Decision) : Grid :=
  let k := s.queueAt q
  let r := recordOf h.bytes
  let det := detOf r hdr
  let die := cpDie k.dies.toNat
  let ds := launchDescs det ds
  { queue := q, child := h.parent.isSome, lrec := r, hdr := hdr, codeVa := r.code, asid := k.asid.toNat % 65536, tvec := k.tvec &&& ~~~3,
    compVa := k.comp.toNat, logVa := k.log.toNat, logBytes := k.logn.toNat, diesMask := k.dies.toNat, lanes := lanesOf r hdr, teams := teamsOf r hdr,
    stash := stashOf r hdr, cohLvl := cohLvlOf r hdr, cohSize := cohSizeOf r hdr, det := det, recording := r.flags.testBit 3 && !det,
    replay := replays h hdr, prio := r.prio, started := s.cc, blocks := r.gx * r.gy * r.gz, nextBlock := 0, retired := 0, groups := [], status := 0,
    failed := false, tails := [], tailDie := die, descs := ds, snapshot := snap, staged := [], log := log,
    logCount := log.length, logFull := false, ended := false }

/-- The status with which a grid is refused for want of fit: its cohort, then its block (R29, R259). -/
def fitStatus (s : State) (gid : Nat) (g : Grid) : Option Nat :=
  let cap := idleCapacity gid g 64 Room.idle
  let caps := unitCaps s g.diesMask g.cohLvl cap
  if g.cohLvl ≠ 0 && caps.all (fun u => u.2 < g.cohSize) then some 0x0C
  else if cap = 0 || unitCores s g.diesMask 0 0 = [] then some 0x10
  else none

/-- The head's checks after its dependences, in the order of R258; then the grid starts. None while something it reads is busy. -/
def startHead (s : State) (x : Startable) : Option State :=
  let q := x.q
  let k := s.queueAt q
  let die := cpDie k.dies.toNat
  let r := recordOf x.head.bytes
  let file := kGetD (cpKey q) [] (s.dieAt die).rafs
  if x.failed then refuse s q x.head 0x0A
  else if !grantOk r then refuse s q x.head 0x0F
  else if !file.all rfOk then refuse s q x.head 0x0B
  else match readCode s die (cpKey q) r with
    | .busy => none
    | .bad st => refuse s q x.head st
    | .ok s hdr ds =>
      match snapshotOf s die (cpKey q) (launchDescs (detOf r hdr) ds) with
      | none => none
      | some (s, snap) =>
      match startLog s q x.head hdr with
      | none => none
      | some log =>
      let gid := s.nextGid
      let g := newGrid s q x.head hdr ds snap log
      match fitStatus s gid g with
      | some st => refuse s q x.head st
      | none =>
        let g := { g with groups := groupSizes s g.diesMask (idleCapacity gid g 64 Room.idle) }
        let s := firstPhase (loadContext (popHead s q x.head) g.diesMask g.asid file) g.diesMask
        let scope := max (if r.ndep = 0 then 0 else 6) (x.head.parent.getD 0)
        let s := { (startAcquire s g.diesMask scope).setGrid gid g with nextGid := gid + 1 }
        some (s.setQueue q { s.queueAt q with running := some gid })

/-- GRID_START: an invalid record at the queue's head is refused at once; a startable one starts when it is the first of all (R252, R256). -/
def execGridStart (s : State) : Out :=
  let q := s.ev.x
  if !s.plat.dispatch then .next s
  else
    let r := readHead s q
    match r.2 with
    | none => .next r.1
    | some h =>
      if !recordOk (recordOf h.bytes) then .next ((refuse r.1 q h 0x0B).getD r.1)
      else
        let f := firstStartable r.1
        match f.2 with
        | none => .next f.1
        | some x => if x.q = q then .next ((startHead f.1 x).getD f.1) else .next f.1

/-! ### LAUNCH_COMPLETION (R31, R33, R239, R255, R276, R376) -/

/-- A block no longer holds up its grid: retired, or given up by a grid that has failed. -/
def blockOver (g : Grid) (b : Block) : Bool := b.status = .retired || (g.failed && (b.status = .saved || b.status = .flushed))

/-- Every block has left, the ticket phases are released, and no staged record waits. -/
def gridDone (s : State) (gid : Nat) : Bool :=
  let g := s.gridAt gid
  let bs := s.blocks.filter (fun p => p.2.grid = gid)
  !g.ended && bs.all (fun p => blockOver g p.2) && (g.failed || (g.blocks ≤ g.nextBlock && g.blocks ≤ g.retired && g.staged = [])) &&
  (!g.det || bs.all (fun p => p.2.phase < p.2.relPhase && (g.failed || p.2.staged = [])))

/-- Tail records as the queue takes them: by block, then in issue order (R31). -/
def tailBefore (a b : TailRec) : Bool := a.block < b.block || (a.block = b.block && a.seq ≤ b.seq)

def insertTail (r : TailRec) : List TailRec → List TailRec
  | [] => [r]
  | q :: l => if tailBefore q r then q :: insertTail r l else r :: q :: l

/-- The log of a recorded grid is written (R375); a failure halts the queue (R250). -/
def writeLog (s : State) (g : Grid) : Option State :=
  if !g.recording then some s
  else match cpWrite s g.tailDie g.asid g.logVa (logBytesOf g) with
    | .ok s _ => some s
    | .bad k => some (failQueue s g.queue g.logVa k)
    | .busy => none

/-- LAUNCH_COMPLETION: a grid whose blocks have all left writes its completion word as a release, and its tail children take its position. -/
def execLaunchCompletion (s : State) : Out :=
  let gid := s.ev.x
  let g := s.gridAt gid
  if !gridDone s gid then .next s
  else
    let status := worseStatus g.status (if g.logFull then 3 else 0)
    let s1 := (unitCores s g.diesMask 0 0).foldl (fun o c => o.bind (fun s => drainAll s c)) (some s)
    match (s1.bind (fun s => writeLog s g)).bind (fun s => completeRecord s g.queue g.tailDie g.asid g.compVa g.child g.lrec status) with
    | none => .next s
    | some s =>
      let k := s.queueAt g.queue
      let tails := g.tails.foldl (fun l r => insertTail r l) []
      let s := s.setQueue g.queue { k with running := none, children := tails.map (fun t => (t.bytes, g.lrec.cscope)) ++ k.children }
      let s := s.setGrid gid { g with ended := true }
      .next { s with teams := s.teams.map (fun p => if p.2.grid = gid then (p.1, { p.2 with status := .ended }) else p) }

end Sys2Proof.Machine
end

