-- ==== Sys2Proof/Machine/Determinism.lean ====
section
/-! DEFINITION. The ticket unit of deterministic launches and the decisions of a replay (24_determinism.md R371-R373, R377). -/

namespace Sys2Proof.Machine

/-- Blocks whose writes a block's follow: those of its cohort, or of the grid (R371). -/
def ticketGroup (g : Grid) (idx : Nat) : Nat × Nat := if g.cohLvl = 0 then (0, g.blocks) else levelGroup g g.cohLvl idx

/-- A block issues no further instruction: it has retired, or all its teams have ended. A flushed block has not: it starts again (R265). -/
def blockEnded (s : State) (bid : Nat) : Bool :=
  let b := s.blockAt bid
  blockOver (s.gridAt b.grid) b || (b.status ≠ .flushed && (liveTeams s bid).isEmpty)

/-- Every lower block of the group has been placed and passes a test. -/
def allLower (s : State) (bid : Nat) (p : Nat → Block → Bool) : Bool :=
  let b := s.blockAt bid
  let r := ticketGroup (s.gridAt b.grid) b.idx
  let ls := s.blocks.filter (fun q => q.2.grid = b.grid && r.1 ≤ q.2.idx && q.2.idx < b.idx)
  ls.length = b.idx - r.1 && ls.all (fun q => p q.1 q.2)

/-- An atomic with a result, of a phase up to n, that has not been applied. -/
def atomPending (s : State) (bid n : Nat) : Bool :=
  (blockTeams s bid).any (fun p => p.2.memQ.any (fun o => !o.performed && o.phase ≤ n && (match o.kind with
    | .atom _ true => true
    | _ => false)))

/-- TICKET_GRANT: a block holds its ticket once every lower block has arrived at the end of its phase, or has retired, with its atomics and its staged
reductions of the phases so far applied (R111, R371). -/
def execTicketGrant (s : State) : Out :=
  let bid := s.ev.x
  let b := s.blockAt bid
  if (s.gridAt b.grid).det &&
      allLower s bid (fun k v => (b.phase < v.relPhase || (blockEnded s k && v.phase < v.relPhase)) && !atomPending s k b.phase) then
    .next (s.setBlock bid { b with ticket := true })
  else .next s

def isAppend (o : MemOp) : Bool := match o.kind with
  | .append _ _ _ _ => true
  | _ => false

/-- An operation that a release of a phase performs: an append of the phase or an earlier one, or a `seal` behind one. -/
def releasedOp (s : State) (tid p : Nat) (o : MemOp) : Bool := !o.performed && (isAppend o || isStagedSeal s tid o) && o.phase ≤ p

/-- One append is performed at its home, or the seal of one's page begun, each after the release that it is (R187, R188); an append that would reach a
closing or lost extent is not, and its team takes the fault (R364). -/
def performAppend (s : State) (tid : Nat) (o : MemOp) : Option State :=
  match lostAcc s tid o with
  | some a => some (dropLost s tid o a)
  | none => (releaseOp s tid o).bind (fun r =>
    let s := r.1
    let o := r.2
    match o.kind with
    | .append e p size done =>
      let r := if done then (s, o) else reserveAppend s o e p size
      (finishAppend r.1 tid r.2 e p size).map (fun s => putOp s tid { r.2 with performed := true })
    | .sealPg p size =>
      some (putOp (if (pageRec s p size).st = .opened then setPageRec s p { pageRec s p size with st := .sealing } else s) tid o)
    | _ => some s)

/-- The appends and seals of a block's teams that a phase's release performs, by team, then in issue order (R372). -/
def performAppends (s : State) (bid p : Nat) : Option State :=
  (List.range 16).foldl (fun o i => o.bind (fun s =>
    match s.teams.find? (fun q => q.2.block = bid && q.2.index = i) with
    | none => some s
    | some q => (q.2.memQ.filter (releasedOp s q.1 p)).foldl (fun o a => o.bind (fun s => performAppend s q.1 a)) (some s))) (some s)

/-- A matrix operation that writes global memory. -/
def isMsave (o : MatOp) : Bool := match o.kind with
  | .save _ _ => true
  | _ => false

/-- Writes that a block issued in phases up to n and that are not staged yet, but for those that the release performs (log entry 35). -/
def blockPending (s : State) (bid n : Nat) : Bool :=
  (blockTeams s bid).any (fun p => p.2.memQ.any (fun o => !o.performed && !isAppend o && !isStagedSeal s p.1 o && o.phase ≤ n) ||
    (s.partAt p.2.partNo).copyQ.any (fun o => o.tid = p.1 && o.dstGlobal && o.pos < o.total && o.phase ≤ n) ||
    p.2.matQ.any (fun o => isMsave o && o.phase ≤ n))

/-- The next phase of a block may be released (R373). -/
def phaseReleasable (s : State) (bid : Nat) : Bool :=
  let b := s.blockAt bid
  (s.gridAt b.grid).det && b.relPhase ≤ b.phase &&
  (b.relPhase < b.phase || blockEnded s bid) && !blockPending s bid b.relPhase &&
  allLower s bid (fun k v => b.relPhase < v.relPhase || (blockEnded s k && v.phase < v.relPhase))

/-- TICKET_PHASE_RELEASE: the oldest phase of a block that is not released yet: its staged writes are performed in ticket order (R373). -/
def execTicketPhaseRelease (s : State) : Out :=
  let bid := s.ev.x
  let b := s.blockAt bid
  let p := b.relPhase
  if !phaseReleasable s bid then .next s
  else match (performStagedAll s b.core (b.staged.filter (fun w => w.phase ≤ p))).bind (fun s => performAppends s bid p) with
    | none => .next s
    | some s => .next (s.modBlock bid (fun k => { k with staged := k.staged.filter (fun w => p < w.phase), relPhase := p + 1 }))

/-- The oldest operation of a team that is a decision and has not been performed. -/
def heldDecision (s : State) (t : Team) : Option MemOp := t.memQ.find? (fun o => !o.performed && decisionKeys s o != [])

/-- REPLAY_DECISION: an operation held for the log is tried again: a team held at issue issues it, a queued one is performed when the log names it
next (R377). -/
def execReplayDecision (s : State) : Out :=
  let tid := s.ev.x
  let t := s.teamAt tid
  if t.wait = .replay then .next (wake s tid none)
  else match heldDecision s t with
    | none => .next s
    | some o => stepOp s tid o

end Sys2Proof.Machine
end

