-- ==== Sys2Proof/Machine/CrossLane.lean ====
section
/-! DEFINITION. Class V across lanes: shuffles, votes, `match`, reductions, scans and `seg` (09_vector_scalar.md R156-R162, 01_machine.md R24). -/

namespace Sys2Proof.Machine

/-- Lanes of a segment under code 1 to 6 (R24). -/
def segWidth (t : Team) (code : Nat) : Nat := if code = 6 then t.lanes else 2 ^ code

/-- First lane of a lane's segment. -/
def segFirst (w l : Nat) : Nat := l - l % w

/-- Lanes of the segment of width w that starts at b. -/
def segLanes (w b : Nat) : List Nat := (List.range w).map (fun q => b + q)

/-- Write a vector result in the lanes of `set`, and what HOLD asks. -/
def crossWrite (s : State) (t t0 : Team) (x : Fields) (set : LaneSet) (a b res : Nat → Word) : Out :=
  let t1 := t0.setV x.d.toNat set res
  finishHold s t1 x (holdOf t t1 x set a b res)

/-! ### Shuffles (R157) -/

/-- A lane reads position `pos q b` of its segment, or its own value where that lies outside. -/
def shuffle (i : Instr) (s : State) (pos : Nat → Nat → Option Nat) : Out :=
  issue i s (fun t _ x =>
    let a := srcV t x.a.toNat (immOf x)
    let b := srcV t x.b.toNat (immOf x)
    let w := segWidth t t.seg
    crossWrite s t t x (presentSet t (modOf .v x)) a b (fun l =>
      match pos (l % w) (b l).toNat with
      | some j => if j < w then a (segFirst w l + j) else a l
      | none => a l))

def execShflIdx (f : Fields) (s : State) : Out := shuffle (.shflIdx f) s (fun _ b => some b)
def execShflUp (f : Fields) (s : State) : Out := shuffle (.shflUp f) s (fun q b => if b ≤ q then some (q - b) else none)
def execShflDown (f : Fields) (s : State) : Out := shuffle (.shflDown f) s (fun q b => some (q + b))
def execShflXor (f : Fields) (s : State) : Out := shuffle (.shflXor f) s (fun q b => some (q ^^^ b))

/-! ### Votes (R158) -/

/-- `vote.any` and `vote.all`: the contributors of the segment decide. -/
def vote (i : Instr) (s : State) (decideSeg : List Bool → Bool) : Out :=
  issue i s (fun t _ x =>
    let set := presentSet t (modOf .v x)
    let p := t.pred x.a.toNat
    let w := segWidth t t.seg
    predWrite s t x (fun _ => 0) (fun _ => 0)
      (laneSetOf t.lanes (fun l =>
        decideSeg (((segLanes w (segFirst w l)).filter (fun k => set.getLsbD k)).map (fun k => p.getLsbD k)))))

def execVoteAny (f : Fields) (s : State) : Out := vote (.voteAny f) s (fun v => v.any id)
def execVoteAll (f : Fields) (s : State) : Out := vote (.voteAll f) s (fun v => v.all id)

/-- `vote.bal` and `match` read code 6 as 5 (R156). -/
def warpSeg (t : Team) : Nat := if t.seg = 6 then 5 else t.seg

/-- Bit q set for each contributor at position q that passes the test. -/
def ballot (w l : Nat) (set : LaneSet) (test : Nat → Bool) : Word :=
  BitVec.ofNat 32 ((List.range w).foldl (fun v q =>
    if set.getLsbD (segFirst w l + q) && test (segFirst w l + q) then v + 2 ^ q else v) 0)

def execVoteBal (f : Fields) (s : State) : Out :=
  issue (.voteBal f) s (fun t _ x =>
    let set := presentSet t (modOf .v x)
    let p := t.pred x.a.toNat
    let w := segWidth t (warpSeg t)
    crossWrite s t t x set (fun _ => 0) (fun _ => 0) (fun l => ballot w l set (fun k => p.getLsbD k)))

def execMatchLanes (f : Fields) (s : State) : Out :=
  issue (.matchLanes f) s (fun t _ x =>
    let set := presentSet t (modOf .v x)
    let a := srcV t x.a.toNat (immOf x)
    let w := segWidth t (warpSeg t)
    crossWrite s t t x set a (fun _ => 0) (fun l => ballot w l set (fun k => a k = a l)))

/-! ### Reductions and scans (R159, R160) -/

/-- Receivers are the active lanes, contributors the present ones; pB tells whether the segment has a contributor. `res` gives a
receiver's value from its segment's first lane and itself, and from the contributors' values by position. -/
def segmentOp (i : Instr) (s : State) (res : RMode → Nat → List (Option Word) → Word) : Out :=
  issue i s (fun t _ x =>
    let m := modOf .v x
    let set := presentSet t m
    let a := srcV t x.a.toNat (immOf x)
    let w := segWidth t t.seg
    let vals (l : Nat) : List (Option Word) := (segLanes w (segFirst w l)).map (fun k => if set.getLsbD k then some (a k) else none)
    let t0 := t.setPred x.b.toNat t.mask (laneSetOf t.lanes (fun l => (vals l).any Option.isSome))
    crossWrite s t t0 x t.mask a (fun _ => 0) (fun l => res (modeOf t m) (l % w) (vals l)))

/-- Combination of the contributors in position order, or the identity. -/
def foldVals (fn : Word → Word → Word) (ident : Word) (vals : List (Option Word)) : Word :=
  match vals.filterMap id with
  | [] => ident
  | v :: r => r.foldl fn v

/-- Reduction over the whole segment. -/
def reduce (i : Instr) (s : State) (fn : Word → Word → Word) (ident : Word) : Out :=
  segmentOp i s (fun _ _ vals => foldVals fn ident vals)

/-- Inclusive scan. -/
def scan (i : Instr) (s : State) (fn : Word → Word → Word) (ident : Word) : Out :=
  segmentOp i s (fun _ q vals => foldVals fn ident (vals.take (q + 1)))

def execVRedAdd (f : Fields) (s : State) : Out := reduce (.vRedAdd f) s (fun a b => a + b) 0
def execVRedMinI32 (f : Fields) (s : State) : Out := reduce (.vRedMinI32 f) s minI 0x7FFFFFFF
def execVRedMinZ32 (f : Fields) (s : State) : Out := reduce (.vRedMinZ32 f) s minZ 0xFFFFFFFF
def execVRedMaxI32 (f : Fields) (s : State) : Out := reduce (.vRedMaxI32 f) s maxI 0x80000000
def execVRedMaxZ32 (f : Fields) (s : State) : Out := reduce (.vRedMaxZ32 f) s maxZ 0
def execVRedAnd (f : Fields) (s : State) : Out := reduce (.vRedAnd f) s (fun a b => a &&& b) 0xFFFFFFFF
def execVRedOr (f : Fields) (s : State) : Out := reduce (.vRedOr f) s (fun a b => a ||| b) 0
def execVRedXor (f : Fields) (s : State) : Out := reduce (.vRedXor f) s (fun a b => a ^^^ b) 0

/-- One level of the tree of R110: an absent partner passes the other value through. -/
def treeStep (mode : RMode) : List (Option XVal) → List (Option XVal)
  | some a :: some b :: r => some (roundTo fp32 (XVal.add mode a b) mode) :: treeStep mode r
  | a :: b :: r => (if a.isSome then a else b) :: treeStep mode r
  | [a] => [a]
  | [] => []

/-- The fixed pairwise tree of R110; ten levels cover 1,024 positions. -/
def treeRoot (mode : RMode) : Nat → List (Option XVal) → Option XVal
  | 0, v => (v.head?).getD none
  | n + 1, v => treeRoot mode n (treeStep mode v)

def execVRedFadd (f : Fields) (s : State) : Out :=
  segmentOp (.vRedFadd f) s (fun mode _ vals =>
    match treeRoot mode 10 (vals.map (fun o => o.map ofF32)) with
    | some v => toF32 v mode false
    | none => 0)

def execScanAdd (f : Fields) (s : State) : Out := scan (.scanAdd f) s (fun a b => a + b) 0
def execScanMaxI32 (f : Fields) (s : State) : Out := scan (.scanMaxI32 f) s maxI 0x80000000
def execScanMaxZ32 (f : Fields) (s : State) : Out := scan (.scanMaxZ32 f) s maxZ 0

/-! ### Segment width (R162) -/

/-- `seg` reads its uniform operand once; its guard is read as in class S. HOLD 01 keeps the operand in every lane (R47, R162). -/
def execSeg (f : Fields) (s : State) : Out :=
  issue (.seg f) s (fun t _ x =>
    let v := srcU t x.a.toNat (immOf x)
    if 1 ≤ v.toNat && v.toNat ≤ 6 then
      finishHold s { t with seg := v.toNat } x (if x.hold.toNat = 1 then some (latchRow t.lanes (fun _ => v)) else none)
    else trapAll s illegalOperand)

end Sys2Proof.Machine
end

