-- ==== Sys2Proof/Machine/Leases.lean ====
section
/-! DEFINITION. The events of leases, residency and agents without logical time (13_consistency.md R242-R244; 11_memory.md R204-R206). -/

namespace Sys2Proof.Machine

/-- One more than the number of the span of 256 cc that a cycle lies in. -/
def spanOf (cc : Nat) : Nat := cc / 256 + 1

/-- A core's tick for the span that ends now. -/
def tickCore (s : State) (c : Nat) : State :=
  (setPts s c ((s.coreAt c).pts + 1)).modCore c (fun k => { k with ticked := spanOf s.cc })

/-- PTS_TICK: a core's logical time advances by one, once in every 256 cc (R244). -/
def execPtsTick (s : State) : Out := if (s.coreAt s.ev.x).ticked = spanOf s.cc then .next s else .next (tickCore s s.ev.x)

/-- Highest pts among the cores of a die under the comparison of R241. -/
def highestPts (s : State) (die : Nat) : Option (BitVec 16) :=
  match (s.cores.filter (fun p => p.2.enabled && dieOf p.1 = die)).map (fun p => p.2.pts) with
  | [] => none
  | a :: r => some (r.foldl tsMax a)

/-- The die's value becomes the highest pts of its cores, and a core more than 1,024 behind it is raised (R244). -/
def tellPts (s : State) (die : Nat) : State :=
  match highestPts s die with
  | none => s
  | some v =>
    let s := s.modDie die (fun d => { d with bcast := v, told := spanOf s.cc })
    ((s.cores.filter (fun p => p.2.enabled && dieOf p.1 = die)).foldl (fun s p =>
      if tsLe p.2.pts v && 1024 < (v - p.2.pts).toNat then setPts s p.1 (v - 1024) else s) s)

/-- PTS_BROADCAST: a die's broadcast, once in every 256 cc (R244). -/
def execPtsBroadcast (s : State) : Out := if (s.dieAt s.ev.x).told = spanOf s.cc then .next s else .next (tellPts s s.ev.x)

/-- Mark a copy that is not valid as expired. -/
def markCopy (s : State) (c : Nat) (x : L1Copy) : L1Copy := { x with expired := x.expired || !copyValid s c x }

/-- LEASE_EXPIRY: a copy that its core's pts has passed is expired (R242). -/
def execLeaseExpiry (s : State) : Out :=
  match l1At s s.ev.x s.ev.y with
  | none => .next s
  | some x => .next (setL1 s s.ev.x s.ev.y (markCopy s s.ev.x x))

/-- L1_LEASE_SWEEP: every copy of a core that is not valid is marked expired (R242). -/
def execL1LeaseSweep (s : State) : Out :=
  .next (s.modCore s.ev.x (fun k => { k with l1 := k.l1.map (fun p => (p.1, markCopy s s.ev.x p.2)) }))

/-- A line that lags a broadcast value by more than 2^14 is raised; its version stays (R244). -/
def visitLine (b : BitVec 16) (e : L2Line) : L2Line :=
  if tsLe e.rts b && 2 ^ 14 < (b - e.rts).toNat then { e with wts := b - 16384, rts := b - 16384 } else e

/-- L2_LINE_SWEEP: a die visits a line (R244). -/
def execL2LineSweep (s : State) : Out :=
  let die := s.ev.x
  match l2At s die s.ev.y with
  | none => .next s
  | some e => .next (setL2 s die s.ev.y (visitLine (s.dieAt die).bcast e))

/-! ### What time brings about at the latest (R242, R244) -/

/-- The cores that have not ticked in span a do so, and every core ticks in the spans up to span b. -/
def lateTicks (s : State) (a b : Nat) : State :=
  (s.cores.filter (fun p => p.2.enabled)).foldl (fun s p =>
    let n := (b - a) - (if p.2.ticked = a + 1 then 1 else 0)
    if n = 0 then s else setPts s p.1 (p.2.pts + BitVec.ofNat 16 n)) s

/-- Every die that has not broadcast in span a does so. -/
def lateBroadcasts (s : State) (a b : Nat) : State :=
  (s.dies.map (fun p => p.1)).foldl (fun s d => if b = a + 1 && (s.dieAt d).told = a + 1 then s else tellPts s d) s

/-- Every line and every copy is visited. -/
def visitAll (s : State) : State :=
  { s with
    dies := s.dies.map (fun p => (p.1, { p.2 with l2 := p.2.l2.map (fun q => (q.1, visitLine p.2.bcast q.2)) }))
    cores := s.cores.map (fun p => (p.1, { p.2 with l1 := p.2.l1.map (fun q => (q.1, markCopy s p.1 q.2)) })) }

/-- The spans from a to b pass; at every 2^13th, every line and copy is visited. -/
def passSpans : Nat → Nat → Nat → State → State
  | 0, _, _, s => s
  | n + 1, a, b, s =>
    if b ≤ a then s
    else
      let c := min b ((a / 8192 + 1) * 8192)
      let s := lateBroadcasts (lateTicks s a c) a c
      passSpans n c b (if c % 8192 = 0 then visitAll s else s)

/-- Time passes from one cycle to another. -/
def passTime (s : State) (cc : Nat) : State :=
  { passSpans (cc / 2097152 - s.cc / 2097152 + 1) (s.cc / 256) (cc / 256) s with cc := cc }

/-- EXTERNAL_AGENT_WRITE: bytes written at a die's L2 by an agent without logical time (R243), or by the host in its own memory (R239). -/
def execExternalAgentWrite (s : State) : Out :=
  let bs := s.ev.nums.map (BitVec.ofNat 8)
  if (splitLines s.ev.y bs).all (fun p => backed s (64 * p.1)) then .next ((agentWrite s s.ev.x s.ev.y bs).getD s)
  else if (splitLines s.ev.y bs).any (fun p => backed s (64 * p.1)) then .next s
  else .next (memWrite s s.ev.y bs)

/-- Reserved bits of a schedule entry are zero (R4, R204). -/
def schedOk (e : BitVec 128) : Bool := e.extractLsb' 115 5 = 0 && e.extractLsb' 52 12 = 0 && e.extractLsb' 0 6 = 0

/-- RESIDENCY_SCHEDULE_LOAD: a die's schedule is loaded between launches, while no grid runs that may use the die; a schedule with an invalid entry is
not (R4, R204; log entry 65). -/
def execResidencyScheduleLoad (s : State) : Out :=
  let die := s.ev.x
  if s.grids.any (fun p => !p.2.ended && p.2.diesMask.testBit die) || !(s.ev.nums.take 256).all (fun n => schedOk (BitVec.ofNat 128 n)) then .next s
  else .next (s.modDie die (fun d => { d with sched := (s.ev.nums.take 256).map (BitVec.ofNat 128) }))

/-- RESIDENCY_EVICTION: a core evicts a window line that the phase advance left at priority 0, writing it back first (R206). -/
def execResidencyEviction (s : State) : Out :=
  let c := s.ev.x
  let line := s.ev.y
  let k := s.coreAt c
  noteOut s c 3 <|
  if !k.evictQ.contains line then .next s
  else
    let wb := (winsOf s c line).foldl (fun o p => o.bind (fun s => match kGet p.2.2 p.2.1.lines with
      | some l => writeBackLine s c p.1 p.2.1.off p.2.2 l
      | none => some s)) (drainTo s c (fun e => e.line = line))
    match wb with
    | none => .next s
    | some s =>
      let s := mapWindows s c (fun w => { w with lines := w.lines.filter (fun p => p.2.pa ≠ line) })
      .next (s.modCore c (fun k => { k with evictQ := k.evictQ.filter (fun l => l ≠ line) }))

end Sys2Proof.Machine
end

