-- ==== Sys2Proof/Machine/Protocol.lean ====
section
/-! DEFINITION. The events of the directory protocol and of the memory-side cache (22_coherence.md R353-R358, R363). -/

namespace Sys2Proof.Machine

/-- The die has a request for the line at the home already. -/
def requested (s : State) (die line : Nat) : Bool :=
  match homeDie s line with
  | none => true
  | some h =>
    let e := dirAt s h line
    e.waiting.any (fun r => r.die = die && r.kind != .wb) || (match e.tr with
      | some t => t.req = die
      | none => false)

/-- RDS: a die without the line asks to share it, after the victim among the candidates has left (R353, R205). -/
def execRds (s : State) : Out :=
  let die := s.ev.x
  let line := s.ev.y
  if requested s die line || (l2At s die line).isSome then .next s
  else .next (sendReq (makeRoom s die s.ev.nums) line { kind := .rds, die := die })

/-- RDX: a die asks for write permission (R353); refused on an append page (R361). -/
def execRdx (s : State) : Out :=
  let die := s.ev.x
  let line := s.ev.y
  let held := match l2At s die line with
    | some c => c.st = .m || c.st = .e
    | none => false
  if requested s die line || held || appendLine s line || sealedLine s line then .next s
  else .next (sendReq (makeRoom s die s.ev.nums) line { kind := .rdx, die := die })

/-- UPG: a die that holds the line in S asks for permission without data; the home takes it as an RdX when its bit is clear (R357). -/
def execUpg (s : State) : Out :=
  let die := s.ev.x
  let line := s.ev.y
  let shared := match l2At s die line with
    | some c => c.st = .s
    | none => false
  if requested s die line || !shared || appendLine s line || sealedLine s line then .next s
  else .next (sendReq s line { kind := .upg, die := die })

/-- WB: the die evicts the victim among the candidates (R354, R358). -/
def execWb (s : State) : Out := .next (makeRoom s s.ev.x s.ev.nums)

/-- FWDS: the forward of an RdS reaches the owner (R353). -/
def execFwds (s : State) : Out := .next (answerFwd s s.ev.x .bfs)

/-- FWDX: the forward of an RdX reaches the owner (R353). -/
def execFwdx (s : State) : Out := .next (answerFwd s s.ev.x .bfx)

/-- INV: an invalidation reaches a sharer (R355). -/
def execInvSnoop (s : State) : Out := .next (answerInv s s.ev.x s.ev.y)

/-- SNOOP_RESPONSE: once every answer has arrived, the request completes (R353, R356). -/
def execSnoopResponse (s : State) : Out := .next (snoopDone s s.ev.x)

/-- WB_ACKNOWLEDGE: the die frees a write-back buffer entry that the home has acknowledged (R358). -/
def execWbAcknowledge (s : State) : Out :=
  match kGet s.ev.y (s.dieAt s.ev.x).wbuf with
  | some w => if w.acked then .next (s.modDie s.ev.x (fun d => { d with wbuf := kDel s.ev.y d.wbuf })) else .next s
  | none => .next s

/-- MSC_EVICTION: the victim among the candidates that the cache holds and whose entries are at rest (R363). -/
def execMscEviction (s : State) : Out :=
  let h := s.ev.x
  match mscVictim s h s.ev.nums with
  | none => .next s
  | some l => .next (evictMsc s h l)

end Sys2Proof.Machine
end

