-- ==== Sys2Proof/Machine/System.lean ====
section
/-! DEFINITION. The system instructions of class Y (16_scheduling_faults.md R284-R293) and the capability list (01_machine.md R12-R16). -/

namespace Sys2Proof.Machine

/-- A supervisor instruction: in user mode it takes the Privilege trap (R267). -/
def supervised (s : State) (k : Out) : Out := if s.team.trap.sup then k else trapAll s privilege

/-! ### Special registers (R286, R287) -/

/-- SRR (R286). -/
def execSrr (f : Fields) (s : State) : Out :=
  issue (.srr f) s (fun t _ x => finish s (readSpecial s t x.a.toNat x.d.toNat 0) x)

/-- A value that `srw` may write to a register (R287). -/
def srwOk (code : Nat) (v : DWord) : Bool :=
  let w := v.extractLsb' 0 32
  match code with
  | 0x0F => w.toNat < 128
  | 0x10 => w.toNat < 8 && w != 5 && w != 6 && w != 7
  | 0x15 => w = 0 || nfValid w
  | 0x16 => w = 0 || nfValid w
  | 0x17 => w = 0 || nfValid w
  | 0x18 => w = 0 || nfValid w
  | 0x20 => v.extractLsb' 0 2 = 0
  | 0x21 => v.extractLsb' 0 2 = 0
  | _ => true

/-- The register written. -/
def writeSpecial (t : Team) (code : Nat) (v : DWord) : Team :=
  let w := v.extractLsb' 0 32
  match code with
  | 0x0F => { t with rep := w.extractLsb' 0 7 }
  | 0x10 => { t with fmode := w }
  | 0x11 => { t with est := w }
  | 0x15 => { t with nf0 := w }
  | 0x16 => { t with nf1 := w }
  | 0x17 => { t with nf2 := w }
  | 0x18 => { t with nf3 := w }
  | 0x20 => { t with trap := { t.trap with tpc := v, tpcWritten := true } }
  | 0x21 => { t with trap := { t.trap with tvec := v } }
  | _ => t

/-- SRW (R287); in user mode the Privilege trap of a supervisor register comes before the check of the value (log entry 109). -/
def execSrw (f : Fields) (s : State) : Out :=
  issue (.srw f) s (fun t _ x =>
    let code := x.d.toNat
    let v : DWord := if code = 0x20 || code = 0x21 then srcS64 t x.a.toNat (immOf x) else (srcS t x.a.toNat (immOf x)).zeroExtend 64
    let go : Out := if srwOk code v then finish s (writeSpecial t code v) x else trapAll s illegalOperand
    if code = 0x0F || code = 0x20 || code = 0x21 then supervised s go else go)

/-! ### Leaving a handler (R274, R288, R293) -/

/-- Copies of a team that a segment fault paused go on once the fault has been taken and the handler returns (R224). -/
def retryCopies (s : State) (tid : Nat) : State :=
  let t := s.teamAt tid
  if t.pendCopy.isSome then s
  else s.modPart t.partNo (fun p => { p with copyQ := p.copyQ.map (fun o => if o.tid = tid then { o with paused := false } else o) })

/-- TRET (R288). -/
def execTret (s : State) : Out :=
  issue .tret s (fun _ _ _ => supervised s (.next (returnTrap (retryCopies s s.cur) s.cur)))

/-- HALT: the team ends by fault (R293). -/
def execHalt (f : Fields) (s : State) : Out :=
  issue (.halt f) s (fun _ _ _ => supervised s (.next (endTeamBad s s.cur 1)))

/-! ### First-touch mapping (R289) -/

/-- FMAP: the walker's service of a first-touch page, in the memory queue's table of operations; skipped with an empty mask (R289). -/
def execFmap (f : Fields) (s : State) : Out :=
  issue (.fmap f) s (fun t _ x => supervised s (
    if t.mask = 0 then finish s t x
    else
      let m := modOf .y x
      enqueueOp s t x { newOp t (.fmap (srcS64 t x.a.toNat 0).toNat false) 0 with
        dst := if x.d.toNat < 64 then some x.d.toNat else none
        flag := selFlag t m } none))

/-! ### TLB invalidation (R284, R290) -/

/-- Cores of the set that `tlbinv` names. -/
def namedCore (lvl c other : Nat) : Bool :=
  if lvl = 0 then other = c else if lvl = 1 then dieOf other = dieOf c else true

/-- An operation whose accesses are translated and not yet performed. -/
def translatedOp (o : MemOp) : Bool :=
  !o.performed && (match o.kind with
    | .load _ _ _ => true
    | .sload => true
    | .store _ => true
    | .atom _ _ => true
    | .append _ _ _ _ => true
    | .sealPg _ _ => true
    | .smap _ _ _ _ => true
    | _ => false)

/-- A queued transfer of matrix state with its translations. -/
def translatedMat (o : MatOp) : Bool :=
  match o.kind with
  | .save _ _ => true
  | .rest _ _ => true
  | _ => false

/-- An entry that `tlbinv` drops: of the ASID, and, with an address, covering its page. -/
def droppedEntry (s : State) (die asid : Nat) (page : Option Nat) (e : TlbEntry) : Bool :=
  e.asid = asid && (match page with
    | none => true
    | some va =>
      let r := regionOf s die asid va
      e.vpage < pageBase r va + pageSize r && pageBase r va < e.vpage + e.size)

/-- A block's staged writes that rest on translations of a context (R372). -/
def stagedOf (s : State) (asid : Nat) (b : Block) : Bool := b.staged ≠ [] && (s.gridAt b.grid).asid = asid

/-- TLBINV: once no access of the named set still rests on an old translation, the entries go (R284, R290); the store buffers of the named
cores are drained for that. -/
def execTlbinv (f : Fields) (s : State) : Out :=
  issue (.tlbinv f) s (fun t _ x => supervised s (
    let lvl := x.d.toNat
    let asid := (s.gridAt t.grid).asid
    let die := dieOf t.core
    let page := if x.a.toNat = 120 then none else some (srcS64 t x.a.toNat 0).toNat
    let inSet (p : Nat × Team) : Bool := namedCore lvl t.core p.2.core && (s.gridAt p.2.grid).asid = asid
    if s.teams.any (fun p => inSet p && (p.2.memQ.any translatedOp || p.2.matQ.any translatedMat)) ||
      s.blocks.any (fun p => namedCore lvl t.core p.2.core && stagedOf s asid p.2) then .next s
    else match (s.cores.filter (fun p => namedCore lvl t.core p.1 && p.2.sbuf ≠ [])).foldl (fun o p => o.bind (fun s => drainAll s p.1)) (some s) with
    | none => .next s
    | some s =>
      let keep (e : TlbEntry) : Bool := !droppedEntry s die asid page e
      let s := { s with
        cores := s.cores.map (fun p => if namedCore lvl t.core p.1 then (p.1, { p.2 with tlb := p.2.tlb.filter keep }) else p)
        teams := s.teams.map (fun p => if inSet p then (p.1, { p.2 with xlat := p.2.xlat.filter keep }) else p) }
      finish s s.team x))

/-! ### The capability list (R12-R16, R291) -/

/-- Header of a record (R12). -/
def capHeader (id ver len next gen : Nat) : List Byte := leBytes 2 id ++ leBytes 1 ver ++ leBytes 1 len ++ leBytes 2 next ++ leBytes 6 0 ++ leBytes 4 gen

/-- Bytes of a body, padded to a whole record. -/
def capBody (len : Nat) (bs : List Byte) : List Byte := (bs ++ List.replicate (16 * len) 0).take (16 * len - 16)

/-- Enabled cores of a die as a mask. -/
def dieCores (s : State) (d : Nat) : Nat :=
  (List.range Config.coresPerDie).foldl (fun a i => if (s.coreAt (Config.coresPerDie * d + i)).enabled then a + 2 ^ i else a) 0

def enabledCores (s : State) : Nat := (List.range Config.cores).countP (fun c => (s.coreAt c).enabled)

/-- Extents that record 0x0005 lists: present and closing, in ascending base order. -/
def listedExtents (s : State) : List Extent := s.plat.extents.filter (fun e => e.st ≠ .lost)

/-- Records of the list: identifier, length in 16-byte units, units set aside for it, generation, body (R15). -/
def capRecords (s : State) : List (Nat × Nat × Nat × Nat × List Byte) :=
  let p := s.plat
  let es := listedExtents s
  [(1, 2, 2, 0, leBytes 4 Config.encodingHash ++ leBytes 2 Config.steppingId),
   (2, 6, 6, p.genInv, leBytes 1 ((List.range Config.dies).foldl (fun a d => if dieCores s d = 0 then a else a + 2 ^ d) 0) ++ [0] ++
      leBytes 2 (enabledCores s) ++ leBytes 2 (4 * enabledCores s) ++ leBytes 2 0 ++ (List.range Config.dies).flatMap (fun d => leBytes 8 (dieCores s d))),
   (3, 2, 2, 0, leBytes 2 256 ++ leBytes 2 256 ++ [8, 8, 8, 5, 7, 0x0F, 1]),
   (4, 2, 2, 0, leBytes 2 2048 ++ leBytes 2 128 ++ [16, 6, 3, 64] ++ leBytes 2 64),
   (5, 3 + es.length, 3 + Config.maxExtents, p.genExt, leBytes 8 Config.hbmBytes ++ leBytes 8 (768 * 2 ^ 20) ++ leBytes 8 (32 * 2 ^ 40) ++ [8, p.cxlMask] ++
      leBytes 2 es.length ++ leBytes 4 0 ++ es.flatMap (fun e => leBytes 8 e.base ++ leBytes 8 e.len)),
   (6, 2, 2, p.genLink, leBytes 1 12 ++ [0] ++ leBytes 2 p.suinoMask.toNat ++ leBytes 2 p.podId.toNat ++ leBytes 1 p.pkgIndex ++ leBytes 1 p.pkgs),
   (7, 2, 2, 0, leBytes 8 7 ++ leBytes 8 0xFFFFFFFF),
   (8, 4, 4, 0, leBytes 2 2 ++ leBytes 2 3 ++ leBytes 12 0 ++ leBytes 2 1 ++ leBytes 2 1 ++ leBytes 4 0 ++ leBytes 2 2 ++ leBytes 2 1 ++ leBytes 4 0 ++
      leBytes 2 3 ++ leBytes 2 1 ++ [1, 0] ++ leBytes 2 400),
   (9, 2, 2, 0, leBytes 2 8192 ++ leBytes 2 256 ++ [1]),
   (10, 2, 2, 0, [6, 0x3F])]

/-- Lay records out one after another, each in the units set aside for it. -/
def layCaps (off : Nat) : List (Nat × Nat × Nat × Nat × List Byte) → List Byte
  | [] => []
  | (id, len, room, gen, body) :: r =>
    (capHeader id 1 len (if r = [] then 0 else off + 16 * room) gen ++ capBody len body ++ List.replicate (16 * (room - len)) 0) ++ layCaps (off + 16 * room) r

/-- The control page's first 4 KiB: the list from 0x100, zero elsewhere. -/
def capWord (s : State) (off : Nat) : Word :=
  if off < 0x100 then 0 else BitVec.ofNat 32 (leNat (((layCaps 0x100 (capRecords s)).drop (off - 0x100)).take 4))

/-- CAPR (R291). -/
def execCapr (f : Fields) (s : State) : Out :=
  issue (.capr f) s (fun t _ x =>
    let off := (immOf x).toNat
    if off % 4 ≠ 0 || 0x1000 ≤ off then trapAll s illegalOperand
    else finish s (t.setSdst x.d.toNat (capWord s off)) x)

/-! ### Phases (R206, R292) -/

/-- Window lines of a core whose global lines have priority 0. -/
def lowLines (s : State) (c : Nat) : List Nat :=
  ((onCore s c).flatMap (fun p => p.2.windows.flatMap (fun w => w.lines.map (fun q => q.2.pa)))).filter (fun l => linePrio s (dieOf c) l = 0)

/-- A die's phase advances; each of its cores notes the window lines to evict, beside those of earlier advances that it still has to evict (R206). -/
def advancePhase (s : State) (die a : Nat) : State :=
  let s := s.modDie die (fun d => { d with phase := a })
  { s with cores := s.cores.map (fun p => if dieOf p.1 = die then (p.1, { p.2 with evictQ := p.2.evictQ ++ (lowLines s p.1).filter (fun l => !p.2.evictQ.contains l) }) else p) }

/-- PHASE (R292). -/
def execPhase (f : Fields) (s : State) : Out :=
  issue (.phase f) s (fun t _ x =>
    let a := (srcS t x.a.toNat (immOf x)).toNat
    let die := dieOf t.core
    if 254 < a then trapAll s illegalOperand
    else
      let step := (a + 256 - (s.dieAt die).phase) % 256
      finish (if 1 ≤ step && step ≤ 127 then advancePhase s die a else s) t x)

end Sys2Proof.Machine
end

