-- ==== Sys2Proof/Machine/Platform.lean ====
section
/-! DEFINITION. The memory tiers, the channels, the key store and the management plane (22_coherence.md R362-R367; 11_memory.md R186, R190;
25_platform.md R380-R394; 01_machine.md R10-R15). -/

namespace Sys2Proof.Machine

def modPlat (s : State) (f : Plat → Plat) : State := s.setPlat (f s.plat)

/-- Cycles in a millisecond at 700 MHz. -/
def msCycles : Nat := 700000

/-! ### Tier extents (R15, R362-R367) -/

/-- Extents in rising base order. -/
def insertExtent (e : Extent) : List Extent → List Extent
  | [] => [e]
  | f :: r => if e.base ≤ f.base then e :: f :: r else f :: insertExtent e r

/-- A generation count once a change of its record's body begins: odd, whether or not the change before it has ended (R14). -/
def bumpGen (g : Nat) : Nat := g + 1 + g % 2

/-- Bytes of the extents that are not lost. -/
def tierUsed (p : Plat) : Nat := ((p.extents.filter (fun e => e.st ≠ .lost)).map (fun e => e.len)).foldl (· + ·) 0

/-- A new extent: above HBM, in the address space, of a port that exists, apart from the others, within the tier's 32 TiB (R6, R350, R405). -/
def extentFits (s : State) (b n port : Nat) : Bool :=
  Config.hbmBytes ≤ b && n != 0 && b % 4096 = 0 && n % 4096 = 0 && b + n ≤ 2 ^ 52 && port < Config.dies &&
  s.plat.extents.all (fun e => b + n ≤ e.base || e.base + e.len ≤ b) &&
  (s.plat.extents.filter (fun e => e.st ≠ .lost)).length < Config.maxExtents && tierUsed s.plat + n ≤ Config.tierBytes

/-- EXTENT_ADD: an extent becomes present; an add past 200 is declined (R15, R362). -/
def execExtentAdd (s : State) : Out :=
  if !extentFits s s.ev.x s.ev.y s.ev.z then .next s
  else .next (modPlat s (fun p => { p with
    extents := insertExtent { base := s.ev.x, len := s.ev.y, port := s.ev.z, st := .present } p.extents, genExt := bumpGen p.genExt }))

def extentNamed (s : State) (b : Nat) : Option Extent := s.plat.extents.find? (fun e => e.base = b)

def setExtentSt (p : Plat) (b : Nat) (st : ExtSt) : Plat :=
  { p with extents := p.extents.map (fun e => if e.base = b then { e with st := st } else e), genExt := bumpGen p.genExt }

def removeExtent (p : Plat) (b : Nat) : Plat := { p with extents := p.extents.filter (fun e => e.base ≠ b), genExt := bumpGen p.genExt }

/-- The mailbox presents the next request and raises the host interrupt (R365). -/
def presentNext (p : Plat) : Plat :=
  if p.xpend then p
  else match p.xwait with
    | [] => p
    | (b, forced) :: r =>
      let len := ((p.extents.find? (fun e => e.base = b)).map (fun e => e.len)).getD 0
      { p with xbase := BitVec.ofNat 64 b, xlen := BitVec.ofNat 64 len, xpend := true, xforced := forced, xwait := r, intr := true }

/-- The mailbox is free again. -/
def freeMailbox (p : Plat) : Plat := presentNext { p with xpend := false, xforced := false, xbase := 0, xlen := 0 }

/-- EXTENT_RELEASE_REQUEST: a normal release waits its turn in the mailbox (R365, R366). -/
def execExtentReleaseRequest (s : State) : Out :=
  match extentNamed s s.ev.x with
  | none => .next s
  | some e => if e.st ≠ .present then .next s else .next (modPlat s (fun p => presentNext { p with xwait := p.xwait ++ [(e.base, false)] }))

/-- The host accepts the request presented (R366). -/
def acceptExtent (s : State) : State :=
  if !s.plat.xpend || s.plat.xforced then s else modPlat s (fun p => freeMailbox (setExtentSt p p.xbase.toNat .closing))

/-- The host declines it: the extent stays present (R366). -/
def declineExtent (s : State) : State := if !s.plat.xpend || s.plat.xforced then s else modPlat s freeMailbox

/-- EXTENT_ACCEPT (R366). -/
def execExtentAccept (s : State) : Out := .next (acceptExtent s)

/-- EXTENT_DECLINE (R366). -/
def execExtentDecline (s : State) : Out := .next (declineExtent s)

/-- EXTENT_CLOSE_COMPLETE: once no request for its lines is under way, every die copy of a closing extent's lines is recalled, every dirty line reaches the
device, and the extent is gone with its lines' entries (R366). -/
def execExtentCloseComplete (s : State) : Out :=
  match extentNamed s s.ev.x with
  | none => .next s
  | some e =>
    let here (l : Nat) : Bool := e.base ≤ 64 * l && 64 * l < e.base + e.len
    if e.st ≠ .closing || (s.dieAt e.port).dir.any (fun q => here q.1 && (q.2.tr.isSome || q.2.waiting != [])) then .next s
    else
      let s := (heldLines s e.base e.len).foldl (fun s l => evictMsc s e.port l) s
      .next (modPlat (s.modDie e.port (fun d => { d with dir := d.dir.filter (fun q => !here q.1) })) (fun p => removeExtent p e.base))

/-- Dirty lines of a range, in the memory-side cache, in every die's L2, and on their way from one (R367). -/
def dirtyLines (s : State) (b n : Nat) : Nat :=
  (heldLines s b n).countP (fun l => s.dies.any (fun p =>
    ((kGet l p.2.dir).bind (fun d => d.tr.bind (fun t => t.data))).any (fun d => d.2.2) ||
    (match kGet l p.2.msc with
     | some e => e.dirty
     | none => false) || (match kGet l p.2.l2 with
     | some c => c.st = .m || c.st = .o
     | none => false) || (match kGet l p.2.wbuf with
     | some w => !w.acked
     | none => false)))

/-- Every copy and every directory entry of a range is dropped. -/
def dropLines (s : State) (b n : Nat) : State :=
  let out (l : Nat) : Bool := !(b ≤ 64 * l && 64 * l < b + n)
  { s with dies := s.dies.map (fun p => (p.1, { p.2 with
      l2 := p.2.l2.filter (fun q => out q.1), wbuf := p.2.wbuf.filter (fun q => out q.1), msc := p.2.msc.filter (fun q => out q.1),
      dir := p.2.dir.filter (fun q => out q.1) })) }

/-- FORCED_EXTENT_RELEASE: the extent is lost at once, its dirty lines discarded, its pages poisoned (R367). -/
def execForcedExtentRelease (s : State) : Out :=
  match extentNamed s s.ev.x with
  | none => .next s
  | some e =>
    if e.st = .lost then .next s
    else
      let s1 := logAt (dropLines s e.base e.len) e.port (.forcedRelease e.base e.len (dirtyLines s e.base e.len))
      let s1 := s1.modDie e.port (fun d => { d with poison := d.poison ++ [(e.base, e.len)] })
      .next (modPlat s1 (fun p =>
        let p := setExtentSt p e.base .lost
        if p.xpend && p.xbase.toNat = e.base then { p with xforced := true, intr := true }
        else presentNext { p with xwait := p.xwait.filter (fun w => w.1 ≠ e.base) ++ [(e.base, true)] }))

/-- The host writes DONE: the poison entries go, and so does the extent (R367). -/
def doneExtent (s : State) : State :=
  if !s.plat.xpend || !s.plat.xforced then s
  else
    let b := s.plat.xbase.toNat
    let s := { s with dies := s.dies.map (fun d => (d.1, { d.2 with poison := d.2.poison.filter (fun r => r.1 ≠ b) })) }
    modPlat s (fun p => freeMailbox (removeExtent p b))

/-- EXTENT_DONE (R367). -/
def execExtentDone (s : State) : Out := .next (doneExtent s)

/-! ### Frames (R186, R190) -/

/-- A range leaves a list of free ranges. -/
def takeRange (f n : Nat) (l : List (Nat × Nat)) : List (Nat × Nat) :=
  l.flatMap (fun r =>
    if f + n ≤ r.1 || r.1 + r.2 ≤ f then [r]
    else (if r.1 < f then [(r.1, f - r.1)] else []) ++ (if f + n < r.1 + r.2 then [(f + n, r.1 + r.2 - f - n)] else []))

/-- APPEND_FRAME_ALLOC: system software obtains a frame for an append page: zero, tail 0, open (R186). -/
def execAppendFrameAlloc (s : State) : Out :=
  let f := s.ev.x
  let n := s.ev.y
  if n = 0 || f % n ≠ 0 || !backed s f || !backed s (f + n - 1) || s.pages.any (fun p => p.1 < f + n && f < p.1 + p.2.size) then .next s
  else
    let s := setPageRec (zeroFrame s f n) f { size := n, tail := 0, st := .opened, pending := 0, recalled := [] }
    .next { s with pools := kPut s.ev.z (takeRange f n (kGetD s.ev.z [] s.pools)) s.pools }

/-- Address of the leaf that maps a virtual address to a frame, in a context as a die's walkers hold it. -/
def leafOf (s : State) (die asid va f : Nat) : Option Nat :=
  let r := regionOf s die asid va
  match descend s (rfPsz r) va 5 (rfRoot r) with
  | .leaf a e => if rfValid r && ptePpn e = f then some a else none
  | _ => none

/-- PAGE_FREE: a sealed page's mapping goes, then its replicas on every die, and its frame may be used again (R190). The event names the
frame, its pool, and the mapping by address, context and die. -/
def execPageFree (s : State) : Out :=
  let f := s.ev.x
  match kGet f s.pages, leafOf s s.ev.w.toNat s.ev.u s.ev.y f with
  | none, _ => .next s
  | _, none => .next s
  | some g, some a =>
    if g.st ≠ .sealed then .next s
    else match agentWrite s s.ev.w.toNat a (leBytes 8 0) with
    | none => .next s
    | some s =>
      let lines (l : Nat) : Bool := f ≤ 64 * l && 64 * l < f + g.size
      let s := (List.range Config.dies).foldl (fun s d => recallSealed s d lines) s
      let keep (e : TlbEntry) : Bool := !(e.ppage < f + g.size && f < e.ppage + e.size)
      .next { s with
        pages := kDel f s.pages
        pools := kPut s.ev.z (kGetD s.ev.z [] s.pools ++ [(f, g.size)]) s.pools
        cores := s.cores.map (fun p => (p.1, { p.2 with tlb := p.2.tlb.filter keep }))
        teams := s.teams.map (fun p => (p.1, { p.2 with xlat := p.2.xlat.filter keep })) }

/-! ### Channels and telemetry (R380-R384) -/

/-- Class whose turn a place of the round is: W1 turns of class 1, then W2 of class 2, then W3 of class 3 (R381). -/
def turnClass (w : Nat → Nat) (n : Nat) : Nat := if n < w 1 then 1 else if n < w 1 + w 2 then 2 else 3

/-- The class served next among those with a ready request, and the place of the round after it; `w` gives the weights. -/
def nextClass (w : Nat → Nat) (ready : Nat → Bool) (pos : Nat) : Option (Nat × Nat) :=
  let n := w 1 + w 2 + w 3
  if ready 0 then some (0, pos)
  else ((List.range n).find? (fun i => ready (turnClass w ((pos + i) % n)))).map (fun i => (turnClass w ((pos + i) % n), (pos + i + 1) % n))

/-- a precedes b modulo 4,096 (R381). -/
def stampBefore (a b : Nat) : Bool := a % 4096 != b % 4096 && (b + 4096 - a % 4096) % 4096 < 2048

/-- The request of earliest stamp, ties to the earliest arrival. -/
def earliest : List ChanReq → Option ChanReq
  | [] => none
  | r :: l => match earliest l with
    | none => some r
    | some q => some (if stampBefore q.stamp r.stamp then q else r)

/-- Take the first equal request off a list. -/
def dropReq (r : ChanReq) : List ChanReq → List ChanReq
  | [] => []
  | q :: l => if q = r then l else q :: dropReq r l

/-- Sources of requests other than the instructions of classes M and C (R380). -/
inductive Source where
  | fetch | walk | sld | fmap | plane | msave | mrest | save | restore | windowWriteBack | replication | pref | eviction | msc
  deriving DecidableEq, Repr

/-- Class of a source (R380). -/
def Source.cls : Source → Nat
  | .fetch => 0
  | .walk => 0
  | .sld => 0
  | .fmap => 0
  | .plane => 1
  | .msave => 1
  | .mrest => 1
  | .save => 2
  | .restore => 2
  | .windowWriteBack => 2
  | .replication => 2
  | .pref => 3
  | .eviction => 3
  | .msc => 3

/-- The source that a number names. -/
def sourceAt (n : Nat) : Option Source :=
  ([.fetch, .walk, .sld, .fmap, .plane, .msave, .mrest, .save, .restore, .windowWriteBack, .replication, .pref, .eviction, .msc] : List Source)[n]?

/-- Requests of these sources that have reached their stacks, given as line, source, requester. -/
def otherRequests (s : State) : List Nat → State
  | l :: c :: w :: r => otherRequests (match sourceAt c with
    | some x => chanRequest s x.cls w l
    | none => s) r
  | _ => s

/-- A saturating 32-bit counter. -/
def count1 (k : Nat) (m : KMap Word) : KMap Word :=
  let v : Word := kGetD k 0 m
  kPut k (if v = BitVec.allOnes 32 then v else v + 1) m

/-- Places of a bank and of a row of a stack in the tables of R384; how many banks a stack has is not stated. -/
def bankKey (stack bank : Nat) : Nat := stack + 16 * (bank % 65536)
def rowKey (stack bank row : Nat) : Nat := bankKey stack bank + 2 ^ 20 * row

/-- Activations at which a row's stack raises its alert (R384). -/
def alertAt (p : Plat) : Nat := max 256 (p.actth.extractLsb' 0 14).toNat

/-- A bank issues no activate: one of its rows has reached the threshold. -/
def bankHeld (p : Plat) (stack bank : Nat) : Bool := p.rowAct.any (fun r => r.1 % 2 ^ 20 = bankKey stack bank && alertAt p ≤ r.2)

/-- A bank's open row is precharged, and counted as it is (R384). -/
def precharge (p : Plat) (stack bank : Nat) : Plat :=
  match kGet (bankKey stack bank) p.openRow with
  | none => p
  | some r => { p with
      rowAct := kPut (rowKey stack bank r) (min 16383 (kGetD (rowKey stack bank r) 0 p.rowAct + 1)) p.rowAct
      openRow := kDel (bankKey stack bank) p.openRow }

/-- The weight that a waiting class has in the round: that of the request it serves next (R382). -/
def waitingWeight (here : List ChanReq) (cls : Nat) : Nat := ((earliest (here.filter (fun r => r.cls = cls))).map (fun r => max 1 r.wgt)).getD 1

/-- The next request of a class is ready: its bank is not held. A later one of the class does not pass it (R381, R384). -/
def classReady (p : Plat) (here : List ChanReq) (cls : Nat) : Bool :=
  match earliest (here.filter (fun r => r.cls = cls)) with
  | none => false
  | some r => !bankHeld p r.stack (Config.bankOf r.line)

/-- CHANNEL_SERVICE: a channel serves its next ready request, after an activate of a row of its bank where the event says so; one whose stamp has passed
counts as missed. A request to a held bank waits, and other classes go on, also where the precharge ahead of its activate has brought the closed row to the
threshold (R381-R384). -/
def execChannelService (s : State) : Out :=
  let s := otherRequests s s.ev.nums
  let here := s.plat.chan.filter (fun r => r.stack = s.ev.x && Config.channelOf r.line % 32 = s.ev.y)
  let key := 32 * s.ev.x + s.ev.y
  match nextClass (waitingWeight here) (classReady s.plat here) (kGetD key 0 s.plat.rrChan) with
  | none => .next s
  | some (cls, pos) =>
    match earliest (here.filter (fun r => r.cls = cls)) with
    | none => .next s
    | some r =>
      let late := stampBefore r.stamp (s.cc / 28 % 4096)
      let bank := Config.bankOf r.line
      let p := if s.ev.ok then precharge s.plat s.ev.x bank else s.plat
      if bankHeld p s.ev.x bank then .next (s.setPlat p)
      else .next (s.setPlat { p with
        openRow := if s.ev.ok then kPut (bankKey s.ev.x bank) s.ev.z p.openRow else p.openRow
        chan := dropReq r p.chan
        rrChan := kPut key pos p.rrChan
        missed := if late then count1 (4 * r.who + cls) p.missed else p.missed })

/-- ROW_ACTIVATION_ALERT: a row at its threshold: its neighbours are refreshed, its counter is cleared, its bank goes on, the stack counts the
back-off (R384). -/
def execRowActivationAlert (s : State) : Out :=
  let row := rowKey s.ev.x s.ev.z s.ev.y
  if kGetD row 0 s.plat.rowAct < alertAt s.plat then .next s
  else .next (modPlat s (fun p => { p with rowAct := kPut row 0 p.rowAct, alerts := count1 s.ev.x p.alerts }))

/-! ### Lane margins (R385, R386) -/

def laneKey (stack lane : Nat) : Nat := 4096 * stack + lane
def laneAt (p : Plat) (stack lane : Nat) : Word := kGetD (laneKey stack lane) 0 p.lanes

/-- A margin lies below EYETH. -/
def laneLow (p : Plat) (w : Word) : Bool :=
  (w.extractLsb' 8 8).toNat < (p.eyeth.extractLsb' 8 8).toNat || (w.extractLsb' 0 8).toNat < (p.eyeth.extractLsb' 0 8).toNat

/-- A lane's word with new margins. -/
def withMargins (w : Word) (volt time : Nat) : Word := (w &&& 0xFFFF0000) ||| BitVec.ofNat 32 (256 * (volt % 256) + time % 256)

/-- A lane's word changes; a lane that is at the threshold or above can fall again (R386). -/
def setMargins (p : Plat) (k n : Nat) (w : Word) : Plat :=
  { p with
    lanes := kPut (laneKey k n) w p.lanes
    lowSeen := if laneLow p w then p.lowSeen else p.lowSeen.filter (fun x => x ≠ laneKey k n) }

/-- Readings of the lanes' monitors: stack, lane, voltage and timing margin. -/
def readLanes (p : Plat) : List Nat → Plat
  | k :: n :: v :: t :: r =>
    readLanes (if k < 16 && n < 2112 then setMargins p k n (withMargins (laneAt p k n) v t) else p) r
  | _ => p

/-- TELEMETRY_COPY: the management controller, once released, copies the missed-deadline counters, and the lanes' margins as their monitors read,
into the page (R383, R385). -/
def execTelemetryCopy (s : State) : Out :=
  if !s.plat.mgmt then .next s else .next (modPlat s (fun p => readLanes { p with missedPage := p.missed } s.ev.nums))

/-- Channel of a lane, and its index in it: 64 data lanes, then two spares (R385). -/
def laneChannel (n : Nat) : Nat := if n < 2048 then n / 64 else (n - 2048) / 2
def laneIndex (n : Nat) : Nat := if n < 2048 then n % 64 else 64 + n % 2

/-- The lane that a lane carries: of a spare in use, the one repaired onto it (R386). -/
def carried (p : Plat) (k n : Nat) : Nat := ((p.repairs.find? (fun r => r.stack = k && r.spare = n)).map (fun r => r.lane)).getD n

/-- A spare of the channel that is free: neither in use nor itself repaired. -/
def freeSpare (p : Plat) (k n : Nat) : Option Nat :=
  [2048 + 2 * laneChannel n, 2049 + 2 * laneChannel n].find? (fun q =>
    q ≠ n && !(laneAt p k q).getLsbD 30 && !p.repairs.any (fun r => r.stack = k && r.spare = q))

/-- The words of a repair: the spare in use names the lane it carries; the lane, or the spare that failed, counts as repaired and carries none (R385). -/
def showRepair (p : Plat) (n : Nat) (r : Repair) : Plat :=
  let sw : Word := (laneAt p r.stack r.spare &&& 0xFF00FFFF) ||| BitVec.ofNat 32 (2 ^ 31 + 65536 * laneIndex r.lane)
  let p := { p with lanes := kPut (laneKey r.stack r.spare) sw p.lanes }
  { p with lanes := kPut (laneKey r.stack n) ((laneAt p r.stack n &&& 0xFF00FFFF) ||| 0x40000000) p.lanes }

/-- The repair list in flash is applied (R386, R388). -/
def applyRepairs (p : Plat) : Plat := p.repairs.foldl (fun p r => showRepair p r.lane r) p

/-- LANE_RETRAIN: a lane that has fallen below the threshold, and is not repaired, has its channel retrained, with the margins found afterwards; one still
below goes onto a free spare, and the repair into the list in flash, or its channel is degraded (R386). -/
def execLaneRetrain (s : State) : Out :=
  let k := s.ev.x
  let n := s.ev.y
  let p := s.plat
  if !p.mgmt || 16 ≤ k || 2112 ≤ n || !laneLow p (laneAt p k n) || (laneAt p k n).getLsbD 30 || p.lowSeen.contains (laneKey k n) then .next s
  else
    let w := withMargins (laneAt p k n) s.ev.z s.ev.u
    let p1 := { setMargins p k n w with intr := true, lowSeen := if laneLow p w then laneKey k n :: p.lowSeen else p.lowSeen }
    if !laneLow p w then .next (logAt (s.setPlat p1) (k / 2) (.laneEvent k n false))
    else match freeSpare p k n with
      | some q =>
        let r : Repair := { stack := k, lane := carried p k n, spare := q }
        let p2 := { p1 with repairs := p1.repairs.filter (fun x => !(x.stack = k && x.lane = r.lane)) ++ [r] }
        .next (logAt (s.setPlat (showRepair p2 n r)) (k / 2) (.laneEvent k n true))
      | none =>
        let c := 32 * k + laneChannel n
        .next (logAt (s.setPlat { p1 with degraded := if p1.degraded.contains c then p1.degraded else p1.degraded ++ [c] }) (k / 2) (.laneEvent k n false))

/-! ### The key store (R387) -/

/-- The generation after one more change: 1 to 65,535, never 0. -/
def nextGen (g : Nat) : Nat := if 65535 ≤ g then 1 else g + 1

/-- A write of KCMD starts its command; a bad one ends at once; one written while BUSY is ignored. -/
def writeKcmd (s : State) (v : Word) : State :=
  if s.plat.kbusy then s
  else
    let v := v &&& 0xC0001FFF
    let op := (v.extractLsb' 30 2).toNat
    let slot := (v.extractLsb' 0 13).toNat
    if op = 1 || op = 2 then modPlat s (fun p => { p with kcmd := v, kbusy := true, vkeyreq := v })
    else modPlat s (fun p => { p with kcmd := v, kres := 3, kgen := (kGetD slot KeySlot.reset p.keys).gen })

/-- The command has been carried out, with its result. -/
def keyDone (p : Plat) (slot res : Nat) : Plat := { p with kres := res, kgen := (kGetD slot KeySlot.reset p.keys).gen, vkeyreq := 0 }

/-- n bytes of KBLOB. -/
def blobAt (p : Plat) (o n : Nat) : List Nat := (List.range n).map (fun i => (kGetD (o + i) 0 p.kblob).toNat)

/-- The keys in KBLOB, opened with AES-256-GCM under a session key: 64 bytes of keys, the tag, a nonce of 12 bytes, 4 reserved bytes that are zero
(R4, R387; log entry 71). -/
def openBlob (p : Plat) (key : BitVec 256) : Option (BitVec 512) :=
  if bytesNat (blobAt p 92 4) ≠ 0 then none
  else (gcmOpen key (blobAt p 80 12) (blobAt p 0 64) (blobAt p 64 16)).map (fun l => BitVec.ofNat 512 (bytesNat l))

/-- KEY_LOAD: a load opens the blob under the session key and fills an empty slot (R387). -/
def execKeyLoad (s : State) : Out :=
  let p := s.plat
  let slot := (p.vkeyreq.extractLsb' 0 13).toNat
  let k := kGetD slot KeySlot.reset p.keys
  if !p.kbusy || (p.vkeyreq.extractLsb' 30 2).toNat ≠ 1 then .next s
  else if k.loaded then .next (s.setPlat (keyDone p slot 1))
  else match p.session.bind (openBlob p) with
    | none => .next (s.setPlat (keyDone p slot 2))
    | some b =>
      let p := { p with keys := kPut slot { loaded := true, data := b.extractLsb' 0 256, tweak := b.extractLsb' 256 256, gen := nextGen k.gen } p.keys }
      .next (s.setPlat (keyDone p slot 0))

/-- KEY_REVOKE: a revoke empties its slot (R387). -/
def execKeyRevoke (s : State) : Out :=
  let p := s.plat
  let slot := (p.vkeyreq.extractLsb' 0 13).toNat
  let k := kGetD slot KeySlot.reset p.keys
  if !p.kbusy || (p.vkeyreq.extractLsb' 30 2).toNat ≠ 2 then .next s
  else .next (s.setPlat (keyDone { p with keys := kPut slot { loaded := false, data := 0, tweak := 0, gen := nextGen k.gen } p.keys } slot 0))

/-- KSTAT_BUSY_CLEAR: every die observes the slot's new state (R387). -/
def execKstatBusyClear (s : State) : Out :=
  if s.plat.kbusy && s.plat.vkeyreq = 0 then .next (modPlat s (fun p => { p with kbusy := false })) else .next s

/-! ### Boot (R388) -/

/-- An image in device memory: its digest and whether its signature verifies. -/
def imageIn (s : State) : Image :=
  let bs := viewBytes s s.plat.swaddr.toNat s.plat.swlen.toNat
  { digest := Config.imageDigest bs, signed := Config.imageSigned bs }

/-- The image that SWADDR and SWLEN name lies where R390 allows. -/
def imagePlaced (s : State) : Bool := s.plat.swaddr.toNat % 4096 = 0 && s.plat.swlen.toNat ≤ 67108864

/-- The Shell image that the same bytes hold. -/
def shellIn (s : State) : Image :=
  let bs := viewBytes s s.plat.swaddr.toNat s.plat.swlen.toNat
  { digest := Config.shellDigest bs, signed := Config.shellSigned bs }

/-- Cores of the package as the manifest enables them (R8). -/
def enableCores (s : State) (m : BitVec 384) : State :=
  { s with cores := (List.range Config.cores).foldl (fun cs c => kPut c { kGetD c Core.reset cs with enabled := m.getLsbD c } cs) s.cores }

/-- The PMP entries of every command processor are set (R388). -/
def setPmp (p : Plat) : Plat :=
  { p with cps := (List.range (4 * Config.dies)).map (fun i => (i, { kGetD i CpCore.reset p.cps with pmp := Config.pmpEntries i })) }

/-- Command processors of a package, four a die, are released: Carcass runs in S mode. -/
def cpsReleased (s : State) : KMap CpCore := (List.range (4 * Config.dies)).map (fun i => (i, { kGetD i CpCore.reset s.plat.cps with pet := s.cc, mode := 1 }))

/-- A verification failed: boot stops at its phase. -/
def bootFails (s : State) (ph : Nat) : State :=
  modPlat s (fun p => { p with bootPhase := ph, bootStop := true, bootFail := (Config.bootCode ph).toNat })

/-- The manifest is applied: core-disable maps, the memory-side cache's size, trims, and the lane repairs of the list in flash (R388). -/
def applyManifest (s : State) (m : Manifest) : State :=
  modPlat (enableCores s m.enable) (fun p => applyRepairs { p with manifest := m, mscBytes := 33554432 * min m.mscUnits 8, genInv := bumpGen p.genInv })

/-- BOOT: the next phase. `ok` says whether its verification holds; for phase 3 the event gives what the manifest holds: the enabled cores, in units
of 32 MiB the size of the memory-side cache, the trims. -/
def execBoot (s : State) : Out :=
  let ph := s.plat.bootPhase + 1
  let enter (s : State) : State := modPlat s (fun p => { p with bootPhase := ph })
  if s.plat.bootStop || 5 < ph then .next s
  else match ph with
    | 1 => .next (modPlat (enter s) (fun p => { p with identity := some Config.identityKey, cert := some (Config.rootKey, Config.leafKey Config.identityKey) }))
    | 2 => .next (if s.ev.ok && s.plat.flashShell.signed then modPlat (enter s) (fun p => { p with shell := p.flashShell }) else bootFails s 2)
    | 3 => .next (if s.ev.ok then applyManifest (enter s) { enable := s.ev.bits, mscUnits := s.ev.x, trims := s.ev.nums } else bootFails s 3)
    | 4 => .next (if s.ev.ok && s.plat.flash.signed then modPlat (enter s) (fun p => setPmp { p with running := p.flash, routines := true }) else bootFails s 4)
    | _ => .next (modPlat (enter s) (fun p => { p with cps := cpsReleased s, mgmt := true }))

/-- A signed flash image over the host link, while boot has stopped and no swap is under way, is written to flash, and boot restarts (R388, R391). -/
def recoveryWrite (s : State) : State :=
  let i := imageIn s
  if s.plat.bootStop && !(1 ≤ s.plat.swst && s.plat.swst ≤ 3) && imagePlaced s && i.signed then
    modPlat s (fun p => { p with flash := i, flashShell := shellIn s, bootPhase := 1, bootStop := false, bootFail := 0 }) else s

/-- RECOVERY_WRITE (R388). -/
def execRecoveryWrite (s : State) : Out := .next (recoveryWrite s)

/-! ### Live firmware swap (R390, R391) -/

/-- The swap's state, as SWST and VSWAP show it. -/
def setSwap (p : Plat) (st : Nat) : Plat := { p with swst := st, vswap := st }

/-- A swap command is taken: the image is being verified. -/
def startSwap (s : State) : State :=
  if 1 ≤ s.plat.swst && s.plat.swst ≤ 3 then s else modPlat s (fun p => { setSwap p 1 with staged := none })

/-- The Shell verifies the staged image. -/
def verifySwap (s : State) : State :=
  let i := imageIn s
  if s.plat.swst ≠ 1 || s.plat.staged.isSome then s
  else if imagePlaced s && i.signed then modPlat s (fun p => { p with staged := some i })
  else
    let s := modPlat s (fun p => { setSwap p 6 with swreason := (Config.swapReason s.freeCtr).toNat })
    { s with freeCtr := s.freeCtr + 1 }

/-- FIRMWARE_SWAP: a swap command with its verification (R391). -/
def execFirmwareSwap (s : State) : Out := .next (verifySwap (startSwap s))

/-- SWAP_POINT: dispatch stops and the queue state table is handed over (R391). -/
def execSwapPoint (s : State) : Out :=
  if s.plat.swst = 1 && s.plat.staged.isSome then
    .next (modPlat s (fun p => { setSwap p 2 with dispatch := false, prevImage := p.running, swapAt := s.cc }))
  else .next s

/-- A swap ends with the old image. -/
def rollBack (p : Plat) : Plat := { setSwap p 5 with dispatch := true, running := if p.swst = 1 then p.running else p.prevImage, staged := none }

/-- The start of a time that has been held since the handover: one that was restarted meanwhile starts now (R391). -/
def heldStart (s : State) (p : Plat) (t : Nat) : Nat := if p.swapAt ≤ t then s.cc else t + (s.cc - p.swapAt)

/-- Watchdog timers, held since the handover, go on (R391). -/
def resumeTimers (s : State) (p : Plat) : Plat :=
  { p with
    cps := p.cps.map (fun c => (c.1, { c.2 with
      pet := heldStart s p c.2.pet, rungAt := heldStart s p c.2.rungAt }))
    rung2 := p.rung2.map (fun r => (r.1, { r.2 with firedAt := heldStart s p r.2.firedAt })) }

/-- The core is back: its ladder rearms, and a rung 2 under way waits for it no longer (R392, R393). -/
def cpAlive (s : State) (p : Plat) (cp : Nat) : Plat :=
  { p with
    rung2 := rung2Now p.rung2 (fun r => { r with down := r.down.filter (fun i => i ≠ cp) })
    cps := kPut cp { kGetD cp CpCore.reset p.cps with alive := true, rung := 0, pet := s.cc, sip := false } p.cps }

/-- A core writes 1 to VALIVE: it ends boot, or a handover within 50 ms (R388, R389, R391). -/
def aliveCore (s : State) (cp : Nat) : State :=
  modPlat s (fun p =>
    let done := p.swst = 2 && s.cc ≤ p.swapAt + 50 * msCycles
    let p := cpAlive s (if done then resumeTimers s p else p) cp
    let p := if p.bootPhase = 5 then { p with bootPhase := 6, rung4At := none } else p
    if done then { setSwap p 3 with dispatch := true, running := p.staged.getD p.running, swapAt := s.cc, staged := none } else p)

/-- ALIVE_REPORT (R388, R389, R391). -/
def execAliveReport (s : State) : Out :=
  if s.plat.bootPhase < 5 || 4 * Config.dies ≤ s.ev.x then .next s else .next (aliveCore s s.ev.x)

/-- SWAP_ALIVE_TIMEOUT: no VALIVE within 50 ms: the old image resumes (R391). -/
def execSwapAliveTimeout (s : State) : Out :=
  if s.plat.swst = 2 && s.plat.swapAt + 50 * msCycles < s.cc then .next (modPlat s (fun p => rollBack (resumeTimers s p))) else .next s

/-- SWAP_COMMIT: 10 s on trial: flash is rewritten (R391). -/
def execSwapCommit (s : State) : Out :=
  if s.plat.swst = 3 && s.plat.swapAt + 10000 * msCycles ≤ s.cc then .next (modPlat s (fun p => { setSwap p 4 with flash := p.running })) else .next s

/-! ### The watchdog ladder (R392, R393) -/

def cpAt (s : State) (cp : Nat) : CpCore := kGetD cp CpCore.reset s.plat.cps
def setCp (p : Plat) (cp : Nat) (v : CpCore) : Plat := { p with cps := kPut cp v p.cps }

/-- The rung timer in cycles. -/
def wdTime (s : State) : Nat := msCycles * max 1 (s.plat.wdctl.extractLsb' 8 16).toNat

/-- Rung n is enabled. -/
def rungOn (s : State) (n : Nat) : Bool := s.plat.wdctl.getLsbD n

/-- Timers run once the command processors are released, but not while a swap is handed over. -/
def timersRun (s : State) : Bool := 5 ≤ s.plat.bootPhase && s.plat.swst ≠ 2

/-- Command processors of a die. -/
def cpsOf (die : Nat) : List Nat := (List.range 4).map (fun i => 4 * die + i)

/-- The ladder of a core stands after rung n, since a time; `rung` counts one more than the last rung. -/
def after (s : State) (cp n : Nat) : Bool := (cpAt s cp).rung = n + 1
def since (s : State) (cp : Nat) : Nat := s.cc - (cpAt s cp).rungAt

/-- Trigger of rung 0, then of rung 1, on a core. -/
def trigger0 (s : State) (cp : Nat) : Bool := timersRun s && (cpAt s cp).rung = 0 && wdTime s ≤ s.cc - (cpAt s cp).pet
def trigger1 (s : State) (cp : Nat) : Bool := timersRun s && after s cp 0 && wdTime s ≤ since s cp

/-- Times lie within 1 s of each other. -/
def within1s (a b : Nat) : Bool := a ≤ b + 1000 * msCycles && b ≤ a + 1000 * msCycles

/-- Rung 1 fired on every core of a complex within 1 s, since rung 2 last fired on the die. -/
def allRung1 (s : State) (die : Nat) : Bool :=
  (cpsOf die).all (fun i => match (cpAt s i).rung1At with
    | none => false
    | some a => (cpsOf die).all (fun j => match (cpAt s j).rung1At with
      | none => false
      | some b => within1s a b))

def trigger2 (s : State) (die : Nat) : Bool :=
  timersRun s && ((cpsOf die).any (fun i => after s i 1 && !(cpAt s i).alive && 50 * msCycles ≤ since s i) || allRung1 s die)

/-- A rung 2 of a die is under way 100 ms after it fired. -/
def rung2Late (s : State) (die : Nat) : Bool :=
  match kGet die s.plat.rung2 with
  | none => false
  | some r => r.firedAt + 100 * msCycles ≤ s.cc

/-- A distributor without progress is what the event reports. -/
def trigger3 (s : State) (die : Nat) : Bool := s.ev.ok || (timersRun s && rung2Late s die)

/-- Rung 3 on two dies within 1 s, or the loss of the hub die's fabric, which the event reports. -/
def trigger4 (s : State) : Bool :=
  s.ev.ok || s.plat.rung3At.any (fun p => s.plat.rung3At.any (fun q => p.1 ≠ q.1 && within1s p.2 q.2))

/-- No phase 6 within 2 s of rung 4, a power cycle not yet requested. -/
def trigger5 (s : State) : Bool := match s.plat.rung4At with
  | some t => !s.plat.powerReq && s.plat.bootPhase < 6 && t + 2000 * msCycles ≤ s.cc
  | none => false

/-- A rung fires on its own trigger, or on that of a lower one when every rung from that one up to it is disabled. -/
def rungFires (s : State) (n : Nat) (trig : Nat → Bool) : Bool :=
  rungOn s n && (List.range (n + 1)).any (fun m => trig m && ((List.range n).all (fun k => k < m || !rungOn s k)))

/-- Triggers as seen from a core, and from a die. -/
def trigCp (s : State) (cp : Nat) (m : Nat) : Bool := if m = 0 then trigger0 s cp else if m = 1 then trigger1 s cp else false
def trigDie (s : State) (die : Nat) (m : Nat) : Bool :=
  if m ≤ 1 then (cpsOf die).any (fun i => trigCp s i m) else if m = 2 then trigger2 s die else if m = 3 then trigger3 s die else false
def trigPkg (s : State) (m : Nat) : Bool :=
  if m ≤ 2 then (List.range Config.dies).any (fun d => trigDie s d m)
  else if m = 3 then timersRun s && (List.range Config.dies).any (fun d => rung2Late s d)
  else if m = 4 then trigger4 s else if m = 5 then trigger5 s else false

/-- WDST counts a rung (R393). -/
def countRung (s : State) (n die : Nat) : State :=
  modPlat s (fun p => { p with wdLast := n, wdDie := die, wdCount := (p.wdCount + 1) % 65536 })

/-- WDST and the error log record a rung up to 4; rung 1 and above also interrupt the host (R392). -/
def reportRung (s : State) (n die unit lost : Nat) : State :=
  modPlat (countRung (logAt s die (.watchdog n unit lost)) n die) (fun p => { p with intr := p.intr || 1 ≤ n })

/-- The core's ladder moves on: rung 0 interrupts Carcass in S mode, a higher one restarts it (R392). -/
def rungAtCp (s : State) (n cp : Nat) : State :=
  modPlat s (fun p =>
    let k := kGetD cp CpCore.reset p.cps
    setCp p cp { k with
      rung := n + 1, rungAt := s.cc, alive := n = 0 && k.alive, sip := n = 0
      rung1At := if n = 0 then k.rung1At else if n = 1 then some s.cc else none })

/-- A swap on trial does not survive rung 1 or above; a swap under way does not survive rung 3 or 4, and its held timers go on (R391). -/
def endTrial (s : State) (n : Nat) : State :=
  modPlat s (fun p =>
    if p.swst = 3 || (3 ≤ n && n ≤ 4 && 1 ≤ p.swst && p.swst ≤ 3) then rollBack (if p.swst = 2 then resumeTimers s p else p) else p)

/-- A write of VPET restarts the core's timer; during rung 0 the core is back to normal (R392, R393). -/
def petCore (s : State) (cp : Nat) : State :=
  let c := cpAt s cp
  modPlat s (fun p => setCp p cp { c with pet := s.cc, rung := if c.rung = 1 then 0 else c.rung, sip := false })

/-- WATCHDOG_PET: any write of VPET (R389, R392). -/
def execWatchdogPet (s : State) : Out :=
  if s.plat.bootPhase < 5 || 4 * Config.dies ≤ s.ev.x then .next s else .next (petCore s s.ev.x)

/-- WATCHDOG_RUNG_0: an interrupt to Carcass on the core (R392). -/
def execWatchdogRung0 (s : State) : Out :=
  let cp := s.ev.x
  if !rungFires s 0 (trigCp s cp) then .next s else .next (rungAtCp (reportRung s 0 (cp / 4) cp 0) 0 cp)

/-- WATCHDOG_RUNG_1: Carcass restarts on the core; queue state is kept (R392). -/
def execWatchdogRung1 (s : State) : Out :=
  let cp := s.ev.x
  if !rungFires s 1 (trigCp s cp) then .next s
  else .next (endTrial (rungAtCp (reportRung s 1 (cp / 4) cp 0) 1 cp) 1)

/-- The cores of a complex after a rung. -/
def rungAtDie (s : State) (n die : Nat) : State := (cpsOf die).foldl (fun s i => rungAtCp s n i) s

/-- WATCHDOG_RUNG_2: every block of the die is to be saved, with its whole cohort (R28, R266), the scheduler's marks go, Carcass restarts on the complex (R392). -/
def execWatchdogRung2 (s : State) : Out :=
  let die := s.ev.x
  if !rungFires s 2 (trigDie s die) then .next s
  else
    let s := rungAtDie (reportRung s 2 die die 0) 2 die
    let here := s.blocks.filter (fun p => dieOf p.2.core = die && (onCore s p.2.core).any (fun q => q.1 = p.1))
    let s := here.foldl (fun s p => (beginOption s p.1 .save 0).modBlock p.1 (fun b => { b with status := .toSave })) s
    let s := modPlat s (fun p => { p with rung2 := kPut die { firedAt := s.cc, left := here.map (fun p => p.1), down := cpsOf die } p.rung2 })
    .next (endTrial { s with cores := s.cores.map (fun p => if dieOf p.1 = die then (p.1, { p.2 with relayout := none }) else p) } 2)

/-! #### Die reset (R392) -/

/-- The directory no longer counts on a die: it owns nothing, shares nothing, answers nothing. -/
def forgetDie (die : Nat) (e : Dir) : Dir :=
  let owned : Bool := 2 ≤ e.st && e.own = die
  let shr := without e.shr die
  { e with
    shr := shr
    own := if owned then 0 else e.own
    st := if owned then (if shr = 0 then 0 else 1) else if e.st = 1 && shr = 0 then 0 else e.st
    waiting := e.waiting.filter (fun r => r.die ≠ die)
    tr := e.tr.bind (fun t => if t.req = die then none else some { t with
      waitInv := without t.waitInv die
      answered := t.answered || t.waitFwd = some die }) }

/-- Lines that a die holds dirty. -/
def dieDirty (s : State) (die : Nat) : List Nat :=
  (((s.dieAt die).l2.filter (fun p => p.2.st = .m || p.2.st = .o)).map (fun p => p.1)) ++
  (((s.dieAt die).wbuf.filter (fun p => !p.2.acked)).map (fun p => p.1))

/-- A dirty line that the die lost: poisoned at another home; at its own home what memory holds is not stated. -/
def loseLine (s : State) (die line : Nat) : State :=
  match homeDie s line with
  | none => s
  | some h =>
    if h = die then { homeWrite s h line (Config.lostLine s.freeCtr) with freeCtr := s.freeCtr + 1 }
    else s.modDie h (fun d => { d with poison := d.poison ++ [(64 * line, 64)] })

/-- A core after its die's reset: enabled as before, with nothing held. -/
def coreAfterReset (k : Core) : Core := { Core.reset with enabled := k.enabled }

/-- The compute die is reset: caches, cores, partitions, scheduler state; what the error log and the homes hold stays. -/
def resetDie (s : State) (die : Nat) : State :=
  let s := (dieDirty s die).foldl (fun s l => loseLine s die l) s
  let s := s.modDie die (fun d => { d with l2 := [], wbuf := [], bcast := 0, phase := 0, stage := [], sched := [], rafs := [] })
  { s with
    dies := s.dies.map (fun p => (p.1, { p.2 with dir := p.2.dir.map (fun e => (e.1, forgetDie die e.2)) }))
    cores := s.cores.map (fun p => if dieOf p.1 = die then (p.1, coreAfterReset p.2) else p)
    parts := s.parts.filter (fun p => dieOf (p.1 / Config.partsPerCore) ≠ die) }

/-- Grids with a block on a die. -/
def gridsOn (s : State) (die : Nat) : List Nat :=
  s.blocks.foldl (fun l p => if dieOf p.2.core = die && (onCore s p.2.core).any (fun q => q.1 = p.1) && !l.contains p.2.grid then l ++ [p.2.grid] else l) []

/-- A grid ends as a team's fault ends it, with a status (R276, R392). -/
def failGrid (s : State) (gid status : Nat) : State :=
  s.modGrid gid (fun g => { g with failed := true, status := worseStatus g.status status, tails := [], staged := [] })

/-- Blocks on a die are gone with their teams. -/
def loseBlocks (s : State) (die : Nat) : State :=
  let gone := (s.blocks.filter (fun p => dieOf p.2.core = die && (onCore s p.2.core).any (fun q => q.1 = p.1))).map (fun p => p.1)
  { s with
    blocks := s.blocks.map (fun p => if gone.contains p.1 then (p.1, { p.2 with status := .retired, windows := [], tiles := [], staged := [], relPhase := p.2.phase + 1 }) else p)
    teams := s.teams.map (fun p => if gone.contains p.2.block then (p.1, { p.2 with
      status := .ended, slots := [], live := 0, mask := 0, wait := .none, memQ := [], matQ := [], streamA := none, streamC := none, pendStream := [],
      pendCopy := none, pendMat := [], clause := none, inRep := none }) else p) }

/-- WATCHDOG_RUNG_3: the compute die is reset; every grid with a block on it ends with status 0x04 (R392). -/
def execWatchdogRung3 (s : State) : Out :=
  let die := s.ev.x
  if !rungFires s 3 (trigDie s die) then .next s
  else
    let lost := gridsOn s die
    let s := endTrial s 3
    let s := lost.foldl (fun s g => failGrid s g 4) s
    let s := rungAtDie (reportRung (resetDie (loseBlocks s die) die) 3 die die lost.length) 3 die
    .next (modPlat s (fun p => { p with rung3At := kPut die s.cc p.rung3At, rung2 := kDel die p.rung2 }))

/-! #### Package reset (R392) -/

/-- Where a completion word of a queue lies in memory. -/
def wordPlace (s : State) (die key compVa slot : Nat) : Option Nat :=
  match cpXlat s die key (compVa + 4 * slot) accW with
  | .ok _ e => some (e.ppage + (compVa + 4 * slot - e.vpage))
  | _ => none

/-- Completion words, status 0x04, of every record of a queue that is incomplete: its running grid, its children, its pending ring records. -/
def lostWords (s : State) (q : Nat) : List (Nat × List Byte) :=
  let s := cpContext s q
  let k := s.queueAt q
  let die := cpDie k.dies.toNat
  let word (key compVa : Nat) (r : LaunchRec) : List (Nat × List Byte) :=
    ((wordPlace s die key compVa r.cslot).map (fun pa => (pa, completionWord 4 r.seq))).toList
  let run := match k.running with
    | some gid => let g := s.gridAt gid
      word g.asid g.compVa g.lrec
    | none => []
  let kids := k.children.flatMap (fun c => word (cpKey q) k.comp.toNat (recordOf c.1))
  let held : Nat := match k.running with
    | some gid => if (s.gridAt gid).child then 0 else 1
    | none => 0
  let ring := if !k.en then [] else (List.range ((k.tail - k.head).toNat - held)).flatMap (fun i =>
    match cpRead s die (cpKey q) (k.base.toNat + 64 * ((k.head.toNat + held + i) % 2 ^ k.size.toNat)) 64 with
    | .ok _ bs => word (cpKey q) k.comp.toNat (recordOf bs)
    | _ => [])
  run ++ kids ++ ring

/-- The management plane after a package reset: what flash, the host link, the tier devices and the pod hold stays; boot goes on at phase 2. -/
def platAfterReset (s : State) : Plat :=
  let p := s.plat
  { Plat.reset with
    bootPhase := 1, flash := p.flash, flashShell := p.flashShell, repairs := p.repairs, identity := p.identity, cert := p.cert, shell := p.shell, running := p.running, prevImage := p.prevImage, extents := p.extents, genExt := p.genExt,
    genInv := bumpGen p.genInv, genLink := p.genLink, cxlMask := p.cxlMask, suinoMask := p.suinoMask, podId := p.podId, pkgIndex := p.pkgIndex, pkgs := p.pkgs,
    mscBytes := p.mscBytes, ideKey := p.ideKey, rung4At := some s.cc, wdLast := p.wdLast, wdDie := p.wdDie, rowAct := p.rowAct, intr := p.intr }

/-- A die after a package reset keeps its error log and its poison list. -/
def dieAfterReset (d : Die) : Die := { Die.reset with log := d.log, poison := d.poison }

/-- WATCHDOG_RUNG_4: the package is reset; every incomplete record completes with status 0x04, every queue is disabled, boot restarts (R392). -/
def execWatchdogRung4 (s : State) : Out :=
  if !rungFires s 4 (trigPkg s) then .next s
  else
    let s := reportRung (endTrial s 4) 4 0 0 (s.grids.countP (fun p => !p.2.ended))
    let words := (s.queues.map (fun p => p.1)).flatMap (lostWords s)
    let s1 := words.foldl (fun s w => memWrite s w.1 w.2) s
    .next { s1 with
      teams := [], blocks := [], barriers := [], parts := []
      grids := s1.grids.map (fun p => (p.1, { p.2 with ended := true }))
      cores := s1.cores.map (fun p => (p.1, Core.reset))
      dies := s1.dies.map (fun p => (p.1, dieAfterReset p.2))
      queues := s1.queues.map (fun p => (p.1, { Queue.reset with head := p.2.tail, tail := p.2.tail }))
      plat := platAfterReset s1 }

/-- WATCHDOG_RUNG_5: a host power cycle is requested, once, over the management bus and by a PCIe error message, which is its report too (R392). -/
def execWatchdogRung5 (s : State) : Out :=
  if s.plat.powerReq || !rungFires s 5 (trigPkg s) then .next s else .next (modPlat (countRung (endTrial s 5) 5 0) (fun p => { p with powerReq := true }))

/-! ### Attestation (R394) -/

/-- The digest of a measurement index; 6 is zero without a staged image. -/
def measured (p : Plat) (n : Nat) : Option (BitVec 256) :=
  match n with
  | 2 => some p.shell.digest
  | 3 => some (Config.manifestDigest p.manifest.enable p.manifest.mscUnits p.manifest.trims (p.repairs.map (fun r => (r.stack, r.lane, r.spare))))
  | 4 => some p.running.digest
  | 6 => some ((p.staged.map (fun i => i.digest)).getD 0)
  | _ => if n = 1 || n = 5 then some (Config.measurement n) else none

/-- GET_MEASUREMENTS: the response of an index, signed under the leaf key of certificate slot 0 (R394). -/
def execGetMeasurements (s : State) : Out :=
  let signed (p : Plat) (d : BitVec 256) : Option (Nat × BitVec 256 × BitVec 512) := p.cert.map (fun c => (s.ev.x, d, Config.responseSignature c.2 s.ev.x d))
  .next (modPlat s (fun p => { p with spdmResp := (measured p s.ev.x).bind (signed p) }))

/-- KEY_EXCHANGE: a session with a fresh key (R394). -/
def execKeyExchange (s : State) : Out :=
  .next { modPlat s (fun p => { p with session := some (Config.sessionSecret s.ev.bits s.freeCtr) }) with freeCtr := s.freeCtr + 1 }

/-- IDE_KEY_PROGRAMMING: a message in a session programs the host link's IDE key (R394). -/
def execIdeKeyProgramming (s : State) : Out :=
  if s.plat.session.isNone then .next s else .next (modPlat s (fun p => { p with ideKey := some (s.ev.bits.extractLsb' 0 256) }))

/-- LINK_UP_MASK_CHANGE: a Suino link or a CXL port goes up or down; the record that changes counts its generation (R14, R15). -/
def execLinkUpMaskChange (s : State) : Out :=
  let m : BitVec 16 := s.ev.bits.extractLsb' 0 16
  let c : Byte := BitVec.ofNat 8 s.ev.x
  .next (modPlat s (fun p => { p with
    suinoMask := m, cxlMask := c
    genLink := if m = p.suinoMask then p.genLink else bumpGen p.genLink
    genExt := if c = p.cxlMask then p.genExt else bumpGen p.genExt }))

/-! ### Register writes (R4, R11) -/

/-- A half of a 64-bit register replaced. -/
def putHalf (old : DWord) (hi : Bool) (v : Word) : DWord := if hi then v ++ old.extractLsb' 0 32 else old.extractLsb' 32 32 ++ v

/-- A 32-bit write in a queue's block (R248). -/
def writeQueue (s : State) (q r : Nat) (v : Word) : State :=
  let k := s.queueAt q
  let put (k : Queue) : State := if (s.queueAt q).en then s else s.setQueue q k
  match r with
  | 0x00 => put { k with base := putHalf k.base false v }
  | 0x04 => put { k with base := putHalf k.base true v }
  | 0x08 => put { k with size := v }
  | 0x0C => writeQctl s q v
  | 0x10 => writeQtail s q v
  | 0x18 => put { k with raf := putHalf k.raf false v }
  | 0x1C => put { k with raf := putHalf k.raf true v }
  | 0x20 => put { k with comp := putHalf k.comp false v }
  | 0x24 => put { k with comp := putHalf k.comp true v }
  | 0x28 => put { k with tvec := putHalf k.tvec false v }
  | 0x2C => put { k with tvec := putHalf k.tvec true v }
  | 0x30 => put { k with log := putHalf k.log false v }
  | 0x34 => put { k with log := putHalf k.log true v }
  | 0x38 => put { k with logn := v }
  | 0x3C => put { k with asid := v &&& 0xFFFF }
  | _ => s

/-- A write of XCTL: a reply, or DONE (R365). -/
def writeXctl (s : State) (v : Word) : State :=
  let s := match (v.extractLsb' 2 2).toNat with
    | 1 => acceptExtent s
    | 2 => declineExtent s
    | _ => s
  if v.getLsbD 4 then doneExtent s else s

/-- A write of SWCMD (R390). -/
def writeSwcmd (s : State) (v : Word) : State :=
  match (v.extractLsb' 0 2).toNat with
  | 1 => startSwap s
  | 3 => recoveryWrite s
  | _ => s

/-- Four bytes of KBLOB. -/
def writeBlob (s : State) (o : Nat) (v : Word) : State :=
  modPlat s (fun p => { p with kblob := (List.range 4).foldl (fun m i => kPut (o + i) (v.extractLsb' (8 * i) 8) m) p.kblob })

/-- A 32-bit host write to the device control page; reserved and read-only places ignore it (R4, R11). -/
def writePage (s : State) (off : Nat) (v : Word) : State :=
  if 0x1000 ≤ off && off < 0x2000 then writeQueue s ((off - 0x1000) / 64) (off % 64) v
  else if 0x7010 ≤ off && off < 0x7070 then writeBlob s (off - 0x7010) v
  else match off with
    | 0x2010 => writeXctl s v
    | 0x3000 => modPlat s (fun p => { p with msbud := putHalf p.msbud false v })
    | 0x3004 => modPlat s (fun p => { p with msbud := putHalf p.msbud true (v &&& 0xFFFF) })
    | 0x3008 => modPlat s (fun p => { p with mswgt := v &&& 0xFFF })
    | 0x3010 => modPlat s (fun p => { p with actth := v &&& 0x3FFF })
    | 0x3014 => modPlat s (fun p => { p with eyesel := v &&& 7 })
    | 0x3018 => modPlat s (fun p =>
        let p := { p with eyeth := v &&& 0xFFFF }
        { p with lowSeen := p.lowSeen.filter (fun x => laneLow p (kGetD x 0 p.lanes)) })
    | 0x7000 => writeKcmd s v
    | 0x8100 => modPlat s (fun p => { p with swaddr := putHalf p.swaddr false v })
    | 0x8104 => modPlat s (fun p => { p with swaddr := putHalf p.swaddr true v })
    | 0x8108 => modPlat s (fun p => { p with swlen := v })
    | 0x810C => writeSwcmd s v
    | 0x8200 => modPlat s (fun p => { p with wdctl := v &&& 0xFFFF3F })
    | _ => s

/-! ### Register reads (R4, R11) -/

/-- A half of a 64-bit register. -/
def wordHalf (v : DWord) (hi : Bool) : Word := if hi then v.extractLsb' 32 32 else v.extractLsb' 0 32

/-- QCTL as it reads (R249). -/
def qctlWord (k : Queue) : Word :=
  BitVec.ofNat 32 (256 * k.dies.toNat + (if queueIdle k then 8 else 0) + (if k.err then 4 else 0) + (if k.halt then 2 else 0) + (if k.en then 1 else 0))

/-- A 32-bit read in a queue's block (R248). -/
def queueWord (k : Queue) (r : Nat) : Word :=
  match r with
  | 0x00 => wordHalf k.base false
  | 0x04 => wordHalf k.base true
  | 0x08 => k.size
  | 0x0C => qctlWord k
  | 0x10 => k.tail
  | 0x14 => k.head
  | 0x18 => wordHalf k.raf false
  | 0x1C => wordHalf k.raf true
  | 0x20 => wordHalf k.comp false
  | 0x24 => wordHalf k.comp true
  | 0x28 => wordHalf k.tvec false
  | 0x2C => wordHalf k.tvec true
  | 0x30 => wordHalf k.log false
  | 0x34 => wordHalf k.log true
  | 0x38 => k.logn
  | 0x3C => k.asid
  | _ => 0

/-- KSTAT as it reads (R387). -/
def kstatWord (p : Plat) : Word := BitVec.ofNat 32 (65536 * p.kgen + 4 * p.kres + (if p.kbusy then 1 else 0))

/-- A lane word through the windows of the die that EYESEL names: an even stack's at 0xA000, an odd one's at 0xC200 (R385). -/
def laneWindow (p : Plat) (off : Nat) : Word :=
  let n := (off - 0xA000) % 0x2200 / 4
  if n < 2112 then laneAt p (2 * p.eyesel.toNat + (off - 0xA000) / 0x2200) n else 0

/-- A 32-bit host read of the device control page; reserved places read zero (R4, R11), and so does SWCMD at 0x810C, for which no read value is given (log
entry 8). -/
def pageWord (s : State) (off : Nat) : Word :=
  let p := s.plat
  if off < 0x1000 then capWord s off
  else if off < 0x2000 then queueWord (s.queueAt ((off - 0x1000) / 64)) (off % 64)
  else if 0x4000 ≤ off && off < 0x4000 + 16 * 393 then (if off % 4 = 0 then kGetD ((off - 0x4000) / 4) 0 p.missedPage else 0)
  else if 0x5900 ≤ off && off < 0x5940 then kGetD ((off - 0x5900) / 4) 0 p.alerts
  else if 0x7010 ≤ off && off < 0x7070 then BitVec.ofNat 32 (bytesNat (blobAt p (off - 0x7010) 4))
  else if 0xA000 ≤ off && off < 0xE300 then laneWindow p off
  else match off with
    | 0x2000 => wordHalf p.xbase false
    | 0x2004 => wordHalf p.xbase true
    | 0x2008 => wordHalf p.xlen false
    | 0x200C => wordHalf p.xlen true
    | 0x2010 => BitVec.ofNat 32 ((if p.xpend then 1 else 0) + (if p.xforced then 2 else 0))
    | 0x3000 => wordHalf p.msbud false
    | 0x3004 => wordHalf p.msbud true
    | 0x3008 => p.mswgt
    | 0x3010 => p.actth
    | 0x3014 => p.eyesel
    | 0x3018 => p.eyeth
    | 0x7000 => p.kcmd
    | 0x7004 => kstatWord p
    | 0x8000 => BitVec.ofNat 32 (256 * p.bootFail + p.bootPhase)
    | 0x8100 => wordHalf p.swaddr false
    | 0x8104 => wordHalf p.swaddr true
    | 0x8108 => p.swlen
    | 0x8110 => BitVec.ofNat 32 (256 * p.swreason + p.swst)
    | 0x8200 => p.wdctl
    | 0x8204 => BitVec.ofNat 32 (65536 * p.wdCount + 8 * p.wdDie + p.wdLast)
    | _ => 0

/-! ### Vendor CSRs (R389) -/

/-- The least mode that may use a vendor CSR (1 S, 3 M), whether it can be read, whether it can be written. -/
def csrRule (num : Nat) : Option (Nat × Bool × Bool) :=
  match num with
  | 0xDC0 => some (1, true, false)
  | 0x5C0 => some (1, false, true)
  | 0x5C1 => some (1, false, true)
  | 0x5C2 => some (1, true, true)
  | 0x7C0 => some (3, true, true)
  | 0x7C1 => some (3, true, true)
  | _ => none

/-- What a vendor CSR reads as on a core. -/
def csrRead (s : State) (cp num : Nat) : DWord :=
  match num with
  | 0xDC0 => BitVec.ofNat 64 (0x00B1 * 65536 + 8 * (cp % 4) + cp / 4)
  | 0x5C2 => kGetD (cp / 4) 0 s.plat.vdisp
  | 0x7C0 => BitVec.ofNat 64 s.plat.vswap
  | 0x7C1 => s.plat.vkeyreq.zeroExtend 64
  | _ => 0

/-- A write of a vendor CSR on a core. -/
def csrWrite (s : State) (cp num : Nat) (v : DWord) : State :=
  match num with
  | 0x5C0 => petCore s cp
  | 0x5C1 => if v = 1 then aliveCore s cp else s
  | 0x5C2 => modPlat s (fun p => { p with vdisp := kPut (cp / 4) v p.vdisp })
  | 0x7C0 => modPlat s (fun p => { p with vswap := (v.extractLsb' 0 8).toNat })
  | 0x7C1 => modPlat s (fun p => { p with vkeyreq := v.extractLsb' 0 32 })
  | _ => s

/-- Firmware on a core reads (`none`) or writes a vendor CSR in a mode; an access that the table does not permit raises the illegal-instruction
exception, which M mode takes (log entry 73). -/
def csrAccess (s : State) (cp mode num : Nat) (w : Option DWord) : State :=
  if s.plat.bootPhase < 5 || 4 * Config.dies ≤ cp then s
  else match csrRule num with
  | none => s
  | some (least, rd, wr) =>
    let k := cpAt s cp
    if mode < least || !(if w.isSome then wr else rd) then modPlat s (fun p => setCp p cp { k with mode := 3, mcause := 2 })
    else
      let s := modPlat s (fun p => setCp p cp { k with mode := mode })
      match w with
      | some v => csrWrite s cp num v
      | none => modPlat s (fun p => setCp p cp { cpAt s cp with csrVal := csrRead s cp num })

/-! ### The end of a step -/

/-- A generation count that was odd, and that the step left as it was, counts the end of its record's change (R14). -/
def settleGen (g g' : Nat) : Nat := if g % 2 = 1 && g = g' then g + 1 else g'

def settleGens (p : Plat) (s : State) : State :=
  modPlat s (fun q => { q with
    genInv := settleGen p.genInv q.genInv, genExt := settleGen p.genExt q.genExt, genLink := settleGen p.genLink q.genLink })

/-- REGISTER_WRITE (R11). -/
def execRegisterWrite (s : State) : Out := if s.ev.x % 4 = 0 then .next (writePage s s.ev.x s.ev.w) else .next s

end Sys2Proof.Machine
end

