-- ==== Sys2Proof/Machine/Sfu.lean ====
section
/-! DEFINITION. Special functions (09_vector_scalar.md R163-R168). Algebraic functions are exact with a sticky last bit; the others are computed in
fixed point with an error bound and rounded once the two ends of the bound round to the same code. -/

namespace Sys2Proof.Machine

/-- Integer square root of x < 4^n, bit by bit. -/
def isqrtGo (x : Nat) : Nat → Nat → Nat
  | 0, r => r
  | n + 1, r => let t := r + 2 ^ n; isqrtGo x n (if t * t ≤ x then t else r)

def isqrt (x : Nat) : Nat := isqrtGo x (Nat.log2 x / 2 + 1) 0

/-- q with a sticky bit below it. -/
def sticky (neg : Bool) (q : Nat) (inexact : Bool) (e : Int) : XVal := .fin neg (2 * q + (if inexact then 1 else 0)) (e - 1)

/-- 1 / (m x 2^e) for m > 0. -/
def rcpPos (neg : Bool) (m : Nat) (e : Int) : XVal :=
  let p := Nat.log2 m + 64
  sticky neg (2 ^ p / m) (2 ^ p % m ≠ 0) (-(p : Int) - e)

/-- n / d for d > 0. -/
def divPos (n d : Nat) : XVal :=
  let p := Nat.log2 d + 64
  sticky false (n * 2 ^ p / d) (n * 2 ^ p % d ≠ 0) (-(p : Int))

/-- Square root of m x 2^e for m > 0. -/
def sqrtPos (m : Nat) (e : Int) : XVal :=
  let odd := e % 2 ≠ 0
  let m1 := if odd then 2 * m else m
  let e1 := if odd then e - 1 else e
  let x := m1 * 2 ^ 128
  let q := isqrt x
  sticky false q (q * q ≠ x) (e1 / 2 - 64)

/-- 1 / square root of m x 2^e for m > 0. -/
def rsqPos (m : Nat) (e : Int) : XVal :=
  let odd := e % 2 ≠ 0
  let m1 := if odd then 2 * m else m
  let e1 := if odd then e - 1 else e
  let p := Nat.log2 m1 / 2 + 80
  let x := 2 ^ (2 * p) / m1
  let q := isqrt x
  sticky false q (q * q * m1 ≠ 2 ^ (2 * p)) (-(e1 / 2) - (p : Int))

/-! ### Fixed point with p fraction bits; every routine errs by far less than 2^16 units -/

/-- Terms z^(2i+1)/(2i+1): the inverse hyperbolic tangent of z in [0, 1/2]. -/
def atanhGo (p z2 : Nat) : Nat → Nat → Nat → Nat → Nat
  | 0, _, _, s => s
  | n + 1, t, i, s => atanhGo p z2 n (t * z2 / 2 ^ p) (i + 2) (s + t / i)

def atanhFx (p z : Nat) : Nat := atanhGo p (z * z / 2 ^ p) (p + 2) z 1 0

/-- ln 2 = 2 atanh(1/3). -/
def ln2Fx (p : Nat) : Nat := 2 * atanhFx p (2 ^ p / 3)

/-- Sum of y^i / i!. -/
def expGo (p y : Nat) : Nat → Nat → Nat → Nat → Nat
  | 0, _, _, s => s
  | n + 1, t, i, s => let t' := t * y / 2 ^ p / i; expGo p y n t' (i + 1) (s + t')

/-- e^y for y in [0, 1]. -/
def expFx (p y : Nat) : Nat := expGo p y (p / 2 + 40) (2 ^ p) 1 (2 ^ p)

/-- Alternating sums: sine from t = y, i = 1 and cosine from t = 1, i = 0; positive and negative parts. -/
def trigGo (p y2 : Nat) : Nat → Nat → Nat → Bool → Nat → Nat → Nat
  | 0, _, _, _, a, b => a - b
  | n + 1, t, i, plus, a, b =>
    trigGo p y2 n (t * y2 / 2 ^ p / ((i + 1) * (i + 2))) (i + 2) (!plus) (if plus then a + t else a) (if plus then b else b + t)

def sinFx (p y : Nat) : Nat := trigGo p (y * y / 2 ^ p) (p / 2 + 40) y 1 true 0 0
def cosFx (p y : Nat) : Nat := trigGo p (y * y / 2 ^ p) (p / 2 + 40) (2 ^ p) 0 true 0 0

/-- Arc tangent of 1/k by its alternating series. -/
def atanInvGo (k2 : Nat) : Nat → Nat → Nat → Bool → Nat → Nat → Nat
  | 0, _, _, _, a, b => a - b
  | n + 1, t, i, plus, a, b =>
    atanInvGo k2 n (t / k2) (i + 2) (!plus) (if plus then a + t / i else a) (if plus then b else b + t / i)

def atanInvFx (p k : Nat) : Nat := atanInvGo (k * k) (p / 2 + 2) (2 ^ p / k) 1 true 0 0

/-- pi = 16 atan(1/5) - 4 atan(1/239). -/
def piFx (p : Nat) : Nat := 16 * atanInvFx p 5 - 4 * atanInvFx p 239

/-- Fixed-point floor of m x 2^e. -/
def toFx (p m : Nat) (e : Int) : Nat :=
  let k := e + (p : Int)
  if 0 ≤ k then m * 2 ^ k.toNat else m / 2 ^ (-k).toNat

/-- Round an approximation s x 2^(scale - p) known to within 2^16 units, or answer none when the ends round apart. -/
def roundApprox (neg : Bool) (s p : Nat) (scale : Int) : Option Nat :=
  let lo := narrow fp32 (sticky neg (s - 2 ^ 16) true (scale - (p : Int))) .rne false
  let hi := narrow fp32 (sticky neg (s + 2 ^ 16) true (scale - (p : Int))) .rne false
  if lo = hi then some lo else none

/-- Raise the precision until the approximation rounds. -/
def ziv (f : Nat → Option Nat) (last : Nat) : Nat → Nat → Nat
  | 0, _ => last
  | n + 1, p => match f p with
    | some c => c
    | none => ziv f last n (2 * p)

/-- Result of a transcendental function as a value. -/
def zivVal (p0 : Nat) (f : Nat → Option Nat) : XVal := widen fp32 (ziv f 0 5 p0)

/-- 2^a (R164). -/
def ex2V : XVal → XVal
  | .nan => .nan
  | .inf n => if n then .fin false 0 0 else .inf false
  | .fin neg m e =>
    if m = 0 then .fin false 1 0
    else
      let k : Int := (Nat.log2 m : Int) + e
      if k > 8 then (if neg then .fin false 1 (-400) else .fin false 1 400)
      else if k < -60 then sticky false (if neg then 2 ^ 60 - 1 else 2 ^ 60) true (-60)
      else
        -- a = n + f with f in [0, 1) in units of 2^e (e < 0) or whole
        let fr := if e < 0 then (-e).toNat else 0
        let whole : Nat := if e < 0 then m / 2 ^ fr else m * 2 ^ e.toNat
        let part : Nat := if e < 0 then m % 2 ^ fr else 0
        let n : Int := if neg then (if part = 0 then -(whole : Int) else -(whole : Int) - 1) else (whole : Int)
        let f : Nat := if neg && part ≠ 0 then 2 ^ fr - part else part
        if f = 0 then .fin false 1 n
        else zivVal 160 (fun p => roundApprox false (expFx p (toFx p f (-(fr : Int)) * ln2Fx p / 2 ^ p)) p n)

/-- log2 a (R164). -/
def lg2V : XVal → XVal
  | .nan => .nan
  | .inf n => if n then .nan else .inf false
  | .fin neg m e =>
    if m = 0 then .inf true
    else if neg then .nan
    else
      let l := Nat.log2 m
      let k : Int := (l : Int) + e
      if m = 2 ^ l then XVal.ofInt k
      else
        zivVal 200 (fun p =>
          let x := m * 2 ^ p / 2 ^ l
          let z := (x - 2 ^ p) * 2 ^ p / (x + 2 ^ p)
          let lg := 2 * atanhFx p z * 2 ^ p / ln2Fx p
          -- k + lg with lg in (0, 1)
          if 0 ≤ k then roundApprox false (k.toNat * 2 ^ p + lg) p 0
          else roundApprox true ((-k).toNat * 2 ^ p - lg) p 0)

/-- sin(pi t / 2^tb) or cos for t / 2^tb in (0, 1/2), as a rounded code. -/
def trigPi (neg : Bool) (cosine : Bool) (t : Nat) (tb : Nat) : XVal :=
  zivVal (200 + 2 * tb) (fun p =>
    let y := toFx p t (-(tb : Int)) * piFx p / 2 ^ p
    roundApprox neg (if cosine then cosFx p y else sinFx p y) p 0)

/-- sin(pi a) or cos(pi a) for finite a (R164). -/
def sincosPi (cosine : Bool) (neg : Bool) (m : Nat) (e : Int) : XVal :=
  if m = 0 then (if cosine then .fin false 1 0 else .fin neg 0 0)
  else if 0 ≤ e then
    (if cosine then .fin (decide (e = 0) && m % 2 = 1) 1 0 else .fin neg 0 0)
  else
    let fr := (-e).toNat
    -- r = |a| mod 2 in units of 2^-fr; quadrant and offset within it
    let r := m % 2 ^ (fr + 1)
    let quad := 2 * r / 2 ^ fr
    let t2 := 2 * r % 2 ^ fr
    -- offset t = t2 / 2^(fr+1)
    if t2 = 0 then
      match cosine, quad with
      | true, 0 => .fin false 1 0
      | true, 2 => .fin true 1 0
      | true, _ => .fin false 0 0
      | false, 0 => .fin neg 0 0
      | false, 1 => .fin neg 1 0
      | false, 2 => .fin neg 0 0
      | false, _ => .fin (!neg) 1 0
    else if cosine then
      match quad with
      | 0 => trigPi false true t2 (fr + 1)
      | 1 => trigPi true false t2 (fr + 1)
      | 2 => trigPi true true t2 (fr + 1)
      | _ => trigPi false false t2 (fr + 1)
    else
      match quad with
      | 0 => trigPi neg false t2 (fr + 1)
      | 1 => trigPi neg true t2 (fr + 1)
      | 2 => trigPi (!neg) false t2 (fr + 1)
      | _ => trigPi (!neg) true t2 (fr + 1)

/-- tanh a (R164). -/
def tanhV : XVal → XVal
  | .nan => .nan
  | .inf n => .fin n 1 0
  | .fin neg m e =>
    if m = 0 then .fin neg 0 0
    else
      let k : Int := (Nat.log2 m : Int) + e
      if k ≥ 6 then sticky neg (2 ^ 60 - 1) true (-60)
      else if k < -40 then
        -- a - a^3/3 lies just below a
        sticky neg (m * 2 ^ 60 - 1) true (e - 60)
      else
        zivVal 360 (fun p =>
          let y := 2 * toFx p m e
          let l2 := ln2Fx p
          let n := y / l2
          let u := 2 ^ p * 2 ^ p / expFx p (y % l2) / 2 ^ n
          roundApprox neg ((2 ^ p - u) * 2 ^ p / (2 ^ p + u)) p 0)

/-- `rcp` (R164). -/
def rcpV : XVal → XVal
  | .nan => .nan
  | .inf n => .fin n 0 0
  | .fin n m e => if m = 0 then .inf n else rcpPos n m e

/-- `rsq` (R164). -/
def rsqV : XVal → XVal
  | .nan => .nan
  | .inf n => if n then .nan else .fin false 0 0
  | .fin n m e => if m = 0 then .inf n else if n then .nan else rsqPos m e

/-- `sqrt` (R164). -/
def sqrtV : XVal → XVal
  | .nan => .nan
  | .inf n => if n then .nan else .inf false
  | .fin n m e => if m = 0 then .fin n 0 0 else if n then .nan else sqrtPos m e

def sinpV : XVal → XVal
  | .fin n m e => sincosPi false n m e
  | _ => .nan

def cospV : XVal → XVal
  | .fin n m e => sincosPi true n m e
  | _ => .nan

/-! ### The fixed recipes (R165-R168) -/

/-- `fma(a, b, c)` rounded once as rne (R5). -/
def fmaV (a b c : XVal) : XVal := rneV (XVal.fma .rne a b c)
def mulV (a b : XVal) : XVal := rneV (XVal.mul a b)

/-- Tables of R165. -/
def tabRcp (i : Nat) : XVal := rneV (divPos 128 (129 + 2 * i))
def tabRsq (i : Nat) : XVal := rneV (rsqPos ((1 + i / 32) * (65 + 2 * (i % 32))) (-6))
def tabEx2 (i : Nat) : XVal := ex2V (.fin false i (-6))

/-- L1 := rne(ln 2) and L2 := rne((ln 2)^2 / 2) (R165). -/
def recL1 : XVal := ofF32 0x3F317218
def recL2 : XVal := ofF32 0x3E75FDF0

/-- Scale a value by 2^n. -/
def XVal.scale (n : Int) : XVal → XVal
  | .fin s m e => .fin s m (e + n)
  | v => v

/-- `rcp.a` (R166). -/
def rcpA : XVal → XVal
  | .nan => .nan
  | .inf n => .fin n 0 0
  | .fin neg m0 e0 =>
    if m0 = 0 then .inf neg
    else
      let l := Nat.log2 m0
      let e : Int := (l : Int) + e0
      let mv := XVal.fin false m0 (-(l : Int))
      let i := (m0 - 2 ^ l) * 64 / 2 ^ l
      let c := XVal.fin false (129 + 2 * i) (-7)
      let t := tabRcp i
      let d := XVal.sub .rne mv c
      let u := mulV d t
      let p := fmaV u u u.negate
      let y := fmaV t p t
      roundTo fp32 (match y.scale (-e) with | .fin _ m x => .fin neg m x | v => v) .rne

/-- `rsq.a` (R167). -/
def rsqA : XVal → XVal
  | .nan => .nan
  | .inf n => if n then .nan else .fin false 0 0
  | .fin neg m0 e0 =>
    if m0 = 0 then .inf neg
    else if neg then .nan
    else
      let l := Nat.log2 m0
      let e : Int := (l : Int) + e0
      let o : Nat := (e % 2).toNat
      let h : Int := (e - (o : Int)) / 2
      let f := XVal.fin false m0 ((o : Int) - (l : Int))
      let j := (m0 - 2 ^ l) * 32 / 2 ^ l
      let i := 32 * o + j
      let c := XVal.fin false ((1 + o) * (65 + 2 * j)) (-6)
      let t := tabRsq i
      let d := XVal.sub .rne f c
      let w := mulV t t
      let v := mulV d w
      let g := fmaV (.fin false 3 (-3)) v (.fin true 1 (-1))
      let z := mulV v g
      let y := fmaV t z t
      roundTo fp32 (y.scale (-h)) .rne

/-- `ex2.a` (R168). -/
def ex2A : XVal → XVal
  | .nan => .nan
  | .inf n => if n then .fin false 0 0 else .inf false
  | .fin neg m e =>
    if XVal.le (.fin false 128 0) (.fin neg m e) then .inf false
    else if XVal.lt (.fin neg m e) (.fin true 150 0) then .fin false 0 0
    else
      let fr := if e < 0 then (-e).toNat else 0
      let whole : Nat := if e < 0 then m / 2 ^ fr else m * 2 ^ e.toNat
      let part : Nat := if e < 0 then m % 2 ^ fr else 0
      let n : Int := if neg then (if part = 0 then -(whole : Int) else -(whole : Int) - 1) else (whole : Int)
      let f : Nat := if neg && part ≠ 0 then 2 ^ fr - part else part
      let i := f * 64 / 2 ^ fr
      let d := XVal.fin false (f * 64 - i * 2 ^ fr) (-(fr : Int) - 6)
      let t := tabEx2 i
      let p := fmaV recL2 d recL1
      let q := mulV p d
      let y := fmaV t q t
      roundTo fp32 (y.scale n) .rne

/-- The functions of class Q by name (R163). -/
inductive QOp where
  | rcp | rsq | sqrt | ex2 | lg2 | sinp | cosp | tanh | rcpA | rsqA | ex2A
  deriving DecidableEq, Repr

/-- Result of a class Q function (R164, R166-R168). -/
def qResult (op : QOp) (a : XVal) : Word :=
  let v := match op with
    | .rcp => rcpV a
    | .rsq => rsqV a
    | .sqrt => sqrtV a
    | .ex2 => ex2V a
    | .lg2 => lg2V a
    | .sinp => sinpV a
    | .cosp => cospV a
    | .tanh => tanhV a
    | .rcpA => rcpA a
    | .rsqA => rsqA a
    | .ex2A => ex2A a
  toF32 v .rne false

end Sys2Proof.Machine
end

