-- ==== Sys2Proof/Machine/QUnit.lean ====
section
/-! DEFINITION. Class Q (09_vector_scalar.md R163-R170) and the resident routine of `ex2.a` (R169, 24_determinism.md R379). -/

namespace Sys2Proof.Machine

/-- A source of a Q instruction after selection and widening, as an FP32 code. -/
def qA (t : Team) (x : Fields) (l : Nat) : Word :=
  let m := modOf .q x
  widenFloat t (mNfs m) (mAsub m) (srcV t x.a.toNat (immOf x) l)

/-- The held A source (R47). -/
def qHold (t : Team) (x : Fields) : Option (KMap Word) := if x.hold = 0 then none else some (latchRow t.lanes (qA t x))

/-- The pending results of a Q instruction. -/
def sfuOpOf (tid : Nat) (t : Team) (op : QOp) (x : Fields) : SfuOp :=
  let m := modOf .q x
  { id := t.nextOp, tid := tid, dst := if x.d.toNat < 88 then some (t.vWord x.d.toNat) else none,
    vals := (laneList t.lanes (presentSet t m)).map (fun l => (l, qResult op (ofF32 (qA t x l)))),
    flag := selFlag t m }

/-- A class Q instruction issues only when an entry of its partition's queue is free (R170). -/
def issueQ (i : Instr) (s : State) (k : Team → Fields → Out) : Out :=
  issue i s (fun t _ x => if Config.sfuEntries ≤ (s.partAt t.partNo).sfuQ.length then .next s else k t x)

/-- A Q instruction reads its sources at issue and enters the partition's queue; with no present lane it does nothing and counts on no flag (R170). -/
def qOp (i : Instr) (s : State) (op : QOp) : Out :=
  issueQ i s (fun t x =>
    let m := modOf .q x
    if presentSet t m = 0 then finishHold s t x (qHold t x)
    else
      let p := s.partAt t.partNo
      finishHold (s.setPart t.partNo { p with sfuQ := p.sfuQ ++ [sfuOpOf s.cur t op x] }) { t.flagUp (selFlag t m) with nextOp := t.nextOp + 1 } x (qHold t x))

def execRcp (f : Fields) (s : State) : Out := qOp (.rcp f) s .rcp
def execRsq (f : Fields) (s : State) : Out := qOp (.rsq f) s .rsq
def execSqrt (f : Fields) (s : State) : Out := qOp (.sqrt f) s .sqrt
def execEx2 (f : Fields) (s : State) : Out := qOp (.ex2 f) s .ex2
def execLg2 (f : Fields) (s : State) : Out := qOp (.lg2 f) s .lg2
def execSinp (f : Fields) (s : State) : Out := qOp (.sinp f) s .sinp
def execCosp (f : Fields) (s : State) : Out := qOp (.cosp f) s .cosp
def execTanh (f : Fields) (s : State) : Out := qOp (.tanh f) s .tanh
def execRcpA (f : Fields) (s : State) : Out := qOp (.rcpA f) s .rcpA
def execRsqA (f : Fields) (s : State) : Out := qOp (.rsqA f) s .rsqA

/-- `ex2.a` on stepping B1: the resident routine writes the results in the present lanes after the team's earlier Q results and joins (R197),
leaves the flag where it was, and counts one entry in the die's telemetry (R169, R379). -/
def execEx2A (f : Fields) (s : State) : Out :=
  issueQ (.ex2A f) s (fun t x =>
    let m := modOf .q x
    if presentSet t m = 0 then finishHold s t x (qHold t x)
    else if heldByFenceq s s.cur 3 t.nextOp then .next s
    else
      let o := { sfuOpOf s.cur t .ex2A x with flag := none }
      let s := drainSfu s s.cur
      let s := s.modDie (dieOf t.core) (fun d => { d with compat := d.compat + 1 })
      finishHold s (writeSfu s.team o) x (qHold t x))

/-- First pending result of a team. -/
def firstSfu (q : List SfuOp) (tid : Nat) : Option SfuOp := q.find? (fun o => o.tid = tid)

/-- The queue without a team's first entry. -/
def dropSfu (tid : Nat) : List SfuOp → List SfuOp
  | [] => []
  | o :: r => if o.tid = tid then r else o :: dropSfu tid r

/-- Q_RESULT_WRITE: the unit writes the oldest pending result of the team, unless a join holds it, and counts its flag down (R170, R197). -/
def execQResultWrite (s : State) : Out :=
  let tid := s.ev.x
  let t := s.teamAt tid
  let p := s.partAt t.partNo
  match firstSfu p.sfuQ tid with
  | none => .next s
  | some o =>
    if heldByFenceq s tid 3 o.id then .next s
    else .next ((s.setTeamAt tid (writeSfu t o)).setPart t.partNo { p with sfuQ := dropSfu tid p.sfuQ })

end Sys2Proof.Machine
end

