-- ==== Sys2Proof/Machine/Scalar.lean ====
section
/-! DEFINITION. Class S (09_vector_scalar.md R139-R146); `sld` stands with the memory instructions. -/

namespace Sys2Proof.Machine

/-- SMOV: move (R140). -/
def execSmov (f : Fields) (s : State) : Out := scalarOp (.smov f) s false (fun a _ _ => a)

/-- SADD: sum (R140). -/
def execSadd (f : Fields) (s : State) : Out := scalarOp (.sadd f) s false (fun a b _ => a + b)

/-- SSUB: difference (R140). -/
def execSsub (f : Fields) (s : State) : Out := scalarOp (.ssub f) s false (fun a b _ => a - b)

/-- SMUL: product (R140). -/
def execSmul (f : Fields) (s : State) : Out := scalarOp (.smul f) s false (fun a b _ => a * b)

/-- SMULHI_I32: high half of the signed product (R140). -/
def execSmulhiI32 (f : Fields) (s : State) : Out := scalarOp (.smulhiI32 f) s true (fun a b _ => mulhiI a b)

/-- SMULHI_Z32: high half of the unsigned product (R140). -/
def execSmulhiZ32 (f : Fields) (s : State) : Out := scalarOp (.smulhiZ32 f) s false (fun a b _ => mulhiZ a b)

/-- SMAD: product plus third source (R140). -/
def execSmad (f : Fields) (s : State) : Out := scalarOp (.smad f) s false (fun a b c => a * b + c)

/-- SSHL: shift left (R140). -/
def execSshl (f : Fields) (s : State) : Out := scalarOp (.sshl f) s false (fun a b _ => shlW a b)

/-- SSHR: shift right (R140). -/
def execSshr (f : Fields) (s : State) : Out := scalarOp (.sshr f) s false (fun a b _ => shrW a b)

/-- SSRA: arithmetic shift right (R140). -/
def execSsra (f : Fields) (s : State) : Out := scalarOp (.ssra f) s false (fun a b _ => sraW a b)

/-- SAND: and (R140). -/
def execSand (f : Fields) (s : State) : Out := scalarOp (.sand f) s false (fun a b _ => a &&& b)

/-- SOR: or (R140). -/
def execSor (f : Fields) (s : State) : Out := scalarOp (.sor f) s false (fun a b _ => a ||| b)

/-- SXOR: exclusive or (R140). -/
def execSxor (f : Fields) (s : State) : Out := scalarOp (.sxor f) s false (fun a b _ => a ^^^ b)

/-- SNOT: complement (R140). -/
def execSnot (f : Fields) (s : State) : Out := scalarOp (.snot f) s false (fun a _ _ => ~~~a)

/-- SMIN_I32: lesser, signed (R140). -/
def execSminI32 (f : Fields) (s : State) : Out := scalarOp (.sminI32 f) s true (fun a b _ => minI a b)

/-- SMIN_Z32: lesser, unsigned (R140). -/
def execSminZ32 (f : Fields) (s : State) : Out := scalarOp (.sminZ32 f) s false (fun a b _ => minZ a b)

/-- SMAX_I32: greater, signed (R140). -/
def execSmaxI32 (f : Fields) (s : State) : Out := scalarOp (.smaxI32 f) s true (fun a b _ => maxI a b)

/-- SMAX_Z32: greater, unsigned (R140). -/
def execSmaxZ32 (f : Fields) (s : State) : Out := scalarOp (.smaxZ32 f) s false (fun a b _ => maxZ a b)

/-- SPOPC: count of set bits (R140). -/
def execSpopc (f : Fields) (s : State) : Out := scalarOp (.spopc f) s false (fun a _ _ => popcW a)

/-- SCLZ: leading zeros (R140). -/
def execSclz (f : Fields) (s : State) : Out := scalarOp (.sclz f) s false (fun a _ _ => clzW a)

/-- SBFE_Z32: bit field, zero-extended (R141). -/
def execSbfeZ32 (f : Fields) (s : State) : Out := scalarOp (.sbfeZ32 f) s false (fun a b _ => bfeZ a b)

/-- SBFE_I32: bit field, sign-extended (R141). -/
def execSbfeI32 (f : Fields) (s : State) : Out := scalarOp (.sbfeI32 f) s true (fun a b _ => bfeI a b)

/-- SADD64: 64-bit sum (R142). -/
def execSadd64 (f : Fields) (s : State) : Out := scalarOp64 (.sadd64 f) s (fun a b => a + b)

/-- SSUB64: 64-bit difference (R142). -/
def execSsub64 (f : Fields) (s : State) : Out := scalarOp64 (.ssub64 f) s (fun a b => a - b)

/-- SMAD64: sign-extended product of 32-bit sources plus the D pair (R142). -/
def execSmad64 (f : Fields) (s : State) : Out := 
  issue (.smad64 f) s (fun t _ x =>
    let a := (srcS t x.a.toNat (immOf x)).signExtend 64
    let b := (srcS t x.b.toNat (immOf x)).signExtend 64
    finish s (t.setSpair x.d.toNat (a * b + srcS64 t x.d.toNat 0)) x)

/-- SCMP_EQ (R143). -/
def execScmpEq (f : Fields) (s : State) : Out := scalarCmp (.scmpEq f) s false .eq

/-- SCMP_NE (R143). -/
def execScmpNe (f : Fields) (s : State) : Out := scalarCmp (.scmpNe f) s false .ne

/-- SCMP_LT_I32 (R143). -/
def execScmpLtI32 (f : Fields) (s : State) : Out := scalarCmp (.scmpLtI32 f) s true .ltI

/-- SCMP_LE_I32 (R143). -/
def execScmpLeI32 (f : Fields) (s : State) : Out := scalarCmp (.scmpLeI32 f) s true .leI

/-- SCMP_LT_Z32 (R143). -/
def execScmpLtZ32 (f : Fields) (s : State) : Out := scalarCmp (.scmpLtZ32 f) s false .ltZ

/-- SCMP_LE_Z32 (R143). -/
def execScmpLeZ32 (f : Fields) (s : State) : Out := scalarCmp (.scmpLeZ32 f) s false .leZ

/-- SSEL: a if the selected predicate, read in the lowest active lane, holds, else b; b with an empty mask (R143). -/
def execSsel (f : Fields) (s : State) : Out := 
  issue (.ssel f) s (fun t _ x =>
    let sel := (immOf x).toNat
    let p := lowestPred t (sel % 32) (sel / 32 % 2 = 1)
    finish s (t.setSdst x.d.toNat (if p then srcS t x.a.toNat 0 else srcS t x.b.toNat 0)) x)

/-- RFA: vA in the lowest active lane, and whether there is one in every lane of pB (R146). -/
def execRfa (f : Fields) (s : State) : Out := 
  issue (.rfa f) s (fun t _ x =>
    let full := fullMask t.warps
    let r := match lowestLane t.lanes t.mask with
      | some l => (t.word (t.vWord x.a.toNat) l, full)
      | none => (0, 0)
    finish s ((t.setSdst x.d.toNat r.1).setPred x.b.toNat full r.2) x)

/-- RLANE: vA in lane b, active or not; 0 beyond the team (R146). -/
def execRlane (f : Fields) (s : State) : Out := 
  issue (.rlane f) s (fun t _ x =>
    let l := (srcS t x.b.toNat (immOf x)).toNat
    finish s (t.setSdst x.d.toNat (if l < t.lanes then t.word (t.vWord x.a.toNat) l else 0)) x)

/-- SRD: a special register; `%tmask` by the warp number in B (R145). -/
def execSrd (f : Fields) (s : State) : Out := 
  issue (.srd f) s (fun t _ x => finish s (readSpecial s t x.a.toNat x.d.toNat (srcS t x.b.toNat (immOf x)).toNat) x)

end Sys2Proof.Machine
end

