-- ==== Sys2Proof/Machine/Vector.lean ====
section
/-! DEFINITION. Class V within a lane: integer, FP32, packed, conversion, packing and predicate instructions
(09_vector_scalar.md R147-R155, R161). -/

namespace Sys2Proof.Machine

/-- MOV: move (R140, R147). -/
def execMov (f : Fields) (s : State) : Out := vecOp (.mov f) s false (fun a _ _ => a)

/-- IADD: sum (R140, R147). -/
def execIadd (f : Fields) (s : State) : Out := vecOp (.iadd f) s false (fun a b _ => a + b)

/-- ISUB: difference (R140, R147). -/
def execIsub (f : Fields) (s : State) : Out := vecOp (.isub f) s false (fun a b _ => a - b)

/-- IMUL: product (R140, R147). -/
def execImul (f : Fields) (s : State) : Out := vecOp (.imul f) s false (fun a b _ => a * b)

/-- IMULHI_I32: high half of the signed product (R140, R147). -/
def execImulhiI32 (f : Fields) (s : State) : Out := vecOp (.imulhiI32 f) s true (fun a b _ => mulhiI a b)

/-- IMULHI_Z32: high half of the unsigned product (R140, R147). -/
def execImulhiZ32 (f : Fields) (s : State) : Out := vecOp (.imulhiZ32 f) s false (fun a b _ => mulhiZ a b)

/-- IMAD: product plus third source (R140, R147). -/
def execImad (f : Fields) (s : State) : Out := vecOp (.imad f) s false (fun a b c => a * b + c)

/-- SHL: shift left (R140, R147). -/
def execShl (f : Fields) (s : State) : Out := vecOp (.shl f) s false (fun a b _ => shlW a b)

/-- SHR: shift right (R140, R147). -/
def execShr (f : Fields) (s : State) : Out := vecOp (.shr f) s false (fun a b _ => shrW a b)

/-- SRA: arithmetic shift right (R140, R147). -/
def execSra (f : Fields) (s : State) : Out := vecOp (.sra f) s false (fun a b _ => sraW a b)

/-- AND: and (R140, R147). -/
def execAnd (f : Fields) (s : State) : Out := vecOp (.and f) s false (fun a b _ => a &&& b)

/-- OR: or (R140, R147). -/
def execOr (f : Fields) (s : State) : Out := vecOp (.or f) s false (fun a b _ => a ||| b)

/-- XOR: exclusive or (R140, R147). -/
def execXor (f : Fields) (s : State) : Out := vecOp (.xor f) s false (fun a b _ => a ^^^ b)

/-- NOT: complement (R140, R147). -/
def execNot (f : Fields) (s : State) : Out := vecOp (.not f) s false (fun a _ _ => ~~~a)

/-- IMIN_I32: lesser, signed (R140, R147). -/
def execIminI32 (f : Fields) (s : State) : Out := vecOp (.iminI32 f) s true (fun a b _ => minI a b)

/-- IMIN_Z32: lesser, unsigned (R140, R147). -/
def execIminZ32 (f : Fields) (s : State) : Out := vecOp (.iminZ32 f) s false (fun a b _ => minZ a b)

/-- IMAX_I32: greater, signed (R140, R147). -/
def execImaxI32 (f : Fields) (s : State) : Out := vecOp (.imaxI32 f) s true (fun a b _ => maxI a b)

/-- IMAX_Z32: greater, unsigned (R140, R147). -/
def execImaxZ32 (f : Fields) (s : State) : Out := vecOp (.imaxZ32 f) s false (fun a b _ => maxZ a b)

/-- POPC: count of set bits (R140, R147). -/
def execPopc (f : Fields) (s : State) : Out := vecOp (.popc f) s false (fun a _ _ => popcW a)

/-- CLZ: leading zeros (R140, R147). -/
def execClz (f : Fields) (s : State) : Out := vecOp (.clz f) s false (fun a _ _ => clzW a)

/-- BFE_Z32: bit field, zero-extended (R141). -/
def execBfeZ32 (f : Fields) (s : State) : Out := vecOp (.bfeZ32 f) s false (fun a b _ => bfeZ a b)

/-- BFE_I32: bit field, sign-extended (R141). -/
def execBfeI32 (f : Fields) (s : State) : Out := vecOp (.bfeI32 f) s true (fun a b _ => bfeI a b)

/-- BREV: bits reversed (R140, R147). -/
def execBrev (f : Fields) (s : State) : Out := vecOp (.brev f) s false (fun a _ _ => brevW a)

/-- BFI: bit field inserted into D (R141). -/
def execBfi (f : Fields) (s : State) : Out := vecOp (.bfi f) s false (fun a b c => bfiW a b c)

/-- IABS: absolute value mod 2^32 (R147). -/
def execIabs (f : Fields) (s : State) : Out := vecOp (.iabs f) s false (fun a _ _ => absW a)

/-- IDIV_I32: signed quotient (R148). -/
def execIdivI32 (f : Fields) (s : State) : Out := vecOp (.idivI32 f) s true (fun a b _ => divI a b)

/-- IDIV_Z32: unsigned quotient (R148). -/
def execIdivZ32 (f : Fields) (s : State) : Out := vecOp (.idivZ32 f) s false (fun a b _ => divZ a b)

/-- IREM_I32: signed remainder (R148). -/
def execIremI32 (f : Fields) (s : State) : Out := vecOp (.iremI32 f) s true (fun a b _ => remI a b)

/-- IREM_Z32: unsigned remainder (R148). -/
def execIremZ32 (f : Fields) (s : State) : Out := vecOp (.iremZ32 f) s false (fun a b _ => remZ a b)

/-- ICMP_EQ (R149). -/
def execIcmpEq (f : Fields) (s : State) : Out := vecCmp (.icmpEq f) s false .eq

/-- ICMP_NE (R149). -/
def execIcmpNe (f : Fields) (s : State) : Out := vecCmp (.icmpNe f) s false .ne

/-- ICMP_LT_I32 (R149). -/
def execIcmpLtI32 (f : Fields) (s : State) : Out := vecCmp (.icmpLtI32 f) s true .ltI

/-- ICMP_LE_I32 (R149). -/
def execIcmpLeI32 (f : Fields) (s : State) : Out := vecCmp (.icmpLeI32 f) s true .leI

/-- ICMP_LT_Z32 (R149). -/
def execIcmpLtZ32 (f : Fields) (s : State) : Out := vecCmp (.icmpLtZ32 f) s false .ltZ

/-- ICMP_LE_Z32 (R149). -/
def execIcmpLeZ32 (f : Fields) (s : State) : Out := vecCmp (.icmpLeZ32 f) s false .leZ

/-- SEL: per lane, a if the selected predicate holds there, else b (R149). -/
def execSel (f : Fields) (s : State) : Out := 
  issue (.sel f) s (fun t _ x =>
    let sel := (immOf x).toNat
    let a := srcV t x.a.toNat 0
    let b := srcV t x.b.toNat 0
    vecWrite s t x a b (fun l => if (t.pred (sel % 32)).getLsbD l != decide (sel / 32 % 2 = 1) then a l else b l))

/-- FADD: sum (R151). -/
def execFadd (f : Fields) (s : State) : Out := floatOp (.fadd f) s (fun r a b _ => XVal.add r a b)

/-- FSUB: difference (R151). -/
def execFsub (f : Fields) (s : State) : Out := floatOp (.fsub f) s (fun r a b _ => XVal.sub r a b)

/-- FMUL: product (R151). -/
def execFmul (f : Fields) (s : State) : Out := floatOp (.fmul f) s (fun _ a b _ => XVal.mul a b)

/-- FFMA: a x b + c, rounded once (R151). -/
def execFfma (f : Fields) (s : State) : Out := floatOp (.ffma f) s (fun r a b c => XVal.fma r a b c)

/-- FMIN: lesser (R151). -/
def execFmin (f : Fields) (s : State) : Out := floatOp (.fmin f) s (fun _ a b _ => XVal.minV a b)

/-- FMAX: greater (R151). -/
def execFmax (f : Fields) (s : State) : Out := floatOp (.fmax f) s (fun _ a b _ => XVal.maxV a b)

/-- FCMP_EQ (R151). -/
def execFcmpEq (f : Fields) (s : State) : Out := floatCmp (.fcmpEq f) s .eq

/-- FCMP_LT (R151). -/
def execFcmpLt (f : Fields) (s : State) : Out := floatCmp (.fcmpLt f) s .lt

/-- FCMP_LE (R151). -/
def execFcmpLe (f : Fields) (s : State) : Out := floatCmp (.fcmpLe f) s .le

/-- FCMP_UN (R151). -/
def execFcmpUn (f : Fields) (s : State) : Out := floatCmp (.fcmpUn f) s .un

/-- FCMP_NE (R151). -/
def execFcmpNe (f : Fields) (s : State) : Out := floatCmp (.fcmpNe f) s .ne

/-- FCLASS: one bit for the class of a (R151). -/
def execFclass (f : Fields) (s : State) : Out := 
  issue (.fclass f) s (fun t _ x =>
    let c := mAsub (modOf .v x)
    vecWrite s t x (fA t x) (fA t x) (fun l => fclassWord (ofF32 (fA t x l)) (quietBit c (srcV t x.a.toNat (immOf x) l))))

/-- HADD2: per half (R152). -/
def execHadd2 (f : Fields) (s : State) : Out := packedOp (.hadd2 f) s fp16 (fun r a b _ => XVal.add r a b)

/-- HMUL2: per half (R152). -/
def execHmul2 (f : Fields) (s : State) : Out := packedOp (.hmul2 f) s fp16 (fun _ a b _ => XVal.mul a b)

/-- HFMA2: per half (R152). -/
def execHfma2 (f : Fields) (s : State) : Out := packedOp (.hfma2 f) s fp16 (fun r a b c => XVal.fma r a b c)

/-- HMIN2: per half (R152). -/
def execHmin2 (f : Fields) (s : State) : Out := packedOp (.hmin2 f) s fp16 (fun _ a b _ => XVal.minV a b)

/-- HMAX2: per half (R152). -/
def execHmax2 (f : Fields) (s : State) : Out := packedOp (.hmax2 f) s fp16 (fun _ a b _ => XVal.maxV a b)

/-- BADD2: per half (R152). -/
def execBadd2 (f : Fields) (s : State) : Out := packedOp (.badd2 f) s bf16 (fun r a b _ => XVal.add r a b)

/-- BMUL2: per half (R152). -/
def execBmul2 (f : Fields) (s : State) : Out := packedOp (.bmul2 f) s bf16 (fun _ a b _ => XVal.mul a b)

/-- BFMA2: per half (R152). -/
def execBfma2 (f : Fields) (s : State) : Out := packedOp (.bfma2 f) s bf16 (fun r a b c => XVal.fma r a b c)

/-- CVT_I32 (R153). -/
def execCvtI32 (f : Fields) (s : State) : Out := cvtIntOp (.cvtI32 f) s true

/-- CVT_Z32 (R153). -/
def execCvtZ32 (f : Fields) (s : State) : Out := cvtIntOp (.cvtZ32 f) s false

/-- CVT_F32 (R153). -/
def execCvtF32 (f : Fields) (s : State) : Out := cvtFloatOp (.cvtF32 f) s

/-- CVT_F16 (R153). -/
def execCvtF16 (f : Fields) (s : State) : Out := cvtFloatOp (.cvtF16 f) s

/-- CVT_BF16 (R153). -/
def execCvtBf16 (f : Fields) (s : State) : Out := cvtFloatOp (.cvtBf16 f) s

/-- CVT_NF (R153). -/
def execCvtNf (f : Fields) (s : State) : Out := cvtFloatOp (.cvtNf f) s

/-- PACK: two subfields side by side; the other bits of D keep their values (R154). -/
def execPack (f : Fields) (s : State) : Out := 
  issue (.pack f) s (fun t _ x =>
    let m := modOf .v x
    let a (l : Nat) := widenInt false (mAsub m) (srcV t x.a.toNat (immOf x) l)
    let b (l : Nat) := widenInt false (mBsub m) (srcV t x.b.toNat (immOf x) l)
    vecWrite s t x a b (fun l =>
      subInsert (mDnar m + 1) (subInsert (mDnar m) (dstOld t x.d.toNat l) (a l).toNat) (b l).toNat))

/-- UNPK: two adjacent subfields extended into a register pair (R155). -/
def execUnpk (f : Fields) (s : State) : Out := 
  issue (.unpk f) s (fun t _ x =>
    let m := modOf .v x
    let set := presentSet t m
    let w := srcV t x.a.toNat (immOf x)
    let sg := decide (x.b.toNat = 1)
    let t1 := t.setV x.d.toNat set (fun l => widenInt sg (mAsub m) (w l))
    let t2 := if x.d.toNat < 88 then t1.setV (x.d.toNat + 1) set (fun l => widenInt sg (mAsub m + 1) (w l)) else t1
    finishHold s t2 x (holdOf t t2 x set (fun l => widenInt false (mAsub m) (w l)) (fun _ => 0) (fun _ => 0)))

/-- PAND (R161). -/
def execPand (f : Fields) (s : State) : Out := 
  issue (.pand f) s (fun t _ x =>
    let a := t.pred x.a.toNat
    let b := t.pred x.b.toNat
    predWrite s t x (fun _ => 0) (fun _ => 0) (a &&& b))

/-- POR (R161). -/
def execPor (f : Fields) (s : State) : Out := 
  issue (.por f) s (fun t _ x =>
    let a := t.pred x.a.toNat
    let b := t.pred x.b.toNat
    predWrite s t x (fun _ => 0) (fun _ => 0) (a ||| b))

/-- PXOR (R161). -/
def execPxor (f : Fields) (s : State) : Out := 
  issue (.pxor f) s (fun t _ x =>
    let a := t.pred x.a.toNat
    let b := t.pred x.b.toNat
    predWrite s t x (fun _ => 0) (fun _ => 0) (a ^^^ b))

/-- PNOT (R161). -/
def execPnot (f : Fields) (s : State) : Out := 
  issue (.pnot f) s (fun t _ x =>
    let a := t.pred x.a.toNat
    predWrite s t x (fun _ => 0) (fun _ => 0) (~~~a))

/-- PMOV (R161). -/
def execPmov (f : Fields) (s : State) : Out := 
  issue (.pmov f) s (fun t _ x =>
    let a := t.pred x.a.toNat
    predWrite s t x (fun _ => 0) (fun _ => 0) (a))

end Sys2Proof.Machine
end

