-- ==== Sys2Proof/Machine/Dispatch.lean ====
section
/-! DEFINITION. The meaning of each step of the part, one arm for each constructor. -/

namespace Sys2Proof.Machine

def exec (i : Instr) (s : State) : Host.Outcome State Fault Refusal :=
  match i with
  | .clauseStart w => Sys2Proof.Machine.execClauseStart w s
  | .nop cls f => Sys2Proof.Machine.execNop cls f s
  | .rep cls p => Sys2Proof.Machine.execRep cls p s
  | .bra f => Sys2Proof.Machine.execBra f s
  | .braAny f => Sys2Proof.Machine.execBraAny f s
  | .braAll f => Sys2Proof.Machine.execBraAll f s
  | .braNone f => Sys2Proof.Machine.execBraNone f s
  | .brx f => Sys2Proof.Machine.execBrx f s
  | .call f => Sys2Proof.Machine.execCall f s
  | .callx f => Sys2Proof.Machine.execCallx f s
  | .ifP f => Sys2Proof.Machine.execIfP f s
  | .breakP f => Sys2Proof.Machine.execBreakP f s
  | .contP f => Sys2Proof.Machine.execContP f s
  | .exit f => Sys2Proof.Machine.execExit f s
  | .yield f => Sys2Proof.Machine.execYield f s
  | .sleep f => Sys2Proof.Machine.execSleep f s
  | .fork f => Sys2Proof.Machine.execFork f s
  | .rdv f => Sys2Proof.Machine.execRdv f s
  | .bar lvl f => Sys2Proof.Machine.execBar lvl f s
  | .bara lvl f => Sys2Proof.Machine.execBara lvl f s
  | .barw lvl f => Sys2Proof.Machine.execBarw lvl f s
  | .bare lvl f => Sys2Proof.Machine.execBare lvl f s
  | .tail f => Sys2Proof.Machine.execTail f s
  | .trap f => Sys2Proof.Machine.execTrap f s
  | .chkw f => Sys2Proof.Machine.execChkw f s
  | .smov f => Sys2Proof.Machine.execSmov f s
  | .sadd f => Sys2Proof.Machine.execSadd f s
  | .ssub f => Sys2Proof.Machine.execSsub f s
  | .smul f => Sys2Proof.Machine.execSmul f s
  | .smulhiI32 f => Sys2Proof.Machine.execSmulhiI32 f s
  | .smulhiZ32 f => Sys2Proof.Machine.execSmulhiZ32 f s
  | .smad f => Sys2Proof.Machine.execSmad f s
  | .sadd64 f => Sys2Proof.Machine.execSadd64 f s
  | .ssub64 f => Sys2Proof.Machine.execSsub64 f s
  | .smad64 f => Sys2Proof.Machine.execSmad64 f s
  | .sshl f => Sys2Proof.Machine.execSshl f s
  | .sshr f => Sys2Proof.Machine.execSshr f s
  | .ssra f => Sys2Proof.Machine.execSsra f s
  | .sand f => Sys2Proof.Machine.execSand f s
  | .sor f => Sys2Proof.Machine.execSor f s
  | .sxor f => Sys2Proof.Machine.execSxor f s
  | .snot f => Sys2Proof.Machine.execSnot f s
  | .sminI32 f => Sys2Proof.Machine.execSminI32 f s
  | .sminZ32 f => Sys2Proof.Machine.execSminZ32 f s
  | .smaxI32 f => Sys2Proof.Machine.execSmaxI32 f s
  | .smaxZ32 f => Sys2Proof.Machine.execSmaxZ32 f s
  | .scmpEq f => Sys2Proof.Machine.execScmpEq f s
  | .scmpNe f => Sys2Proof.Machine.execScmpNe f s
  | .scmpLtI32 f => Sys2Proof.Machine.execScmpLtI32 f s
  | .scmpLeI32 f => Sys2Proof.Machine.execScmpLeI32 f s
  | .scmpLtZ32 f => Sys2Proof.Machine.execScmpLtZ32 f s
  | .scmpLeZ32 f => Sys2Proof.Machine.execScmpLeZ32 f s
  | .ssel f => Sys2Proof.Machine.execSsel f s
  | .sld f => Sys2Proof.Machine.execSld f s
  | .srd f => Sys2Proof.Machine.execSrd f s
  | .rfa f => Sys2Proof.Machine.execRfa f s
  | .rlane f => Sys2Proof.Machine.execRlane f s
  | .spopc f => Sys2Proof.Machine.execSpopc f s
  | .sclz f => Sys2Proof.Machine.execSclz f s
  | .sbfeZ32 f => Sys2Proof.Machine.execSbfeZ32 f s
  | .sbfeI32 f => Sys2Proof.Machine.execSbfeI32 f s
  | .mov f => Sys2Proof.Machine.execMov f s
  | .iadd f => Sys2Proof.Machine.execIadd f s
  | .isub f => Sys2Proof.Machine.execIsub f s
  | .imul f => Sys2Proof.Machine.execImul f s
  | .imulhiI32 f => Sys2Proof.Machine.execImulhiI32 f s
  | .imulhiZ32 f => Sys2Proof.Machine.execImulhiZ32 f s
  | .imad f => Sys2Proof.Machine.execImad f s
  | .idivI32 f => Sys2Proof.Machine.execIdivI32 f s
  | .idivZ32 f => Sys2Proof.Machine.execIdivZ32 f s
  | .iremI32 f => Sys2Proof.Machine.execIremI32 f s
  | .iremZ32 f => Sys2Proof.Machine.execIremZ32 f s
  | .iminI32 f => Sys2Proof.Machine.execIminI32 f s
  | .iminZ32 f => Sys2Proof.Machine.execIminZ32 f s
  | .imaxI32 f => Sys2Proof.Machine.execImaxI32 f s
  | .imaxZ32 f => Sys2Proof.Machine.execImaxZ32 f s
  | .iabs f => Sys2Proof.Machine.execIabs f s
  | .shl f => Sys2Proof.Machine.execShl f s
  | .shr f => Sys2Proof.Machine.execShr f s
  | .sra f => Sys2Proof.Machine.execSra f s
  | .and f => Sys2Proof.Machine.execAnd f s
  | .or f => Sys2Proof.Machine.execOr f s
  | .xor f => Sys2Proof.Machine.execXor f s
  | .not f => Sys2Proof.Machine.execNot f s
  | .bfeZ32 f => Sys2Proof.Machine.execBfeZ32 f s
  | .bfeI32 f => Sys2Proof.Machine.execBfeI32 f s
  | .bfi f => Sys2Proof.Machine.execBfi f s
  | .popc f => Sys2Proof.Machine.execPopc f s
  | .clz f => Sys2Proof.Machine.execClz f s
  | .brev f => Sys2Proof.Machine.execBrev f s
  | .icmpEq f => Sys2Proof.Machine.execIcmpEq f s
  | .icmpNe f => Sys2Proof.Machine.execIcmpNe f s
  | .icmpLtI32 f => Sys2Proof.Machine.execIcmpLtI32 f s
  | .icmpLeI32 f => Sys2Proof.Machine.execIcmpLeI32 f s
  | .icmpLtZ32 f => Sys2Proof.Machine.execIcmpLtZ32 f s
  | .icmpLeZ32 f => Sys2Proof.Machine.execIcmpLeZ32 f s
  | .sel f => Sys2Proof.Machine.execSel f s
  | .fadd f => Sys2Proof.Machine.execFadd f s
  | .fsub f => Sys2Proof.Machine.execFsub f s
  | .fmul f => Sys2Proof.Machine.execFmul f s
  | .ffma f => Sys2Proof.Machine.execFfma f s
  | .fmin f => Sys2Proof.Machine.execFmin f s
  | .fmax f => Sys2Proof.Machine.execFmax f s
  | .fcmpEq f => Sys2Proof.Machine.execFcmpEq f s
  | .fcmpLt f => Sys2Proof.Machine.execFcmpLt f s
  | .fcmpLe f => Sys2Proof.Machine.execFcmpLe f s
  | .fcmpUn f => Sys2Proof.Machine.execFcmpUn f s
  | .fcmpNe f => Sys2Proof.Machine.execFcmpNe f s
  | .fclass f => Sys2Proof.Machine.execFclass f s
  | .hadd2 f => Sys2Proof.Machine.execHadd2 f s
  | .hmul2 f => Sys2Proof.Machine.execHmul2 f s
  | .hfma2 f => Sys2Proof.Machine.execHfma2 f s
  | .hmin2 f => Sys2Proof.Machine.execHmin2 f s
  | .hmax2 f => Sys2Proof.Machine.execHmax2 f s
  | .badd2 f => Sys2Proof.Machine.execBadd2 f s
  | .bmul2 f => Sys2Proof.Machine.execBmul2 f s
  | .bfma2 f => Sys2Proof.Machine.execBfma2 f s
  | .cvtI32 f => Sys2Proof.Machine.execCvtI32 f s
  | .cvtZ32 f => Sys2Proof.Machine.execCvtZ32 f s
  | .cvtF32 f => Sys2Proof.Machine.execCvtF32 f s
  | .cvtF16 f => Sys2Proof.Machine.execCvtF16 f s
  | .cvtBf16 f => Sys2Proof.Machine.execCvtBf16 f s
  | .cvtNf f => Sys2Proof.Machine.execCvtNf f s
  | .pack f => Sys2Proof.Machine.execPack f s
  | .unpk f => Sys2Proof.Machine.execUnpk f s
  | .shflIdx f => Sys2Proof.Machine.execShflIdx f s
  | .shflUp f => Sys2Proof.Machine.execShflUp f s
  | .shflDown f => Sys2Proof.Machine.execShflDown f s
  | .shflXor f => Sys2Proof.Machine.execShflXor f s
  | .voteAny f => Sys2Proof.Machine.execVoteAny f s
  | .voteAll f => Sys2Proof.Machine.execVoteAll f s
  | .voteBal f => Sys2Proof.Machine.execVoteBal f s
  | .matchLanes f => Sys2Proof.Machine.execMatchLanes f s
  | .vRedAdd f => Sys2Proof.Machine.execVRedAdd f s
  | .vRedMinI32 f => Sys2Proof.Machine.execVRedMinI32 f s
  | .vRedMinZ32 f => Sys2Proof.Machine.execVRedMinZ32 f s
  | .vRedMaxI32 f => Sys2Proof.Machine.execVRedMaxI32 f s
  | .vRedMaxZ32 f => Sys2Proof.Machine.execVRedMaxZ32 f s
  | .vRedAnd f => Sys2Proof.Machine.execVRedAnd f s
  | .vRedOr f => Sys2Proof.Machine.execVRedOr f s
  | .vRedXor f => Sys2Proof.Machine.execVRedXor f s
  | .vRedFadd f => Sys2Proof.Machine.execVRedFadd f s
  | .scanAdd f => Sys2Proof.Machine.execScanAdd f s
  | .scanMaxI32 f => Sys2Proof.Machine.execScanMaxI32 f s
  | .scanMaxZ32 f => Sys2Proof.Machine.execScanMaxZ32 f s
  | .pand f => Sys2Proof.Machine.execPand f s
  | .por f => Sys2Proof.Machine.execPor f s
  | .pxor f => Sys2Proof.Machine.execPxor f s
  | .pnot f => Sys2Proof.Machine.execPnot f s
  | .pmov f => Sys2Proof.Machine.execPmov f s
  | .seg f => Sys2Proof.Machine.execSeg f s
  | .rcp f => Sys2Proof.Machine.execRcp f s
  | .rsq f => Sys2Proof.Machine.execRsq f s
  | .sqrt f => Sys2Proof.Machine.execSqrt f s
  | .ex2 f => Sys2Proof.Machine.execEx2 f s
  | .lg2 f => Sys2Proof.Machine.execLg2 f s
  | .sinp f => Sys2Proof.Machine.execSinp f s
  | .cosp f => Sys2Proof.Machine.execCosp f s
  | .tanh f => Sys2Proof.Machine.execTanh f s
  | .rcpA f => Sys2Proof.Machine.execRcpA f s
  | .rsqA f => Sys2Proof.Machine.execRsqA f s
  | .ex2A f => Sys2Proof.Machine.execEx2A f s
  | .ld8I f => Sys2Proof.Machine.execLd8I f s
  | .ld8Z f => Sys2Proof.Machine.execLd8Z f s
  | .ld16I f => Sys2Proof.Machine.execLd16I f s
  | .ld16Z f => Sys2Proof.Machine.execLd16Z f s
  | .ld32 f => Sys2Proof.Machine.execLd32 f s
  | .ld64 f => Sys2Proof.Machine.execLd64 f s
  | .ld128 f => Sys2Proof.Machine.execLd128 f s
  | .st8 f => Sys2Proof.Machine.execSt8 f s
  | .st16 f => Sys2Proof.Machine.execSt16 f s
  | .st32 f => Sys2Proof.Machine.execSt32 f s
  | .st64 f => Sys2Proof.Machine.execSt64 f s
  | .st128 f => Sys2Proof.Machine.execSt128 f s
  | .ldw32 f => Sys2Proof.Machine.execLdw32 f s
  | .ldw64 f => Sys2Proof.Machine.execLdw64 f s
  | .ldw128 f => Sys2Proof.Machine.execLdw128 f s
  | .atomAdd f => Sys2Proof.Machine.execAtomAdd f s
  | .atomMinI32 f => Sys2Proof.Machine.execAtomMinI32 f s
  | .atomMinZ32 f => Sys2Proof.Machine.execAtomMinZ32 f s
  | .atomMaxI32 f => Sys2Proof.Machine.execAtomMaxI32 f s
  | .atomMaxZ32 f => Sys2Proof.Machine.execAtomMaxZ32 f s
  | .atomAnd f => Sys2Proof.Machine.execAtomAnd f s
  | .atomOr f => Sys2Proof.Machine.execAtomOr f s
  | .atomXor f => Sys2Proof.Machine.execAtomXor f s
  | .atomXchg f => Sys2Proof.Machine.execAtomXchg f s
  | .atomCas f => Sys2Proof.Machine.execAtomCas f s
  | .atomFadd f => Sys2Proof.Machine.execAtomFadd f s
  | .atomFmin f => Sys2Proof.Machine.execAtomFmin f s
  | .atomFmax f => Sys2Proof.Machine.execAtomFmax f s
  | .mRedAdd f => Sys2Proof.Machine.execMRedAdd f s
  | .mRedMinI32 f => Sys2Proof.Machine.execMRedMinI32 f s
  | .mRedMinZ32 f => Sys2Proof.Machine.execMRedMinZ32 f s
  | .mRedMaxI32 f => Sys2Proof.Machine.execMRedMaxI32 f s
  | .mRedMaxZ32 f => Sys2Proof.Machine.execMRedMaxZ32 f s
  | .mRedAnd f => Sys2Proof.Machine.execMRedAnd f s
  | .mRedOr f => Sys2Proof.Machine.execMRedOr f s
  | .mRedXor f => Sys2Proof.Machine.execMRedXor f s
  | .mRedFadd f => Sys2Proof.Machine.execMRedFadd f s
  | .mRedFmin f => Sys2Proof.Machine.execMRedFmin f s
  | .mRedFmax f => Sys2Proof.Machine.execMRedFmax f s
  | .append f => Sys2Proof.Machine.execAppend f s
  | .sealPage f => Sys2Proof.Machine.execSealPage f s
  | .fence f => Sys2Proof.Machine.execFence f s
  | .fenceq f => Sys2Proof.Machine.execFenceq f s
  | .pref f => Sys2Proof.Machine.execPref f s
  | .smap f => Sys2Proof.Machine.execSmap f s
  | .sunmap f => Sys2Proof.Machine.execSunmap f s
  | .sflush f => Sys2Proof.Machine.execSflush f s
  | .hdecl f => Sys2Proof.Machine.execHdecl f s
  | .hpush f => Sys2Proof.Machine.execHpush f s
  | .cpG2s f => Sys2Proof.Machine.execCpG2s f s
  | .cpS2g f => Sys2Proof.Machine.execCpS2g f s
  | .cpG2g f => Sys2Proof.Machine.execCpG2g f s
  | .cpGath f => Sys2Proof.Machine.execCpGath f s
  | .cpScat f => Sys2Proof.Machine.execCpScat f s
  | .cpFill f => Sys2Proof.Machine.execCpFill f s
  | .cpPlane f => Sys2Proof.Machine.execCpPlane f s
  | .cpTlr f => Sys2Proof.Machine.execCpTlr f s
  | .mzero f => Sys2Proof.Machine.execMzero f s
  | .mloop f => Sys2Proof.Machine.execMloop f s
  | .mgrp f => Sys2Proof.Machine.execMgrp f s
  | .mdrainS f => Sys2Proof.Machine.execMdrainS f s
  | .mdrainA f => Sys2Proof.Machine.execMdrainA f s
  | .msave f => Sys2Proof.Machine.execMsave f s
  | .mrest f => Sys2Proof.Machine.execMrest f s
  | .mstat f => Sys2Proof.Machine.execMstat f s
  | .fsdef f => Sys2Proof.Machine.execFsdef f s
  | .fcall f => Sys2Proof.Machine.execFcall f s
  | .fret f => Sys2Proof.Machine.execFret f s
  | .fsload f => Sys2Proof.Machine.execFsload f s
  | .fsdrop f => Sys2Proof.Machine.execFsdrop f s
  | .fsqry f => Sys2Proof.Machine.execFsqry f s
  | .srr f => Sys2Proof.Machine.execSrr f s
  | .srw f => Sys2Proof.Machine.execSrw f s
  | .fmap f => Sys2Proof.Machine.execFmap f s
  | .tlbinv f => Sys2Proof.Machine.execTlbinv f s
  | .capr f => Sys2Proof.Machine.execCapr f s
  | .phase f => Sys2Proof.Machine.execPhase f s
  | .halt f => Sys2Proof.Machine.execHalt f s
  | .ret => Sys2Proof.Machine.execRet s
  | .elseP => Sys2Proof.Machine.execElseP s
  | .endifP => Sys2Proof.Machine.execEndifP s
  | .loopP => Sys2Proof.Machine.execLoopP s
  | .endloopP => Sys2Proof.Machine.execEndloopP s
  | .qResultWrite => Sys2Proof.Machine.execQResultWrite s
  | .appendHomeReservation => Sys2Proof.Machine.execAppendHomeReservation s
  | .sealCompletion => Sys2Proof.Machine.execSealCompletion s
  | .haloPush => Sys2Proof.Machine.execHaloPush s
  | .copySegment => Sys2Proof.Machine.execCopySegment s
  | .copyCompletion => Sys2Proof.Machine.execCopyCompletion s
  | .matrixStep => Sys2Proof.Machine.execMatrixStep s
  | .matrixQueuePerform => Sys2Proof.Machine.execMatrixQueuePerform s
  | .fsQueuePerform => Sys2Proof.Machine.execFsQueuePerform s
  | .tret => Sys2Proof.Machine.execTret s
  | .variableLatencyCompletion => Sys2Proof.Machine.execVariableLatencyCompletion s
  | .priorityAging => Sys2Proof.Machine.execPriorityAging s
  | .sleepExpiry => Sys2Proof.Machine.execSleepExpiry s
  | .barrierGenerationComplete => Sys2Proof.Machine.execBarrierGenerationComplete s
  | .warpSlotRelease => Sys2Proof.Machine.execWarpSlotRelease s
  | .watchValidation => Sys2Proof.Machine.execWatchValidation s
  | .residencyScheduleLoad => Sys2Proof.Machine.execResidencyScheduleLoad s
  | .residencyEviction => Sys2Proof.Machine.execResidencyEviction s
  | .ptsTick => Sys2Proof.Machine.execPtsTick s
  | .ptsBroadcast => Sys2Proof.Machine.execPtsBroadcast s
  | .leaseExpiry => Sys2Proof.Machine.execLeaseExpiry s
  | .l1LeaseSweep => Sys2Proof.Machine.execL1LeaseSweep s
  | .l2LineSweep => Sys2Proof.Machine.execL2LineSweep s
  | .externalAgentWrite => Sys2Proof.Machine.execExternalAgentWrite s
  | .qtailWrite => Sys2Proof.Machine.execQtailWrite s
  | .queueEnable => Sys2Proof.Machine.execQueueEnable s
  | .queueDisable => Sys2Proof.Machine.execQueueDisable s
  | .queueErrClear => Sys2Proof.Machine.execQueueErrClear s
  | .registerWrite => Sys2Proof.Machine.execRegisterWrite s
  | .gridStart => Sys2Proof.Machine.execGridStart s
  | .launchCompletion => Sys2Proof.Machine.execLaunchCompletion s
  | .blockPlacement => Sys2Proof.Machine.execBlockPlacement s
  | .preemptionDecision => Sys2Proof.Machine.execPreemptionDecision s
  | .drainTimeout => Sys2Proof.Machine.execDrainTimeout s
  | .blockSave => Sys2Proof.Machine.execBlockSave s
  | .blockFlush => Sys2Proof.Machine.execBlockFlush s
  | .blockRestart => Sys2Proof.Machine.execBlockRestart s
  | .blockResume => Sys2Proof.Machine.execBlockResume s
  | .pendingTrapTaken => Sys2Proof.Machine.execPendingTrapTaken s
  | .pageWalk => Sys2Proof.Machine.execPageWalk s
  | .hostFaultAcknowledge => Sys2Proof.Machine.execHostFaultAcknowledge s
  | .faultWaiterReplay => Sys2Proof.Machine.execFaultWaiterReplay s
  | .stagedRecordAppend => Sys2Proof.Machine.execStagedRecordAppend s
  | .ticketGrant => Sys2Proof.Machine.execTicketGrant s
  | .ticketPhaseRelease => Sys2Proof.Machine.execTicketPhaseRelease s
  | .replayDecision => Sys2Proof.Machine.execReplayDecision s
  | .rds => Sys2Proof.Machine.execRds s
  | .rdx => Sys2Proof.Machine.execRdx s
  | .upg => Sys2Proof.Machine.execUpg s
  | .wb => Sys2Proof.Machine.execWb s
  | .fwds => Sys2Proof.Machine.execFwds s
  | .fwdx => Sys2Proof.Machine.execFwdx s
  | .invSnoop => Sys2Proof.Machine.execInvSnoop s
  | .snoopResponse => Sys2Proof.Machine.execSnoopResponse s
  | .wbAcknowledge => Sys2Proof.Machine.execWbAcknowledge s
  | .sealRecall => Sys2Proof.Machine.execSealRecall s
  | .mscEviction => Sys2Proof.Machine.execMscEviction s
  | .extentAdd => Sys2Proof.Machine.execExtentAdd s
  | .extentReleaseRequest => Sys2Proof.Machine.execExtentReleaseRequest s
  | .forcedExtentRelease => Sys2Proof.Machine.execForcedExtentRelease s
  | .extentAccept => Sys2Proof.Machine.execExtentAccept s
  | .extentDecline => Sys2Proof.Machine.execExtentDecline s
  | .extentCloseComplete => Sys2Proof.Machine.execExtentCloseComplete s
  | .extentDone => Sys2Proof.Machine.execExtentDone s
  | .appendFrameAlloc => Sys2Proof.Machine.execAppendFrameAlloc s
  | .pageFree => Sys2Proof.Machine.execPageFree s
  | .channelService => Sys2Proof.Machine.execChannelService s
  | .telemetryCopy => Sys2Proof.Machine.execTelemetryCopy s
  | .rowActivationAlert => Sys2Proof.Machine.execRowActivationAlert s
  | .laneRetrain => Sys2Proof.Machine.execLaneRetrain s
  | .keyLoad => Sys2Proof.Machine.execKeyLoad s
  | .keyRevoke => Sys2Proof.Machine.execKeyRevoke s
  | .boot => Sys2Proof.Machine.execBoot s
  | .recoveryWrite => Sys2Proof.Machine.execRecoveryWrite s
  | .firmwareSwap => Sys2Proof.Machine.execFirmwareSwap s
  | .swapPoint => Sys2Proof.Machine.execSwapPoint s
  | .aliveReport => Sys2Proof.Machine.execAliveReport s
  | .swapAliveTimeout => Sys2Proof.Machine.execSwapAliveTimeout s
  | .swapCommit => Sys2Proof.Machine.execSwapCommit s
  | .watchdogPet => Sys2Proof.Machine.execWatchdogPet s
  | .watchdogRung0 => Sys2Proof.Machine.execWatchdogRung0 s
  | .watchdogRung1 => Sys2Proof.Machine.execWatchdogRung1 s
  | .watchdogRung2 => Sys2Proof.Machine.execWatchdogRung2 s
  | .watchdogRung3 => Sys2Proof.Machine.execWatchdogRung3 s
  | .watchdogRung4 => Sys2Proof.Machine.execWatchdogRung4 s
  | .watchdogRung5 => Sys2Proof.Machine.execWatchdogRung5 s
  | .getMeasurements => Sys2Proof.Machine.execGetMeasurements s
  | .keyExchange => Sys2Proof.Machine.execKeyExchange s
  | .linkUpMaskChange => Sys2Proof.Machine.execLinkUpMaskChange s
  | .kstatBusyClear => Sys2Proof.Machine.execKstatBusyClear s
  | .ideKeyProgramming => Sys2Proof.Machine.execIdeKeyProgramming s

end Sys2Proof.Machine
end

