-- ==== Sys2Proof/Machine/Fetch.lean ====
section
/-! DEFINITION. From a state to what it does next: reading the instruction a team stands at, a team's turn, a stream's turn, and the order of
turns when the agenda names none (01_machine.md R34, R35; 03_instruction_words.md R51, R55, R69, R75; 07_control.md R122, R124-R126;
16_scheduling_faults.md R265, R270, R276). -/

namespace Sys2Proof.Machine

/-! ### The instruction a team stands at -/

/-- The instruction that repeat j of a prefix issues (R69). -/
def repeated (p : RepWord) (j : Nat) (i : Instr) : Instr :=
  match encOf i with
  | none => i
  | some (f, x) => (instrAt f.cls f.op (stepFields p j x)).getD i

/-- The header at a clause boundary. -/
def runHeader (s : State) : Out := withFetch s (fetchWord s s.cur s.team.pc.toNat) (fun w => exec (.clauseStart w) s)

/-- The instruction at the team's pc, or, inside a repeat, the one after the prefix with its stepped fields. -/
def runWords (s : State) (c : Clause) : Out :=
  withFetch s (fetchInstr s s.cur (selfPc s.team).toNat) (fun ws =>
    match decode c.cls ws with
    | .bad _ => trapAll s illegalInstruction
    | .ok i _ => match s.team.inRep with
      | none => exec i s
      | some p => exec (repeated p (s.team.rep.extractLsb' 0 6).toNat i) s)

/-- The current team does what it stands at. -/
def runTeam (s : State) : Out :=
  match s.team.clause with
  | none => runHeader s
  | some c => runWords s c

/-! ### A team's turn -/

/-- The team has issued: other teams, wherever they are by now, no longer wait for it in `yield`, it is the last in the round of its partition, earlier
yield hints there are spent (R35, R55, R122). -/
def noteIssue (s : State) (tid : Nat) : State :=
  let p := (s.teamAt tid).partNo
  let s := { s with teams := s.teams.map (fun (q : Nat × Team) =>
    if q.1 = tid then q
    else (q.1, { q.2 with
      wait := match q.2.wait with
        | .yielded l => .yielded (l.filter (fun k => k ≠ tid))
        | w => w
      sched := { q.2.sched with yld := q.2.sched.yld && q.2.partNo ≠ p } })) }
  s.modPart p (fun k => { k with rr := k.rr.filter (fun q => q ≠ tid && (s.teamAt q).status = .live && (s.teamAt q).partNo = p) ++ [tid] })

/-- The team has issued an instruction; a clause header and a prefix are none (R51, R69). -/
def moved (t u : Team) : Bool := decide (t.sched.issues ≠ u.sched.issues)

/-- Run the team; when it has issued, note it. -/
def runIssue (s : State) (tid : Nat) : Out :=
  match runTeam s with
  | .next s' => .next (if moved (s.teamAt tid) (s'.teamAt tid) then noteIssue s' tid else s')
  | o => o

/-- A block that is to be saved or flushed keeps its teams at their boundaries, once nothing stands before that; a team that owes a fault's service goes
on until it has ended, and so do the teams of a block whose operations wait for them (R265). -/
def heldToLeave (s : State) (tid : Nat) : Bool :=
  let t := s.teamAt tid
  inPreemption s tid && !claims s tid && !owesOrder s t.block && (atBoundary t || atJoin t) && (pendingOf t).isNone && !(s.partAt t.partNo).copyQ.any (fun o => o.tid = tid && o.paused)

/-- A team's turn: it stops with its grid, waits to be saved, takes a pending trap, stays in its wait, or issues. A trap that came while its
instruction was held is taken before that instruction (R270). -/
def issueTeam (s0 : State) (tid : Nat) : Out :=
  let s := { s0 with cur := tid, curStream := none }
  let t := s.teamAt tid
  if t.status ≠ .live then .next s
  else if mustStop s tid then .next (stopTeam s tid)
  else if t.live = 0 || heldToLeave s tid then .next s
  else match takePending s tid with
    | some s => .next s
    | none =>
      if t.wait = .none then runIssue s tid
      else if waitOver s tid t.wait then
        let s := s.setTeamAt tid { t with wait := .none }
        match takePending s tid with
        | some s => .next s
        | none => runIssue s tid
      else .next s

/-! ### A stream's turn (R124-R126) -/

/-- The team as its stream sees it. -/
def asStream (t : Team) (x : Stream) : Team := { t with pc := x.pc, clause := x.clause, mask := x.mask, rep := x.rep, inRep := x.inRep, wait := .none }

/-- The team afterwards: the stream keeps where it stands, the team keeps its own place and, since a stream takes no issue slot, its waiting
time (R124). The operand latch ages with a stream's instructions too (log entry 75). -/
def unStream (e : Eng) (own t : Team) : Team :=
  let t' := t.setStream e ((t.stream e).map (fun y => { y with pc := t.pc, clause := t.clause, rep := t.rep, inRep := t.inRep, wait := t.wait }))
  if t.status = .ended then { t' with clause := none, inRep := none, wait := .none }
  else { t' with sched := own.sched, pc := own.pc, clause := own.clause, mask := own.mask &&& t.live, rep := own.rep, inRep := own.inRep, wait := own.wait }

/-- A stream of a team whose block is to leave stands still at its clause boundary (R126). -/
def streamHeld (s : State) (t : Team) (x : Stream) : Bool :=
  ((s.blockAt t.block).status = .toSave || (s.blockAt t.block).status = .toFlush) && x.clause.isNone && x.inRep.isNone

/-- A stream's turn. -/
def issueStream (s0 : State) (tid : Nat) (e : Eng) : Out :=
  let s := { s0 with cur := tid, curStream := some e }
  let t := s.teamAt tid
  match t.stream e with
  | none => .next s
  | some x =>
    if t.status ≠ .live || x.ended then .next s
    else if streamHeld s t x || !(x.wait = .none || waitOver s tid x.wait) then .next s
    else match runTeam (s.setTeamAt tid (asStream t x)) with
      | .next s' => .next (endIfIdle (s'.setTeamAt tid (unStream e t (s'.teamAt tid))) tid)
      | o => o

/-! ### The order of turns without an agenda (log entry 1) -/

/-- Place of a team in its partition's round: teams that have not issued there come first, then the one whose last issue is the oldest. -/
def roundPlace (rr : List Nat) (tid : Nat) : Nat :=
  match rr.idxOf? tid with
  | none => 0
  | some i => i + 1

/-- The team that the scheduler of a partition takes: highest class, no yield hint, then by the round (R35, R55; log entry 4). -/
def schedKey (rr : List Nat) (p : Nat × Team) : List Nat :=
  [7 - p.2.sched.cls, if p.2.sched.yld then 1 else 0, roundPlace rr p.1, p.1]

def pickOf (rr : List Nat) : KMap Team → Option (Nat × Team)
  | [] => none
  | p :: r => match pickOf rr r with
    | none => some p
    | some q => some (if listLt (schedKey rr p) (schedKey rr q) then p else q)

/-- A team whose turn would change it: it issues, takes a trap, stops, or begins a wait. A team whose instruction cannot issue yet is not
ready (R34). -/
def couldIssue (s : State) (p : Nat × Team) : Bool :=
  match issueTeam s p.1 with
  | .next s' => decide (s'.teamAt p.1 ≠ p.2)
  | _ => true

def event (i : Instr) (x y : Nat) : Choice := .event i { x := x, y := y }

/-- What a team has in flight. -/
def teamEvents (s : State) (p : Nat × Team) : List Choice :=
  p.2.memQ.map (fun o => event .variableLatencyCompletion p.1 o.id) ++
  (match p.2.matQ with
   | [] => []
   | o :: _ => [event (match o.kind with
     | .loop _ _ _ _ _ _ _ _ _ _ _ _ _ => .matrixStep
     | _ => .matrixQueuePerform) p.1 0]) ++
  (if (p.2.waiter isWalkWait).isSome then [event .pageWalk p.1 0] else []) ++
  (if (p.2.waiter (fun w => match w with
     | .service _ _ _ => true
     | _ => false)).isSome then [event .faultWaiterReplay p.1 0] else []) ++
  (match p.2.wait with
   | .sleep _ => [event .sleepExpiry p.1 0]
   | .barrier l _ _ => [event .barrierGenerationComplete (lvlNum l) p.2.block]
   | _ => []) ++
  (if p.2.streamA.isSome then [.stream p.1 .mat] else []) ++ (if p.2.streamC.isSome then [.stream p.1 .copy] else []) ++
  (if endedQuiet s p then [event .warpSlotRelease p.1 0] else []) ++
  (if teamReady s p.1 && p.2.sched.readySince + 1024 ≤ s.cc && p.2.sched.cls < 7 then [event .priorityAging p.1 0] else [])

/-- What a partition has in flight, and its scheduler's team. -/
def partEvents (s : State) (p : Nat × Part) : List Choice :=
  (p.2.sfuQ.map (fun o => event .qResultWrite o.tid 0)) ++
  (if p.2.copyQ = [] then [] else [event .copySegment p.1 0, event .copyCompletion p.1 0]) ++
  (match pickOf p.2.rr ((teamsOn s p.1).filter (fun q => q.2.sched.stalled ≤ s.cc && couldIssue s q)) with
   | some t => [.issue t.1]
   | none => [])

/-- What blocks, grids, queues and cores may do. -/
def blockEvents (p : Nat × Block) : List Choice :=
  match p.2.status with
  | .draining _ => [event .drainTimeout p.1 0]
  | .toSave => [event .blockSave p.1 0]
  | .toFlush => [event .blockFlush p.1 0]
  | .saved => [event .blockResume p.1 0]
  | .flushed => [event .blockRestart p.1 0]
  | _ => []

def gridEvents (s : State) (p : Nat × Grid) : List Choice :=
  if p.2.ended then []
  else
    (if canPlace s p.2 then [event .blockPlacement p.1 0, event .preemptionDecision p.1 0] else []) ++
    (if p.2.staged = [] then [] else [event .stagedRecordAppend p.1 0]) ++
    (if gridDone s p.1 then [event .launchCompletion p.1 0] else []) ++
    (if p.2.det then (s.blocks.filter (fun b => b.2.grid = p.1)).flatMap (fun b =>
      [event .ticketGrant b.1 0, event .ticketPhaseRelease b.1 0]) else [])

def queueEvents (p : Nat × Queue) : List Choice :=
  if p.2.running.isNone && (p.2.children ≠ [] || (p.2.en && !p.2.halt && p.2.head ≠ p.2.tail)) then [event .gridStart p.1 0] else []

def coreEvents (p : Nat × Core) : List Choice :=
  (if p.2.fsQ = [] then [] else [event .fsQueuePerform p.1 0]) ++
  ((p.2.watch.filter (fun w => w.st = .pending)).map (fun w => event .watchValidation p.1 w.id)) ++
  (p.2.evictQ.map (fun l => event .residencyEviction p.1 l))

def pageEvents (p : Nat × APage) : List Choice := if p.2.st = .sealing then [event .sealCompletion p.1 0] else []

/-- Everything that could come next. -/
def possible (s : State) : List Choice :=
  s.teams.flatMap (teamEvents s) ++ s.parts.flatMap (partEvents s) ++
  ((teamParts s).filter (fun k => (kGet k s.parts).isNone)).flatMap (fun k => partEvents s (k, Part.reset)) ++
  s.blocks.flatMap blockEvents ++ s.grids.flatMap (gridEvents s) ++ s.queues.flatMap queueEvents ++ s.cores.flatMap coreEvents ++
  s.pages.flatMap pageEvents
where
  teamParts (s : State) : List Nat := s.teams.foldl (fun l p => if l.contains p.2.partNo then l else l ++ [p.2.partNo]) []

/-- What logical time does once in every 256 cycles: a tick of each core that runs a team, its visit of its copies, the broadcast of its
die (R242, R244). -/
def clockEvents (s : State) : List Choice :=
  let cs := s.teams.foldl (fun l p => if p.2.status = .live && !l.contains p.2.core then l ++ [p.2.core] else l) []
  cs.map (fun c => event .ptsTick c 0) ++ cs.map (fun c => event .l1LeaseSweep c 0) ++ cs.map (fun c => event .ptsBroadcast (dieOf c) 0)

/-- One of them by turns, or time alone. -/
def defaultChoice (s : State) : Choice :=
  match possible s with
  | [] => .elapse 0
  | k :: r => match (clockEvents s)[s.cc % 256]? with
    | some e => e
    | none => ((k :: r)[s.cc % (r.length + 1)]?).getD k

/-! ### A step -/

/-- A system event of the table: no instruction of a clause, no header, no prefix. -/
def isEvent (i : Instr) : Bool :=
  match i with
  | .clauseStart _ => false
  | .rep _ _ => false
  | i => (encOf i).isNone

/-- The scheduler may take the team: it is not stalled, and no team of its partition that could issue ranks before it (R35). -/
def turnOk (s : State) (tid : Nat) : Bool :=
  let t := s.teamAt tid
  let rr := (s.partAt t.partNo).rr
  t.sched.stalled ≤ s.cc && (teamsOn s t.partNo).all (fun q =>
    q.1 = tid || !listLt (schedKey rr q) (schedKey rr (tid, t)) || s.cc < q.2.sched.stalled || !couldIssue s q)

/-- Class V, class Q, the per-lane instructions of class M, `cp.gath` and `cp.scat` go pass by pass (R35, R180). -/
def isSweep (i : Instr) (f : Form) : Bool :=
  match i with
  | .cpGath _ => true
  | .cpScat _ => true
  | .sealPage _ => false
  | .fence _ => false
  | .fenceq _ => false
  | .smap _ => false
  | .sunmap _ => false
  | .sflush _ => false
  | .hdecl _ => false
  | .hpush _ => false
  | _ => f.cls = .v || f.cls = .q || f.cls = .m

/-- The instruction at an address, decoded in a class. -/
def instrThere (s : State) (tid : Nat) (cls : Cls) (va : Nat) : Option Instr :=
  match fetchInstr s tid va with
  | .ok ws => match decode cls ws with
    | .ok i _ => some i
    | .bad _ => none
  | _ => none

/-- Whether an instruction is a sweep step; none for a prefix. -/
def sweepOf (i : Instr) : Option Bool := (encOf i).map (fun f => isSweep i f.1)

/-- Whether the instruction that a team inside its clause is to issue now is a sweep step. -/
def sweepNext (s : State) (tid : Nat) : Option Bool :=
  let t := s.teamAt tid
  t.clause.bind (fun c => (instrThere s tid c.cls (selfPc t).toNat).bind sweepOf)

/-- Class and address of the next instruction of a team, past a header that opens its clause. -/
def nextPlace (s : State) (tid : Nat) : Option (Cls × Nat) :=
  let t := s.teamAt tid
  match t.clause with
  | some c => some (c.cls, (selfPc t).toNat)
  | none => match fetchWord s tid t.pc.toNat with
    | .ok w => if hdrOk w then some (clsOf (hdrCls w), (t.pc + 4).toNat) else none
    | _ => none

/-- Whether the next instruction of a team, past a header or a prefix, is a sweep step; none where it stands at neither. -/
def sweepAhead (s : State) (tid : Nat) : Option Bool :=
  (nextPlace s tid).bind (fun p => match instrThere s tid p.1 p.2 with
    | some (.rep _ _) => (instrThere s tid p.1 ((p.2 + 4) % 2 ^ 64)).bind sweepOf
    | some i => sweepOf i
    | none => none)

/-- The scheduler may give a team the slot of its next instruction, the sweep slot or the other one: no team that could issue ranks before it but those
whose next instruction takes the other slot (R35; log entry 17). -/
def slotOk (s : State) (sweep : Bool) (tid : Nat) : Bool :=
  let t := s.teamAt tid
  let rr := (s.partAt t.partNo).rr
  t.sched.stalled ≤ s.cc && sweepNext s tid = some sweep && (teamsOn s t.partNo).all (fun q =>
    q.1 = tid || !listLt (schedKey rr q) (schedKey rr (tid, t)) || s.cc < q.2.sched.stalled || sweepAhead s q.1 = some (!sweep) || !couldIssue s q)

/-- A sweep step and an instruction of another kind, from different teams of one partition (R35). -/
def pairOk (s : State) (p q : Nat) : Bool :=
  p ≠ q && (s.teamAt p).partNo = (s.teamAt q).partNo && slotOk s true p && slotOk s false q

/-- Carry out a choice; `elapse` lets cycles pass. -/
def runChoice (s : State) (k : Choice) : Out :=
  match k with
  | .issue tid => if turnOk s tid then issueTeam s tid else .next s
  | .both p q =>
    if pairOk s p q then
      match issueTeam s p with
      | .next s => issueTeam s q
      | o => o
    else .next s
  | .stall tid n => .next (s.modTeam tid (fun t => { t with sched := { t.sched with stalled := s.cc + n } }))
  | .stream tid e => issueStream s tid e
  | .event i a => if isEvent i then exec i { s with ev := a } else .next s
  | .csr cp mode num w => .next (csrAccess s cp mode num w)
  | .elapse n => .next { s with cc := s.cc + n }

/-- What follows every choice: a cycle passes, and with it what logical time brings about; teams that have become ready begin to wait for issue
(R35), heads that have become startable to wait for their start (R252); generation counts become even again (R14). -/
def tick (s s' : State) : State := settleGens s.plat (noteHeads (markReady s (passTime { s' with cc := s.cc } (s'.cc + 1))))

def tickOut (s : State) (o : Out) : Out :=
  match o with
  | .next s' => .next (tick s s')
  | o => o

/-- The next choice, off the agenda where it names one, and the state without it. -/
def nextChoice (s : State) : Choice × State :=
  match s.agenda with
  | k :: r => (k, { s with agenda := r })
  | [] => (defaultChoice s, s)

/-! ### Placing words where the next step reads them -/

/-- Virtual and physical address of the clause header that placed words follow. -/
def placeVa : Nat := 0x1000

/-- The team, partition, block and translation that run placed words: team 0 on core 0, its clause open in the words' class, all its lanes active. -/
def placedTeam (c : Cls) : Team :=
  { Team.blank with
    warps := if c = .a then 8 else 1, slots := List.range (if c = .a then 8 else 1), status := .live, regBytes := 1024
    pc := BitVec.ofNat 64 (placeVa + 4), mask := fullMask (if c = .a then 8 else 1), live := fullMask (if c = .a then 8 else 1)
    clause := some { hdr := BitVec.ofNat 64 placeVa, cls := c, left := 15, setA := 15, setB := 15, yld := false } }

/-- Region 0 of the context, valid and ordinary. -/
def placedRegion : List (BitVec 128) := [1]

def placedEntry : TlbEntry :=
  { asid := 0, vpage := placeVa, size := 4096, ppage := placeVa, r := true, w := true, x := true, dirty := true, mclass := 0, lease := 10 }

/-- Instruction words placed for team 0, whose turn is next. -/
def placeWords (s : State) (c : Cls) (ws : List Word) : State :=
  let s := memWrite s (placeVa + 4) (ws.flatMap (fun w => leBytes 4 w.toNat))
  let s := s.modCore 0 (fun k => { k with enabled := true, tlb := placedEntry :: k.tlb })
  let s := s.modDie 0 (fun d => { d with rafs := kPut 0 placedRegion d.rafs })
  let s := s.setGrid 0 { Grid.blank with ended := false, blocks := 1, nextBlock := 1, lanes := if c = .a then 256 else 32 }
  let s := s.setBlock 0 { Block.blank with status := .resident, stashBytes := 0 }
  { s.setTeamAt 0 (placedTeam c) with agenda := [.issue 0], nextTid := 1, nextBid := 1, nextGid := 1 }

/-- The class in which a table word runs. -/
def tableClass (nbits w : Nat) : Cls := ((decodeTableWord nbits w).bind classOf).getD .x

end Sys2Proof.Machine
end

