-- ==== Sys2Proof/Machine/Step.lean ====
section
/-! DEFINITION. One step of the machine. -/

namespace Sys2Proof.Machine

/-- The choice that comes next is carried out, and a cycle passes. -/
def step (s : State) : Host.Outcome State Fault Refusal := tickOut s (runChoice (nextChoice s).2 (nextChoice s).1)

/-- The instruction of a table word, where the next step fetches it. -/
def State.withFetchWord (s : State) (nbits w : Nat) : State := placeWords s (tableClass nbits w) (tableWords nbits w)

end Sys2Proof.Machine
end

