-- ==== Sys2Proof/Safety.lean ====
section
/-! DEFINITION. The terms in which the statements speak of a run: when an instruction reaches its own effect, what a step leaves alone, where a
team stands afterwards, and the invariant of the machine. -/

namespace Sys2Proof.Safety

open Sys2Proof.Machine

/-- An instruction reaches its own effect: its words pass the checks of R75 for the acting team, a stream that issues it may hold it
(R124), a uniform guard holds (R60), and the flag it counts on is not full (R52). -/
def reaches (s : State) (i : Instr) : Bool :=
  match encOf i with
  | none => true
  | some (f, x) =>
    streamOk s.curStream i f x && (encodingTrap s.team i f x).isNone &&
    (f.guard != .uniform || uniformHolds s.team (modOf f.cls x)) &&
    !(counts s.team f (modOf f.cls x) && flagFull s.team (modOf f.cls x))

/-- The machine with nothing but the acting team changed: every other team, every block with its stash, every partition, core, die and queue,
and every byte of memory are as before. -/
structure OnlyTeam (s t : State) : Prop where
  team : t = s.setTeam t.team
  mem : ∀ a, bGet t.mem a = bGet s.mem a

/-- A team put back to the place and the issue bookkeeping of another: program counter, clause and repeat state, operand latch, scheduling
facts, gathered translations. The frames compare what is left. -/
def placed (a b : Team) : Team :=
  { b with pc := a.pc, clause := a.clause, rep := a.rep, inRep := a.inRep, latch := a.latch, sched := a.sched, xlat := a.xlat,
           walkFault := a.walkFault }

/-- The bytes of an instruction and the clause slots it takes: a prefix counts with the instruction it repeats (R69). -/
def wentOn (a b : Team) (len : Nat) : Prop :=
  match a.inRep with
  | none =>
    b.pc = a.pc + BitVec.ofNat 64 len ∧ b.rep = a.rep ∧ b.inRep = none ∧
    b.clause = a.clause.bind (fun c => if c.left ≤ 1 then none else some { c with left := c.left - 1 })
  | some r =>
    let j := (a.rep.extractLsb' 0 6).toNat
    if j < r.cnt.toNat then
      b.pc = a.pc ∧ b.rep = BitVec.ofNat 7 (64 + (j + 1)) ∧ b.inRep = some r ∧ b.clause = a.clause
    else
      b.pc = a.pc + BitVec.ofNat 64 (4 + len) ∧ b.rep = 0 ∧ b.inRep = none ∧
      b.clause = a.clause.bind (fun c => if c.left ≤ 2 then none else some { c with left := c.left - 2 })

/-- Predicate p of a team after a write of `res` in the lanes of `set`; predicate 31 stays true, the other predicates and lanes are kept. -/
def predWritten (a b : Team) (d : Nat) (set : Nat → Bool) (res : Nat → Bool) : Prop :=
  ∀ p l, l < a.lanes → (b.pred p).getLsbD l = if p = d ∧ p ≠ 31 ∧ set l = true then res l else (a.pred p).getLsbD l

/-- Register space of a team after a write of `val` to `v<d>` in the lanes of `set`; every other word of every lane is kept. -/
def vecWritten (a b : Team) (d : Nat) (set : LaneSet) (val : Nat → Word) : Prop :=
  ∀ q l, l < a.lanes → b.word q l = if d < 88 ∧ q = a.vWord d ∧ set.getLsbD l = true then val l else a.word q l

/-- Scalar registers after a write to code d below 64; code 120 writes none. -/
def scalarWritten (a b : Team) (d : Nat) (v : Word) : Prop :=
  ∀ n, n < 64 → b.sreg n = if d = n then v else a.sreg n

/-- Nothing of a team is left to do before a release: no operation in its memory queue, no store in its core's buffer, no watch entry of its
own, nothing struck (R194, R233). -/
def quiet (s : State) : Prop :=
  s.team.memQ = [] ∧ (s.coreAt s.team.core).sbuf = [] ∧ (∀ w ∈ (s.coreAt s.team.core).watch, w.tid ≠ s.cur) ∧ s.team.struck = false

/-- The barrier at which an instruction of a level arrives or waits exists for the team's launch (R129). -/
def levelOk (s : State) (l : Lvl) : Prop := lvlNum l = 0 ∨ lvlNum l ≤ (s.gridAt s.team.grid).cohLvl

/-- The barrier of the team's block, or of its level group, at a level (R127). -/
def barrierOf (s : State) (l : Lvl) : Barrier := s.barrierAt (barrierKey s s.team.block (lvlNum l))

/-- Every byte of memory reads as before. -/
def sameMem (s t : State) : Prop := ∀ a, bGet t.mem a = bGet s.mem a

/-- The invariant of the machine: memory stays in its one canonical form, so that equal memories are equal data. -/
def Inv (s : State) : Prop := Memory.wf s.mem = true

end Sys2Proof.Safety
end

