-- ==== Sys2Proof/Certificates/Slice0/Obligations.lean ====
section
/-! DEFINITION. Statements about the machine, for the provers. Each docstring says which rule it states. -/

namespace Sys2Proof.Claims

open Sys2Proof Sys2Proof.Machine Sys2Proof.Safety

/-! ### Integer results written from R140, R141 and R148, with the operations of bit vectors -/

def specMulhiI (a b : Word) : Word := (a.signExtend 64 * b.signExtend 64).extractLsb' 32 32
def specMulhiZ (a b : Word) : Word := (a.zeroExtend 64 * b.zeroExtend 64).extractLsb' 32 32
def specShl (a b : Word) : Word := if b.toNat < 32 then a <<< b.toNat else 0
def specShr (a b : Word) : Word := if b.toNat < 32 then a >>> b.toNat else 0
def specSra (a b : Word) : Word := a.sshiftRight (min b.toNat 31)
def specPopc (a : Word) : Word := BitVec.ofNat 32 ((List.range 32).filter (fun i => a.getLsbD i)).length
def specClz (a : Word) : Word := BitVec.ofNat 32 ((List.range 32).takeWhile (fun i => !a.getLsbD (31 - i))).length
def specOff (b : Word) : Nat := (b.extractLsb' 0 8).toNat
def specLen (b : Word) : Nat := min (b.extractLsb' 8 8).toNat 32
def specBfeZ (a b : Word) : Word := ((a >>> specOff b).truncate (specLen b)).zeroExtend 32
def specBfeI (a b : Word) : Word := ((a.sshiftRight (specOff b)).truncate (specLen b)).signExtend 32
def specBfi (a b c : Word) : Word :=
  let m : Word := BitVec.ofNat 32 (2 ^ specLen b - 1) <<< specOff b
  (c &&& ~~~m) ||| ((a <<< specOff b) &&& m)
def specDivI (a b : Word) : Word := if b = 0 then 0xFFFFFFFF else if a = 0x80000000 ∧ b = 0xFFFFFFFF then 0x80000000 else BitVec.ofInt 32 (a.toInt.tdiv b.toInt)
def specRemI (a b : Word) : Word := if b = 0 then a else if a = 0x80000000 ∧ b = 0xFFFFFFFF then 0 else BitVec.ofInt 32 (a.toInt - b.toInt * a.toInt.tdiv b.toInt)
def specDivZ (a b : Word) : Word := if b = 0 then 0xFFFFFFFF else BitVec.ofNat 32 (a.toNat / b.toNat)
def specRemZ (a b : Word) : Word := if b = 0 then a else BitVec.ofNat 32 (a.toNat - b.toNat * (a.toNat / b.toNat))

/-- A row of integer instructions: the constructor, whether sources and result are signed, the function of a, b and the third source. -/
abbrev IntRow := (Fields → Instr) × Bool × (Word → Word → Word → Word)

/-- Class S of R140 and R141. -/
def scalarRows : List IntRow :=
  [(.smov, false, fun a _ _ => a), (.sadd, false, fun a b _ => a + b), (.ssub, false, fun a b _ => a - b),
   (.smul, false, fun a b _ => a * b), (.smulhiI32, true, fun a b _ => specMulhiI a b),
   (.smulhiZ32, false, fun a b _ => specMulhiZ a b), (.smad, false, fun a b c => a * b + c),
   (.sshl, false, fun a b _ => specShl a b), (.sshr, false, fun a b _ => specShr a b), (.ssra, false, fun a b _ => specSra a b),
   (.sand, false, fun a b _ => a &&& b), (.sor, false, fun a b _ => a ||| b), (.sxor, false, fun a b _ => a ^^^ b),
   (.snot, false, fun a _ _ => ~~~a), (.sminI32, true, fun a b _ => if a.sle b then a else b),
   (.sminZ32, false, fun a b _ => if a.ule b then a else b), (.smaxI32, true, fun a b _ => if b.sle a then a else b),
   (.smaxZ32, false, fun a b _ => if b.ule a then a else b), (.spopc, false, fun a _ _ => specPopc a),
   (.sclz, false, fun a _ _ => specClz a), (.sbfeZ32, false, fun a b _ => specBfeZ a b), (.sbfeI32, true, fun a b _ => specBfeI a b)]

/-- Class V of R147 and R148. -/
def vectorRows : List IntRow :=
  [(.mov, false, fun a _ _ => a), (.iadd, false, fun a b _ => a + b), (.isub, false, fun a b _ => a - b),
   (.imul, false, fun a b _ => a * b), (.imulhiI32, true, fun a b _ => specMulhiI a b),
   (.imulhiZ32, false, fun a b _ => specMulhiZ a b), (.imad, false, fun a b c => a * b + c),
   (.shl, false, fun a b _ => specShl a b), (.shr, false, fun a b _ => specShr a b), (.sra, false, fun a b _ => specSra a b),
   (.and, false, fun a b _ => a &&& b), (.or, false, fun a b _ => a ||| b), (.xor, false, fun a b _ => a ^^^ b),
   (.not, false, fun a _ _ => ~~~a), (.iminI32, true, fun a b _ => if a.sle b then a else b),
   (.iminZ32, false, fun a b _ => if a.ule b then a else b), (.imaxI32, true, fun a b _ => if b.sle a then a else b),
   (.imaxZ32, false, fun a b _ => if b.ule a then a else b), (.popc, false, fun a _ _ => specPopc a),
   (.clz, false, fun a _ _ => specClz a), (.brev, false, fun a _ _ => a.reverse), (.bfeZ32, false, fun a b _ => specBfeZ a b),
   (.bfeI32, true, fun a b _ => specBfeI a b), (.bfi, false, fun a b c => specBfi a b c),
   (.iabs, false, fun a _ _ => if a.slt 0 then 0 - a else a), (.idivI32, true, fun a b _ => specDivI a b),
   (.idivZ32, false, fun a b _ => specDivZ a b), (.iremI32, true, fun a b _ => specRemI a b),
   (.iremZ32, false, fun a b _ => specRemZ a b)]

/-- Comparisons into a predicate, class S and class V (R143, R149): constructor, sign, test. -/
abbrev CmpRow := (Fields → Instr) × Bool × (Word → Word → Bool)

def scalarCmpRows : List CmpRow :=
  [(.scmpEq, false, fun a b => a == b), (.scmpNe, false, fun a b => a != b), (.scmpLtI32, true, fun a b => a.slt b),
   (.scmpLeI32, true, fun a b => a.sle b), (.scmpLtZ32, false, fun a b => a.ult b), (.scmpLeZ32, false, fun a b => a.ule b)]

def vectorCmpRows : List CmpRow :=
  [(.icmpEq, false, fun a b => a == b), (.icmpNe, false, fun a b => a != b), (.icmpLtI32, true, fun a b => a.slt b),
   (.icmpLeI32, true, fun a b => a.sle b), (.icmpLtZ32, false, fun a b => a.ult b), (.icmpLeZ32, false, fun a b => a.ule b)]

end Sys2Proof.Claims

open Sys2Proof Sys2Proof.Machine Sys2Proof.Safety Sys2Proof.Claims

/-! ### Classes S and V -/

/-- R140, R141 with R135: each class S arithmetic, logic, shift, bit and field instruction that reaches its effect completes; it writes
its result, narrowed as R66 says, to scalar register D alone, writes nothing when D is 120, and goes on at the next instruction. -/
def Sys2Proof.Claims.ScalarArithmeticResults : Prop :=
  ∀ row ∈ scalarRows, ∀ (f : Fields) (s : State), reaches s (row.1 f) = true →
    ∃ t, exec (row.1 f) s = .next t ∧ OnlyTeam s t ∧ wentOn s.team t.team (lenOf f) ∧
      { placed s.team t.team with sregs := s.team.sregs } = s.team ∧
      scalarWritten s.team t.team f.d.toNat
        (narrowInt row.2.1 (mSat (modOf .s f)) (mDnar (modOf .s f)) (s.team.sreg f.d.toNat)
          (row.2.2 (sA s.team f row.2.1) (sB s.team f row.2.1) (s.team.sreg f.d.toNat)))

/-- R142: `sadd64`, `ssub64` and `smad64` write the pair that D names. -/
def Sys2Proof.Claims.ScalarPairResults : Prop :=
  ∀ row ∈ ([(.sadd64, fun t f => srcS64 t f.a.toNat (immOf f) + srcS64 t f.b.toNat (immOf f)),
            (.ssub64, fun t f => srcS64 t f.a.toNat (immOf f) - srcS64 t f.b.toNat (immOf f)),
            (.smad64, fun t f => (srcS t f.a.toNat (immOf f)).signExtend 64 * (srcS t f.b.toNat (immOf f)).signExtend 64 +
              t.spair f.d.toNat)] : List ((Fields → Instr) × (Team → Fields → DWord))),
    ∀ (f : Fields) (s : State), reaches s (row.1 f) = true →
      ∃ t, exec (row.1 f) s = .next t ∧ OnlyTeam s t ∧ wentOn s.team t.team (lenOf f) ∧
        { placed s.team t.team with sregs := s.team.sregs } = s.team ∧
        t.team.spair f.d.toNat = row.2 s.team f ∧
        ∀ n, n ≠ f.d.toNat → n ≠ f.d.toNat + 1 → t.team.sreg n = s.team.sreg n

/-- R143: a class S comparison writes the same value to predicate D in every lane of the team, active or not; a write to `pt` is discarded. -/
def Sys2Proof.Claims.ScalarCompareResults : Prop :=
  ∀ row ∈ scalarCmpRows, ∀ (f : Fields) (s : State), s.team.warps ≤ 32 → reaches s (row.1 f) = true →
    ∃ t, exec (row.1 f) s = .next t ∧ OnlyTeam s t ∧ wentOn s.team t.team (lenOf f) ∧
      { placed s.team t.team with preds := s.team.preds } = s.team ∧
      predWritten s.team t.team f.d.toNat (fun _ => true) (fun _ => row.2.2 (sA s.team f row.2.1) (sB s.team f row.2.1))

/-- R143, R145, R146: `ssel` selects by a predicate of the lowest active lane; `rlane` reads the lane that b names, active or not; `rfa` reads the
lowest active lane and says in every lane whether there is one; `srd` reads a special register, whose value by code `Sys2Proof.Claims.SpecialValues` states.
Readings and choices of the model's own: log entry 27. -/
def Obligations.ScalarSelectAndLaneReads : Prop :=
  ∀ (f : Fields) (s : State), s.team.warps ≤ 32 →
    (reaches s (.ssel f) = true →
      ∃ t, exec (.ssel f) s = .next t ∧ OnlyTeam s t ∧ wentOn s.team t.team (lenOf f) ∧
        { placed s.team t.team with sregs := s.team.sregs } = s.team ∧
        scalarWritten s.team t.team f.d.toNat
          (match lowestLane s.team.lanes s.team.mask with
           | some l => if (s.team.pred ((immOf f).extractLsb' 0 5).toNat).getLsbD l != (immOf f).getLsbD 5
               then srcS s.team f.a.toNat 0 else srcS s.team f.b.toNat 0
           | none => srcS s.team f.b.toNat 0)) ∧
    (reaches s (.rlane f) = true →
      ∃ t, exec (.rlane f) s = .next t ∧ OnlyTeam s t ∧ wentOn s.team t.team (lenOf f) ∧
        { placed s.team t.team with sregs := s.team.sregs } = s.team ∧
        scalarWritten s.team t.team f.d.toNat
          (if (srcS s.team f.b.toNat (immOf f)).toNat < 32 * s.team.warps
            then s.team.word (s.team.vWord f.a.toNat) (srcS s.team f.b.toNat (immOf f)).toNat else 0)) ∧
    (reaches s (.rfa f) = true →
      ∃ t, exec (.rfa f) s = .next t ∧ OnlyTeam s t ∧ wentOn s.team t.team (lenOf f) ∧
        { placed s.team t.team with sregs := s.team.sregs, preds := s.team.preds } = s.team ∧
        (∀ l, lowestLane s.team.lanes s.team.mask = some l →
          scalarWritten s.team t.team f.d.toNat (s.team.word (s.team.vWord f.a.toNat) l) ∧
          predWritten s.team t.team f.b.toNat (fun _ => true) (fun _ => true)) ∧
        (lowestLane s.team.lanes s.team.mask = none →
          scalarWritten s.team t.team f.d.toNat 0 ∧ predWritten s.team t.team f.b.toNat (fun _ => true) (fun _ => false))) ∧
    (reaches s (.srd f) = true →
      ∃ t, exec (.srd f) s = .next t ∧ OnlyTeam s t ∧ wentOn s.team t.team (lenOf f) ∧
        { placed s.team t.team with sregs := s.team.sregs } = s.team ∧
        (f.a.toNat ≠ 0x20 → f.a.toNat ≠ 0x21 → scalarWritten s.team t.team f.d.toNat
          ((specialVal s s.team f.a.toNat (srcS s.team f.b.toNat (immOf f)).toNat).extractLsb' 0 32)) ∧
        (f.a.toNat = 0x20 → f.d.toNat < 64 → t.team.spair f.d.toNat = s.team.trap.tpc) ∧
        (f.a.toNat = 0x21 → f.d.toNat < 64 → t.team.spair f.d.toNat = s.team.trap.tvec) ∧
        (f.a.toNat = 0x20 ∨ f.a.toNat = 0x21 → ∀ n, n < 64 → ¬(f.d.toNat < 64 ∧ (n = f.d.toNat ∨ n = f.d.toNat + 1)) →
          t.team.sreg n = s.team.sreg n))

/-- R147, R148 with R135 and R137: each class V integer instruction that reaches its effect completes; it writes its narrowed result to
vector register D in the present lanes alone, discards it when D is 120, and goes on at the next instruction. -/
def Obligations.VectorIntegerResults : Prop :=
  ∀ row ∈ vectorRows, ∀ (f : Fields) (s : State), s.team.warps ≤ 32 → reaches s (row.1 f) = true →
    ∃ t, exec (row.1 f) s = .next t ∧ OnlyTeam s t ∧ wentOn s.team t.team (lenOf f) ∧
      { placed s.team t.team with regs := s.team.regs } = s.team ∧
      vecWritten s.team t.team f.d.toNat (presentSet s.team (modOf .v f))
        (fun l => narrowInt row.2.1 (mSat (modOf .v f)) (mDnar (modOf .v f)) (dstOld s.team f.d.toNat l)
          (row.2.2 (vA s.team f row.2.1 l) (vB s.team f row.2.1 l) (dstOld s.team f.d.toNat l)))

namespace Sys2Proof.Claims

/-- A row of class V instructions that write a predicate in the present lanes: the constructor and the value in a lane. -/
abbrev PredRow := (Fields → Instr) × (Team → Fields → Nat → Bool)

/-- R149, R151, R158, R161: comparisons, votes over the contributors of a segment, predicate logic. -/
def predRows : List PredRow :=
  vectorCmpRows.map (fun r => (r.1, fun t f l => r.2.2 (vA t f r.2.1 l) (vB t f r.2.1 l))) ++
  [(.fcmpEq, fun t f l => XVal.eqV (ofF32 (fA t f l)) (ofF32 (fB t f l))),
   (.fcmpLt, fun t f l => XVal.lt (ofF32 (fA t f l)) (ofF32 (fB t f l))),
   (.fcmpLe, fun t f l => XVal.le (ofF32 (fA t f l)) (ofF32 (fB t f l))),
   (.fcmpUn, fun t f l => (ofF32 (fA t f l)).isNaN || (ofF32 (fB t f l)).isNaN),
   (.fcmpNe, fun t f l => !XVal.eqV (ofF32 (fA t f l)) (ofF32 (fB t f l))),
   (.pand, fun t f l => (t.pred f.a.toNat).getLsbD l && (t.pred f.b.toNat).getLsbD l),
   (.por, fun t f l => (t.pred f.a.toNat).getLsbD l || (t.pred f.b.toNat).getLsbD l),
   (.pxor, fun t f l => (t.pred f.a.toNat).getLsbD l != (t.pred f.b.toNat).getLsbD l),
   (.pnot, fun t f l => !(t.pred f.a.toNat).getLsbD l),
   (.pmov, fun t f l => (t.pred f.a.toNat).getLsbD l),
   (.voteAny, fun t f l => (List.range (segWidth t t.seg)).any (fun q =>
      (presentSet t (modOf .v f)).getLsbD (segFirst (segWidth t t.seg) l + q) && (t.pred f.a.toNat).getLsbD (segFirst (segWidth t t.seg) l + q))),
   (.voteAll, fun t f l => (List.range (segWidth t t.seg)).all (fun q =>
      !(presentSet t (modOf .v f)).getLsbD (segFirst (segWidth t t.seg) l + q) || (t.pred f.a.toNat).getLsbD (segFirst (segWidth t t.seg) l + q)))]

/-- A row of class V instructions that write a vector register in the present lanes: the constructor and the word in a lane. -/
abbrev VecRow := (Fields → Instr) × (Team → Fields → Nat → Word)

/-- An FP32 result: exact, then rounded once and narrowed (R135). -/
def floatVal (fn : RMode → XVal → XVal → XVal → XVal) (t : Team) (f : Fields) (l : Nat) : Word :=
  narrowFloat t (modOf .v f) (dstOld t f.d.toNat l)
    (fn (modeOf t (modOf .v f)) (ofF32 (fA t f l)) (ofF32 (fB t f l)) (ofF32 (dstOld t f.d.toNat l)))

/-- The class of an FP32 code by its fields (R151). -/
def specClass (w : Word) (quiet : Bool) : Word :=
  let e := (w.extractLsb' 23 8).toNat
  let m := (w.extractLsb' 0 23).toNat
  let n := w.getLsbD 31
  if e = 255 then (if m ≠ 0 then (if quiet then 0x200 else 0x100) else if n then 0x001 else 0x080)
  else if e = 0 then (if m = 0 then (if n then 0x008 else 0x010) else if n then 0x004 else 0x020)
  else if n then 0x002 else 0x040

/-- R150, R151. -/
def floatRows : List VecRow :=
  [(.fadd, floatVal (fun r a b _ => XVal.add r a b)), (.fsub, floatVal (fun r a b _ => XVal.sub r a b)),
   (.fmul, floatVal (fun _ a b _ => XVal.mul a b)), (.ffma, floatVal (fun r a b c => XVal.add r (XVal.mul a b) c)),
   (.fmin, floatVal (fun _ a b _ => XVal.minV a b)), (.fmax, floatVal (fun _ a b _ => XVal.maxV a b)),
   (.fclass, fun t f l => specClass (fA t f l)
      (quietBit (mAsub (modOf .v f)) (srcV t f.a.toNat (immOf f) l)))]

/-- A packed result: each half computed by itself (R152). -/
def packedVal (fm : Fmt) (fn : RMode → XVal → XVal → XVal → XVal) (t : Team) (f : Fields) (l : Nat) : Word :=
  let a := srcV t f.a.toNat (immOf f) l
  let b := srcV t f.b.toNat (immOf f) l
  let c := dstOld t f.d.toNat l
  let one (lo : Nat) : BitVec 16 := BitVec.ofNat 16 (narrow fm (fn (modeOf t (modOf .v f)) (widen fm (a.extractLsb' lo 16).toNat)
    (widen fm (b.extractLsb' lo 16).toNat) (widen fm (c.extractLsb' lo 16).toNat)) (modeOf t (modOf .v f)) (mSat (modOf .v f)))
  one 16 ++ one 0

/-- R152, R153, R154. -/
def packedRows : List VecRow :=
  [(.hadd2, packedVal fp16 (fun r a b _ => XVal.add r a b)), (.hmul2, packedVal fp16 (fun _ a b _ => XVal.mul a b)),
   (.hfma2, packedVal fp16 (fun r a b c => XVal.fma r a b c)), (.hmin2, packedVal fp16 (fun _ a b _ => XVal.minV a b)),
   (.hmax2, packedVal fp16 (fun _ a b _ => XVal.maxV a b)), (.badd2, packedVal bf16 (fun r a b _ => XVal.add r a b)),
   (.bmul2, packedVal bf16 (fun _ a b _ => XVal.mul a b)), (.bfma2, packedVal bf16 (fun r a b c => XVal.fma r a b c))]

/-- The source of a conversion as the source type reads it (R153). -/
def convSrc (t : Team) (f : Fields) (l : Nat) : Word := cvtSrc f.b.toNat (mAsub (modOf .v f)) (srcV t f.a.toNat (immOf f) l)

/-- Conversion to an integer: the integer rule of R66 places it (R101, R153). -/
def convInt (signed : Bool) (t : Team) (f : Fields) (l : Nat) : Word :=
  narrowInt signed (mSat (modOf .v f)) (mDnar (modOf .v f)) (dstOld t f.d.toNat l)
    (cvtToInt t signed (mSat (modOf .v f)) (modeOf t (modOf .v f)) f.b.toNat (convSrc t f l))

/-- Conversion to a format: one rounding, DNAR only places the code (R153). -/
def convFmt (fm : Team → Word → Fmt) (t : Team) (f : Fields) (l : Nat) : Word :=
  let code := narrow (fm t (modOf .v f)) (cvtVal t f.b.toNat (convSrc t f l)) (modeOf t (modOf .v f)) (mSat (modOf .v f))
  if mDnar (modOf .v f) = 0 then BitVec.ofNat 32 code else subInsert (mDnar (modOf .v f)) (dstOld t f.d.toNat l) code

/-- R149 `sel`, R153, R154. -/
def convRows : List VecRow :=
  [(.cvtI32, convInt true), (.cvtZ32, convInt false), (.cvtF32, convFmt (fun _ _ => fp32)), (.cvtF16, convFmt (fun _ _ => fp16)),
   (.cvtBf16, convFmt (fun _ _ => bf16)), (.cvtNf, convFmt (fun t m => nfFmt (t.nf (mNfs m)))),
   (.pack, fun t f l => subInsert (mDnar (modOf .v f) + 1)
      (subInsert (mDnar (modOf .v f)) (dstOld t f.d.toNat l) (subBits (mAsub (modOf .v f)) (srcV t f.a.toNat (immOf f) l)))
      (subBits (mBsub (modOf .v f)) (srcV t f.b.toNat (immOf f) l))),
   (.sel, fun t f l => if ((t.pred ((immOf f).extractLsb' 0 5).toNat).getLsbD l != (immOf f).getLsbD 5) then srcV t f.a.toNat 0 l
      else srcV t f.b.toNat 0 l)]

/-- The lane at position j of a lane's segment, where the segment has it (R156). -/
def laneAt (t : Team) (l j : Nat) : Option Nat :=
  if j < segWidth t t.seg then some (segFirst (segWidth t t.seg) l + j) else none

/-- What a shuffle reads: the lane at a position, or the receiver's own value (R157). -/
def shufVal (pos : Nat → Nat → Option Nat) (t : Team) (f : Fields) (l : Nat) : Word :=
  let a := srcV t f.a.toNat (immOf f)
  match (pos (l % segWidth t t.seg) (srcV t f.b.toNat (immOf f) l).toNat).bind (laneAt t l) with
  | some k => a k
  | none => a l

/-- Width of a segment for `vote.bal` and `match`: code 6 counts as 5 (R156). -/
def warpWidth (t : Team) : Nat := segWidth t (if t.seg = 6 then 5 else t.seg)

/-- Bit q is set when the lane at position q contributes and passes a test (R158). -/
def ballotBit (t : Team) (f : Fields) (l q : Nat) (test : Nat → Bool) : Bool :=
  decide (q < warpWidth t) && (presentSet t (modOf .v f)).getLsbD (segFirst (warpWidth t) l + q) && test (segFirst (warpWidth t) l + q)

/-- R157. -/
def shuffleRows : List VecRow :=
  [(.shflIdx, shufVal (fun _ b => some b)), (.shflUp, shufVal (fun q b => if b ≤ q then some (q - b) else none)),
   (.shflDown, shufVal (fun q b => some (q + b))), (.shflXor, shufVal (fun q b => some (q ^^^ b)))]

/-- Contributors' values of a lane's segment, in position order, among the first n positions (R156, R159, R160). -/
def contributions (t : Team) (f : Fields) (l n : Nat) : List Word :=
  ((List.range (segWidth t t.seg)).filter (fun q => decide (q < n) &&
    (presentSet t (modOf .v f)).getLsbD (segFirst (segWidth t t.seg) l + q))).map
    (fun q => srcV t f.a.toNat (immOf f) (segFirst (segWidth t t.seg) l + q))

/-- Least and greatest, signed and unsigned, of a nonempty list come out of a fold from the first. -/
def combine (fn : Word → Word → Word) (ident : Word) : List Word → Word
  | [] => ident
  | v :: r => r.foldl fn v

/-- A row of reductions and scans: constructor, whether it scans, combination, identity (R159, R160). -/
abbrev RedRow := (Fields → Instr) × Bool × (Word → Word → Word) × Word

def reduceRows : List RedRow :=
  [(.vRedAdd, false, fun a b => a + b, 0), (.vRedMinI32, false, fun a b => if a.sle b then a else b, 0x7FFFFFFF),
   (.vRedMinZ32, false, fun a b => if a.ule b then a else b, 0xFFFFFFFF), (.vRedMaxI32, false, fun a b => if b.sle a then a else b, 0x80000000),
   (.vRedMaxZ32, false, fun a b => if b.ule a then a else b, 0), (.vRedAnd, false, fun a b => a &&& b, 0xFFFFFFFF),
   (.vRedOr, false, fun a b => a ||| b, 0), (.vRedXor, false, fun a b => a ^^^ b, 0), (.scanAdd, true, fun a b => a + b, 0),
   (.scanMaxI32, true, fun a b => if b.sle a then a else b, 0x80000000), (.scanMaxZ32, true, fun a b => if b.ule a then a else b, 0)]

end Sys2Proof.Claims

/-- R149, R151, R158, R161 with R137: each class V instruction with a predicate result that reaches its effect completes and writes predicate D
in the present lanes alone; a write to `pt` is discarded. -/
def Sys2Proof.Claims.VectorPredicateResults : Prop :=
  ∀ row ∈ predRows, ∀ (f : Fields) (s : State), s.team.warps ≤ 32 → reaches s (row.1 f) = true →
    ∃ t, exec (row.1 f) s = .next t ∧ OnlyTeam s t ∧ wentOn s.team t.team (lenOf f) ∧
      { placed s.team t.team with preds := s.team.preds } = s.team ∧
      predWritten s.team t.team f.d.toNat (fun l => (presentSet s.team (modOf .v f)).getLsbD l) (row.2 s.team f)

/-- R150 to R154 with R137: FP32, packed, conversion, `pack` and `sel` instructions write vector register D in the present lanes alone.
Readings and choices of the model's own: log entry 20. -/
def Obligations.VectorFloatAndConversionResults : Prop :=
  ∀ row ∈ floatRows ++ packedRows ++ convRows, ∀ (f : Fields) (s : State), s.team.warps ≤ 32 → reaches s (row.1 f) = true →
    ∃ t, exec (row.1 f) s = .next t ∧ OnlyTeam s t ∧ wentOn s.team t.team (lenOf f) ∧
      { placed s.team t.team with regs := s.team.regs } = s.team ∧
      vecWritten s.team t.team f.d.toNat (presentSet s.team (modOf .v f)) (row.2 s.team f)

/-- R155: `unpk` writes two adjacent subfields, extended as the literal says, to the pair of D in the present lanes, and nothing when D is 120. -/
def Sys2Proof.Claims.UnpackWritesPair : Prop :=
  ∀ (f : Fields) (s : State), s.team.warps ≤ 32 → reaches s (.unpk f) = true →
    ∃ t, exec (.unpk f) s = .next t ∧ OnlyTeam s t ∧ wentOn s.team t.team (lenOf f) ∧
      { placed s.team t.team with regs := s.team.regs } = s.team ∧
      ∀ q l, l < s.team.lanes → t.team.word q l =
        if f.d.toNat < 88 ∧ (presentSet s.team (modOf .v f)).getLsbD l = true ∧ q = s.team.vWord f.d.toNat then
          widenInt (f.b.toNat == 1) (mAsub (modOf .v f)) (srcV s.team f.a.toNat (immOf f) l)
        else if f.d.toNat < 88 ∧ (presentSet s.team (modOf .v f)).getLsbD l = true ∧ q = s.team.vWord (f.d.toNat + 1) then
          widenInt (f.b.toNat == 1) (mAsub (modOf .v f) + 1) (srcV s.team f.a.toNat (immOf f) l)
        else s.team.word q l

/-- R156, R157, R158: shuffles read the source lane whether it is active or not, or the receiver's own value outside the segment; `vote.bal` and
`match` give a bit for each contributor. All write vector register D in the present lanes alone. -/
def Sys2Proof.Claims.CrossLaneReads : Prop :=
  (∀ row ∈ shuffleRows, ∀ (f : Fields) (s : State), s.team.warps ≤ 32 → reaches s (row.1 f) = true →
    ∃ t, exec (row.1 f) s = .next t ∧ OnlyTeam s t ∧ wentOn s.team t.team (lenOf f) ∧
      { placed s.team t.team with regs := s.team.regs } = s.team ∧
      vecWritten s.team t.team f.d.toNat (presentSet s.team (modOf .v f)) (row.2 s.team f)) ∧
  (∀ row ∈ ([(.voteBal, fun t f _ k => (t.pred f.a.toNat).getLsbD k),
             (.matchLanes, fun t f l k => srcV t f.a.toNat (immOf f) k == srcV t f.a.toNat (immOf f) l)] :
        List ((Fields → Instr) × (Team → Fields → Nat → Nat → Bool))),
    ∀ (f : Fields) (s : State), s.team.warps ≤ 32 → s.team.seg ≤ 6 → reaches s (row.1 f) = true →
      ∃ t, exec (row.1 f) s = .next t ∧ OnlyTeam s t ∧ wentOn s.team t.team (lenOf f) ∧
        { placed s.team t.team with regs := s.team.regs } = s.team ∧
        ∃ v : Nat → Word, vecWritten s.team t.team f.d.toNat (presentSet s.team (modOf .v f)) v ∧
          ∀ l q, q < 32 → (v l).getLsbD q = ballotBit s.team f l q (row.2 s.team f l))

/-- R159, R160: every active lane, whatever its guard, receives the combination of the contributors of its segment (a scan: up to its own
position), or the identity where there is none, and predicate B says whether its segment has a contributor. -/
def Sys2Proof.Claims.ReductionsAndScans : Prop :=
  ∀ row ∈ reduceRows, ∀ (f : Fields) (s : State), s.team.warps ≤ 32 → reaches s (row.1 f) = true →
    ∃ t, exec (row.1 f) s = .next t ∧ OnlyTeam s t ∧ wentOn s.team t.team (lenOf f) ∧
      { placed s.team t.team with regs := s.team.regs, preds := s.team.preds } = s.team ∧
      vecWritten s.team t.team f.d.toNat s.team.mask (fun l => combine row.2.2.1 row.2.2.2
        (contributions s.team f l (if row.2.1 then l % segWidth s.team s.team.seg + 1 else segWidth s.team s.team.seg))) ∧
      predWritten s.team t.team f.b.toNat (fun l => s.team.mask.getLsbD l)
        (fun l => contributions s.team f l (segWidth s.team s.team.seg) != [])

/-- R110, R159: `red.fadd` sums over the fixed pairwise tree, an absent position letting the other value pass, and gives +0 to a segment without
contributors; predicate B as in the other reductions. -/
def Sys2Proof.Claims.TreeSum : Prop :=
  ∀ (f : Fields) (s : State), s.team.warps ≤ 32 → reaches s (.vRedFadd f) = true →
    ∃ t, exec (.vRedFadd f) s = .next t ∧ OnlyTeam s t ∧ wentOn s.team t.team (lenOf f) ∧
      { placed s.team t.team with regs := s.team.regs, preds := s.team.preds } = s.team ∧
      predWritten s.team t.team f.b.toNat (fun l => s.team.mask.getLsbD l)
        (fun l => contributions s.team f l (segWidth s.team s.team.seg) != []) ∧
      vecWritten s.team t.team f.d.toNat s.team.mask (fun l =>
        match treeRoot (modeOf s.team (modOf .v f)) 10 ((List.range (segWidth s.team s.team.seg)).map (fun q =>
          let k := segFirst (segWidth s.team s.team.seg) l + q
          if (presentSet s.team (modOf .v f)).getLsbD k then some (ofF32 (srcV s.team f.a.toNat (immOf f) k)) else none)) with
        | some v => toF32 v (modeOf s.team (modOf .v f)) false
        | none => 0)

/-- R162: `seg` sets the segment code when its operand lies in 1 to 6, whatever the mask; otherwise it takes the Illegal Operand trap. -/
def Sys2Proof.Claims.SegmentWidth : Prop :=
  ∀ (f : Fields) (s : State), reaches s (.seg f) = true →
    (1 ≤ (srcU s.team f.a.toNat (immOf f)).toNat → (srcU s.team f.a.toNat (immOf f)).toNat ≤ 6 →
      ∃ t, exec (.seg f) s = .next t ∧ OnlyTeam s t ∧ wentOn s.team t.team (lenOf f) ∧
        { placed s.team t.team with seg := s.team.seg } = s.team ∧ t.team.seg = (srcU s.team f.a.toNat (immOf f)).toNat) ∧
    (¬(1 ≤ (srcU s.team f.a.toNat (immOf f)).toNat ∧ (srcU s.team f.a.toNat (immOf f)).toNat ≤ 6) →
      exec (.seg f) s = trapLanes s { cause := 0x03 } s.team.mask)

/-! ### Operands and numbers -/

namespace Sys2Proof.Claims

/-- Subfield codes with their lowest bit and width, as R64 tabulates them. -/
def subfields : List (Nat × Nat × Nat) :=
  [(1, 0, 16), (2, 16, 16), (3, 0, 8), (4, 8, 8), (5, 16, 8), (6, 24, 8), (7, 0, 6), (8, 6, 6), (9, 12, 6), (10, 18, 6), (11, 24, 6),
   (12, 0, 4), (13, 4, 4), (14, 8, 4), (15, 12, 4), (16, 16, 4), (17, 20, 4), (18, 24, 4), (19, 28, 4)]

/-- What the latch entry e of a team reads as in a lane, and how many reads are left (R47, R49). -/
def heldVal (k : Latch) (e l : Nat) : Word := kGetD l 0 (if e = 0 then k.k0 else if e = 1 then k.k1 else k.k2)
def heldReads (k : Latch) (e : Nat) : Nat := if e = 0 then k.v0 else if e = 1 then k.v1 else k.v2

/-- The latch after an instruction: every entry keeps its value and loses one read; with HOLD the entry that the pointer names has two reads left and holds
a value for each of n lanes, and the pointer goes on (R47, R49). -/
def latchAfter (k k' : Latch) (hold : BitVec 2) (n : Nat) (val : Nat → Word) : Prop :=
  k'.ptr = (if hold = 0 then k.ptr else (k.ptr + 1) % 3) ∧
  (∀ e l, e < 3 → hold = 0 ∨ e ≠ k.ptr → heldVal k' e l = heldVal k e l ∧ heldReads k' e = heldReads k e - 1) ∧
  (hold ≠ 0 → heldReads k' k.ptr = 2 ∧ ∀ l, l < n → heldVal k' k.ptr l = val l)

/-- A source of class V as it reads, and as an FP32 code. -/
abbrev LaneVal := Team → Fields → Nat → Word

/-- What a conversion's source is held as: its value widened to 32 bits (R65, R100, R153). -/
def convHeld : LaneVal := fun t f l => cvtHeld t f.b.toNat (convSrc t f l)

/-- Class V instructions with a vector result: constructor, the widened A and B, and the word written (R147 to R155). -/
def heldRows : List ((Fields → Instr) × LaneVal × LaneVal × LaneVal) :=
  vectorRows.map (fun r => (r.1, (fun t f => vA t f r.2.1), (fun t f => vB t f r.2.1), fun t f l =>
    narrowInt r.2.1 (mSat (modOf .v f)) (mDnar (modOf .v f)) (dstOld t f.d.toNat l) (r.2.2 (vA t f r.2.1 l) (vB t f r.2.1 l) (dstOld t f.d.toNat l)))) ++
  floatRows.map (fun r => (r.1, fA, fB, r.2)) ++
  packedRows.map (fun r => (r.1, (fun t f => srcV t f.a.toNat (immOf f)), (fun t f => srcV t f.b.toNat (immOf f)), r.2)) ++
  (convRows.take 6).map (fun r => (r.1, convHeld, convHeld, r.2)) ++
  ((convRows.drop 6).take 1).map (fun r => (r.1, (fun t f => vA t f false), (fun t f => vB t f false), r.2)) ++
  (convRows.drop 7).map (fun r => (r.1, (fun t f => srcV t f.a.toNat 0), (fun t f => srcV t f.b.toNat 0), r.2)) ++
  shuffleRows.map (fun r => (r.1, (fun t f => srcV t f.a.toNat (immOf f)), (fun t f => srcV t f.b.toNat (immOf f)), r.2))

/-- Class V instructions that combine the lanes of a segment. -/
def segmentRows : List (Fields → Instr) := reduceRows.map (fun r => r.1) ++ [.vRedFadd, .matchLanes, .voteBal]

/-- Class V comparisons, whose destination is no vector register: constructor, the widened A and B (R149, R151). -/
def heldCmpRows : List ((Fields → Instr) × LaneVal × LaneVal) :=
  vectorCmpRows.map (fun r => (r.1, (fun t f => vA t f r.2.1), fun t f => vB t f r.2.1)) ++
  [.fcmpEq, .fcmpLt, .fcmpLe, .fcmpUn, .fcmpNe].map (fun c => (c, fA, fB))

end Sys2Proof.Claims

/-- R64, R65, R66: a subfield is read zero- or sign-extended from its own bits; an integer result written to a subfield, without saturation, puts
its low bits there and leaves every other bit of the destination as it was. -/
def Sys2Proof.Claims.SubfieldsReadAndWrite : Prop :=
  ∀ c lo n, (c, lo, n) ∈ subfields → ∀ (w old r : Word) (sg : Bool) (i : Nat), i < 32 →
    (widenInt false c w).getLsbD i = (decide (i < n) && w.getLsbD (lo + i)) ∧
    (widenInt true c w).getLsbD i = w.getLsbD (lo + min i (n - 1)) ∧
    (narrowInt sg false c old r).getLsbD i = if lo ≤ i ∧ i < lo + n then r.getLsbD (i - lo) else old.getLsbD i

/-- R66: with SAT an integer result is clamped to the range of the subfield's bits, signed for type .i32 and unsigned otherwise, and the other
bits of the destination keep their values. -/
def Sys2Proof.Claims.SaturationClamps : Prop :=
  ∀ c lo n, (c, lo, n) ∈ subfields → ∀ (old r : Word),
    ((narrowInt true true c old r).extractLsb' lo n).toInt = max (-(2 ^ (n - 1) : Int)) (min (2 ^ (n - 1) - 1) r.toInt) ∧
    ((narrowInt false true c old r).extractLsb' lo n).toNat = min (2 ^ n - 1) r.toNat ∧
    ∀ sg i, i < 32 → ¬(lo ≤ i ∧ i < lo + n) → (narrowInt sg true c old r).getLsbD i = old.getLsbD i

/-- R47, R48, R49: HOLD puts the widened A (01), the widened B (10) or the destination's word after the instruction (11) of every lane, present or not, into the latch
entry that the pointer names, which then has two reads left; the pointer goes on; the other entries keep their values and lose one read. Without HOLD every
entry loses one read. -/
def Sys2Proof.Claims.HoldFillsLatch : Prop :=
  (∀ row ∈ heldRows, ∀ (f : Fields) (s : State), s.team.warps ≤ 32 → s.team.latch.ptr < 3 → reaches s (row.1 f) = true →
    ∃ t, exec (row.1 f) s = .next t ∧ latchAfter s.team.latch t.team.latch f.hold s.team.lanes (fun l =>
      if f.hold = 1 then row.2.1 s.team f l else if f.hold = 2 then row.2.2.1 s.team f l
      else if f.d.toNat < 88 then t.team.word (s.team.vWord f.d.toNat) l
      else if (presentSet s.team (modOf .v f)).getLsbD l then row.2.2.2 s.team f l else 0)) ∧
  (∀ row ∈ heldCmpRows, ∀ (f : Fields) (s : State), s.team.warps ≤ 32 → s.team.latch.ptr < 3 → f.hold ≠ 3 → reaches s (row.1 f) = true →
    ∃ t, exec (row.1 f) s = .next t ∧ latchAfter s.team.latch t.team.latch f.hold s.team.lanes (fun l =>
      if f.hold = 1 then row.2.1 s.team f l else row.2.2 s.team f l)) ∧
  (∀ con ∈ segmentRows, ∀ (f : Fields) (s : State), s.team.warps ≤ 32 → s.team.latch.ptr < 3 → f.hold = 0 ∨ (f.hold = 1 ∧ con f ≠ .voteBal f) ∨ (f.hold = 3 ∧ f.d.toNat < 88) → reaches s (con f) = true →
    ∃ t, exec (con f) s = .next t ∧ latchAfter s.team.latch t.team.latch f.hold s.team.lanes (fun l =>
      if f.hold = 1 then srcV s.team f.a.toNat (immOf f) l else t.team.word (s.team.vWord f.d.toNat) l))

/-- R86, R95, R98: rounding the value of a code back into its format, in any mode, gives the same code for every finite code and, without saturation, for an
infinity; every NaN code gives the canonical NaN. -/
def Sys2Proof.Claims.CodesSurviveRounding : Prop :=
  ∀ p ∈ [(fp32, 0x7F800000, 0x7FC00000), (fp16, 0x7C00, 0x7E00), (bf16, 0x7F80, 0x7FC0)], ∀ (mode : RMode) (c : Nat), c < 2 ^ p.1.bits →
    (c % 2 ^ (p.1.bits - 1) ≤ p.2.1 → narrow p.1 (widen p.1 c) mode false = c) ∧
    (c % 2 ^ (p.1.bits - 1) < p.2.1 → narrow p.1 (widen p.1 c) mode true = c) ∧
    (p.2.1 < c % 2 ^ (p.1.bits - 1) → ∀ sat, narrow p.1 (widen p.1 c) mode sat = p.2.2)

/-- R89, R98: rounding toward minus infinity never exceeds the exact value, and rounding toward plus infinity never falls below it. -/
def Sys2Proof.Claims.DirectedRoundingBrackets : Prop :=
  ∀ f ∈ [fp32, fp16, bf16, acc40], ∀ (n : Bool) (m : Nat) (e : Int),
    XVal.le (roundTo f (.fin n m e) .rdn) (.fin n m e) = true ∧ XVal.le (.fin n m e) (roundTo f (.fin n m e) .rup) = true

/-- R87: NaN operands, infinity minus infinity and zero times infinity give NaN, whose FP32 code is the canonical one; an exact zero sum of operands of
opposite sign is +0, except under rounding toward minus infinity, where it is -0. -/
def Sys2Proof.Claims.SpecialFloatResults : Prop :=
  (∀ mode x, XVal.add mode .nan x = .nan ∧ XVal.add mode x .nan = .nan ∧ XVal.mul .nan x = .nan ∧ XVal.mul x .nan = .nan) ∧
  (∀ mode n, XVal.add mode (.inf n) (.inf (!n)) = .nan) ∧ (∀ n k e, XVal.mul (.inf n) (.fin k 0 e) = .nan ∧ XVal.mul (.fin k 0 e) (.inf n) = .nan) ∧
  (∀ mode sat, toF32 .nan mode sat = 0x7FC00000) ∧
  ∀ (mode : RMode) (n : Bool) (m : Nat) (e : Int),
    toF32 (XVal.add mode (.fin n m e) (.fin (!n) m e)) mode false = if mode = .rdn then 0x80000000 else 0

/-! ### Class Q -/

namespace Sys2Proof.Claims

/-- R163: the functions of class Q, `ex2.a` apart. -/
def sfuRows : List ((Fields → Instr) × QOp) :=
  [(.rcp, .rcp), (.rsq, .rsq), (.sqrt, .sqrt), (.ex2, .ex2), (.lg2, .lg2), (.sinp, .sinp), (.cosp, .cosp), (.tanh, .tanh), (.rcpA, .rcpA),
   (.rsqA, .rsqA)]

end Sys2Proof.Claims

/-- R163, R170: with a present lane and a free entry in the partition's queue, a class Q instruction reads its sources at issue, enters the queue with
the results of its present lanes, counts on its flag and goes on; no register is written yet. With no present lane it does nothing. While no entry is free it does not issue. -/
def Sys2Proof.Claims.SpecialFunctionIssue : Prop :=
  ∀ row ∈ sfuRows, ∀ (f : Fields) (s : State), reaches s (row.1 f) = true →
    (16 ≤ (s.partAt s.team.partNo).sfuQ.length → exec (row.1 f) s = .next s) ∧
    (presentSet s.team (modOf .q f) = 0 → (s.partAt s.team.partNo).sfuQ.length < 16 →
      ∃ t, exec (row.1 f) s = .next t ∧ OnlyTeam s t ∧ wentOn s.team t.team (lenOf f) ∧ placed s.team t.team = s.team) ∧
    (presentSet s.team (modOf .q f) ≠ 0 → (s.partAt s.team.partNo).sfuQ.length < 16 →
      ∃ t o, exec (row.1 f) s = .next t ∧ wentOn s.team t.team (lenOf f) ∧ sameMem s t ∧
        { placed s.team t.team with flags := s.team.flags, nextOp := s.team.nextOp } = s.team ∧
        t.team.flags = (s.team.flagUp (selFlag s.team (modOf .q f))).flags ∧
        t = (s.setPart s.team.partNo { s.partAt s.team.partNo with sfuQ := (s.partAt s.team.partNo).sfuQ ++ [o] }).setTeam t.team ∧
        o.tid = s.cur ∧ o.flag = selFlag s.team (modOf .q f) ∧
        o.dst = (if f.d.toNat < 88 then some (s.team.vWord f.d.toNat) else none) ∧
        ∀ l, l < s.team.lanes → kGet l o.vals = if (presentSet s.team (modOf .q f)).getLsbD l
          then some (qResult row.2 (ofF32 (widenFloat s.team (mNfs (modOf .q f)) (mAsub (modOf .q f)) (srcV s.team f.a.toNat (immOf f) l)))) else none)

/-- R170, R53, R197: the unit writes the oldest pending result of a team: the destination word in the lanes that have a result, and the flag counts down. One behind a `fenceq` of the team that
names the unit's queue and is not joined waits. -/
def Sys2Proof.Claims.SpecialFunctionResult : Prop :=
  ∀ (s : State) (o : SfuOp) (r : List SfuOp), (s.teamAt s.ev.x).warps ≤ 32 → (s.partAt (s.teamAt s.ev.x).partNo).sfuQ = o :: r →
    o.tid = s.ev.x →
    (heldByFenceq s s.ev.x 3 o.id = true → exec .qResultWrite s = .next s) ∧
    (heldByFenceq s s.ev.x 3 o.id = false → ∃ t, exec .qResultWrite s = .next t ∧ sameMem s t ∧ (t.partAt (s.teamAt s.ev.x).partNo).sfuQ = r ∧
      { t.teamAt s.ev.x with regs := (s.teamAt s.ev.x).regs, flags := (s.teamAt s.ev.x).flags } = s.teamAt s.ev.x ∧
      (∀ k, o.flag = some k → (t.teamAt s.ev.x).flag k = (s.teamAt s.ev.x).flag k - 1) ∧
      (∀ k, o.flag ≠ some k → (t.teamAt s.ev.x).flag k = (s.teamAt s.ev.x).flag k) ∧
      ∀ q l, l < (s.teamAt s.ev.x).lanes → (t.teamAt s.ev.x).word q l =
        if o.dst = some q then (kGet l o.vals).getD ((s.teamAt s.ev.x).word q l) else (s.teamAt s.ev.x).word q l)

/-- R169, R197, R379: on stepping B1 `ex2.a` runs the resident routine: after the team's earlier class Q results and joins it writes its results in the present lanes,
leaves its flag where it was, and counts one entry in the die's telemetry. -/
def Sys2Proof.Claims.ResidentRoutine : Prop :=
  ∀ (f : Fields) (s : State), s.team.warps ≤ 32 → reaches s (.ex2A f) = true → (s.partAt s.team.partNo).sfuQ = [] →
    presentSet s.team (modOf .q f) ≠ 0 →
    (heldByFenceq s s.cur 3 s.team.nextOp = true → exec (.ex2A f) s = .next s) ∧
    (heldByFenceq s s.cur 3 s.team.nextOp = false → ∃ t, exec (.ex2A f) s = .next t ∧ wentOn s.team t.team (lenOf f) ∧ sameMem s t ∧
      { placed s.team t.team with regs := s.team.regs } = s.team ∧
      (t.dieAt (dieOf s.team.core)).compat = (s.dieAt (dieOf s.team.core)).compat + 1 ∧
      vecWritten s.team t.team f.d.toNat (presentSet s.team (modOf .q f)) (fun l =>
        qResult .ex2A (ofF32 (widenFloat s.team (mNfs (modOf .q f)) (mAsub (modOf .q f)) (srcV s.team f.a.toNat (immOf f) l)))))

namespace Sys2Proof.Claims

/-- The columns of the table of R164 and the special lines of R166, R167 and R168: a function with its results at +0, -0, +infinity and -infinity. -/
def sfuTable : List (QOp × Word × Word × Word × Word) :=
  [(.rcp, 0x7F800000, 0xFF800000, 0, 0x80000000), (.rsq, 0x7F800000, 0xFF800000, 0, 0x7FC00000),
   (.sqrt, 0, 0x80000000, 0x7F800000, 0x7FC00000), (.ex2, 0x3F800000, 0x3F800000, 0x7F800000, 0),
   (.lg2, 0xFF800000, 0xFF800000, 0x7F800000, 0x7FC00000), (.sinp, 0, 0x80000000, 0x7FC00000, 0x7FC00000),
   (.cosp, 0x3F800000, 0x3F800000, 0x7FC00000, 0x7FC00000), (.tanh, 0, 0x80000000, 0x3F800000, 0xBF800000),
   (.rcpA, 0x7F800000, 0xFF800000, 0, 0x80000000), (.rsqA, 0x7F800000, 0xFF800000, 0, 0x7FC00000),
   (.ex2A, 0x3F800000, 0x3F800000, 0x7F800000, 0)]

/-- m x 2^e is the whole number k. -/
abbrev isWhole (m : Nat) (e : Int) (k : Nat) : Prop := if 0 ≤ e then m * 2 ^ e.toNat = k else m = k * 2 ^ (-e).toNat

end Sys2Proof.Claims

/-- R164, R166, R167, R168: the results that override the exact value: every function at NaN, at both zeros and at both infinities; NaN for a negative finite operand of
`rsq`, `sqrt`, `lg2` and `rsq.a`; a zero of the operand's sign for `sinp` of a whole number and +0 for `cosp` of a whole number and a half; +0 for `lg2` of 1;
+infinity for `ex2.a` of 128 and above and +0 below -150. -/
def Sys2Proof.Claims.SpecialFunctionTable : Prop :=
  (∀ row ∈ sfuTable,
    (∀ w : Word, 0x7F800000 < w.toNat % 2 ^ 31 → qResult row.1 (ofF32 w) = 0x7FC00000) ∧
    qResult row.1 (ofF32 0) = row.2.1 ∧ qResult row.1 (ofF32 0x80000000) = row.2.2.1 ∧
    qResult row.1 (ofF32 0x7F800000) = row.2.2.2.1 ∧ qResult row.1 (ofF32 0xFF800000) = row.2.2.2.2) ∧
  (∀ op ∈ [QOp.rsq, .sqrt, .lg2, .rsqA], ∀ w : Word, 0x80000000 < w.toNat → w.toNat < 0xFF800000 → qResult op (ofF32 w) = 0x7FC00000) ∧
  (∀ (w : Word) (neg : Bool) (m : Nat) (e : Int) (k : Nat), ofF32 w = .fin neg m e →
    (isWhole m e k → qResult .sinp (ofF32 w) = if neg then 0x80000000 else 0) ∧
    (isWhole m (e + 1) (2 * k + 1) → qResult .cosp (ofF32 w) = 0)) ∧
  qResult .lg2 (ofF32 0x3F800000) = 0 ∧
  (∀ w : Word, 0x43000000 ≤ w.toNat → w.toNat ≤ 0x7F800000 → qResult .ex2A (ofF32 w) = 0x7F800000) ∧
  (∀ w : Word, 0xC3160000 < w.toNat → w.toNat ≤ 0xFF800000 → qResult .ex2A (ofF32 w) = 0)

/-! ### Class X -/

/-- R51: a clause start whose WAIT names no busy flag, and whose header is well formed, opens the clause that the header describes and goes on at
the next word. A WAIT that names a busy flag changes nothing; a malformed header takes the Illegal Clause trap (R56). -/
def Sys2Proof.Claims.ClauseOpens : Prop :=
  ∀ (w : Word) (s : State), s.team.clause = none →
    (waitClear s.team w = true → hdrOk w = true → ∃ t, exec (.clauseStart w) s = .next t ∧ OnlyTeam s t ∧
      placed s.team t.team = s.team ∧ t.team.pc = s.team.pc + 4 ∧
      t.team.clause = some { hdr := s.team.pc, cls := clsOf (w.extractLsb' 25 3).toNat, left := (w.extractLsb' 28 4).toNat, setA := (w.extractLsb' 9 4).toNat, setB := (w.extractLsb' 5 4).toNat, yld := w.getLsbD 4 }) ∧
    (waitClear s.team w = false → exec (.clauseStart w) s = .next s) ∧
    (waitClear s.team w = true → hdrOk w = false → exec (.clauseStart w) s = trapLanes s { cause := 0x01 } s.team.mask)

/-- R77: `nop` of every class changes nothing but the place. -/
def Sys2Proof.Claims.NopGoesOn : Prop :=
  ∀ (k : Cls) (f : Fields) (s : State), reaches s (.nop k f) = true →
    ∃ t, exec (.nop k f) s = .next t ∧ OnlyTeam s t ∧ wentOn s.team t.team (lenOf f) ∧ placed s.team t.team = s.team

/-- R69, R70, R71, R124: a prefix with an instruction it may repeat, read from the next word, starts its repeats at %rep.NEXT of a sequence in progress,
else at 0. In a forked stream a prefix stands only in the clauses of its engine's class and of class S; elsewhere it takes the Illegal Instruction trap. -/
def Sys2Proof.Claims.RepeatStarts : Prop :=
  (∀ (cl : Cls) (p : RepWord) (s : State) (e : Eng), s.curStream = some e → cl ≠ .s → cl ≠ (if e = .mat then .a else .c) →
    exec (.rep cl p) s = trapLanes s { cause := 0x02 } s.team.mask) ∧
  ∀ (cl : Cls) (p : RepWord) (s : State) (k : Clause) (ws rest : List Word) (i : Instr),
    (∀ e, s.curStream = some e → cl = .s ∨ cl = if e = .mat then .a else .c) → s.team.clause = some k → 1 < k.left → fetchInstr s s.cur (s.team.pc + 4).toNat = .ok ws → decode cl ws = .ok i rest → repTrap s.team p i = none →
    (s.team.rep.getLsbD 6 = false → ∃ t, exec (.rep cl p) s = .next t ∧ OnlyTeam s t ∧ placed s.team t.team = s.team ∧
      t.team.rep = 64 ∧ t.team.inRep = some p ∧ t.team.pc = s.team.pc ∧ t.team.clause = some k) ∧
    (s.team.rep.getLsbD 6 = true → (s.team.rep.extractLsb' 0 6).toNat ≤ p.cnt.toNat → ∃ t, exec (.rep cl p) s = .next t ∧ OnlyTeam s t ∧
      placed s.team t.team = s.team ∧ t.team.rep = s.team.rep ∧ t.team.inRep = some p ∧ t.team.pc = s.team.pc ∧ t.team.clause = some k)

namespace Sys2Proof.Claims

/-- When a label branch is taken (R117): by the active lanes, and the predicate of A in them. -/
def branchRows : List ((Fields → Instr) × (Team → Fields → Prop)) :=
  [(.bra, fun t _ => ∃ l, l < 1024 ∧ t.mask.getLsbD l = true),
   (.braAny, fun t f => ∃ l, l < 1024 ∧ t.mask.getLsbD l = true ∧ (t.pred f.a.toNat).getLsbD l = true),
   (.braAll, fun t f => (∃ l, l < 1024 ∧ t.mask.getLsbD l = true) ∧ ∀ l, t.mask.getLsbD l = true → (t.pred f.a.toNat).getLsbD l = true),
   (.braNone, fun t f => (∃ l, l < 1024 ∧ t.mask.getLsbD l = true) ∧ ∀ l, t.mask.getLsbD l = true → (t.pred f.a.toNat).getLsbD l = false)]

/-- The team stands before the clause header at an address, nothing of it changed but its place. -/
def jumpedTo (b : Team) (target : DWord) : Prop := b.pc = target ∧ b.clause = none ∧ b.rep = 0 ∧ b.inRep = none

end Sys2Proof.Claims

/-- R115, R117: a label branch goes to the address of its own instruction plus the sign-extended immediate word when its condition on the active lanes
holds, and else goes on. -/
def Sys2Proof.Claims.LabelBranches : Prop :=
  ∀ row ∈ branchRows, ∀ (f : Fields) (s : State), reaches s (row.1 f) = true →
    ∃ t, exec (row.1 f) s = .next t ∧ OnlyTeam s t ∧ placed s.team t.team = s.team ∧
      (row.2 s.team f → jumpedTo t.team (selfPc s.team + (immOf f).signExtend 64)) ∧
      (¬row.2 s.team f → wentOn s.team t.team (lenOf f))

/-- R117, R118: `brx`, `call` and `callx` with an active lane go to their target, the calls with a CALL entry that holds the mask and the address after
the clause; an odd register target takes the Control Order trap; with no active lane they go on. `ret` takes the CALL entry off and resumes its mask, less lanes that
have exited. -/
def Sys2Proof.Claims.RegisterBranchesAndCalls : Prop :=
  ∀ (f : Fields) (s : State),
    (reaches s (.brx f) = true →
      (s.team.mask = 0 → ∃ t, exec (.brx f) s = .next t ∧ OnlyTeam s t ∧ placed s.team t.team = s.team ∧ wentOn s.team t.team (lenOf f)) ∧
      (s.team.mask ≠ 0 → (srcS64 s.team f.a.toNat 0).toNat % 4 = 0 → ∃ t, exec (.brx f) s = .next t ∧ OnlyTeam s t ∧ placed s.team t.team = s.team ∧
        jumpedTo t.team (srcS64 s.team f.a.toNat 0)) ∧
      (s.team.mask ≠ 0 → (srcS64 s.team f.a.toNat 0).toNat % 4 ≠ 0 → exec (.brx f) s = trapLanes s
        { cause := 0x05, i0 := 6, i2 := (srcS64 s.team f.a.toNat 0).extractLsb' 0 32, i3 := (srcS64 s.team f.a.toNat 0).extractLsb' 32 32 } s.team.mask)) ∧
    (∀ i ∈ [.call f, .callx f], reaches s i = true → s.team.mask = 0 →
      ∃ t, exec i s = .next t ∧ OnlyTeam s t ∧ placed s.team t.team = s.team ∧ wentOn s.team t.team (lenOf f)) ∧
    (reaches s (.callx f) = true → s.team.mask ≠ 0 → (srcS64 s.team f.a.toNat 0).toNat % 4 ≠ 0 → exec (.callx f) s = trapLanes s
      { cause := 0x05, i0 := 6, i2 := (srcS64 s.team f.a.toNat 0).extractLsb' 0 32, i3 := (srcS64 s.team f.a.toNat 0).extractLsb' 32 32 } s.team.mask) ∧
    (reaches s (.call f) = true → s.team.mask ≠ 0 → s.team.stack.length < 32 → ∃ t, exec (.call f) s = .next t ∧ OnlyTeam s t ∧
      { placed s.team t.team with stack := s.team.stack } = s.team ∧ jumpedTo t.team (selfPc s.team + (immOf f).signExtend 64) ∧
      t.team.stack = { kind := .callK, save := s.team.mask, pend := 0, addr := s.team.pc + BitVec.ofNat 64 (lenOf f) } :: s.team.stack) ∧
    (reaches s (.callx f) = true → s.team.mask ≠ 0 → s.team.stack.length < 32 → (srcS64 s.team f.a.toNat 0).toNat % 4 = 0 →
      ∃ t, exec (.callx f) s = .next t ∧ OnlyTeam s t ∧ { placed s.team t.team with stack := s.team.stack } = s.team ∧
      jumpedTo t.team (srcS64 s.team f.a.toNat 0) ∧
      t.team.stack = { kind := .callK, save := s.team.mask, pend := 0, addr := s.team.pc + BitVec.ofNat 64 (lenOf f) } :: s.team.stack) ∧
    (∀ e r, reaches s .ret = true → s.team.stack = e :: r → e.kind = .callK → ∃ t, exec .ret s = .next t ∧ OnlyTeam s t ∧
      { placed s.team t.team with stack := s.team.stack, mask := s.team.mask } = s.team ∧ jumpedTo t.team e.addr ∧
      t.team.stack = r ∧ t.team.mask = e.save &&& s.team.live)

namespace Sys2Proof.Claims

/-- Lanes of the mask whose predicate, XOR the sense of B, holds (R119). -/
def chosen (t : Team) (f : Fields) : LaneSet := t.mask &&& (if f.b = 1 then ~~~(t.pred f.a.toNat) else t.pred f.a.toNat)

/-- A structured instruction went on with this mask and this stack, and changed nothing else of its team. -/
def maskAndStack (s t : State) (len : Nat) (mask : LaneSet) (stack : List Entry) : Prop :=
  OnlyTeam s t ∧ wentOn s.team t.team len ∧ { placed s.team t.team with mask := s.team.mask, stack := s.team.stack } = s.team ∧
  t.team.mask = mask ∧ t.team.stack = stack

end Sys2Proof.Claims

/-- R119: `if`, `else`, `endif`, `loop`, `endloop`, `break` and `cont` change the mask and the mask stack as the rule's pseudocode says. -/
def Sys2Proof.Claims.StructuredControl : Prop :=
  ∀ (f : Fields) (s : State),
    (reaches s (.ifP f) = true → s.team.stack.length < 32 → ∃ t, exec (.ifP f) s = .next t ∧
      maskAndStack s t (lenOf f) (chosen s.team f)
        ({ kind := .ifK, save := s.team.mask, pend := s.team.mask &&& ~~~(chosen s.team f), addr := 0 } :: s.team.stack)) ∧
    (∀ e r, reaches s .elseP = true → s.team.stack = e :: r → e.kind = .ifK → ∃ t, exec .elseP s = .next t ∧
      maskAndStack s t 4 e.pend ({ e with kind := .elseK, pend := 0 } :: r)) ∧
    (∀ e r, reaches s .endifP = true → s.team.stack = e :: r → e.kind = .ifK ∨ e.kind = .elseK → ∃ t, exec .endifP s = .next t ∧
      maskAndStack s t 4 (e.save &&& s.team.live) r) ∧
    (reaches s .loopP = true → s.team.stack.length < 32 → ∃ t, exec .loopP s = .next t ∧
      maskAndStack s t 4 s.team.mask ({ kind := .loopK, save := s.team.mask, pend := 0, addr := s.team.pc + 4 } :: s.team.stack)) ∧
    (∀ e r, reaches s .endloopP = true → s.team.stack = e :: r → e.kind = .loopK → (s.team.mask ||| e.pend) &&& s.team.live ≠ 0 →
      ∃ t, exec .endloopP s = .next t ∧ OnlyTeam s t ∧ { placed s.team t.team with mask := s.team.mask, stack := s.team.stack } = s.team ∧
        jumpedTo t.team e.addr ∧ t.team.mask = (s.team.mask ||| e.pend) &&& s.team.live ∧ t.team.stack = { e with pend := 0 } :: r) ∧
    (∀ e r, reaches s .endloopP = true → s.team.stack = e :: r → e.kind = .loopK → (s.team.mask ||| e.pend) &&& s.team.live = 0 →
      ∃ t, exec .endloopP s = .next t ∧ maskAndStack s t 4 (e.save &&& s.team.live) r) ∧
    (∀ above e r, reaches s (.breakP f) = true → s.team.stack = above ++ e :: r → (∀ x ∈ above, x.kind = .ifK ∨ x.kind = .elseK) → e.kind = .loopK →
      ∃ t, exec (.breakP f) s = .next t ∧ maskAndStack s t (lenOf f) (s.team.mask &&& ~~~(chosen s.team f))
        (above.map (fun x => { x with save := x.save &&& ~~~(chosen s.team f), pend := x.pend &&& ~~~(chosen s.team f) }) ++ e :: r)) ∧
    (∀ above e r, reaches s (.contP f) = true → s.team.stack = above ++ e :: r → (∀ x ∈ above, x.kind = .ifK ∨ x.kind = .elseK) → e.kind = .loopK →
      ∃ t, exec (.contP f) s = .next t ∧ maskAndStack s t (lenOf f) (s.team.mask &&& ~~~(chosen s.team f))
        (above.map (fun x => { x with save := x.save &&& ~~~(chosen s.team f), pend := x.pend &&& ~~~(chosen s.team f) }) ++
          { e with pend := e.pend ||| chosen s.team f } :: r))

namespace Sys2Proof.Claims

/-- Number of the top entry's kind, 0 for an empty stack (R120). -/
def topNum : List Entry → Nat
  | [] => 0
  | e :: _ => match e.kind with
    | .ifK => 1
    | .elseK => 2
    | .loopK => 3
    | .callK => 4
    | .fnK => 5

/-- The Mask Stack trap of a stack (R120). -/
def stackTrapOf (reason : Nat) (st : List Entry) : Trap :=
  { cause := 0x04, i0 := BitVec.ofNat 32 reason, i1 := BitVec.ofNat 32 st.length, i2 := BitVec.ofNat 32 (topNum st) }

/-- The instructions that need an entry on top, and the kinds that serve (R119). -/
def topRows : List (Instr × List EKind) :=
  [(.elseP, [.ifK]), (.endifP, [.ifK, .elseK]), (.endloopP, [.loopK]), (.ret, [.callK])]

end Sys2Proof.Claims

/-- R118, R119, R120: a 33rd entry takes the Mask Stack trap with reason 1; an `else`, `endif`, `endloop` or `ret` on an empty stack or below an entry of another kind, and
a `break` or `cont` with no LOOP entry before the first CALL or FN entry, takes it with reason 2. The depth stands in %tinfo1, the kind of the top entry in %tinfo2. -/
def Sys2Proof.Claims.MaskStackTraps : Prop :=
  (∀ (f : Fields) (s : State), 32 ≤ s.team.stack.length →
    (∀ i ∈ [.ifP f, .loopP], reaches s i = true → exec i s = trapLanes s (stackTrapOf 1 s.team.stack) s.team.mask) ∧
    (reaches s (.call f) = true → s.team.mask ≠ 0 → exec (.call f) s = trapLanes s (stackTrapOf 1 s.team.stack) s.team.mask) ∧
    (reaches s (.callx f) = true → s.team.mask ≠ 0 → (srcS64 s.team f.a.toNat 0).toNat % 4 = 0 →
      exec (.callx f) s = trapLanes s (stackTrapOf 1 s.team.stack) s.team.mask)) ∧
  (∀ (s : State), ∀ p ∈ topRows, reaches s p.1 = true →
    (s.team.stack = [] ∨ ∃ e r, s.team.stack = e :: r ∧ e.kind ∉ p.2) → exec p.1 s = trapLanes s (stackTrapOf 2 s.team.stack) s.team.mask) ∧
  (∀ (f : Fields) (s : State) (above rest : List Entry), s.team.stack = above ++ rest → (∀ x ∈ above, x.kind = .ifK ∨ x.kind = .elseK) →
    (rest = [] ∨ ∃ e r, rest = e :: r ∧ (e.kind = .callK ∨ e.kind = .fnK)) → ∀ i ∈ [.breakP f, .contP f], reaches s i = true →
      exec i s = trapLanes s (stackTrapOf 2 s.team.stack) s.team.mask)

/-- R121, R126, R210, R263, R320: when nothing of the team is left to release, `exit` takes its present lanes out of the mask, the live lanes and every stack entry,
the team ends when no lane is left, no forked stream of it runs and its matrix queue is empty, and the block has released; with no present lane it changes nothing. -/
def Sys2Proof.Claims.ExitLeavesLanes : Prop :=
  ∀ (f : Fields) (s : State), reaches s (.exit f) = true → s.team.status = .live →
    (presentSet s.team (modOf .x f) = 0 → ∃ t, exec (.exit f) s = .next t ∧ OnlyTeam s t ∧ placed s.team t.team = s.team ∧ wentOn s.team t.team (lenOf f)) ∧
    (quiet s → presentSet s.team (modOf .x f) ≠ 0 → ∃ t, exec (.exit f) s = .next t ∧ sameMem s t ∧
      { placed s.team t.team with mask := s.team.mask, live := s.team.live, stack := s.team.stack, status := s.team.status } = s.team ∧
      t.team.mask = s.team.mask &&& ~~~(presentSet s.team (modOf .x f)) ∧ t.team.live = s.team.live &&& ~~~(presentSet s.team (modOf .x f)) ∧
      t.team.stack = s.team.stack.map (fun e => { e with save := e.save &&& ~~~(presentSet s.team (modOf .x f)), pend := e.pend &&& ~~~(presentSet s.team (modOf .x f)) }) ∧
      (s.team.live &&& ~~~(presentSet s.team (modOf .x f)) ≠ 0 → t.team.status = .live ∧ wentOn s.team t.team (lenOf f)) ∧
      (s.team.live &&& ~~~(presentSet s.team (modOf .x f)) = 0 → t.team.clause = none ∧ t.team.rep = 0 ∧ t.team.inRep = none ∧
        ((∀ e k, s.team.stream e = some k → k.ended = true) → s.team.matQ = [] → t.team.status = .ended) ∧
        ((∃ e k, s.team.stream e = some k ∧ k.ended = false) ∨ s.team.matQ ≠ [] → t.team.status = .live)) ∧
      (t.blockAt s.team.block).released = true)

/-- R122, R123: `yield` waits for the ready teams of its partition that there are, `sleep` until the clock has passed the operand's cycles, at most
2^20; both go on at the next instruction. The expiry of a sleep that has run out ends the wait. -/
def Sys2Proof.Claims.YieldAndSleep : Prop :=
  (∀ (f : Fields) (s : State), reaches s (.yield f) = true → ∃ t, exec (.yield f) s = .next t ∧ OnlyTeam s t ∧ wentOn s.team t.team (lenOf f) ∧
    { placed s.team t.team with wait := s.team.wait } = s.team ∧
    t.team.wait = if otherReady s s.cur = [] then s.team.wait else .yielded (otherReady s s.cur)) ∧
  (∀ (f : Fields) (s : State), reaches s (.sleep f) = true → ∃ t, exec (.sleep f) s = .next t ∧ OnlyTeam s t ∧ wentOn s.team t.team (lenOf f) ∧
    { placed s.team t.team with wait := s.team.wait } = s.team ∧
    (0 < (srcS s.team f.a.toNat (immOf f)).toNat → t.team.wait = .sleep (s.cc + min (srcS s.team f.a.toNat (immOf f)).toNat 1048576)) ∧
    ((srcS s.team f.a.toNat (immOf f)).toNat = 0 → t.team.wait = s.team.wait)) ∧
  (∀ (s : State) (till : Nat), (s.teamAt s.ev.x).wait = .sleep till → till ≤ s.cc → ∃ t, exec .sleepExpiry s = .next t ∧ sameMem s t ∧
    (t.teamAt s.ev.x).wait = .none ∧ { t.teamAt s.ev.x with wait := (s.teamAt s.ev.x).wait, sched := (s.teamAt s.ev.x).sched } = s.teamAt s.ev.x)

/-- R124, R126: `fork` gives the named sequencer a stream at its target with the mask of the moment; a second fork of an open stream takes the Control Order
trap with reason 4. `rdv` in the team waits for an open stream, joins one that has ended, and goes on where there is none; in its own stream it ends the stream. -/
def Sys2Proof.Claims.ForkAndJoin : Prop :=
  ∀ (f : Fields) (s : State),
    (reaches s (.fork f) = true → s.team.stream (engOf f) = none → ∃ t, exec (.fork f) s = .next t ∧ OnlyTeam s t ∧ wentOn s.team t.team (lenOf f) ∧
      { placed s.team t.team with streamA := s.team.streamA, streamC := s.team.streamC } = s.team ∧
      t.team.stream (engOf f) = some { pc := selfPc s.team + (immOf f).signExtend 64, clause := none, mask := s.team.mask, rep := 0, inRep := none, wait := .none, ended := false } ∧
      ∀ e, e ≠ engOf f → t.team.stream e = s.team.stream e) ∧
    (∀ k, reaches s (.fork f) = true → s.team.stream (engOf f) = some k →
      exec (.fork f) s = trapLanes s { cause := 0x05, i0 := 4, i1 := if f.b = 0 then 0 else 1 } s.team.mask) ∧
    (reaches s (.rdv f) = true → s.curStream = none → s.team.stream (engOf f) = none → ∃ t, exec (.rdv f) s = .next t ∧ OnlyTeam s t ∧
      placed s.team t.team = s.team ∧ wentOn s.team t.team (lenOf f)) ∧
    (∀ k, reaches s (.rdv f) = true → s.curStream = none → s.team.stream (engOf f) = some k → k.ended = true → ∃ t, exec (.rdv f) s = .next t ∧ OnlyTeam s t ∧
      wentOn s.team t.team (lenOf f) ∧ t.team.stream (engOf f) = none ∧ { placed s.team t.team with streamA := s.team.streamA, streamC := s.team.streamC } = s.team) ∧
    (∀ k, reaches s (.rdv f) = true → s.curStream = none → s.team.stream (engOf f) = some k → k.ended = false →
      exec (.rdv f) s = .next (s.setTeam { s.team with wait := .rdv (engOf f) })) ∧
    (∀ e k, reaches s (.rdv f) = true → s.curStream = some e → s.team.stream (engOf f) = some k → ∃ t, exec (.rdv f) s = .next t ∧ OnlyTeam s t ∧
      t.team.stream (engOf f) = some { k with ended := true })

namespace Sys2Proof.Claims

/-- Every participant of a barrier that has not ended is on a list of arrivals (R127). -/
def allArrived (s : State) (bid lvl : Nat) (a : List Nat) : Prop :=
  ∀ k ∈ barrierBlocks s bid lvl, ∀ p ∈ s.teams, p.2.block = k → p.2.status ≠ .ended → p.1 ∈ a

/-- The team has arrived at the open generation of a level's barrier (R127): its outstanding arrival names the generation, the barrier lists it last, and
notes it as the one that completed the generation when it did (R128). -/
def arrivedAt (s t : State) (l : Lvl) : Prop :=
  (allArrived s s.team.block (lvlNum l) ((barrierOf s l).arrived ++ [s.cur]) → (barrierOf t l).last = s.cur + 1) ∧
  (¬allArrived s s.team.block (lvlNum l) ((barrierOf s l).arrived ++ [s.cur]) → (barrierOf t l).last = 0) ∧
  kGet (lvlNum l) t.team.arrivals = some (barrierOf s l).gen ∧ (barrierOf t l).gen = (barrierOf s l).gen ∧
  (barrierOf t l).arrived = (barrierOf s l).arrived ++ [s.cur] ∧ (t.blockAt s.team.block).released = true

/-- Frame of the barrier instructions: nothing of the team changes but its outstanding arrivals and its wait, and no byte of memory. -/
def barrierFrame (s t : State) : Prop :=
  sameMem s t ∧ { placed s.team t.team with arrivals := s.team.arrivals, wait := s.team.wait } = s.team

end Sys2Proof.Claims

/-- R127, R128: with nothing left to release, `bara` arrives and goes on; `bar` arrives and waits for its generation; `bare` does the same and will write the
election to its predicate; `barw` waits for the generation of the outstanding arrival. -/
def Sys2Proof.Claims.BarrierArrivals : Prop :=
  ∀ (l : Lvl) (f : Fields) (s : State), levelOk s l →
    (reaches s (.bara l f) = true → quiet s → kGet (lvlNum l) s.team.arrivals = none → ∃ t, exec (.bara l f) s = .next t ∧
      wentOn s.team t.team (lenOf f) ∧ arrivedAt s t l ∧ barrierFrame s t ∧ t.team.wait = s.team.wait) ∧
    (reaches s (.bar l f) = true → quiet s → kGet (lvlNum l) s.team.arrivals = none → ∃ t, exec (.bar l f) s = .next t ∧
      wentOn s.team t.team (lenOf f) ∧ arrivedAt s t l ∧ barrierFrame s t ∧ t.team.wait = .barrier l (barrierOf s l).gen none) ∧
    (reaches s (.bare l f) = true → quiet s → kGet (lvlNum l) s.team.arrivals = none → (s.gridAt s.team.grid).replay = false →
      ∃ t, exec (.bare l f) s = .next t ∧ wentOn s.team t.team (lenOf f) ∧ arrivedAt s t l ∧ barrierFrame s t ∧
      t.team.wait = .barrier l (barrierOf s l).gen (some f.d.toNat)) ∧
    (∀ g, reaches s (.barw l f) = true → kGet (lvlNum l) s.team.arrivals = some g → (barrierOf s l).gen ≤ g → ∃ t, exec (.barw l f) s = .next t ∧
      OnlyTeam s t ∧ wentOn s.team t.team (lenOf f) ∧ barrierFrame s t ∧ t.team.arrivals = s.team.arrivals ∧ t.team.wait = .barrier l g none) ∧
    (∀ g, reaches s (.barw l f) = true → kGet (lvlNum l) s.team.arrivals = some g → g < (barrierOf s l).gen → ∃ t, exec (.barw l f) s = .next t ∧
      wentOn s.team t.team (lenOf f) ∧ barrierFrame s t ∧ kGet (lvlNum l) t.team.arrivals = none ∧ t.team.wait = s.team.wait ∧
      (lvlNum l ≠ 0 → ∀ line x, (line, x) ∈ (t.coreAt s.team.core).l1 → x.expired = true ∨ x.own = true))

/-- R129, R133: a level above the launch's cohort level takes the Control Order trap with reason 3, a second arrival without a wait with reason 1, a wait without an
arrival with reason 2; the level stands in %tinfo1. -/
def Sys2Proof.Claims.BarrierTraps : Prop :=
  ∀ (l : Lvl) (f : Fields) (s : State),
    (¬levelOk s l → ∀ i ∈ [.bara l f, .barw l f, .bar l f, .bare l f], reaches s i = true →
      exec i s = trapLanes s { cause := 0x05, i0 := 3, i1 := BitVec.ofNat 32 (lvlNum l) } s.team.mask) ∧
    (levelOk s l → (∃ g, kGet (lvlNum l) s.team.arrivals = some g) → ∀ i ∈ [.bara l f, .bar l f], reaches s i = true →
      exec i s = trapLanes s { cause := 0x05, i0 := 1, i1 := BitVec.ofNat 32 (lvlNum l) } s.team.mask) ∧
    (levelOk s l → kGet (lvlNum l) s.team.arrivals = none → reaches s (.barw l f) = true →
      exec (.barw l f) s = trapLanes s { cause := 0x05, i0 := 2, i1 := BitVec.ofNat 32 (lvlNum l) } s.team.mask)

namespace Sys2Proof.Claims

/-- The participants of a generation that may be elected: the teams that arrived at core level, above it their blocks; and their logical index (R128). -/
def mayBeElected (s : State) (lvl : Nat) (b : Barrier) (w : Nat) : Prop := ∃ tid ∈ b.arrived, w = if lvl = 0 then tid else (s.teamAt tid).block
def logicalIndex (s : State) (lvl w : Nat) : Nat := if lvl = 0 then (s.teamAt w).index else (s.blockAt w).idx

/-- The choice of R128: in a deterministic launch, and where a participant's end completed the generation, the one of highest logical index; else the one
whose arrival completed it. -/
def electedRight (s : State) (lvl : Nat) (det : Bool) (b : Barrier) (w : Nat) : Prop :=
  (det = true ∨ b.last = 0 → mayBeElected s lvl b w ∧ ∀ v, mayBeElected s lvl b v → logicalIndex s lvl v ≤ logicalIndex s lvl w) ∧
  (det = false → b.last ≠ 0 → w = if lvl = 0 then b.last - 1 else (s.teamAt (b.last - 1)).block) ∧
  (b.last = 0 ∨ b.last - 1 ∈ b.arrived → mayBeElected s lvl b w)

end Sys2Proof.Claims

/-- R127, R128: once every team of the barrier's blocks that has not ended has arrived, the generation completes: the barrier opens the next one, one of those that arrived is
elected as R128 says, every team that waits for the old one is free, its outstanding arrival is gone, and the predicate of a `bare` is true in its active lanes exactly where the
team, or above core level its block, is the elected one. In a deterministic launch a generation above core level stays open while the phase that some block's arrival ended, or the
last phase of a block that ended with no lower block waiting at it, is not released (R373). -/
def Sys2Proof.Claims.BarrierGenerationCompletes : Prop :=
  (∀ (s : State) (b : Barrier), b = s.barrierAt (barrierKey s s.ev.y s.ev.x) → (s.gridAt (s.blockAt s.ev.y).grid).det = true → s.ev.x ≠ 0 →
    (∃ k p, k ∈ barrierBlocks s s.ev.y s.ev.x ∧ (s.blockAt k).relPhase ≤ p ∧ (kGet k b.phases = some p ∨ (kGet k b.phases = none ∧ p = (s.blockAt k).phase ∧
      ∀ j ∈ barrierBlocks s s.ev.y s.ev.x, (s.blockAt j).idx < (s.blockAt k).idx → kGet j b.phases = none))) →
    ∃ t, exec .barrierGenerationComplete s = .next t ∧ (t.barrierAt (barrierKey s s.ev.y s.ev.x)).gen = b.gen ∧
      (t.barrierAt (barrierKey s s.ev.y s.ev.x)).arrived = b.arrived ∧ (t.barrierAt (barrierKey s s.ev.y s.ev.x)).phases = b.phases) ∧
  ∀ (s : State) (b : Barrier), s.ev.x ≤ 4 → b = s.barrierAt (barrierKey s s.ev.y s.ev.x) → b.arrived ≠ [] →
    ((s.gridAt (s.blockAt s.ev.y).grid).det = false ∨ s.ev.x = 0 ∨ ∀ k ∈ barrierBlocks s s.ev.y s.ev.x, (kGet k b.phases = none ∧ (s.blockAt k).phase < (s.blockAt k).relPhase) ∨
      ∃ p, kGet k b.phases = some p ∧ p < (s.blockAt k).relPhase) → (s.gridAt (s.blockAt s.ev.y).grid).replay = false →
    allArrived s s.ev.y s.ev.x b.arrived →
    ∃ t w, exec .barrierGenerationComplete s = .next t ∧ sameMem s t ∧
      (t.barrierAt (barrierKey s s.ev.y s.ev.x)).gen = b.gen + 1 ∧ (t.barrierAt (barrierKey s s.ev.y s.ev.x)).arrived = [] ∧
      kGet b.gen (t.barrierAt (barrierKey s s.ev.y s.ev.x)).elected = some w ∧ electedRight s s.ev.x (s.gridAt (s.blockAt s.ev.y).grid).det b w ∧
      ∀ tid u e, kGet tid s.teams = some u → u.block ∈ barrierBlocks s s.ev.y s.ev.x → u.wait = .barrier (lvlOf s.ev.x) b.gen e →
        (t.teamAt tid).wait = .none ∧ kGet s.ev.x (t.teamAt tid).arrivals = none ∧
        ∀ d, e = some d → d ≠ 31 → kSorted s.teams → barrierKey s u.block s.ev.x = barrierKey s s.ev.y s.ev.x → ∀ p l, l < 1024 →
          ((t.teamAt tid).pred p).getLsbD l = if p = d ∧ u.mask.getLsbD l = true
            then decide (w = if s.ev.x = 0 then tid else u.block) else (u.pred p).getLsbD l

/-- R131: `trap` takes the Software trap with its immediate word in %tinfo0 and the word after the clause in %tpc. `chkw` with every entry resolved clears the
team's watch entries, and branches to its label exactly when one was struck (R132). -/
def Sys2Proof.Claims.SoftwareTrapAndWatchCheck : Prop :=
  ∀ (f : Fields) (s : State),
    (reaches s (.trap f) = true → s.team.trap.sup = false → s.team.trap.tvec ≠ 0 → (s.partAt s.team.partNo).sfuQ = [] →
      ∃ t, exec (.trap f) s = .next t ∧ sameMem s t ∧ t.team.pc = s.team.trap.tvec ∧ t.team.trap.sup = true ∧ t.team.trap.tcause = 0x06 ∧
        t.team.trap.tinfo0 = immOf f ∧ t.team.trap.tpc = s.team.pc + BitVec.ofNat 64 (lenOf f) ∧ t.team.trap.tmask = s.team.mask ∧
        t.team.mask = s.team.mask ∧ t.team.clause = none ∧ t.team.rep = 0) ∧
    (reaches s (.chkw f) = true → s.team.mask ≠ 0 → releaseGate s s.cur = .clear → ∃ t, exec (.chkw f) s = .next t ∧ sameMem s t ∧
      wentOn s.team t.team (lenOf f) ∧ placed s.team t.team = s.team ∧ ∀ w ∈ (t.coreAt s.team.core).watch, w.tid ≠ s.cur) ∧
    (reaches s (.chkw f) = true → s.team.mask ≠ 0 → releaseGate s s.cur = .struck → ∃ t, exec (.chkw f) s = .next t ∧ sameMem s t ∧
      jumpedTo t.team (selfPc s.team + (immOf f).signExtend 64) ∧ { placed s.team t.team with struck := s.team.struck } = s.team ∧
      t.team.struck = false ∧ ∀ w ∈ (t.coreAt s.team.core).watch, w.tid ≠ s.cur) ∧
    (reaches s (.chkw f) = true → releaseGate s s.cur = .wait → exec (.chkw f) s = .next (s.setTeam { s.team with wait := .watch }))

/-- R130: `tail` keeps the 64 bytes at its address, as the core reads them, with its grid; a misaligned address takes the Control Order trap with reason 7, a 257th
record with reason 5. -/
def Sys2Proof.Claims.TailRecords : Prop :=
  ∀ (f : Fields) (s : State), reaches s (.tail f) = true →
    ((srcS64 s.team f.a.toNat 0).toNat % 64 ≠ 0 → exec (.tail f) s = trapLanes s { cause := 0x05, i0 := 7 } s.team.mask) ∧
    ((srcS64 s.team f.a.toNat 0).toNat % 64 = 0 → 256 ≤ (s.gridAt s.team.grid).tails.length →
      exec (.tail f) s = trapLanes s { cause := 0x05, i0 := 5 } s.team.mask) ∧
    (∀ pa lease cls r q d, (srcS64 s.team f.a.toNat 0).toNat % 64 = 0 → (s.gridAt s.team.grid).tails.length < 256 → (s.gridAt s.team.grid).failed = false →
      checkGlobal s s.cur (srcS64 s.team f.a.toNat 0).toNat 1 wantRead = .ok none pa lease cls → poisonIn s pa 64 = false → quiet s →
      (s.blockAt s.team.block).staged = [] → performRelease s s.cur (s.gridAt s.team.grid).lrec.cscope = some r →
      loadLine r s.team.core (pa / 64) lease = some (q, d) →
      ∃ t, exec (.tail f) s = .next t ∧ wentOn s.team t.team (lenOf f) ∧ placed s.team t.team = s.team ∧
        (t.gridAt s.team.grid).tails = (q.gridAt s.team.grid).tails ++
          [{ block := (q.blockAt s.team.block).idx, seq := (q.gridAt s.team.grid).tails.length, bytes := lineBytes d }])

/-! ### Traps -/

/-- R271, R273, R275: taking a trap in user mode with a handler set: the save area takes s56-s63, the interrupted clause's header, the latch pointer and reads, the stack
depth, %rep, the mask, and v80-v87 and the latch values of every lane; %tpc, %tcause, %tinfo0-3 and %tmask take the trap; %rep is 0, the mask becomes the involved lanes, the
mode supervisor, and execution goes on at %tvec. Other registers and memory keep their values. -/
def Sys2Proof.Claims.TrapEntry : Prop :=
  ∀ (s : State) (tr : Trap) (lanes : LaneSet), s.curStream = none → s.team.trap.sup = false → s.team.trap.tvec ≠ 0 →
    (s.partAt s.team.partNo).sfuQ = [] → s.team.warps ≤ 32 → s.team.latch.ptr < 4 → s.team.latch.v0 < 4 → s.team.latch.v1 < 4 → s.team.latch.v2 < 4 →
    ∃ t, trapLanes s tr lanes = .next t ∧ sameMem s t ∧
      t.team.trap = { s.team.trap with
        sup := true, tpc := s.team.pc, tcause := BitVec.ofNat 32 tr.cause, tinfo0 := tr.i0, tinfo1 := tr.i1, tinfo2 := tr.i2, tinfo3 := tr.i3
        tmask := lanes, tpcWritten := false, savedClause := s.team.clause, savedWait := s.team.wait } ∧
      t.team.pc = s.team.trap.tvec ∧ t.team.mask = lanes ∧ t.team.rep = 0 ∧ t.team.clause = none ∧
      { t.team with
        trap := s.team.trap, pc := s.team.pc, mask := s.team.mask, rep := s.team.rep, inRep := s.team.inRep, clause := s.team.clause
        wait := s.team.wait, xlat := s.team.xlat, walkFault := s.team.walkFault } = s.team ∧
      (∀ i, i < 8 → stashWord t s.team.block (saveOff s s.team + 4 * i) = (s.team.sreg (56 + i)).toNat) ∧
      (∀ w, w < 32 → stashWord t s.team.block (saveOff s s.team + 0x80 + 4 * w) = (laneWord s.team.mask w).toNat) ∧
      (∀ l i, l < s.team.lanes → i < 8 → s.team.viewV.toNat + 4 * (80 + i) + 4 ≤ s.team.regBytes →
        stashWord t s.team.block (saveOff s s.team + 256 + 44 * l + 4 * i) = (s.team.word (s.team.vWord (80 + i)) l).toNat) ∧
      (∀ l e, l < s.team.lanes → e < 3 → stashWord t s.team.block (saveOff s s.team + 256 + 44 * l + 32 + 4 * e) = (heldVal s.team.latch e l).toNat) ∧
      leNat (stashRead t s.team.block (saveOff s s.team + 0x20) 8) = (match s.team.clause with
        | some c => c.hdr.toNat
        | none => 0) ∧
      leNat (stashRead t s.team.block (saveOff s s.team + 0x28) 1) = s.team.latch.ptr + (if s.team.clause = none then 4 else 0) ∧
      leNat (stashRead t s.team.block (saveOff s s.team + 0x29) 1) = s.team.latch.v0 + 4 * s.team.latch.v1 + 16 * s.team.latch.v2 ∧
      leNat (stashRead t s.team.block (saveOff s s.team + 0x2A) 2) = s.team.stack.length % 65536 ∧
      leNat (stashRead t s.team.block (saveOff s s.team + 0x2C) 1) = s.team.rep.toNat

/-- R272, R276, R33: a trap taken in supervisor mode, or with no handler (`%tvec` 0), ends the team by fault, whether it is of the instruction at hand or one that stood pending: the team
is ended without live lanes, its grid fails and loses its tail records, its die's log records the team with its cause and pc.
Readings and choices of the model's own: log entry 25. -/
def Obligations.TrapWithoutHandlerEndsTeam : Prop :=
  (∀ (s : State) (tr : Trap) (lanes : LaneSet), s.curStream = none → (s.team.trap.sup = true ∨ s.team.trap.tvec = 0) →
    ∃ t, trapLanes s tr lanes = .next t ∧ sameMem s t ∧ t.team.status = .ended ∧ t.team.live = 0 ∧ t.team.trap.tcause = BitVec.ofNat 32 tr.cause ∧
      t.team.trap.tpc = s.team.pc ∧ (t.gridAt s.team.grid).failed = true ∧ (t.gridAt s.team.grid).tails = [] ∧
      .teamFault s.team.grid (s.blockAt s.team.block).idx s.team.index (BitVec.ofNat 32 tr.cause) s.team.pc ∈ (t.dieAt (dieOf s.team.core)).log) ∧
  (∀ (s : State) (tid : Nat) (tr : Trap) (lanes : LaneSet) (tpc : DWord) (strm : Bool), ((s.teamAt tid).trap.sup = true ∨ (s.teamAt tid).trap.tvec = 0) →
    ∃ t, enterTrap s tid tr lanes tpc strm = t ∧ sameMem s t ∧ (t.teamAt tid).status = .ended ∧ (t.teamAt tid).live = 0 ∧ (t.teamAt tid).trap.tpc = tpc ∧
      (t.gridAt (s.teamAt tid).grid).failed = true ∧ (t.gridAt (s.teamAt tid).grid).tails = [])

/-- R75, R76: before any effect, and whatever the mask and the guard, an instruction that fails check 3 takes the Illegal Instruction trap, and one that fails check 4 or 5
the Illegal Operand trap, in every active lane. -/
def Sys2Proof.Claims.EncodingChecksComeFirst : Prop :=
  ∀ (i : Instr) (s : State) (f : Form) (x : Fields), encOf i = some (f, x) → s.curStream = none →
    (check3 i f x = false → exec i s = trapLanes s { cause := 0x02 } s.team.mask) ∧
    (check3 i f x = true → placeOk s.team i f x = true →
      check4Static f x = false ∨ check4Team s.team i f x = false ∨
        (latchBad s.team (kindD f x) x.d.toNat || latchBad s.team (kindA f x) x.a.toNat || latchBad s.team (kindB f x) x.b.toNat) = true →
      exec i s = trapLanes s { cause := 0x03 } s.team.mask)

/-- R60: an instruction with a uniform guard that fails in the lowest active lane, or with no active lane, has no effect but goes on. -/
def Sys2Proof.Claims.UniformGuardSkips : Prop :=
  ∀ (i : Instr) (s : State) (f : Form) (x : Fields), encOf i = some (f, x) → streamOk s.curStream i f x = true → encodingTrap s.team i f x = none →
    f.guard = .uniform → uniformHolds s.team (modOf f.cls x) = false →
    ∃ t, exec i s = .next t ∧ OnlyTeam s t ∧ wentOn s.team t.team (lenOf x) ∧ placed s.team t.team = s.team

/-- R52: an instruction that counts on a flag which stands at 63 does not issue. -/
def Sys2Proof.Claims.FullFlagHolds : Prop :=
  ∀ (i : Instr) (s : State) (f : Form) (x : Fields) (k : Nat), encOf i = some (f, x) → streamOk s.curStream i f x = true → encodingTrap s.team i f x = none →
    (f.guard = .uniform → uniformHolds s.team (modOf f.cls x) = true) → counts s.team f (modOf f.cls x) = true → selFlag s.team (modOf f.cls x) = some k →
    63 ≤ s.team.flag k → exec i s = .next s


/-! ### System instructions -/

/-- R286, R287, R291, R292: `srr` reads a special register into scalar register D, `%tpc` and `%tvec` into the pair; `capr` reads a word of the capability list;
`phase` advances its die's phase by 1 to 127 modulo 256; an operand out of range takes the Illegal Operand trap. -/
def Sys2Proof.Claims.SystemReads : Prop :=
  ∀ (f : Fields) (s : State),
    (reaches s (.srr f) = true → ∃ t, exec (.srr f) s = .next t ∧ OnlyTeam s t ∧ wentOn s.team t.team (lenOf f) ∧
      { placed s.team t.team with sregs := s.team.sregs } = s.team ∧
      (f.a.toNat ≠ 0x20 → f.a.toNat ≠ 0x21 → scalarWritten s.team t.team f.d.toNat ((specialVal s s.team f.a.toNat 0).extractLsb' 0 32)) ∧
      (f.a.toNat = 0x20 → f.d.toNat < 64 → t.team.spair f.d.toNat = s.team.trap.tpc) ∧
      (f.a.toNat = 0x21 → f.d.toNat < 64 → t.team.spair f.d.toNat = s.team.trap.tvec) ∧
      (f.a.toNat = 0x20 ∨ f.a.toNat = 0x21 → ∀ n, n < 64 → ¬(f.d.toNat < 64 ∧ (n = f.d.toNat ∨ n = f.d.toNat + 1)) →
        t.team.sreg n = s.team.sreg n)) ∧
    (reaches s (.capr f) = true → (immOf f).toNat % 4 = 0 → (immOf f).toNat < 0x1000 → ∃ t, exec (.capr f) s = .next t ∧ OnlyTeam s t ∧
      wentOn s.team t.team (lenOf f) ∧ { placed s.team t.team with sregs := s.team.sregs } = s.team ∧
      scalarWritten s.team t.team f.d.toNat (capWord s (immOf f).toNat)) ∧
    (reaches s (.capr f) = true → (immOf f).toNat % 4 ≠ 0 ∨ 0x1000 ≤ (immOf f).toNat → exec (.capr f) s = trapLanes s { cause := 0x03 } s.team.mask) ∧
    (reaches s (.phase f) = true → (srcS s.team f.a.toNat (immOf f)).toNat ≤ 254 → ∃ t, exec (.phase f) s = .next t ∧ sameMem s t ∧
      wentOn s.team t.team (lenOf f) ∧ placed s.team t.team = s.team ∧
      (t.dieAt (dieOf s.team.core)).phase =
        (if 1 ≤ ((srcS s.team f.a.toNat (immOf f)).toNat + 256 - (s.dieAt (dieOf s.team.core)).phase) % 256 ∧
            ((srcS s.team f.a.toNat (immOf f)).toNat + 256 - (s.dieAt (dieOf s.team.core)).phase) % 256 ≤ 127
          then (srcS s.team f.a.toNat (immOf f)).toNat else (s.dieAt (dieOf s.team.core)).phase) ∧
      (∀ c line, line ∈ (s.coreAt c).evictQ → line ∈ (t.coreAt c).evictQ) ∧
      ∀ d, d ≠ dieOf s.team.core → t.dieAt d = s.dieAt d) ∧
    (reaches s (.phase f) = true → 254 < (srcS s.team f.a.toNat (immOf f)).toNat → exec (.phase f) s = trapLanes s { cause := 0x03 } s.team.mask)

/-- R287: `srw` of `%fmode`, `%est` or a format register takes effect in either mode, of `%rep`, `%tpc` or `%tvec` in supervisor mode; the register takes the value and
no other register changes. -/
def Sys2Proof.Claims.SpecialRegisterWrites : Prop :=
  ∀ (f : Fields) (s : State), reaches s (.srw f) = true →
    (f.d.toNat = 0x0F ∨ f.d.toNat = 0x20 ∨ f.d.toNat = 0x21 → s.team.trap.sup = true) →
    (f.d.toNat = 0x10 → (srcS s.team f.a.toNat (immOf f)).toNat ≤ 4) →
    (f.d.toNat = 0x0F → (srcS s.team f.a.toNat (immOf f)).toNat < 128) →
    (0x15 ≤ f.d.toNat → f.d.toNat ≤ 0x18 → srcS s.team f.a.toNat (immOf f) = 0 ∨ nfValid (srcS s.team f.a.toNat (immOf f)) = true) →
    (f.d.toNat = 0x20 ∨ f.d.toNat = 0x21 → (srcS64 s.team f.a.toNat (immOf f)).toNat % 4 = 0) →
    ∃ t, exec (.srw f) s = .next t ∧ OnlyTeam s t ∧
      { t.team with
        pc := s.team.pc, clause := s.team.clause, inRep := s.team.inRep, rep := s.team.rep, latch := s.team.latch, sched := s.team.sched
        xlat := s.team.xlat, walkFault := s.team.walkFault, fmode := s.team.fmode, est := s.team.est, nf0 := s.team.nf0, nf1 := s.team.nf1
        nf2 := s.team.nf2, nf3 := s.team.nf3, trap := s.team.trap } = s.team ∧
      (f.d.toNat ≠ 0x0F → wentOn s.team t.team (lenOf f)) ∧
      (f.d.toNat = 0x0F → s.team.inRep = none → t.team.rep = (srcS s.team f.a.toNat (immOf f)).extractLsb' 0 7) ∧
      t.team.fmode = (if f.d.toNat = 0x10 then srcS s.team f.a.toNat (immOf f) else s.team.fmode) ∧
      t.team.est = (if f.d.toNat = 0x11 then srcS s.team f.a.toNat (immOf f) else s.team.est) ∧
      t.team.nf0 = (if f.d.toNat = 0x15 then srcS s.team f.a.toNat (immOf f) else s.team.nf0) ∧
      t.team.nf1 = (if f.d.toNat = 0x16 then srcS s.team f.a.toNat (immOf f) else s.team.nf1) ∧
      t.team.nf2 = (if f.d.toNat = 0x17 then srcS s.team f.a.toNat (immOf f) else s.team.nf2) ∧
      t.team.nf3 = (if f.d.toNat = 0x18 then srcS s.team f.a.toNat (immOf f) else s.team.nf3) ∧
      t.team.trap = (if f.d.toNat = 0x20 then { s.team.trap with tpc := srcS64 s.team f.a.toNat (immOf f), tpcWritten := true }
        else if f.d.toNat = 0x21 then { s.team.trap with tvec := srcS64 s.team f.a.toNat (immOf f) } else s.team.trap)

namespace Sys2Proof.Claims

/-- R43, R286: the special registers that a single read gives whole, by code, and what each holds: the team and block indices, the core's place by R7, the state that `seg`, `srw`,
the launch and the traps leave, the flags of `%sstat`, the save area by R275, and the queue's place. -/
def specialWords (s : State) : List (Nat × Word) :=
  let t := s.team
  let g := s.gridAt t.grid
  let b := s.blockAt t.block
  let z := 256 + 64 * ((44 * t.lanes + 63) / 64)
  [(0x01, BitVec.ofNat 32 t.index), (0x02, BitVec.ofNat 32 (b.idx % g.lrec.gx)),
   (0x03, BitVec.ofNat 32 (b.idx / g.lrec.gx % g.lrec.gy)), (0x04, BitVec.ofNat 32 (b.idx / (g.lrec.gx * g.lrec.gy))),
   (0x05, BitVec.ofNat 32 g.lrec.gx), (0x06, BitVec.ofNat 32 g.lrec.gy), (0x07, BitVec.ofNat 32 g.lrec.gz),
   (0x08, BitVec.ofNat 32 t.core), (0x09, BitVec.ofNat 32 (t.core % 48 / 4)), (0x0A, BitVec.ofNat 32 (t.core / 48)),
   (0x0B, BitVec.ofNat 32 s.plat.pkgIndex), (0x0C, BitVec.ofNat 32 t.epoch), (0x0D, (s.coreAt t.core).pts.zeroExtend 32),
   (0x0E, BitVec.ofNat 32 t.seg), (0x0F, t.rep.zeroExtend 32), (0x10, t.fmode), (0x11, t.est),
   (0x12, t.viewV), (0x13, t.viewT), (0x14, t.viewA), (0x15, t.nf0), (0x16, t.nf1), (0x17, t.nf2), (0x18, t.nf3),
   (0x22, t.trap.tcause), (0x23, t.trap.tinfo0), (0x24, t.trap.tinfo1), (0x25, t.trap.tinfo2), (0x26, t.trap.tinfo3),
   (0x30, BitVec.ofNat 32 ((if t.trap.sup then 1 else 0) + (if g.det then 2 else 0) + (if g.lrec.flags.testBit 2 then 4 else 0) + (if b.released then 8 else 0))),
   (0x31, BitVec.ofNat 32 (64 * ((b.stashBytes + 63) / 64) + t.index * z)),
   (0x32, BitVec.ofNat 32 (2 ^ 16 * g.queue + g.lrec.seq)), (0x33, BitVec.ofNat 32 g.asid),
   (0x34, BitVec.ofNat 32 (match t.sched.firstIssue with
     | some c => min (2 ^ 32 - 1) (s.cc - c - t.sched.savedTime)
     | none => 0))]

/-- R287: the registers of 32 bits or fewer that `srw` writes, by code, and the values each may take. -/
def writableWords : List (Nat × (Word → Bool)) :=
  let nf (w : Word) : Bool := w = 0 || nfValid w
  [(0x0F, fun w => w.toNat < 128), (0x10, fun w => w.toNat ≤ 4), (0x11, fun _ => true), (0x15, nf), (0x16, nf), (0x17, nf), (0x18, nf)]

end Sys2Proof.Claims

/-- R43, R145, R286, R287: `srd` and `srr` of a code read the word `specialWords` names for it; `srd` of `%tmask` reads the lane word of the warp in B, or 0 at or above the
team's warp count; what `srw` writes, the next instruction of the clause reads back with `srr`. -/
def Sys2Proof.Claims.SpecialValues : Prop :=
  ∀ (f : Fields) (s : State),
    (∀ row ∈ specialWords s, f.a.toNat = row.1 → ∀ i ∈ [Instr.srd f, .srr f], reaches s i = true →
      ∃ t, exec i s = .next t ∧ scalarWritten s.team t.team f.d.toNat row.2) ∧
    (f.a.toNat = 0x27 → reaches s (.srd f) = true → ∃ t w, exec (.srd f) s = .next t ∧ scalarWritten s.team t.team f.d.toNat w ∧
      ∀ i, i < 32 → w.getLsbD i = (decide ((srcS s.team f.b.toNat (immOf f)).toNat < s.team.warps) &&
        s.team.trap.tmask.getLsbD (32 * (srcS s.team f.b.toNat (immOf f)).toNat + i))) ∧
    (∀ row ∈ writableWords, f.d.toNat = row.1 → row.2 (srcS s.team f.a.toNat (immOf f)) = true → reaches s (.srw f) = true →
      (row.1 = 0x0F → s.team.trap.sup = true ∧ s.team.inRep = none) →
      ∃ t, exec (.srw f) s = .next t ∧ ∀ g : Fields, g.a = f.d → reaches t (.srr g) = true →
        ∃ u, exec (.srr g) t = .next u ∧ scalarWritten t.team u.team g.d.toNat (srcS s.team f.a.toNat (immOf f)))

/-- R267: in user mode `tret`, `halt`, `fmap`, `tlbinv`, and `srw` of `%rep`, `%tpc` or `%tvec`, take the Privilege trap in every active lane. -/
def Sys2Proof.Claims.PrivilegeTraps : Prop :=
  ∀ (f : Fields) (s : State), s.team.trap.sup = false →
    (∀ i ∈ [.tret, .halt f, .fmap f, .tlbinv f], reaches s i = true → exec i s = trapLanes s { cause := 0x07 } s.team.mask) ∧
    (reaches s (.srw f) = true → f.d.toNat = 0x0F ∨ f.d.toNat = 0x20 ∨ f.d.toNat = 0x21 →
      exec (.srw f) s = trapLanes s { cause := 0x07 } s.team.mask)

/-- R274, R288: `tret` in supervisor mode, with the stack depth of the entry, restores s56-s63, v80-v87, the operand latch with its reads and its pointer, the saved mask less the lanes that have exited, and leaves
supervisor mode; it resumes at `%tpc`, at a clause boundary when the handler wrote `%tpc` or the trap was taken there, else within the interrupted clause; the saved
`%rep` comes back unless the handler wrote `%tpc`. Another stack depth ends the team by fault. -/
def Sys2Proof.Claims.TrapReturn : Prop :=
  ∀ s : State, reaches s .tret = true → s.team.trap.sup = true → s.team.warps ≤ 32 →
    (leNat (stashRead s s.team.block (saveOff s s.team + 0x2A) 2) = s.team.stack.length →
      ∃ t, exec .tret s = .next t ∧ sameMem s t ∧ t.team.trap.sup = false ∧ t.team.stack = s.team.stack ∧
        (∀ i, i < 8 → (t.team.sreg (56 + i)).toNat = stashWord s s.team.block (saveOff s s.team + 4 * i)) ∧
        (∀ n, n < 56 → t.team.sreg n = s.team.sreg n) ∧
        (∀ l i, l < s.team.lanes → i < 8 → s.team.viewV.toNat + 4 * 88 ≤ s.team.regBytes →
          (t.team.word (s.team.vWord (80 + i)) l).toNat = stashWord s s.team.block (saveOff s s.team + 256 + 44 * l + 4 * i)) ∧
        (∀ q l, l < s.team.lanes → (∀ i, i < 8 → q ≠ s.team.vWord (80 + i)) → t.team.word q l = s.team.word q l) ∧
        t.team.live = s.team.live ∧
        (s.team.trap.tpcWritten = true → t.team.pc = s.team.trap.tpc ∧ t.team.clause = none ∧ t.team.rep = 0) ∧
        (s.team.trap.tpcWritten = false → leNat (stashRead s s.team.block (saveOff s s.team + 0x28) 1) / 4 % 2 = 1 →
          s.team.trap.savedClause.isSome = true ∨ (∀ target m, s.team.trap.savedWait ≠ .contDone target m) → t.team.pc = s.team.trap.tpc ∧ t.team.clause = none ∧
          t.team.rep.toNat = leNat (stashRead s s.team.block (saveOff s s.team + 0x2C) 1) % 128 ∧
          t.team.wait = if s.team.trap.savedClause.isSome = true then .none else s.team.trap.savedWait) ∧
        (s.team.trap.tpcWritten = false → leNat (stashRead s s.team.block (saveOff s s.team + 0x28) 1) / 4 % 2 = 1 →
          s.team.trap.savedClause = none → ∀ target m, s.team.trap.savedWait = .contDone target m → t.team.pc = target ∧ t.team.clause = none ∧ t.team.mask = m &&& s.team.live ∧
          t.team.rep.toNat = leNat (stashRead s s.team.block (saveOff s s.team + 0x2C) 1) % 128) ∧
        (s.team.trap.tpcWritten = false → leNat (stashRead s s.team.block (saveOff s s.team + 0x28) 1) / 4 % 2 = 0 →
          t.team.pc = s.team.trap.tpc ∧ t.team.clause = s.team.trap.savedClause ∧
          t.team.rep.toNat = leNat (stashRead s s.team.block (saveOff s s.team + 0x2C) 1) % 128) ∧
        (∀ l e, l < s.team.lanes → e < 3 →
          (heldVal t.team.latch e l).toNat = stashWord s s.team.block (saveOff s s.team + 256 + 44 * l + 32 + 4 * e)) ∧
        (∀ e, e < 3 → leNat (stashRead s s.team.block (saveOff s s.team + 0x29) 1) / 4 ^ e % 4 ≤ 2 →
          heldReads t.team.latch e = leNat (stashRead s s.team.block (saveOff s s.team + 0x29) 1) / 4 ^ e % 4) ∧
        (leNat (stashRead s s.team.block (saveOff s s.team + 0x28) 1) % 4 ≤ 2 →
          t.team.latch.ptr = leNat (stashRead s s.team.block (saveOff s s.team + 0x28) 1) % 4) ∧
        ((∀ target m, s.team.trap.savedWait ≠ .contDone target m) → ∀ w, w < 32 →
          laneWord t.team.mask w = BitVec.ofNat 32 (stashWord s s.team.block (saveOff s s.team + 0x80 + 4 * w)) &&& laneWord s.team.live w)) ∧
    (leNat (stashRead s s.team.block (saveOff s s.team + 0x2A) 2) ≠ s.team.stack.length →
      ∃ t, exec .tret s = .next t ∧ sameMem s t ∧ t.team.status = .ended ∧ (t.gridAt s.team.grid).failed = true)

/-- R289, R290, R293: in supervisor mode `halt` ends the team by fault; `fmap` enters the queue with its page and counts on its flag, or does nothing with an empty mask;
`tlbinv`, once no translated access of the named cores' teams of its context is unperformed, staged or buffered, drops the entries of the context, of one page where A names an address, from the
named cores, and no other entry. -/
def Sys2Proof.Claims.SupervisorInstructions : Prop :=
  ∀ (f : Fields) (s : State), s.team.trap.sup = true →
    (reaches s (.halt f) = true → ∃ t, exec (.halt f) s = .next t ∧ sameMem s t ∧ t.team.status = .ended ∧ t.team.live = 0 ∧
      (t.gridAt s.team.grid).failed = true) ∧
    (reaches s (.fmap f) = true → s.team.mask = 0 → ∃ t, exec (.fmap f) s = .next t ∧ OnlyTeam s t ∧ wentOn s.team t.team (lenOf f) ∧
      placed s.team t.team = s.team) ∧
    (reaches s (.fmap f) = true → s.team.mask ≠ 0 → ∃ t o, exec (.fmap f) s = .next t ∧ OnlyTeam s t ∧ wentOn s.team t.team (lenOf f) ∧
      { placed s.team t.team with memQ := s.team.memQ, nextOp := s.team.nextOp, flags := s.team.flags } = s.team ∧
      t.team.memQ = s.team.memQ ++ [o] ∧ t.team.flags = (s.team.flagUp (selFlag s.team (modOf .y f))).flags ∧
      o.id = s.team.nextOp ∧ o.kind = .fmap (srcS64 s.team f.a.toNat 0).toNat false ∧ o.flag = selFlag s.team (modOf .y f) ∧
      o.dst = (if f.d.toNat < 64 then some f.d.toNat else none) ∧ o.performed = false) ∧
    (reaches s (.tlbinv f) = true →
      (∀ p ∈ s.teams, namedCore f.d.toNat s.team.core p.2.core = true → (s.gridAt p.2.grid).asid = (s.gridAt s.team.grid).asid →
        p.2.memQ.any translatedOp = false ∧ p.2.matQ.any translatedMat = false) →
      (∀ p ∈ s.blocks, namedCore f.d.toNat s.team.core p.2.core = true → (s.gridAt p.2.grid).asid = (s.gridAt s.team.grid).asid → p.2.staged = []) →
      (∀ p ∈ s.cores, namedCore f.d.toNat s.team.core p.1 = true → p.2.sbuf = []) →
      ∃ t, exec (.tlbinv f) s = .next t ∧ sameMem s t ∧ wentOn s.team t.team (lenOf f) ∧
        ∀ c k, kGet c s.cores = some k → (t.coreAt c).tlb =
          if namedCore f.d.toNat s.team.core c = true then k.tlb.filter (fun e => !droppedEntry s (dieOf s.team.core) (s.gridAt s.team.grid).asid
            (if f.a.toNat = 120 then none else some (srcS64 s.team f.a.toNat 0).toNat) e) else k.tlb)


/-! ### Class M at issue -/

namespace Sys2Proof.Claims

/-- The address of R172 in a lane: the exact sum, which the global space takes modulo 2^64 (R5). -/
def laneEa (t : Team) (f : Fields) (l : Nat) : Nat :=
  exactEa (((srcBase t f.a.toNat).toNat : Int) + (srcV t f.b.toNat 0 l).toInt + (immOf f).toInt)

/-- R194: every watch entry of the team has resolved, none of them struck, and no watched load has yet to reach its line. -/
def watchesClear (s : State) : Prop :=
  pendingWatched s.team = false ∧ (∀ w ∈ (s.coreAt s.team.core).watch, w.tid = s.cur → w.st = .confirmed) ∧ s.team.struck = false
/-- R194: some watch entry of the team has yet to resolve. -/
def watchesOpen (s : State) : Prop :=
  pendingWatched s.team = true ∨ ∃ w ∈ (s.coreAt s.team.core).watch, w.tid = s.cur ∧ w.st = .pending
/-- R194: every watch entry of the team has resolved, and one was struck. -/
def watchesStruck (s : State) : Prop :=
  ¬watchesOpen s ∧ (s.team.struck = true ∨ ∃ w ∈ (s.coreAt s.team.core).watch, w.tid = s.cur ∧ w.st = .struck)

/-- Every present lane's access of n bytes has passed the checks of R175, with these outcomes, in lane order; the accesses carry no data yet. -/
def lanesPass (s : State) (f : Fields) (n : Nat) (w : Want) (accs : List LaneAcc) : Prop :=
  (∀ a ∈ accs, a.data = 0 ∧ a.data2 = 0) ∧
  accs.map (fun a => (a.lane, a.va, Chk.ok a.blk a.addr a.lease a.mclass)) =
    (laneList s.team.lanes (presentSet s.team (modOf .m f))).map
      (fun l => (l, laneEa s.team f l, checkAccess s s.cur (mSpace (modOf .m f)) (laneEa s.team f l) n w))

/-- An instruction put one operation at the end of its team's memory queue, counted on its flag, went on, and changed nothing else. -/
def queuedOp (s t : State) (f : Fields) (o : MemOp) : Prop :=
  OnlyTeam s t ∧ wentOn s.team t.team (lenOf f) ∧ t.team.memQ = s.team.memQ ++ [o] ∧ t.team.flags = (s.team.flagUp o.flag).flags ∧
  { placed s.team t.team with memQ := s.team.memQ, nextOp := s.team.nextOp, flags := s.team.flags } = s.team

/-- The operation that a class M instruction queues, before what is its own: number, semantics, scope, service class and flag of the modifier word. -/
def opBase (s : State) (m : Word) (k : MKind) : MemOp :=
  { id := s.team.nextOp, kind := k, dst := none, pdst := 31, accs := [], acq := mSem m % 2 = 1, rel := 2 ≤ mSem m, scope := mScope m,
    scls := mSclsV m, flag := selFlag s.team m, phase := teamPhase s s.cur, performed := false }

/-- Register-space word of a destination; code 120 discards (R63). -/
def dstOf (s : State) (f : Fields) : Option Nat := if f.d.toNat < 88 then some (s.team.vWord f.d.toNat) else none

/-- Loads with their bytes, whether they extend by the sign, and whether they are watched (R181, R192). -/
def loadRows : List ((Fields → Instr) × Nat × Bool × Bool) :=
  [(.ld8I, 1, true, false), (.ld8Z, 1, false, false), (.ld16I, 2, true, false), (.ld16Z, 2, false, false), (.ld32, 4, false, false),
   (.ld64, 8, false, false), (.ld128, 16, false, false), (.ldw32, 4, false, true), (.ldw64, 8, false, true), (.ldw128, 16, false, true)]

/-- Stores with their bytes (R181). -/
def storeRows : List ((Fields → Instr) × Nat) := [(.st8, 1), (.st16, 2), (.st32, 4), (.st64, 8), (.st128, 16)]

/-- Atomics, then reductions, with their function (R183). -/
def atomRows : List ((Fields → Instr) × AOp × Bool) :=
  [(.atomAdd, .add, true), (.atomMinI32, .minI, true), (.atomMinZ32, .minZ, true), (.atomMaxI32, .maxI, true), (.atomMaxZ32, .maxZ, true),
   (.atomAnd, .and, true), (.atomOr, .or, true), (.atomXor, .xor, true), (.atomXchg, .xchg, true), (.atomCas, .cas, true),
   (.atomFadd, .fadd, true), (.atomFmin, .fmin, true), (.atomFmax, .fmax, true),
   (.mRedAdd, .add, false), (.mRedMinI32, .minI, false), (.mRedMinZ32, .minZ, false), (.mRedMaxI32, .maxI, false), (.mRedMaxZ32, .maxZ, false),
   (.mRedAnd, .and, false), (.mRedOr, .or, false), (.mRedXor, .xor, false), (.mRedFadd, .fadd, false), (.mRedFmin, .fmin, false),
   (.mRedFmax, .fmax, false)]

/-- Class M instructions of one access in each lane. -/
def laneRows : List ((Fields → Instr) × Nat × Want) :=
  loadRows.map (fun r => (r.1, r.2.1, wantRead)) ++ storeRows.map (fun r => (r.1, r.2, wantWrite)) ++
  atomRows.map (fun r => (r.1, 4, if r.2.2 then wantAtom else wantWrite))

/-- The n bytes that D gives a lane, lowest first, as a number (R181): one register's low bytes, a pair's or a quad's; zeros for code 120. -/
def dBytes (t : Team) (d n l : Nat) : Nat :=
  if d < 88 then (if n ≤ 4 then (t.word (t.vWord d) l).toNat % 2 ^ (8 * n)
    else (List.range (n / 4)).foldl (fun a i => a + (t.word (t.vWord d + i) l).toNat * 2 ^ (32 * i)) 0)
  else dData t d n l

/-- In a deterministic launch an atomic with its result waits for its team's turn: any in the global space (R372), a float one in every space (R111). -/
def inTurn (s : State) (f : Fields) (row : (Fields → Instr) × AOp × Bool) : Prop :=
  row.2.2 = false ∨ (s.gridAt s.team.grid).det = false ∨ (mSpace (modOf .m f) ≠ 0 ∧ row.2.1 ∉ [AOp.fadd, .fmin, .fmax]) ∨ ticketTurn s s.cur = true

end Sys2Proof.Claims

namespace Sys2Proof.Claims

/-- The Stash Range fault of a stash address, with its reason (R175). -/
def stashRefused (ea reason : Nat) : Chk := .bad 1 { cause := 0x10, i0 := BitVec.ofNat 32 ea, i3 := BitVec.ofNat 32 reason }

/-- A byte of n at a stash offset of a block belongs to a halo cell of one of its tiles (R207, R211). -/
def touchesHalo (b : Block) (a n : Nat) : Prop :=
  ∃ p ∈ b.tiles, ∃ i r c, i < n ∧ r < p.2.rows + 2 * p.2.h ∧ c < p.2.cols + 2 * p.2.h ∧
    (r < p.2.h ∨ p.2.h + p.2.rows ≤ r ∨ c < p.2.h ∨ p.2.h + p.2.cols ≤ c) ∧
    p.2.off + (r * (p.2.cols + 2 * p.2.h) + c) * p.2.elem ≤ a + i ∧ a + i < p.2.off + (r * (p.2.cols + 2 * p.2.h) + c) * p.2.elem + p.2.elem

/-- The outcome for n bytes at an offset in range of a block's stash, no window there: the alignment of the address, then halo cells, then that place of
that block (R173, R175, R211). -/
def inStash (s : State) (k ea off n : Nat) (w : Want) (c : Chk) : Prop :=
  (ea % n ≠ 0 → c = .bad 2 { cause := 0x11, i0 := BitVec.ofNat 32 ea }) ∧
  (ea % n = 0 → (s.blockAt k).windows = [] →
    (w.write = true ∧ touchesHalo (s.blockAt k) off n → c = .bad 8 { cause := 0x17, i0 := BitVec.ofNat 32 ea }) ∧
    (¬(w.write = true ∧ touchesHalo (s.blockAt k) off n) → c = .ok (some k) off 10 0))

/-- The stash bytes that a team's own accesses may reach: its block's, in a handler the save areas behind them too (R173, R267, R275). -/
def ownLimit (s : State) : Nat :=
  if s.team.trap.sup = false then (s.blockAt s.team.block).stashBytes
  else ((s.blockAt s.team.block).stashBytes + 63) / 64 * 64 + (s.gridAt s.team.grid).teams * ((256 + 44 * (32 * s.team.warps) + 63) / 64 * 64)

/-- A fault of a global address (R175). -/
def globalFault (cause va : Nat) : Trap := { cause := cause, i0 := BitVec.ofNat 32 va, i1 := BitVec.ofNat 32 (va / 2 ^ 32) }

/-- The page that an address translates to is of the class that the access asks for: any, append, or ordinary and tier (R175). -/
def classFits (w : Want) (mclass : Nat) : Prop := w.cls = 0 ∨ (w.cls = 1 ∧ mclass = 1) ∨ (w.cls = 2 ∧ (mclass = 0 ∨ mclass = 3))

/-- The outcomes of the checks of an instruction's present lanes, in lane order. -/
def laneOutcomes (s : State) (f : Fields) (n : Nat) (w : Want) : List (Nat × Nat × Chk) :=
  (laneList s.team.lanes (presentSet s.team (modOf .m f))).map
    (fun l => (l, laneEa s.team f l, checkAccess s s.cur (mSpace (modOf .m f)) (laneEa s.team f l) n w))

/-- The first fault in the order of R175 that any lane has, as the lowest of its lanes has it; a fault that comes after the translations is found once no
lane waits for one (R176). -/
def firstFault (rs : List (Nat × Nat × Chk)) (o : Nat) (tr : Trap) : Prop :=
  o ≤ 9 ∧ (∃ pre r post, rs = pre ++ r :: post ∧ r.2.2 = .bad o tr ∧ ∀ x ∈ pre, ∀ v, x.2.2 ≠ .bad o v) ∧
  (∀ x ∈ rs, ∀ q v, x.2.2 = .bad q v → o ≤ q) ∧ (3 ≤ o → ∀ x ∈ rs, x.2.2 ≠ .miss)

end Sys2Proof.Claims

/-- R172, R173, R174, R175, R211, R267: a stash address at or above 2^32, or an access past the bytes it may reach, gives the Stash Range fault with reason 1; one in range and aligned goes to the team's own block
at its address. A peer access goes to the block of the quad group's first index plus q, at the address's low 22 bits; without peers it gives reason 3, with q too high 2, with that block gone 7. A misaligned one gives Misaligned
Access, a write to a halo cell Halo Write. -/
def Sys2Proof.Claims.StashChecks : Prop :=
  ∀ (s : State) (ea n : Nat) (w : Want), 1 ≤ n →
    (∀ space, space ≠ 0 → 2 ^ 32 ≤ ea → checkAccess s s.cur space ea n w = stashRefused ea 1) ∧
    (ea < 2 ^ 32 → 2 ^ 22 ≤ ea ∨ ownLimit s < ea + n → checkAccess s s.cur 1 ea n w = stashRefused ea 1) ∧
    (ea < 2 ^ 22 → ea + n ≤ ownLimit s → inStash s s.team.block ea ea n w (checkAccess s s.cur 1 ea n w)) ∧
    (ea < 2 ^ 32 → (s.gridAt s.team.grid).cohLvl = 0 → checkAccess s s.cur 2 ea n w = stashRefused ea 3) ∧
    ∀ first count, (first, count) = levelGroup (s.gridAt s.team.grid) 1 (s.blockAt s.team.block).idx → ea < 2 ^ 32 → (s.gridAt s.team.grid).cohLvl ≠ 0 →
      (count ≤ ea / 2 ^ 22 → checkAccess s s.cur 2 ea n w = stashRefused ea 2) ∧
      (ea / 2 ^ 22 < count →
        ((∀ k b, (k, b) ∈ s.blocks → b.grid = s.team.grid → b.idx = first + ea / 2 ^ 22 → b.status = .retired) → checkAccess s s.cur 2 ea n w = stashRefused ea 7) ∧
        (∀ k b, kGet k s.blocks = some b → b.grid = s.team.grid → b.idx = first + ea / 2 ^ 22 → b.status ≠ .retired →
          (∀ j c, (j, c) ∈ s.blocks → c.grid = s.team.grid → c.idx = first + ea / 2 ^ 22 → j = k ∧ c = b) →
          (b.stashBytes < ea % 2 ^ 22 + n → checkAccess s s.cur 2 ea n w = stashRefused ea 1) ∧
          (ea % 2 ^ 22 + n ≤ b.stashBytes → inStash s k ea (ea % 2 ^ 22) n w (checkAccess s s.cur 2 ea n w))))

/-- R172, R175, R186, R188, R281: a global address is taken modulo 2^64: a misaligned one gives Misaligned Access; one above 2^57 the unmapped fault; one that the core's TLB
translates goes to that physical address, or gives, in this order, Extent Lost, Memory Class, and for a write to an append page Write-After-Seal or Not-At-Tail; one that no entry translates needs a walk. -/
def Sys2Proof.Claims.GlobalChecks : Prop :=
  ∀ (s : State) (ea n va : Nat) (w : Want), 1 ≤ n → va = ea % 2 ^ 64 →
    (va % n ≠ 0 → checkAccess s s.cur 0 ea n w = .bad 2 (globalFault 0x11 va)) ∧
    (va % n = 0 → 2 ^ 57 ≤ va →
      checkAccess s s.cur 0 ea n w = .bad 3 { globalFault 0x12 va with i2 := BitVec.ofNat 32 (w.bits + 16 * 5 + 65536), i3 := 2 }) ∧
    (va % n = 0 → va < 2 ^ 57 → rfValid (regionOf s (dieOf s.team.core) (s.gridAt s.team.grid).asid va) = true → s.team.walkFault = [] → s.team.xlat = [] →
      (findTlb (s.coreAt s.team.core).tlb (s.gridAt s.team.grid).asid va = none → checkAccess s s.cur 0 ea n w = .miss) ∧
      (∀ e pa, findTlb (s.coreAt s.team.core).tlb (s.gridAt s.team.grid).asid va = some e → permOk e w.bits = true → (isWriteAcc w.bits = true → e.dirty = true) →
        pa = e.ppage + (va - e.vpage) → backed s pa = true →
        (extentGone s pa = true → w.bits ≠ 1 → checkAccess s s.cur 0 ea n w = .bad 4 (globalFault 0x13 va)) ∧
        (extentGone s pa = false → ¬classFits w e.mclass → w.cls ≤ 2 → checkAccess s s.cur 0 ea n w = .bad 5 (globalFault 0x14 va)) ∧
        (extentGone s pa = false → classFits w e.mclass →
          (w.write = false → checkAccess s s.cur 0 ea n w = .ok none pa e.lease e.mclass) ∧
          (w.write = true → pageOf s pa = none → e.mclass ≠ 1 → checkAccess s s.cur 0 ea n w = .ok none pa e.lease e.mclass) ∧
          (w.write = true → pageOf s pa = none → e.mclass = 1 → checkAccess s s.cur 0 ea n w = .bad 7 (globalFault 0x16 va)) ∧
          (∀ p, w.write = true → pageOf s pa = some p →
            (p.2.st = .opened → checkAccess s s.cur 0 ea n w = .bad 7 (globalFault 0x16 va)) ∧
            (p.2.st ≠ .opened → checkAccess s s.cur 0 ea n w = .bad 6 (globalFault 0x15 va))))))

/-- R176, R277: an instruction of which some present lane fails a check takes the first fault in the order of R175 that any lane has, with the address of its lowest such lane, in the lanes that have it, and does nothing else;
where no check of range or alignment fails and some lane's address is not translated, the team waits for the walk of the first. -/
def Sys2Proof.Claims.LaneFaults : Prop :=
  ∀ row ∈ laneRows, ∀ (f : Fields) (s : State), reaches s (row.1 f) = true → presentSet s.team (modOf .m f) ≠ 0 →
    (∀ o tr, firstFault (laneOutcomes s f row.2.1 row.2.2) o tr → ∃ m : LaneSet, exec (row.1 f) s = trapLanes s tr m ∧
      ∀ l, l < 1024 → (m.getLsbD l = true ↔ ∃ ea v, (l, ea, Chk.bad o v) ∈ laneOutcomes s f row.2.1 row.2.2)) ∧
    (∀ pre l ea post, laneOutcomes s f row.2.1 row.2.2 = pre ++ (l, ea, Chk.miss) :: post → (∀ x ∈ pre, x.2.2 ≠ .miss) →
      (∀ x ∈ laneOutcomes s f row.2.1 row.2.2, ∀ o v, x.2.2 = .bad o v → 3 ≤ o) →
      exec (row.1 f) s = .next (s.setTeam { s.team with wait := .walk (ea % 2 ^ 64) row.2.2.bits }))

/-- R172, R175, R181, R192 with R180: a load whose present lanes all pass their checks enters its team's memory queue with their accesses, its destination, its
semantics and scope, and goes on; no register is written yet. -/
def Sys2Proof.Claims.LoadsEnterQueue : Prop :=
  ∀ row ∈ loadRows, ∀ (f : Fields) (s : State), reaches s (row.1 f) = true → presentSet s.team (modOf .m f) ≠ 0 →
    ∀ accs, lanesPass s f row.2.1 wantRead accs →
      ∃ t, exec (row.1 f) s = .next t ∧
        queuedOp s t f { opBase s (modOf .m f) (.load row.2.1 row.2.2.1 row.2.2.2) with dst := dstOf s f, accs := accs }

/-- R172, R175, R181, R183, R194: a store, atomic or reduction whose present lanes all pass, and which, if it releases, has no watched load outstanding, enters the memory
queue with the data read at issue; an atomic or reduction without SCOPE acts at `sys` (R179). In a deterministic launch an atomic's ticket, and in a replay the log, come first. -/
def Sys2Proof.Claims.StoresAndAtomicsEnterQueue : Prop :=
  (∀ row ∈ storeRows, ∀ (f : Fields) (s : State), reaches s (row.1 f) = true → presentSet s.team (modOf .m f) ≠ 0 →
    (mSem (modOf .m f) < 2 ∨ watchesClear s) → ∀ accs, lanesPass s f row.2 wantWrite accs →
      ∃ t, exec (row.1 f) s = .next t ∧
        queuedOp s t f { opBase s (modOf .m f) (.store row.2) with
          accs := accs.map (fun a => { a with data := dBytes s.team f.d.toNat row.2 a.lane }) }) ∧
  (∀ row ∈ atomRows, ∀ (f : Fields) (s : State), reaches s (row.1 f) = true → presentSet s.team (modOf .m f) ≠ 0 →
    (mSem (modOf .m f) < 2 ∨ watchesClear s) → (s.gridAt s.team.grid).replay = false →
    inTurn s f row →
    ∀ accs, lanesPass s f 4 (if row.2.2 then wantAtom else wantWrite) accs →
      ∃ t, exec (row.1 f) s = .next t ∧
        queuedOp s t f { opBase s (modOf .m f) (.atom row.2.1 row.2.2) with
          dst := if row.2.2 then dstOf s f else none
          scope := if mScope (modOf .m f) = 0 then 6 else mScope (modOf .m f)
          accs := accs.map (fun a => { a with
            data := dBytes s.team f.d.toNat 4 a.lane
            data2 := if row.2.1 = .cas ∧ f.d.toNat < 88 then (s.team.word (s.team.vWord f.d.toNat + 1) a.lane).toNat else 0 }) })

namespace Sys2Proof.Claims

/-- The trap of a release after a strike (R194). -/
def strikeTrap (s : State) : Out := trapLanes s { cause := 0x19 } s.team.mask

/-- What a releasing instruction does before its release may be performed (R194). -/
def heldBack (s : State) (i : Instr) : Prop :=
  (watchesOpen s → exec i s = .next s) ∧ (watchesStruck s → exec i s = strikeTrap s)

/-- An operation that a release of class X has to wait for (R233). -/
def mustWait (s : State) : Prop :=
  ∃ o ∈ s.team.memQ, o.performed = false ∧ isFmap o = false ∧ isFenceq o = false ∧ isStagedOp s s.cur o = false

end Sys2Proof.Claims

/-- R194, R233: a releasing store, atomic, reduction, fence, `exit` or barrier arrival whose watched loads have not all resolved does not issue, and with one of them
struck takes the Watch Order fault in every active lane; `exit`, `bara`, `bar` and `bare` do not issue before the team's earlier accesses are performed. -/
def Sys2Proof.Claims.ReleasesWait : Prop :=
  ∀ (f : Fields) (s : State),
    (∀ row ∈ storeRows, reaches s (row.1 f) = true → presentSet s.team (modOf .m f) ≠ 0 → 2 ≤ mSem (modOf .m f) →
      ∀ accs, lanesPass s f row.2 wantWrite accs → heldBack s (row.1 f)) ∧
    (∀ row ∈ atomRows, reaches s (row.1 f) = true → presentSet s.team (modOf .m f) ≠ 0 → 2 ≤ mSem (modOf .m f) →
      inTurn s f row →
      ∀ accs, lanesPass s f 4 (if row.2.2 then wantAtom else wantWrite) accs → heldBack s (row.1 f)) ∧
    (reaches s (.fence f) = true → presentSet s.team (modOf .m f) ≠ 0 → 2 ≤ mSem (modOf .m f) → heldBack s (.fence f)) ∧
    (reaches s (.exit f) = true → presentSet s.team (modOf .x f) ≠ 0 →
      heldBack s (.exit f) ∧ (watchesClear s → mustWait s → exec (.exit f) s = .next s)) ∧
    (∀ l, levelOk s l → kGet (lvlNum l) s.team.arrivals = none → ∀ i ∈ [.bara l f, .bar l f, .bare l f], reaches s i = true →
      (s.gridAt s.team.grid).replay = false → heldBack s i ∧ (watchesClear s → mustWait s → exec i s = .next s))

/-- R144, R196, R197, R199: `sld` enters the memory queue with one relaxed 4-byte access whatever the mask; `fence`, `fenceq` and `pref` enter it when a lane is present,
a releasing `fence` once no watched load is outstanding; `pref` keeps the lanes' addresses, unchecked. With no present lane a class M instruction does nothing (R180).
Readings and choices of the model's own: log entries 18, 32. -/
def Obligations.FencesPrefetchesScalarLoad : Prop :=
  ∀ (f : Fields) (s : State),
    (reaches s (.sld f) = true → ∀ pa lease cls, checkGlobal s s.cur (srcS64 s.team f.a.toNat 0 + (immOf f).signExtend 64).toNat 4 wantRead = .ok none pa lease cls →
      ∃ t, exec (.sld f) s = .next t ∧ queuedOp s t f { opBase s 0 .sload with
        dst := if f.d.toNat < 64 then some f.d.toNat else none
        accs := [{ lane := 0, blk := none, addr := pa, va := (srcS64 s.team f.a.toNat 0 + (immOf f).signExtend 64).toNat, data := 0, data2 := 0, lease := lease, mclass := cls }]
        flag := selFlag s.team (modOf .s f) }) ∧
    (reaches s (.fence f) = true → presentSet s.team (modOf .m f) ≠ 0 → (mSem (modOf .m f) < 2 ∨ watchesClear s) →
      ∃ t, exec (.fence f) s = .next t ∧ queuedOp s t f (opBase s (modOf .m f) .fence)) ∧
    (reaches s (.fenceq f) = true → presentSet s.team (modOf .m f) ≠ 0 →
      ∃ t, exec (.fenceq f) s = .next t ∧ queuedOp s t f (opBase s (modOf .m f) (.fenceq (immOf f).toNat))) ∧
    (reaches s (.pref f) = true → presentSet s.team (modOf .m f) ≠ 0 →
      ∃ t, exec (.pref f) s = .next t ∧ queuedOp s t f { opBase s (modOf .m f) (.pref (f.d.toNat = 1)) with
        accs := (laneList s.team.lanes (presentSet s.team (modOf .m f))).map (fun l =>
          { lane := l, blk := none, addr := 0, va := laneEa s.team f l % 2 ^ 64, data := 0, data2 := 0, lease := 0, mclass := 0 }) }) ∧
    (∀ i ∈ loadRows.map (fun r => r.1 f) ++ storeRows.map (fun r => r.1 f) ++ atomRows.map (fun r => r.1 f) ++
        [.fence f, .fenceq f, .pref f, .append f, .sealPage f, .smap f, .sunmap f, .sflush f, .hdecl f, .hpush f],
      reaches s i = true → presentSet s.team (modOf .m f) = 0 →
        ∃ t, exec i s = .next t ∧ OnlyTeam s t ∧ wentOn s.team t.team (lenOf f) ∧ placed s.team t.team = s.team)

/-- R187, R188, R200, R203, R208, R210: `append` and `seal` of a page that passes its checks, `smap` of a window that may be made and whose pages all pass, `sunmap` of a
window that starts at D, `sflush` and `hpush` enter the memory queue; `hdecl` binds the descriptor it reads, or takes its binding away when its rows are zero. A bad window or
descriptor takes the Stash Access fault with reason 4, 5 or 6.
Readings and choices of the model's own: log entries 18, 31, 33. -/
def Obligations.PagesWindowsAndTilesEnterQueue : Prop :=
  ∀ (f : Fields) (s : State), presentSet s.team (modOf .m f) ≠ 0 →
    (reaches s (.append f) = true → (mSem (modOf .m f) < 2 ∨ watchesClear s) → ∀ pa lease cls size,
      size = pageSize (regionOf s (dieOf s.team.core) (s.gridAt s.team.grid).asid (srcBase s.team f.a.toNat).toNat) →
      checkGlobal s s.cur (srcBase s.team f.a.toNat).toNat 1 wantAppend = .ok none pa lease cls →
      ∃ t, exec (.append f) s = .next t ∧ queuedOp s t f { opBase s (modOf .m f) (.append (2 ^ (immOf f).toNat) (pa / size * size) size false) with
        dst := dstOf s f
        pdst := f.b.toNat
        accs := (laneList s.team.lanes (presentSet s.team (modOf .m f))).map (fun l => {
          lane := l, blk := none, addr := pa, va := (srcBase s.team f.a.toNat).toNat
          data := dBytes s.team f.d.toNat (2 ^ (immOf f).toNat) l, data2 := 0, lease := lease, mclass := cls })
        overflow := treatment s s.cur (2 ^ (immOf f).toNat * (laneList s.team.lanes (presentSet s.team (modOf .m f))).length) = .hold }) ∧
    (reaches s (.sealPage f) = true → watchesClear s → ∀ pa lease cls size,
      size = pageSize (regionOf s (dieOf s.team.core) (s.gridAt s.team.grid).asid (srcBase s.team f.a.toNat).toNat) →
      checkGlobal s s.cur (srcBase s.team f.a.toNat).toNat 1 wantAppend = .ok none pa lease cls →
      ∃ t, exec (.sealPage f) s = .next t ∧ queuedOp s t f { opBase s (modOf .m f) (.sealPg (pa / size * size) size) with rel := true, scope := 6 }) ∧
    (reaches s (.smap f) = true → windowOk s s.team (srcU s.team f.d.toNat 0).toNat (srcBase s.team f.a.toNat).toNat (immOf f).toNat = true →
      (∀ p ∈ pagesOf s s.team (srcBase s.team f.a.toNat).toNat (immOf f).toNat, ∃ pa lease cls, checkGlobal s s.cur p.1 1 wantMap = .ok none pa lease cls) →
      ∃ t o, exec (.smap f) s = .next t ∧ queuedOp s t f o ∧
        ∃ maps, o.kind = .smap (srcU s.team f.d.toNat 0).toNat (srcBase s.team f.a.toNat).toNat (immOf f).toNat maps ∧
          maps.map (fun m => m.1) = (pagesOf s s.team (srcBase s.team f.a.toNat).toNat (immOf f).toNat).map (fun p => p.1 - (srcBase s.team f.a.toNat).toNat) ∧
          maps.map (fun m => m.1) = o.accs.map (fun a => a.lane) ∧ maps.map (fun m => m.2.1) = o.accs.map (fun a => a.addr)) ∧
    (reaches s (.smap f) = true → windowOk s s.team (srcU s.team f.d.toNat 0).toNat (srcBase s.team f.a.toNat).toNat (immOf f).toNat = false →
      exec (.smap f) s = trapLanes s { cause := 0x10, i0 := loWord (srcU s.team f.d.toNat 0).toNat, i3 := 4 } (presentSet s.team (modOf .m f))) ∧
    (reaches s (.sunmap f) = true → (∃ n, ((srcU s.team f.d.toNat 0).toNat, n) ∈ windowsAhead s s.cur) →
      ∃ t, exec (.sunmap f) s = .next t ∧ queuedOp s t f (opBase s (modOf .m f) (.sunmap (srcU s.team f.d.toNat 0).toNat))) ∧
    (reaches s (.sunmap f) = true → (∀ n, ((srcU s.team f.d.toNat 0).toNat, n) ∉ windowsAhead s s.cur) →
      exec (.sunmap f) s = trapLanes s { cause := 0x10, i0 := loWord (srcU s.team f.d.toNat 0).toNat, i3 := 5 } (presentSet s.team (modOf .m f))) ∧
    (reaches s (.sflush f) = true → ∃ t, exec (.sflush f) s = .next t ∧ queuedOp s t f (opBase s (modOf .m f) .sflush)) ∧
    (reaches s (.hpush f) = true → ∃ t, exec (.hpush f) s = .next t ∧ queuedOp s t f { opBase s (modOf .m f) (.hpush f.d.toNat) with pdst := 0 }) ∧
    (reaches s (.hdecl f) = true → ∀ a lease cls q bs,
      checkStash s s.cur 1 (exactEa (((srcBase s.team f.a.toNat).toNat : Int) + (immOf f).toInt)) 32 1 false = .ok (some s.team.block) a lease cls →
      s.team.memQ = [] → fillBad s s.team.block a 32 = false → classLoad s (mSclsV (modOf .m f)) s.team.block a 32 = some (q, bs) →
      (tileOk q s.team f.d.toNat (tileOf bs).1 (tileOf bs).2 = true → ∃ t, exec (.hdecl f) s = .next t ∧ wentOn q.team t.team (lenOf f) ∧
        t.blockAt s.team.block = { q.blockAt s.team.block with
          tiles := if (tileOf bs).1.rows = 0 then kDel f.d.toNat (q.blockAt s.team.block).tiles else kPut f.d.toNat (tileOf bs).1 (q.blockAt s.team.block).tiles } ∧
        (∀ b, b ≠ s.team.block → t.blockAt b = q.blockAt b) ∧
        { placed q.team t.team with memQ := q.team.memQ, nextOp := q.team.nextOp, flags := q.team.flags } = q.team) ∧
      (tileOk q s.team f.d.toNat (tileOf bs).1 (tileOf bs).2 = false → exec (.hdecl f) s = trapLanes q
        { cause := 0x10, i0 := loWord (exactEa (((srcBase s.team f.a.toNat).toNat : Int) + (immOf f).toInt)), i3 := 6 } (presentSet s.team (modOf .m f))))


/-! ### Memory operations performed and completed -/

namespace Sys2Proof.Claims

/-- The operation that an event of a team's memory queue names. -/
def namesOp (s : State) (o : MemOp) : Prop := (s.teamAt s.ev.x).memQ.find? (fun p => p.id = s.ev.y) = some o

/-- The team of an event, but for its waiting time. -/
def evTeam (s t : State) : Team := { t.teamAt s.ev.x with sched := (s.teamAt s.ev.x).sched }

/-- What an operation may be performed under: nothing older holds it, no line of a closing or lost extent and no poisoned data, no divergence from a
replayed log. -/
def mayPerform (s : State) (o : MemOp) : Prop :=
  namesOp s o ∧ o.performed = false ∧ opReady s s.ev.x o = true ∧ heldByFenceq s s.ev.x 0 o.id = false ∧ lostAcc s s.ev.x o = none ∧
  queuedDivergence s s.ev.x o = none ∧ opPoisoned s s.ev.x o = false

/-- A team's queue with one operation replaced. -/
def withOp (t : Team) (o : MemOp) : Team := { t with memQ := t.memQ.map (fun p => if p.id = o.id then o else p) }

/-- Word of a load's datum for the i-th register of a destination: sign-extended, or zero-extended (R181). -/
def loadedWord (n : Nat) (sg : Bool) (i data : Nat) : Word :=
  if sg then (BitVec.ofNat (8 * n) data).signExtend 32 else BitVec.ofNat 32 (data / 2 ^ (32 * i))

end Sys2Proof.Claims

/-- R53, R181, R183, R187, R144: a performed operation completes by leaving its team's queue, counting its flag down and writing its results: a load the words of its
lanes from its destination on, an atomic its lanes' old values, `append` its lanes' offsets and a predicate that says which succeeded, `sld` its scalar register. No
other register changes, and nothing of the machine but the team.
Readings and choices of the model's own: log entries 18, 35, 64, 88. -/
def Obligations.MemoryOperationsComplete : Prop :=
  ∀ (s : State) (o : MemOp), namesOp s o → o.performed = true → (s.teamAt s.ev.x).warps ≤ 32 →
    ((∀ n, o.kind ≠ .store n) ∨ ∀ e ∈ (s.coreAt (s.teamAt s.ev.x).core).sbuf, e.tid ≠ s.ev.x) →
    (o.accs.map (fun a => a.lane)).Nodup → (∀ a ∈ o.accs, a.lane < (s.teamAt s.ev.x).lanes) →
    ∃ t, exec .variableLatencyCompletion s = .next t ∧ t = s.setTeamAt s.ev.x (t.teamAt s.ev.x) ∧
      (t.teamAt s.ev.x).memQ = (s.teamAt s.ev.x).memQ.filter (fun p => p.id ≠ o.id) ∧
      (∀ k, o.flag = some k → (t.teamAt s.ev.x).flag k = (s.teamAt s.ev.x).flag k - 1) ∧
      (∀ k, o.flag ≠ some k → (t.teamAt s.ev.x).flag k = (s.teamAt s.ev.x).flag k) ∧
      { evTeam s t with
        regs := (s.teamAt s.ev.x).regs, sregs := (s.teamAt s.ev.x).sregs, preds := (s.teamAt s.ev.x).preds, flags := (s.teamAt s.ev.x).flags
        memQ := (s.teamAt s.ev.x).memQ } = s.teamAt s.ev.x ∧
      (∀ n sg w, o.kind = .load n sg w → (sg = true → n ≤ 2) → (∀ a ∈ o.accs, a.data < 2 ^ (8 * n)) →
        (t.teamAt s.ev.x).sregs = (s.teamAt s.ev.x).sregs ∧ (t.teamAt s.ev.x).preds = (s.teamAt s.ev.x).preds ∧
        ∀ q l, l < (s.teamAt s.ev.x).lanes → (t.teamAt s.ev.x).word q l =
          match o.dst, o.accs.find? (fun a => a.lane = l) with
          | some d, some a => if d ≤ q ∧ q < d + (n + 3) / 4 then loadedWord n sg (q - d) a.data else (s.teamAt s.ev.x).word q l
          | _, _ => (s.teamAt s.ev.x).word q l) ∧
      (∀ op, o.kind = .atom op true →
        (t.teamAt s.ev.x).sregs = (s.teamAt s.ev.x).sregs ∧ (t.teamAt s.ev.x).preds = (s.teamAt s.ev.x).preds ∧
        ∀ q l, l < (s.teamAt s.ev.x).lanes → (t.teamAt s.ev.x).word q l =
          match o.accs.find? (fun a => a.lane = l) with
          | some a => if o.dst = some q then BitVec.ofNat 32 a.data else (s.teamAt s.ev.x).word q l
          | none => (s.teamAt s.ev.x).word q l) ∧
      (∀ e p size r, o.kind = .append e p size r →
        (t.teamAt s.ev.x).sregs = (s.teamAt s.ev.x).sregs ∧
        (∀ q l, l < (s.teamAt s.ev.x).lanes → (t.teamAt s.ev.x).word q l =
          match o.accs.find? (fun a => a.lane = l) with
          | some a => if o.dst = some q then BitVec.ofNat 32 a.addr else (s.teamAt s.ev.x).word q l
          | none => (s.teamAt s.ev.x).word q l) ∧
        ∀ q l, l < (s.teamAt s.ev.x).lanes → ((t.teamAt s.ev.x).pred q).getLsbD l =
          match o.accs.find? (fun a => a.lane = l) with
          | some a => if q = o.pdst ∧ q ≠ 31 then a.addr != 0xFFFFFFFF else ((s.teamAt s.ev.x).pred q).getLsbD l
          | none => ((s.teamAt s.ev.x).pred q).getLsbD l) ∧
      (o.kind = .sload → (t.teamAt s.ev.x).regs = (s.teamAt s.ev.x).regs ∧ (t.teamAt s.ev.x).preds = (s.teamAt s.ev.x).preds ∧
        ∀ a, o.accs = [a] → ∀ n, (t.teamAt s.ev.x).sreg n = if o.dst = some n then BitVec.ofNat 32 a.data else (s.teamAt s.ev.x).sreg n) ∧
      ((∀ op, o.kind ≠ .atom op true) → (∀ n sg w, o.kind ≠ .load n sg w) → (∀ e p size r, o.kind ≠ .append e p size r) → o.kind ≠ .sload →
        (∀ p w, o.kind ≠ .fmap p w) → (t.teamAt s.ev.x).regs = (s.teamAt s.ev.x).regs ∧ (t.teamAt s.ev.x).sregs = (s.teamAt s.ev.x).sregs ∧
          (t.teamAt s.ev.x).preds = (s.teamAt s.ev.x).preds)

/-- R182, R185, R189, R201, R229, R237, R242: a lane's load that nothing holds takes the core's valid copy with the core's own buffered stores over it, or the bytes of the
stash; a lane's global store enters the core's store buffer, a stash store writes the stash; neither touches a register. Of the rest of the machine nothing changes. -/
def Sys2Proof.Claims.MemoryOperationsPerform : Prop :=
  ∀ (s : State) (o : MemOp) (a : LaneAcc), mayPerform s o → o.acq = false → o.rel = false → (s.blockAt (s.teamAt s.ev.x).block).staged = [] →
    (∀ n sg c, o.kind = .load n sg false → o.accs = [a] → a.blk = none → sealedLine s (a.addr / 64) = false →
      winsOf s (s.teamAt s.ev.x).core (a.addr / 64) = [] → l1At s (s.teamAt s.ev.x).core (a.addr / 64) = some c →
      copyValid s (s.teamAt s.ev.x).core c = true →
      ∃ t, exec .variableLatencyCompletion s = .next t ∧ t = s.setTeamAt s.ev.x (t.teamAt s.ev.x) ∧
        evTeam s t = withOp (s.teamAt s.ev.x) { o with
          performed := true
          accs := [{ a with data := lineNat (overlay s (s.teamAt s.ev.x).core (a.addr / 64) c.data) (a.addr % 64) n }] }) ∧
    (∀ n sg w b, o.kind = .load n sg w → o.accs = [a] → a.blk = some b → (s.blockAt b).windows = [] → 0 < n → a.addr % 64 + n ≤ 64 →
      ∃ t, exec .variableLatencyCompletion s = .next t ∧ t = s.setTeamAt s.ev.x (t.teamAt s.ev.x) ∧
        evTeam s t = withOp (s.teamAt s.ev.x) { o with performed := true, accs := [{ a with data := leNat (stashRead s b a.addr n) }] }) ∧
    (∀ n, o.kind = .store n → o.accs = [a] → a.blk = none → (s.gridAt (s.teamAt s.ev.x).grid).det = false →
      ∃ t, exec .variableLatencyCompletion s = .next t ∧ t = { s.setTeamAt s.ev.x (t.teamAt s.ev.x) with cores := t.cores } ∧
        evTeam s t = withOp (s.teamAt s.ev.x) { o with performed := true } ∧
        t.coreAt (s.teamAt s.ev.x).core = { s.coreAt (s.teamAt s.ev.x).core with
          sbuf := (s.coreAt (s.teamAt s.ev.x).core).sbuf ++ [{
            tid := s.ev.x, line := a.addr / 64, mask := maskOf (a.addr % 64) n
            data := mergeLine 0 (maskOf (a.addr % 64) n) (lineData (a.addr % 64) (leBytes n a.data)), cls := o.scls, va := a.va }] } ∧
        ∀ c, c ≠ (s.teamAt s.ev.x).core → t.coreAt c = s.coreAt c) ∧
    (∀ n b, o.kind = .store n → o.accs = [a] → a.blk = some b → (s.blockAt b).windows = [] → 0 < n → a.addr % 64 + n ≤ 64 →
      ∃ t, exec .variableLatencyCompletion s = .next t ∧ t = { s.setTeamAt s.ev.x (t.teamAt s.ev.x) with blocks := t.blocks } ∧
        evTeam s t = withOp (s.teamAt s.ev.x) { o with performed := true } ∧ { t.blockAt b with stash := (s.blockAt b).stash } = s.blockAt b ∧
        (∀ i, bGet (t.blockAt b).stash i = if a.addr ≤ i ∧ i < a.addr + n then (leBytes n a.data).getD (i - a.addr) 0 else bGet (s.blockAt b).stash i) ∧
        ∀ k, k ≠ b → t.blockAt k = s.blockAt k)

/-- R196, R237: a fence that nothing holds is performed; with acquire semantics at `quad` or wider every copy of the core expires but its own current write, and every clean line of
its windows is unfilled; nothing else of the machine changes. -/
def Sys2Proof.Claims.FencePerforms : Prop :=
  ∀ (s : State) (o : MemOp), mayPerform s o → o.kind = .fence → o.rel = false →
    ∃ t, exec .variableLatencyCompletion s = .next t ∧ t = { s.setTeamAt s.ev.x (t.teamAt s.ev.x) with cores := t.cores, blocks := t.blocks } ∧
      evTeam s t = withOp (s.teamAt s.ev.x) { o with performed := true } ∧ (∀ c, c ≠ (s.teamAt s.ev.x).core → t.coreAt c = s.coreAt c) ∧
      { t.coreAt (s.teamAt s.ev.x).core with l1 := (s.coreAt (s.teamAt s.ev.x).core).l1 } = s.coreAt (s.teamAt s.ev.x).core ∧
      (∀ b, { t.blockAt b with windows := (s.blockAt b).windows } = s.blockAt b) ∧
      (o.acq = false ∨ o.scope ≤ 1 → t.cores = s.cores ∧ t.blocks = s.blocks) ∧
      (o.acq = true → 2 ≤ o.scope → ∀ p ∈ onCore s (s.teamAt s.ev.x).core, ∀ w ∈ (t.blockAt p.1).windows, ∀ q ∈ w.lines, q.2.dirty ≠ 0) ∧
      (o.acq = true → 2 ≤ o.scope → ∀ line c, l1At s (s.teamAt s.ev.x).core line = some c → ∃ k, l1At t (s.teamAt s.ev.x).core line = some k ∧
        k = { c with expired := k.expired } ∧
        (k.expired = false ↔ c.expired = false ∧ c.own = true ∧ ∃ e, l2At s (dieOf (s.teamAt s.ev.x).core) line = some e ∧ e.wts = c.wts ∧ e.ver = c.ver ∧ e.arr = c.arr))

/-- R187, R188, R361: the home gives an `append` its offsets in lane order from the tail, aligned to the element, or failures on a page that is not open; the recall of a
sealing page's line takes it from a die; a sealing page whose data is all written is sealed, its lines' entries cleared, once no line of it is in a transient state. -/
def Sys2Proof.Claims.AppendAndSealAtHome : Prop :=
  ∀ s : State,
    (∀ o e p size, mayPerform s o → o.rel = false → o.kind = .append e p size false → isStagedAppend s s.ev.x o = false →
      ((s.gridAt (s.teamAt s.ev.x).grid).det = false ∨ o.turn s s.ev.x = true) → o.overflow = false → size ≤ 2 ^ 30 →
      (∀ g start, kGet p s.pages = some g → g.st = .opened → o.accs ≠ [] → start = (g.tail + e - 1) / e * e → start + e * o.accs.length ≤ size →
        ∃ t, exec .appendHomeReservation s = .next t ∧ sameMem s t ∧
          kGet p t.pages = some { g with tail := start + e * o.accs.length, pending := g.pending + 1 } ∧
          t.teamAt s.ev.x = withOp (s.teamAt s.ev.x) { o with
            kind := .append e p size true
            accs := o.accs.zipIdx.map (fun q => { q.1 with addr := start + e * q.2 }) }) ∧
      (∀ g, kGet p s.pages = some g → g.st ≠ .opened →
        ∃ t, exec .appendHomeReservation s = .next t ∧ sameMem s t ∧ t.pages = s.pages ∧
          t.teamAt s.ev.x = withOp (s.teamAt s.ev.x) { o with
            kind := .append e p size true
            accs := o.accs.map (fun a => { a with addr := 0xFFFFFFFF }) })) ∧
    (∀ p g, pageOf s (64 * s.ev.y) = some (p, g) → g.st = .sealing → g.pending = 0 →
      ∃ t, exec .sealRecall s = .next t ∧ sameMem s t ∧ l2At t s.ev.x s.ev.y = none ∧ t.teams = s.teams ∧
        ∀ line, line ≠ s.ev.y → l2At t s.ev.x line = l2At s s.ev.x line) ∧
    (∀ g, kGet s.ev.x s.pages = some g → g.st = .sealing → g.pending = 0 →
      (∃ d ∈ s.dies, ∃ e ∈ d.2.dir, s.ev.x ≤ 64 * e.1 ∧ 64 * e.1 < s.ev.x + g.size ∧ e.2.tr ≠ none) → exec .sealCompletion s = .next s) ∧
    (∀ g, kGet s.ev.x s.pages = some g → g.st = .sealing → g.pending = 0 →
      (∀ d ∈ s.dies, ∀ e ∈ d.2.dir, s.ev.x ≤ 64 * e.1 → 64 * e.1 < s.ev.x + g.size → e.2.tr = none ∧ e.2.waiting = []) →
      ∃ t, exec .sealCompletion s = .next t ∧ sameMem s t ∧ t.teams = s.teams ∧ kGet s.ev.x t.pages = some { g with st := .sealed, recalled := [] } ∧
        ∀ d line, d < 8 → s.ev.x ≤ 64 * line → 64 * line < s.ev.x + g.size → l2At t d line = none ∧ dirAt t d line = Dir.reset)

namespace Sys2Proof.Claims

/-- The strip of owned cells sent towards a neighbour, and the halo it fills there (R209): rows, columns, first row, first column, destination row, destination column. -/
def stripOf (k : Tile) (dir : Nat) : Nat × Nat × Nat × Nat × Nat × Nat :=
  if dir = 0 then (k.h, k.cols, k.h, k.h, k.rows + k.h, k.h) else if dir = 1 then (k.h, k.cols, k.rows, k.h, 0, k.h)
  else if dir = 2 then (k.rows, k.h, k.h, k.h, k.h, k.cols + k.h) else (k.rows, k.h, k.h, k.cols, k.h, 0)

/-- Stash addresses of byte i of row r of the strip: in the pushing tile, and in the neighbour's. -/
def stripFrom (k : Tile) (dir r i : Nat) : Nat := k.off + ((stripOf k dir).2.2.1 + r) * k.pitch + (stripOf k dir).2.2.2.1 * k.elem + i
def stripTo (k d : Tile) (dir r i : Nat) : Nat := d.off + ((stripOf k dir).2.2.2.2.1 + r) * d.pitch + (stripOf k dir).2.2.2.2.2 * k.elem + i

/-- Tiles between which strips go (R209). -/
def sameShape (d k : Tile) : Prop := d.rows = k.rows ∧ d.cols = k.cols ∧ d.elem = k.elem ∧ d.h = k.h

/-- The neighbour that a direction of a tile names, where it has one: a block of the same level-1 group. -/
def neighbour (s : State) (bid : Nat) (k : Tile) (dir : Nat) : Option (Nat × Block) :=
  blockBy s (s.blockAt bid).grid ((levelGroup (s.gridAt (s.blockAt bid).grid) 1 (s.blockAt bid).idx).1 + k.nbr.getD dir 0xFFFF)

end Sys2Proof.Claims

/-- R207, R209, R211: a push towards a neighbour copies the strip of owned cells that R209 names into the neighbour's halo, row by row, and changes no other byte of it and no
other block. A direction without a neighbour gets nothing; a neighbour that is not there or has retired, whose tile is undeclared, or whose tile differs in rows, columns, element size
or halo depth, gets nothing either, and the die's log says so.
Readings and choices of the model's own: log entries 33, 77, 101. -/
def Obligations.HaloPushCopiesStrip : Prop :=
  ∀ (s : State) (tid : Nat) (u : Team) (rest : KMap Team) (o : MemOp) (q : List MemOp) (k : Tile),
    s.teams.filter (fun p => p.2.block = s.ev.x && p.2.status = .live) = (tid, u) :: rest → u.memQ = o :: q → o.kind = .hpush s.ev.y →
    o.performed = false → s.ev.z < 4 → o.pdst.testBit s.ev.z = false → opReady s tid o = true → kGet s.ev.y (s.blockAt s.ev.x).tiles = some k →
    (k.nbr.getD s.ev.z 0xFFFF = 0xFFFF → ∃ t, exec .haloPush s = .next t ∧ sameMem s t ∧ t.blocks = s.blocks) ∧
    (∀ nb b d, k.nbr.getD s.ev.z 0xFFFF ≠ 0xFFFF → neighbour s s.ev.x k s.ev.z = some (nb, b) →
      kGet nb s.blocks = some b → nb ≠ s.ev.x → b.status ≠ .retired → kGet s.ev.y b.tiles = some d → sameShape d k → 1 ≤ k.elem → 1 ≤ k.h → 1 ≤ k.cols →
      ∃ t, exec .haloPush s = .next t ∧ sameMem s t ∧ (∀ m, m ≠ nb → t.blockAt m = s.blockAt m) ∧ { t.blockAt nb with stash := b.stash } = b ∧
        (∀ r i, r < (stripOf k s.ev.z).1 → i < (stripOf k s.ev.z).2.1 * k.elem →
          bGet (t.blockAt nb).stash (stripTo k d s.ev.z r i) = bGet (s.blockAt s.ev.x).stash (stripFrom k s.ev.z r i)) ∧
        ∀ a, (∀ r i, r < (stripOf k s.ev.z).1 → i < (stripOf k s.ev.z).2.1 * k.elem → a ≠ stripTo k d s.ev.z r i) →
          bGet (t.blockAt nb).stash a = bGet b.stash a) ∧
    (k.nbr.getD s.ev.z 0xFFFF ≠ 0xFFFF →
      (∀ nb b, neighbour s s.ev.x k s.ev.z = some (nb, b) → b.status = .retired ∨ ∀ d, kGet s.ev.y b.tiles = some d → ¬sameShape d k) →
      ∃ t, exec .haloPush s = .next t ∧ sameMem s t ∧ t.blocks = s.blocks ∧
        (t.dieAt (dieOf (s.blockAt s.ev.x).core)).log =
          (s.dieAt (dieOf (s.blockAt s.ev.x).core)).log ++ [.pushDiscard (s.blockAt s.ev.x).idx s.ev.y])


/-! ### Coherence between dies -/

namespace Sys2Proof.Claims

/-- A line of HBM whose directory entry is at rest at its home: no request is served or waits, its page is not being sealed, no extent of it is closing or lost. -/
def atRest (s : State) (h line : Nat) : Prop :=
  homeDie s line = some h ∧ isTier line = false ∧ (dirAt s h line).tr = none ∧ (dirAt s h line).waiting = [] ∧ sealingLine s line = false ∧
    extentGone s (64 * line) = false

/-- A die's L2 takes a further line without a victim (R6, R363). -/
def hasRoom (s : State) (d : Nat) : Prop := (s.dieAt d).l2.length + mscLines s < Config.l2Lines

/-- Nothing changed but one directory entry and the copies of one line in two dies: no byte of memory, no team, block, core or queue. -/
def lineFrame (s t : State) (line : Nat) : Prop :=
  sameMem s t ∧ t.teams = s.teams ∧ t.blocks = s.blocks ∧ t.cores = s.cores ∧ t.queues = s.queues ∧
  ∀ d k, k ≠ line → l2At t d k = l2At s d k ∧ dirAt t d k = dirAt s d k

end Sys2Proof.Claims

/-- R352, R353, R356: a die's RdS for a line at rest. Without an owner or another sharer it gets the home's data in E and owns the line; with sharers it gets it in S and joins
them; with another owner the entry turns to BFS and waits for that owner. An RdS for a sealed line grants nothing (R361). -/
def Sys2Proof.Claims.ReadSharedRequest : Prop :=
  ∀ (s : State) (h : Nat), s.ev.x < 8 → atRest s h s.ev.y → l2At s s.ev.x s.ev.y = none → s.ev.nums = [] → appendLine s s.ev.y = false →
    (sealedLine s s.ev.y = true → ∃ t, exec .rds s = .next t ∧ lineFrame s t s.ev.y ∧ l2At t s.ev.x s.ev.y = none ∧
      dirAt t h s.ev.y = dirAt s h s.ev.y) ∧
    (sealedLine s s.ev.y = false → hasRoom s s.ev.x → (dirAt s h s.ev.y).st < 2 → without (dirAt s h s.ev.y).shr s.ev.x = 0 → ∃ t, exec .rds s = .next t ∧ lineFrame s t s.ev.y ∧
      (∃ e, l2At t s.ev.x s.ev.y = some e ∧ e.st = .e ∧ e.data = homeLine s h s.ev.y ∧ e.ver = (dirAt s h s.ev.y).ver) ∧
      dirAt t h s.ev.y = { dirAt s h s.ev.y with shr := 0, own := s.ev.x, st := 2 }) ∧
    (sealedLine s s.ev.y = false → hasRoom s s.ev.x → (dirAt s h s.ev.y).st < 2 → without (dirAt s h s.ev.y).shr s.ev.x ≠ 0 → ∃ t, exec .rds s = .next t ∧ lineFrame s t s.ev.y ∧
      (∃ e, l2At t s.ev.x s.ev.y = some e ∧ e.st = .s ∧ e.data = homeLine s h s.ev.y ∧ e.ver = (dirAt s h s.ev.y).ver) ∧
      dirAt t h s.ev.y = { dirAt s h s.ev.y with shr := (dirAt s h s.ev.y).shr ||| dieBit s.ev.x, st := 1 }) ∧
    (sealedLine s s.ev.y = false → 2 ≤ (dirAt s h s.ev.y).st → (dirAt s h s.ev.y).own ≠ s.ev.x → ∃ t, exec .rds s = .next t ∧ lineFrame s t s.ev.y ∧ l2At t s.ev.x s.ev.y = none ∧
      dirAt t h s.ev.y = { dirAt s h s.ev.y with
        tr := some { kind := .bfs, req := s.ev.x, waitInv := 0, waitFwd := some (dirAt s h s.ev.y).own, data := none, answered := false } })

/-- R353, R357: a die's RdX for a line at rest, and the Upg of a die that shares it. With no other holder the die has the line for writing (E from the home's data, or its own copy,
dirty if it was); with other sharers the entry turns to BI and waits for each; with another owner to BFX and waits for the owner and the other sharers. For a line of an append page
both are refused (R361). -/
def Sys2Proof.Claims.WritePermissionRequests : Prop :=
  (∀ s : State, appendLine s s.ev.y = true ∨ sealedLine s s.ev.y = true → exec .rdx s = .next s ∧ exec .upg s = .next s) ∧
  ∀ (s : State) (h : Nat), s.ev.x < 8 → atRest s h s.ev.y → s.ev.nums = [] → appendLine s s.ev.y = false → sealedLine s s.ev.y = false →
    (∀ i ∈ [.rdx, .upg], (i = .rdx → l2At s s.ev.x s.ev.y = none ∧ hasRoom s s.ev.x) → (i = .upg → ∃ c, l2At s s.ev.x s.ev.y = some c ∧ c.st = .s) →
      ((dirAt s h s.ev.y).st < 2 → without (dirAt s h s.ev.y).shr s.ev.x = 0 → ∃ t, exec i s = .next t ∧ lineFrame s t s.ev.y ∧
        (∃ e, l2At t s.ev.x s.ev.y = some e ∧ e.st = .e ∧ (i = .rdx → e.data = homeLine s h s.ev.y) ∧
          ∀ c, l2At s s.ev.x s.ev.y = some c → e.data = c.data ∧ e.wts = c.wts ∧ e.rts = c.rts ∧ e.ver = c.ver) ∧
        dirAt t h s.ev.y = { dirAt s h s.ev.y with shr := 0, own := s.ev.x, st := 2 }) ∧
      ((dirAt s h s.ev.y).st < 2 → without (dirAt s h s.ev.y).shr s.ev.x ≠ 0 → ∃ t, exec i s = .next t ∧ lineFrame s t s.ev.y ∧
        l2At t s.ev.x s.ev.y = l2At s s.ev.x s.ev.y ∧
        dirAt t h s.ev.y = { dirAt s h s.ev.y with
          tr := some { kind := .bi, req := s.ev.x, waitInv := without (dirAt s h s.ev.y).shr s.ev.x, waitFwd := none, data := none, answered := true } }) ∧
      (2 ≤ (dirAt s h s.ev.y).st → (dirAt s h s.ev.y).own ≠ s.ev.x → ∃ t, exec i s = .next t ∧ lineFrame s t s.ev.y ∧
        l2At t s.ev.x s.ev.y = l2At s s.ev.x s.ev.y ∧
        dirAt t h s.ev.y = { dirAt s h s.ev.y with
          tr := some { kind := .bfx, req := s.ev.x, waitInv := without (without (dirAt s h s.ev.y).shr s.ev.x) (dirAt s h s.ev.y).own
                       waitFwd := some (dirAt s h s.ev.y).own, data := none, answered := false } }))

/-- R353, R354, R355, R356: an owner answers a forward once, after the write that its grant was for (R357), with its L2's data, and keeps S after FwdS or nothing after FwdX; an invalidated sharer loses the line and its
cores' copies stay; when every answer has arrived the requester has its line: in S after BFS with dirty data written at home, with M or E after BFX, for writing after BI, unless the line has
become one of an append page: then it is refused, and keeps at most the copy that it shared (R361). -/
def Sys2Proof.Claims.SnoopsAndCompletion : Prop :=
  ∀ (s : State) (h line : Nat) (k : Trans), homeDie s line = some h → isTier line = false → (dirAt s h line).tr = some k →
    (∀ p ∈ [(Instr.fwds, TrKind.bfs), (Instr.fwdx, TrKind.bfx)], ∀ o c, s.ev.x = line → k.kind = p.2 → k.answered = false → k.waitFwd = some o → l2At s o line = some c →
      (c.granted = true → storeWaits s o line = true → exec p.1 s = .next s) ∧
      (c.granted = false ∨ storeWaits s o line = false → ∃ t, exec p.1 s = .next t ∧ lineFrame s t line ∧
        dirAt t h line = { dirAt s h line with tr := some { k with data := some (c.data, c.ver, c.st = .m || c.st = .o), answered := true } } ∧
        l2At t o line = if p.2 = .bfs then some { c with st := .s } else none)) ∧
    (s.ev.y = line → k.waitInv.getLsbD s.ev.x = true → ∃ t, exec .invSnoop s = .next t ∧ lineFrame s t line ∧ l2At t s.ev.x line = none ∧
      dirAt t h line = { dirAt s h line with tr := some { k with waitInv := without k.waitInv s.ev.x } }) ∧
    (s.ev.x = line → k.waitInv = 0 → k.answered = true → (dirAt s h line).waiting = [] → sealingLine s line = false → hasRoom s k.req →
      (∀ d v y o, k.kind = .bfs → k.data = some (d, v, y) → k.waitFwd = some o → kGet line (s.dieAt h).msc = none → ∃ t, exec .snoopResponse s = .next t ∧
        (∃ e, l2At t k.req line = some e ∧ e.st = .s ∧ e.data = d ∧ e.ver = v) ∧ homeLine t h line = (if y then d else homeLine s h line) ∧
        (dirAt t h line).tr = none ∧ (dirAt t h line).st = 1 ∧ (dirAt t h line).shr = (dirAt s h line).shr ||| dieBit o ||| dieBit k.req) ∧
      (k.kind = .bi → k.data = none → appendLine s line = true → ∃ t, exec .snoopResponse s = .next t ∧ lineFrame s t line ∧ l2At t k.req line = l2At s k.req line ∧
        (dirAt t h line).tr = none ∧ (dirAt t h line).own = 0 ∧ (dirAt t h line).st < 2) ∧
      (∀ d v y, k.kind = .bfx → appendLine s line = false → k.data = some (d, v, y) → ∃ t, exec .snoopResponse s = .next t ∧ lineFrame s t line ∧
        (∃ e, l2At t k.req line = some e ∧ e.st = (if y then .m else .e) ∧ e.data = d ∧ e.ver = v) ∧
        dirAt t h line = { dirAt s h line with ver := v, shr := 0, own := k.req, st := 2, tr := none }) ∧
      (k.kind = .bi → appendLine s line = false → ∃ t, exec .snoopResponse s = .next t ∧ lineFrame s t line ∧ (∃ e, l2At t k.req line = some e ∧ (e.st = .m ∨ e.st = .e)) ∧
        dirAt t h line = { dirAt s h line with shr := 0, own := k.req, st := 2, tr := none }))

/-- R354, R357, R358, R363: the victim leaves a die's L2 unless it was granted for a write that the die performs next, a clean one silently; a dirty one goes to the write-back buffer, and the home takes it, which writes the data when the sender is
the recorded owner; an acknowledged entry is freed; a line that leaves the memory-side cache goes to the device when it is dirty. -/
def Sys2Proof.Claims.EvictionsWriteBack : Prop :=
  ∀ (s : State) (h line : Nat) (c : L2Line), homeDie s line = some h →
    (s.ev.nums = [line] → l2At s s.ev.x line = some c → c.granted = true → storeWaits s s.ev.x line = true → exec .wb s = .next s) ∧
    (s.ev.x < 8 → s.ev.nums = [line] → l2At s s.ev.x line = some c → c.granted = false ∨ storeWaits s s.ev.x line = false → c.st = .s ∨ c.st = .e →
      ∃ t, exec .wb s = .next t ∧ lineFrame s t line ∧ l2At t s.ev.x line = none ∧ dirAt t h line = dirAt s h line) ∧
    (s.ev.x < 8 → s.ev.nums = [line] → l2At s s.ev.x line = some c → c.granted = false ∨ storeWaits s s.ev.x line = false →
      c.st = .m ∨ c.st = .o → atRest s h line → 2 ≤ (dirAt s h line).st → (dirAt s h line).own = s.ev.x →
      ∃ t, exec .wb s = .next t ∧ l2At t s.ev.x line = none ∧ memLine t line = c.data ∧
        (∀ a, a / 64 ≠ line → bGet t.mem a = bGet s.mem a) ∧
        kGet line (t.dieAt s.ev.x).wbuf = some { data := c.data, ver := c.ver, acked := true } ∧
        dirAt t h line = { dirAt s h line with ver := c.ver, own := 0, st := if (dirAt s h line).shr = 0 then 0 else 1 }) ∧
    (∀ w, s.ev.y = line → kGet line (s.dieAt s.ev.x).wbuf = some w → w.acked = true → ∃ t, exec .wbAcknowledge s = .next t ∧ sameMem s t ∧
      kGet line (t.dieAt s.ev.x).wbuf = none ∧ ∀ d k, l2At t d k = l2At s d k) ∧
    (∀ m, s.ev.x = h → s.ev.nums = [line] → isTier line = true → kGet line (s.dieAt h).msc = some m → m.dirty = true →
      (∀ p ∈ s.dies, kGet line p.2.l2 = none ∧ kGet line p.2.wbuf = none) → (dirAt s h line).tr = none → (dirAt s h line).waiting = [] →
      ∃ t, exec .mscEviction s = .next t ∧ memLine t line = m.data ∧ (∀ a, a / 64 ≠ line → bGet t.mem a = bGet s.mem a) ∧
        kGet line (t.dieAt h).msc = none)


/-! ### Logical time, stores at the L2, residency -/

namespace Sys2Proof.Claims

/-- An enabled core of the event's die that no enabled core of the die is ahead of, as R241 compares times. -/
def leads (s : State) (c : Nat) (k : Core) : Prop :=
  kGet c s.cores = some k ∧ k.enabled = true ∧ dieOf c = s.ev.x ∧
  ∀ p ∈ s.cores, p.2.enabled = true → dieOf p.1 = s.ev.x → (k.pts - p.2.pts).toNat < 2 ^ 15

end Sys2Proof.Claims

/-- R242, R244: once in 256 cc a tick moves a core's logical time on by one and expires the copies whose lease it passes; once in 256 cc a die's broadcast takes the time of the enabled core
that none of the die's enabled cores is ahead of, and raises each enabled core more than 1,024 behind to 1,024 behind; a line more than 16,384 behind the broadcast is raised to 16,384 behind, its version kept; the sweeps mark exactly the copies that are not valid.
Readings and choices of the model's own: log entries 5, 54. -/
def Obligations.LogicalTimeEvents : Prop :=
  (∀ s : State, (s.coreAt s.ev.x).ticked = spanOf s.cc → exec .ptsTick s = .next s) ∧
  (∀ s : State, (s.coreAt s.ev.x).ticked ≠ spanOf s.cc → ∃ t, exec .ptsTick s = .next t ∧ sameMem s t ∧ t.teams = s.teams ∧ (t.coreAt s.ev.x).pts = (s.coreAt s.ev.x).pts + 1 ∧
    (∀ c, c ≠ s.ev.x → t.coreAt c = s.coreAt c) ∧
    ∀ line c, l1At s s.ev.x line = some c → ∃ k, l1At t s.ev.x line = some k ∧ k = { c with expired := k.expired } ∧
      (k.expired = true ↔ c.expired = true ∨ 255 < (c.le - ((s.coreAt s.ev.x).pts + 1)).toNat)) ∧
  (∀ s : State, (s.dieAt s.ev.x).told = spanOf s.cc → exec .ptsBroadcast s = .next s) ∧
  (∀ (s : State) (c : Nat) (k : Core), kSorted s.cores = true → (s.dieAt s.ev.x).told ≠ spanOf s.cc → leads s c k → ∃ t, exec .ptsBroadcast s = .next t ∧ sameMem s t ∧
    t.teams = s.teams ∧ (t.dieAt s.ev.x).bcast = k.pts ∧
    (∀ p ∈ s.cores, p.2.enabled = true → dieOf p.1 = s.ev.x →
      (t.coreAt p.1).pts = if 1024 < (k.pts - p.2.pts).toNat then k.pts - 1024 else p.2.pts) ∧
    (∀ c, (s.coreAt c).enabled = false ∨ dieOf c ≠ s.ev.x → t.coreAt c = s.coreAt c) ∧
    ∀ d, d ≠ s.ev.x → t.dieAt d = s.dieAt d) ∧
  (∀ (s : State) (e : L2Line), l2At s s.ev.x s.ev.y = some e → ∃ t, exec .l2LineSweep s = .next t ∧ sameMem s t ∧
    l2At t s.ev.x s.ev.y = some (if ((s.dieAt s.ev.x).bcast - e.rts).toNat < 2 ^ 15 ∧ 16384 < ((s.dieAt s.ev.x).bcast - e.rts).toNat
      then { e with wts := (s.dieAt s.ev.x).bcast - 16384, rts := (s.dieAt s.ev.x).bcast - 16384 } else e)) ∧
  (∀ (s : State) (line : Nat) (c : L1Copy), l1At s s.ev.x line = some c →
    (∃ t, exec .l1LeaseSweep s = .next t ∧ sameMem s t ∧ l1At t s.ev.x line = some { c with expired := c.expired || !copyValid s s.ev.x c }) ∧
    (s.ev.y = line → ∃ t, exec .leaseExpiry s = .next t ∧ sameMem s t ∧ l1At t s.ev.x line = some { c with expired := c.expired || !copyValid s s.ev.x c }))

/-- R229, R243: a store performed at an L2 that may write the line merges its bytes, and stamps line and writer with the later of the core's time and one past the line's read
timestamp; the version rises by one. The write of an agent without logical time uses the broadcast in place of the core's time. No byte of memory changes. -/
def Sys2Proof.Claims.StoresAtL2 : Prop :=
  (∀ (s : State) (c line : Nat) (m : ByteMask) (d : Line) (e : L2Line), l2At s (dieOf c) line = some e → e.st = .m ∨ e.st = .e →
    ∃ t, coreWrite s c line m d = some t ∧ sameMem s t ∧ t.teams = s.teams ∧ (t.coreAt c).pts = tsMax (s.coreAt c).pts (e.rts + 1) ∧
      l2At t (dieOf c) line = some { e with
        st := .m, data := mergeLine e.data m d, wts := tsMax (s.coreAt c).pts (e.rts + 1), rts := tsMax (s.coreAt c).pts (e.rts + 1), ver := e.ver + 1
        used := s.cc, granted := false }) ∧
  (∀ (s : State) (b : Nat) (e : L2Line), s.ev.nums = [b] → b < 256 → backed s s.ev.y = true → extentGone s (64 * (s.ev.y / 64)) = false → l2At s s.ev.x (s.ev.y / 64) = some e → e.st = .m ∨ e.st = .e →
    ∃ t, exec .externalAgentWrite s = .next t ∧ sameMem s t ∧ t.teams = s.teams ∧ t.cores = s.cores ∧
      l2At t s.ev.x (s.ev.y / 64) = some { e with
        st := .m, data := mergeLine e.data (maskOf (s.ev.y % 64) 1) (lineData (s.ev.y % 64) [BitVec.ofNat 8 b])
        wts := tsMax (s.dieAt s.ev.x).bcast (e.rts + 1), rts := tsMax (s.dieAt s.ev.x).bcast (e.rts + 1), ver := e.ver + 1, used := s.cc, granted := false })

/-- R87, R111, R151, R183: what the functions of atomics and reductions store. The second operand is `cas`'s alone. -/
def Sys2Proof.Claims.AtomicValues : Prop :=
  ∀ old x y : Word,
    (atomFn .add old x y).toNat = (old.toNat + x.toNat) % 2 ^ 32 ∧
    (atomFn .minI old x y).toInt = min old.toInt x.toInt ∧ (atomFn .maxI old x y).toInt = max old.toInt x.toInt ∧
    (atomFn .minZ old x y).toNat = min old.toNat x.toNat ∧ (atomFn .maxZ old x y).toNat = max old.toNat x.toNat ∧
    (∀ k, k < 32 → (atomFn .and old x y).getLsbD k = (old.getLsbD k && x.getLsbD k) ∧ (atomFn .or old x y).getLsbD k = (old.getLsbD k || x.getLsbD k) ∧
      (atomFn .xor old x y).getLsbD k = xor (old.getLsbD k) (x.getLsbD k)) ∧
    atomFn .xchg old x y = x ∧ (old = x → atomFn .cas old x y = y) ∧ (old ≠ x → atomFn .cas old x y = old) ∧
    atomFn .fadd old x y = toF32 (XVal.add .rne (ofF32 old) (ofF32 x)) .rne false ∧
    ((ofF32 old).isNaN = true ∨ (ofF32 x).isNaN = true → atomFn .fadd old x y = 0x7FC00000) ∧
    ∀ op ∈ [AOp.fmin, AOp.fmax],
      ((ofF32 old).isNaN = true → (ofF32 x).isNaN = true → atomFn op old x y = 0x7FC00000) ∧
      ((ofF32 old).isNaN = true → (ofF32 x).isNaN = false → atomFn op old x y = x) ∧
      ((ofF32 old).isNaN = false → (ofF32 x).isNaN = true → atomFn op old x y = old) ∧
      ((ofF32 old).isNaN = false → (ofF32 x).isNaN = false → (atomFn op old x y = old ∨ atomFn op old x y = x) ∧
        (op = .fmin → XVal.le (ofF32 (atomFn op old x y)) (ofF32 old) = true ∧ XVal.le (ofF32 (atomFn op old x y)) (ofF32 x) = true) ∧
        (op = .fmax → XVal.le (ofF32 old) (ofF32 (atomFn op old x y)) = true ∧ XVal.le (ofF32 x) (ofF32 (atomFn op old x y)) = true))

/-- R183: an atomic's lane on a line that the die may write reads the old word, writes the function of it and its operands, and leaves the other bytes; lanes of one line act in lane
order, each on what the one before left. -/
def Sys2Proof.Claims.AtomicsReadModifyWrite : Prop :=
  ∀ (s : State) (c line : Nat) (op : AOp) (e : L2Line) (a b : LaneAcc), l2At s (dieOf c) line = some e → e.st = .m ∨ e.st = .e → winsOf s c line = [] →
    (∀ x ∈ (s.coreAt c).sbuf, x.line ≠ line) → (∀ p ∈ s.blocks, ∀ w ∈ p.2.staged, w.seen = false) → a.addr / 64 = line → b.addr / 64 = line → a.addr % 4 = 0 → b.addr % 4 = 0 →
    ∃ t k r, atomGlobal s c op line [a, b] = some (t, r) ∧ sameMem s t ∧ l2At t (dieOf c) line = some k ∧ k.st = .m ∧
      r.map (fun x => x.data) =
        [lineNat e.data (a.addr % 64) 4,
         if b.addr = a.addr then (atomFn op (BitVec.ofNat 32 (lineNat e.data (a.addr % 64) 4)) (BitVec.ofNat 32 a.data) (BitVec.ofNat 32 a.data2)).toNat
         else lineNat e.data (b.addr % 64) 4] ∧
      (∀ o, o < 64 → o % 4 = 0 → o ≠ a.addr % 64 → o ≠ b.addr % 64 → lineNat k.data o 4 = lineNat e.data o 4) ∧
      (a.addr ≠ b.addr →
        lineNat k.data (a.addr % 64) 4 = (atomFn op (BitVec.ofNat 32 (lineNat e.data (a.addr % 64) 4)) (BitVec.ofNat 32 a.data) (BitVec.ofNat 32 a.data2)).toNat)

/-- R193, R204, R206: a pending watch entry is confirmed when its core has no buffered store to the line and its die's L2 holds the line with the version and write timestamp seen, as the same arrival, its read
timestamp at most 2^14 past the fetch; else it is struck. A residency schedule without an invalid entry is loaded while no launch runs that may use the die, and not otherwise; a marked
window line, clean, is evicted.
Readings and choices of the model's own: log entries 55, 65. -/
def Obligations.WatchesAndResidency : Prop :=
  (∀ (s : State) (w : Watch), w ∈ (s.coreAt s.ev.x).watch → w.id = s.ev.y → w.st = .pending → ∃ t, exec .watchValidation s = .next t ∧ sameMem s t ∧ t.teams = s.teams ∧
    ∃ v ∈ (t.coreAt s.ev.x).watch, v = { w with st := v.st } ∧
      (v.st = .confirmed ↔ (∀ e ∈ (s.coreAt s.ev.x).sbuf, e.line ≠ w.line) ∧ ∃ e, l2At s (dieOf s.ev.x) w.line = some e ∧ e.wts = w.wts ∧ e.ver = w.ver ∧ e.arr = w.arr ∧
        ((e.rts - w.fetched).toNat < 2 ^ 15 → (e.rts - w.fetched).toNat ≤ 2 ^ 14)) ∧
      (v.st = .confirmed ∨ v.st = .struck)) ∧
  (∀ s : State, (∃ p ∈ s.grids, p.2.ended = false ∧ p.2.diesMask.testBit s.ev.x = true) ∨
      (∃ n ∈ s.ev.nums.take 256, schedOk (BitVec.ofNat 128 n) = false) → exec .residencyScheduleLoad s = .next s) ∧
  (∀ s : State, (∀ p ∈ s.grids, p.2.ended = true ∨ p.2.diesMask.testBit s.ev.x = false) →
    (∀ n ∈ s.ev.nums.take 256, schedOk (BitVec.ofNat 128 n) = true) → ∃ t, exec .residencyScheduleLoad s = .next t ∧ sameMem s t ∧
    t.teams = s.teams ∧ (t.dieAt s.ev.x).sched = (s.ev.nums.take 256).map (BitVec.ofNat 128)) ∧
  (∀ s : State, s.ev.y ∈ (s.coreAt s.ev.x).evictQ → (s.coreAt s.ev.x).sbuf = [] →
    (∀ b w i, (b, w, i) ∈ winsOf s s.ev.x s.ev.y → ∀ l, kGet i w.lines = some l → l.dirty = 0) →
    ∃ t, exec .residencyEviction s = .next t ∧ sameMem s t ∧ t.teams = s.teams ∧ (t.coreAt s.ev.x).evictQ = (s.coreAt s.ev.x).evictQ.filter (fun l => l ≠ s.ev.y) ∧
      ∀ p ∈ onCore s s.ev.x, ∀ w ∈ (t.blockAt p.1).windows, ∀ q ∈ w.lines, q.2.pa ≠ s.ev.y)


/-! ### Translation -/

namespace Sys2Proof.Claims

/-- A team's own stream waits for a walk of an address. -/
def walking (s : State) (va acc : Nat) : Prop := (s.teamAt s.ev.x).wait = .walk va acc

/-- Die and context of the team of an event. -/
def evDie (s : State) : Nat := dieOf (s.teamAt s.ev.x).core
def evAsid (s : State) : Nat := (s.gridAt (s.teamAt s.ev.x).grid).asid

/-- Where the descent of the tree of an address's region ends (R279): from ROOT, one level an entry. -/
def endsAt (s : State) (va : Nat) (r : Descent) : Prop :=
  rfValid (regionOf s (evDie s) (evAsid s) va) = true ∧ va < 2 ^ 57 ∧
  descend s (rfPsz (regionOf s (evDie s) (evAsid s) va)) va 5 (rfRoot (regionOf s (evDie s) (evAsid s) va)) = r

/-- The leaf that the page table holds for an address, whatever the size of its pages. -/
def leafAt (s : State) (va addr e : Nat) : Prop := endsAt s va (.leaf addr e)

/-- Level of the leaf, and log2 of the page's bytes, by the code of the page size (R278, R279). -/
def specLeaf (psz : Nat) : Nat := [1, 1, 2, 3].getD psz 3
def specBits (psz : Nat) : Nat := [12, 16, 21, 30].getD psz 30

/-- A valid entry is bad at a level (R280): a reserved bit, LEAF at the wrong level, permissions on a table, PPN bits below the page size. -/
def badEntry (psz level e : Nat) : Prop :=
  (∃ i, (i = 2 ∨ (8 ≤ i ∧ i < 12) ∨ (52 ≤ i ∧ i < 64)) ∧ e.testBit i = true) ∨ (e.testBit 1 = true ↔ level ≠ specLeaf psz) ∨
  (level ≠ specLeaf psz ∧ ∃ i, 3 ≤ i ∧ i < 8 ∧ e.testBit i = true) ∨ (level = specLeaf psz ∧ ∃ i, 12 ≤ i ∧ i < specBits psz ∧ e.testBit i = true)

end Sys2Proof.Claims

/-- R279, R280, R281, R282: a walk that ends at a leaf which permits the access, with A set and, for a write, D set, puts the translation into the core's TLB and makes the team ready; a leaf
that does not permit it, a bad entry, a missing region or an address past 2^57 leaves a fault of the page, of kind 3, 4 or 2, for the instruction to take when it replays. -/
def Sys2Proof.Claims.PageWalks : Prop :=
  ∀ (s : State) (va acc : Nat), walking s va acc →
    (∀ addr e x, leafAt s va addr e → x = entryOf (regionOf s (evDie s) (evAsid s) va) (evAsid s) va e → permOk x acc = true → backed s x.ppage = true →
      e ||| 64 ||| (if isWriteAcc acc then 128 else 0) = e →
      (x.mclass = 1 → ∃ p ∈ s.pages, p.1 ≤ x.ppage ∧ x.ppage < p.1 + p.2.size) →
      ∃ t, exec .pageWalk s = .next t ∧ sameMem s t ∧ (t.teamAt s.ev.x).wait = .none ∧ (t.teamAt s.ev.x).xlat = x :: (s.teamAt s.ev.x).xlat ∧
        findTlb (t.coreAt (s.teamAt s.ev.x).core).tlb (evAsid s) va = some x) ∧
    (∀ addr e, leafAt s va addr e → permOk (entryOf (regionOf s (evDie s) (evAsid s) va) (evAsid s) va e) acc = false →
      ∃ t, exec .pageWalk s = .next t ∧ sameMem s t ∧ (t.teamAt s.ev.x).wait = .none ∧ (t.teamAt s.ev.x).walkFault = (s.teamAt s.ev.x).walkFault ++
        [{ va := pageBase (regionOf s (evDie s) (evAsid s) va) va, acc := acc, kind := 3, level := specLeaf (rfPsz (regionOf s (evDie s) (evAsid s) va)), waiters := 1 }]) ∧
    (∀ level addr, endsAt s va (.bad 4 level addr) →
      ∃ t, exec .pageWalk s = .next t ∧ sameMem s t ∧ (t.teamAt s.ev.x).wait = .none ∧ (t.teamAt s.ev.x).walkFault = (s.teamAt s.ev.x).walkFault ++
        [{ va := pageBase (regionOf s (evDie s) (evAsid s) va) va, acc := acc, kind := 4, level := level, waiters := 1 }]) ∧
    (2 ^ 57 ≤ va ∨ rfValid (regionOf s (evDie s) (evAsid s) va) = false →
      ∃ t, exec .pageWalk s = .next t ∧ sameMem s t ∧ (t.teamAt s.ev.x).wait = .none ∧ (t.teamAt s.ev.x).walkFault = (s.teamAt s.ev.x).walkFault ++
        [{ va := pageBase (regionOf s (evDie s) (evAsid s) va) va, acc := acc, kind := 2, level := 5, waiters := 1 }])

/-- R279, R280: at each level the descent reads the entry of the level's index. One that is not valid ends it with kind 1, a bad one with kind 4; a leaf's entry at its level ends it, and
another's PPN names the next table. -/
def Sys2Proof.Claims.WalkEntries : Prop :=
  ∀ (s : State) (psz va n base e : Nat), psz < 4 → n < 5 → backed s (base + 8 * walkIndex psz (n + 1) va) = true →
    e = viewNat s (base + 8 * walkIndex psz (n + 1) va) 8 →
    (e.testBit 0 = false → descend s psz va (n + 1) base = .bad 1 (n + 1) (base + 8 * walkIndex psz (n + 1) va)) ∧
    (e.testBit 0 = true → badEntry psz (n + 1) e → descend s psz va (n + 1) base = .bad 4 (n + 1) (base + 8 * walkIndex psz (n + 1) va)) ∧
    (e.testBit 0 = true → ¬badEntry psz (n + 1) e → n + 1 = specLeaf psz →
      descend s psz va (n + 1) base = .leaf (base + 8 * walkIndex psz (n + 1) va) e) ∧
    (e.testBit 0 = true → ¬badEntry psz (n + 1) e → n + 1 ≠ specLeaf psz →
      descend s psz va (n + 1) base = descend s psz va n (e / 2 ^ 12 % 2 ^ 40 * 4096))

/-- R279: the index of a virtual address at each level of the tree. -/
def Sys2Proof.Claims.WalkIndexes : Prop :=
  ∀ va : Nat, (∀ psz, psz < 4 → walkIndex psz 5 va = va / 2 ^ 48 % 32) ∧ (∀ psz, psz < 4 → walkIndex psz 4 va = va / 2 ^ 39 % 512) ∧
    (∀ psz, psz < 4 → walkIndex psz 3 va = va / 2 ^ 30 % 512) ∧ (∀ psz, psz < 4 → walkIndex psz 2 va = va / 2 ^ 21 % 512) ∧
    walkIndex 0 1 va = va / 2 ^ 12 % 512 ∧ walkIndex 1 1 va = va / 2 ^ 16 % 32

/-- R283: a waiter of a fault whose service has ended is ready again; the host's answer serves the fault, or, refused, leaves each waiter the fault of kind 1 with the number of waiters. -/
def Sys2Proof.Claims.FaultService : Prop :=
  (∀ (s : State) (die asid page : Nat) (m : Merge), (s.teamAt s.ev.x).wait = .service die asid page → m ∈ (s.dieAt die).stage → m.asid = asid → m.page = page →
    m.served = true → s.ev.x ∈ m.waiters → ∃ t, exec .faultWaiterReplay s = .next t ∧ sameMem s t ∧ (t.teamAt s.ev.x).wait = .none ∧
      ∀ k ∈ (t.dieAt die).stage, k.asid = asid → k.page = page → k.served = true → s.ev.x ∉ k.waiters) ∧
  (∀ (s : State) (m : Merge), (s.dieAt s.ev.x).stage = [m] → m.asid = s.ev.y → m.page = s.ev.z → m.ft = false → m.served = false → m.engines = [] →
    m.waiters ≠ [] → m.waiters.Nodup → (∀ tid ∈ m.waiters, (s.teamAt tid).wait = .service s.ev.x s.ev.y s.ev.z ∧ ∃ u, kGet tid s.teams = some u) →
    ∃ t, exec .hostFaultAcknowledge s = .next t ∧ sameMem s t ∧
      (s.ev.ok = true → (t.dieAt s.ev.x).stage = [{ m with served := true }] ∧ ∀ tid ∈ m.waiters, (t.teamAt tid).wait = (s.teamAt tid).wait) ∧
      (s.ev.ok = false → (t.dieAt s.ev.x).stage = [] ∧ ∀ tid ∈ m.waiters, (t.teamAt tid).wait = .none ∧
        (t.teamAt tid).walkFault = (s.teamAt tid).walkFault ++ [{ va := s.ev.z, acc := m.acc, kind := 1, level := m.level, waiters := m.waiters.length }]))


/-! ### Copies -/

namespace Sys2Proof.Claims

/-- Word i of the scalar quad that a code from 88 on names (R218). -/
def quadW (t : Team) (code i : Nat) : Word := t.sreg (code - 88 + i)

/-- The operation of a class C instruction before what is its own: scope `core` unless SCOPE says otherwise, the modifier's space and service class, its flag or continuation. -/
def copyBase (s : State) (m : Word) (k : CKind) : CopyOp :=
  { id := s.team.nextOp, tid := s.cur, kind := k, src := 0, dst := 0, space := mSpace m, rows := 0, rowBytes := 0, strideS := 0, strideD := 0,
    pattern := 0, offs := [], elem := 1, nl := 0, pbits := 1, orient := 0, scope := if mScope m = 0 then 1 else mScope m, scls := mSclsV m,
    flag := if mCont m then none else selFlag s.team m, cont := mCont m, strm := s.curStream.isSome, pos := 0, paused := false, svc := none,
    phase := teamPhase s s.cur }

/-- Shape quad of B: at most 65535 rows of at most 2^24 bytes. -/
def shapeFits (t : Team) (f : Fields) : Prop := (quadW t f.b.toNat 0).toNat ≤ 65535 ∧ (quadW t f.b.toNat 1).toNat ≤ 2 ^ 24
/-- Gather quad of A: element bytes a power of two up to 64. -/
def gatherFits (t : Team) (f : Fields) : Prop := (quadW t f.a.toNat 3).toNat ∈ [1, 2, 4, 8, 16, 32, 64]
/-- Plane quad of B: K a multiple of 32 from 32 to 65536, 1 to 256 lines, 1 to 8 bits in bits 3:0, orientation in bit 4, no other bits. -/
def planeFits (t : Team) (f : Fields) : Prop :=
  let k := (quadW t f.b.toNat 1).toNat
  let n := (quadW t f.b.toNat 2).toNat
  let w := (quadW t f.b.toNat 3).toNat
  32 ≤ k ∧ k ≤ 65536 ∧ k % 32 = 0 ∧ 1 ≤ n ∧ n ≤ 256 ∧ 1 ≤ w % 16 ∧ w % 16 ≤ 8 ∧ w < 32

def inShape (t : Team) (f : Fields) (o : CopyOp) : CopyOp :=
  { o with rows := (quadW t f.b.toNat 0).toNat, rowBytes := (quadW t f.b.toNat 1).toNat, strideS := (quadW t f.b.toNat 2).toInt,
           strideD := (quadW t f.b.toNat 3).toInt }
/-- Signed offsets of the present lanes, from B. -/
def signedOffs (t : Team) (f : Fields) : List (Nat × Int) :=
  (laneList t.lanes (presentSet t (modOf .c f))).map (fun l => (l, (srcV t f.b.toNat 0 l).toInt))
def quadBase (t : Team) (f : Fields) : Nat := (quadW t f.a.toNat 0).toNat + 2 ^ 32 * (quadW t f.a.toNat 1).toNat

/-- Class C: constructor, kind, the range its quad must keep, and the operation it makes (R217, R218). -/
def copyRows : List ((Fields → Instr) × CKind × (Team → Fields → Prop) × (Team → Fields → CopyOp → CopyOp)) :=
  [(.cpG2s, .g2s, shapeFits, fun t f o => { inShape t f o with src := (srcBase t f.a.toNat).toNat, dst := (srcU t f.d.toNat 0).toNat }),
   (.cpS2g, .s2g, shapeFits, fun t f o => { inShape t f o with src := (srcU t f.a.toNat 0).toNat, dst := (srcBase t f.d.toNat).toNat }),
   (.cpG2g, .g2g, shapeFits, fun t f o => { inShape t f o with src := (srcBase t f.a.toNat).toNat, dst := (srcBase t f.d.toNat).toNat }),
   (.cpFill, .fill, shapeFits, fun t f o => { inShape t f o with
      pattern := srcU t f.a.toNat 0
      dst := if mSpace (modOf .c f) = 0 then (srcBase t f.d.toNat).toNat else (srcU t f.d.toNat 0).toNat }),
   (.cpGath, .gath, gatherFits, fun t f o => { o with
      src := quadBase t f, dst := (quadW t f.a.toNat 2).toNat, elem := (quadW t f.a.toNat 3).toNat, offs := signedOffs t f }),
   (.cpScat, .scat, gatherFits, fun t f o => { o with
      src := (quadW t f.a.toNat 2).toNat, dst := quadBase t f, elem := (quadW t f.a.toNat 3).toNat, offs := signedOffs t f }),
   (.cpPlane, .plane, planeFits, fun t f o => { o with
      src := (srcBase t f.a.toNat).toNat, dst := (srcU t f.d.toNat 0).toNat, strideS := ((quadW t f.b.toNat 0).toNat : Int)
      rows := (quadW t f.b.toNat 1).toNat, nl := (quadW t f.b.toNat 2).toNat
      pbits := (quadW t f.b.toNat 3).toNat % 16, orient := (quadW t f.b.toNat 3).toNat / 16 % 2 }),
   (.cpTlr, .tlr, fun _ _ => True, fun t f o => { o with
      src := (srcBase t f.a.toNat).toNat, dst := f.d.toNat, orient := if f.a = 120 then 1 else 0 })]

/-- An instruction put one copy at the end of its partition's queue and went on: counted on its flag, or waiting for its continuation at the label with the mask of issue. -/
def queuedCopy (s t : State) (f : Fields) (o : CopyOp) : Prop :=
  t = { s.setTeam t.team with parts := t.parts } ∧ wentOn s.team t.team (lenOf f) ∧
  t.partAt s.team.partNo = { s.partAt s.team.partNo with copyQ := (s.partAt s.team.partNo).copyQ ++ [o] } ∧
  (∀ p, p ≠ s.team.partNo → t.partAt p = s.partAt p) ∧
  t.team.flags = (s.team.flagUp o.flag).flags ∧
  t.team.wait = (if o.cont then .cont (labelOf s.team f) s.team.mask else s.team.wait) ∧
  { placed s.team t.team with nextOp := s.team.nextOp, flags := s.team.flags, wait := s.team.wait } = s.team

/-- The head copy of the partition of an event, ready to go on. -/
def headCopy (s : State) (o : CopyOp) (r : List CopyOp) : Prop :=
  (s.partAt s.ev.x).copyQ = o :: r ∧ o.paused = false ∧ o.svc = none ∧ heldByFenceq s o.tid 1 o.id = false

end Sys2Proof.Claims

/-- R180, R217, R218, R219, R220: a copy with a present lane and a quad in range enters its partition's queue; a quad out of range takes the Illegal Operand trap over the whole mask;
with no present lane nothing is copied, and the team goes on, at the label where the copy has one. -/
def Obligations.CopiesEnterQueue : Prop :=
  ∀ row ∈ copyRows, ∀ (f : Fields) (s : State), reaches s (row.1 f) = true →
    (presentSet s.team (modOf .c f) ≠ 0 → row.2.2.1 s.team f →
      ∃ t, exec (row.1 f) s = .next t ∧ queuedCopy s t f (row.2.2.2 s.team f (copyBase s (modOf .c f) row.2.1))) ∧
    (presentSet s.team (modOf .c f) ≠ 0 → ¬ row.2.2.1 s.team f → exec (row.1 f) s = trapLanes s { cause := 3 } s.team.mask) ∧
    (presentSet s.team (modOf .c f) = 0 → ∃ t, exec (row.1 f) s = .next t ∧ OnlyTeam s t ∧ placed s.team t.team = s.team ∧
      (mCont (modOf .c f) = false → wentOn s.team t.team (lenOf f)) ∧
      (mCont (modOf .c f) = true → t.team.pc = labelOf s.team f ∧ t.team.clause = none ∧ t.team.rep = 0 ∧ t.team.inRep = none))

/-- R47, R48, R49: the same for class Q, which may hold its A, and for class M and the gathering and scattering copies, which may hold their B, whether or not a lane is present. -/
def Sys2Proof.Claims.HoldOfOtherClasses : Prop :=
  (∀ row ∈ sfuRows, ∀ (f : Fields) (s : State), s.team.warps ≤ 32 → s.team.latch.ptr < 3 → reaches s (row.1 f) = true → f.hold = 0 ∨ f.hold = 1 →
    (s.partAt s.team.partNo).sfuQ.length < 16 →
    ∃ t, exec (row.1 f) s = .next t ∧ latchAfter s.team.latch t.team.latch f.hold s.team.lanes (fun l =>
      widenFloat s.team (mNfs (modOf .q f)) (mAsub (modOf .q f)) (srcV s.team f.a.toNat (immOf f) l))) ∧
  (∀ row ∈ laneRows, ∀ (f : Fields) (s : State), s.team.warps ≤ 32 → s.team.latch.ptr < 3 → reaches s (row.1 f) = true → f.hold = 0 ∨ f.hold = 2 →
    (presentSet s.team (modOf .m f) = 0 ∨
      ((∃ accs, lanesPass s f row.2.1 row.2.2 accs) ∧ (mSem (modOf .m f) < 2 ∨ watchesClear s) ∧ (s.gridAt s.team.grid).replay = false ∧ (s.gridAt s.team.grid).det = false)) →
    ∃ t, exec (row.1 f) s = .next t ∧ latchAfter s.team.latch t.team.latch f.hold s.team.lanes (srcV s.team f.b.toNat (immOf f))) ∧
  (∀ row ∈ [(Instr.cpGath, CKind.gath), (.cpScat, .scat)], ∀ (f : Fields) (s : State), s.team.warps ≤ 32 → s.team.latch.ptr < 3 → reaches s (row.1 f) = true →
    f.hold = 0 ∨ f.hold = 2 → presentSet s.team (modOf .c f) = 0 ∨ gatherFits s.team f →
    ∃ t, exec (row.1 f) s = .next t ∧ latchAfter s.team.latch t.team.latch f.hold s.team.lanes (srcV s.team f.b.toNat 0))

/-- R221, R224: a fill of one row of its team's own stash writes byte 8 (j mod 4) of the pattern to byte j of the row, and nothing else; a row of global memory that translates to lines the
die holds arrives in the stash as its team reads it; a fill that starts outside the stash writes nothing, pauses, and leaves the Stash Access fault of its first byte to its team. -/
def Sys2Proof.Claims.CopySegmentsMove : Prop :=
  ∀ (s : State) (o : CopyOp) (r : List CopyOp) (b : Nat), headCopy s o r → o.pos = 0 → o.rows = 1 → 1 ≤ o.rowBytes → b = (s.teamAt o.tid).block →
    (s.teamAt o.tid).trap.sup = false → (s.blockAt b).windows = [] → (s.blockAt b).tiles = [] → o.space = 1 → o.dst < 2 ^ 32 →
    (o.kind = .fill → o.dst + o.rowBytes ≤ (s.blockAt b).stashBytes → o.dst + o.rowBytes ≤ 2 ^ 22 →
      ∃ t, exec .copySegment s = .next t ∧ sameMem s t ∧ t.teams = s.teams ∧ t.cores = s.cores ∧ (∀ k, k ≠ b → t.blockAt k = s.blockAt k) ∧
        (t.partAt s.ev.x).copyQ = { o with pos := o.rowBytes, held := [] } :: r ∧
        ∀ i, bGet (t.blockAt b).stash i =
          if o.dst ≤ i ∧ i < o.dst + o.rowBytes then o.pattern.extractLsb' (8 * ((i - o.dst) % 4)) 8 else bGet (s.blockAt b).stash i) ∧
    (∀ x pa, o.kind = .g2s → o.dst % 64 + o.rowBytes ≤ 64 → o.dst + o.rowBytes ≤ (s.blockAt b).stashBytes → o.dst + o.rowBytes ≤ 2 ^ 22 →
      findTlb (s.coreAt (s.teamAt o.tid).core).tlb (s.gridAt (s.teamAt o.tid).grid).asid o.src = some x → x.r = true → x.mclass = 0 →
      pa = x.ppage + (o.src - x.vpage) → pa % 64 = o.src % 64 → pa % 64 + o.rowBytes ≤ 64 → o.rowBytes ≤ pageLeft s o o.src → o.src < 2 ^ 64 →
      (∀ i, i < o.rowBytes → extentGone s (pa + i) = false) → poisonIn s pa o.rowBytes = false → sealedLine s (pa / 64) = false →
      (∃ e, l2At s (dieOf (s.teamAt o.tid).core) (pa / 64) = some e) →
      ∃ t, exec .copySegment s = .next t ∧ sameMem s t ∧ t.teams = s.teams ∧ t.cores = s.cores ∧ (∀ k, k ≠ b → t.blockAt k = s.blockAt k) ∧
        (t.partAt s.ev.x).copyQ = { o with pos := o.rowBytes, held := [] } :: r ∧
        ∀ i, bGet (t.blockAt b).stash i =
          if o.dst ≤ i ∧ i < o.dst + o.rowBytes then (engineBytes s (s.teamAt o.tid) pa o.rowBytes).getD (i - o.dst) 0 else bGet (s.blockAt b).stash i) ∧
    (o.kind = .fill → (s.blockAt b).stashBytes ≤ o.dst → (s.teamAt o.tid).live ≠ 0 →
      ∃ t, exec .copySegment s = .next t ∧ sameMem s t ∧ t.blocks = s.blocks ∧ (t.partAt s.ev.x).copyQ = { o with paused := true } :: r ∧
        t.teamAt o.tid = { s.teamAt o.tid with
          pendCopy := some { cause := 0x10, i0 := BitVec.ofNat 32 o.dst, i1 := 0, i2 := 0, i3 := 1, strm := false } })

namespace Sys2Proof.Claims

/-- A global side of n bytes within one line: ordinary memory whose page the copy's core has a translation for. -/
def lineSide (s : State) (o : CopyOp) (a n pa : Nat) (x : TlbEntry) : Prop :=
  a < 2 ^ 64 ∧ a % 64 + n ≤ 64 ∧ findTlb (s.coreAt (s.teamAt o.tid).core).tlb (s.gridAt (s.teamAt o.tid).grid).asid a = some x ∧ x.mclass = 0 ∧
  pa = x.ppage + (a - x.vpage) ∧ pa % 64 = a % 64 ∧ ∀ i, i < n → extentGone s (pa + i) = false
/-- One that may be read, whose line the die holds. -/
def readSide (s : State) (o : CopyOp) (a n pa : Nat) (x : TlbEntry) : Prop :=
  lineSide s o a n pa x ∧ x.r = true ∧ poisonIn s pa n = false ∧ sealedLine s (pa / 64) = false ∧
  ∃ e, l2At s (dieOf (s.teamAt o.tid).core) (pa / 64) = some e
/-- A line that may be written: its page is dirty already and no append page; the core has no window on it. -/
def mayWrite (s : State) (o : CopyOp) (pa : Nat) (x : TlbEntry) : Prop :=
  x.w = true ∧ x.dirty = true ∧ pageOf s pa = none ∧ winsOf s (s.teamAt o.tid).core (pa / 64) = []
/-- In a launch that is not deterministic the line's write goes to the die, which may write it; the core has no store of its own on it. -/
def ownedLine (s : State) (o : CopyOp) (pa : Nat) (e : L2Line) : Prop :=
  (s.gridAt (s.teamAt o.tid).grid).det = false ∧ l2At s (dieOf (s.teamAt o.tid).core) (pa / 64) = some e ∧ (e.st = .m ∨ e.st = .e) ∧
  ∀ k ∈ (s.coreAt (s.teamAt o.tid).core).sbuf, k.line ≠ pa / 64
/-- A side that may be written, whose line e the die may write. -/
def writeSide (s : State) (o : CopyOp) (a n pa : Nat) (x : TlbEntry) (e : L2Line) : Prop :=
  lineSide s o a n pa x ∧ mayWrite s o pa x ∧ ownedLine s o pa e
/-- A side in the team's own stash, with no window and no tile, outside a handler. -/
def stashSideOk (s : State) (o : CopyOp) (a n : Nat) : Prop :=
  o.space ≠ 2 ∧ (s.teamAt o.tid).trap.sup = false ∧ (s.blockAt (s.teamAt o.tid).block).windows = [] ∧ (s.blockAt (s.teamAt o.tid).block).tiles = [] ∧
  a + n ≤ (s.blockAt (s.teamAt o.tid).block).stashBytes ∧ a + n ≤ 2 ^ 22

/-- The head copy's segment wrote bytes into one line at the die's L2: no byte of memory or of a stash, no team and no other line of any L2 changed, but for
when it was last used. -/
def segmentWrote (s t : State) (o : CopyOp) (r : List CopyOp) (adv pa : Nat) (e : L2Line) (bs : List Byte) : Prop :=
  exec .copySegment s = .next t ∧ sameMem s t ∧ t.teams = s.teams ∧ (∀ k, (t.blockAt k).stash = (s.blockAt k).stash) ∧
  (t.partAt s.ev.x).copyQ = { o with pos := o.pos + adv, held := [] } :: r ∧ (∀ d l, l ≠ pa / 64 → (l2At t d l).map (fun x => { x with used := 0 }) = (l2At s d l).map (fun x => { x with used := 0 })) ∧
  ∃ k, l2At t (dieOf (s.teamAt o.tid).core) (pa / 64) = some k ∧ k.data = mergeLine e.data (maskOf (pa % 64) bs.length) (lineData (pa % 64) bs)
/-- The head copy's segment wrote bytes into its team's stash and changed nothing else. -/
def segmentFilled (s t : State) (o : CopyOp) (r : List CopyOp) (adv a : Nat) (bs : List Byte) : Prop :=
  exec .copySegment s = .next t ∧ sameMem s t ∧ t.teams = s.teams ∧ t.cores = s.cores ∧
  (∀ k, k ≠ (s.teamAt o.tid).block → t.blockAt k = s.blockAt k) ∧ (t.partAt s.ev.x).copyQ = { o with pos := o.pos + adv, held := [] } :: r ∧
  ∀ i, bGet (t.blockAt (s.teamAt o.tid).block).stash i =
    if a ≤ i ∧ i < a + bs.length then bs.getD (i - a) 0 else bGet (s.blockAt (s.teamAt o.tid).block).stash i

/-- Bytes as the copy's team reads them, and bytes of its stash. -/
def coreBs (s : State) (o : CopyOp) (pa n : Nat) : List Byte := engineBytes s (s.teamAt o.tid) pa n
def stashBs (s : State) (o : CopyOp) (a n : Nat) : List Byte := stashRead s (s.teamAt o.tid).block a n

/-- Container bits of a code of p bits (R223). -/
def specContainer (p : Nat) : Nat := if p ≤ 2 then p else if p ≤ 4 then 4 else 8

end Sys2Proof.Claims

/-- R213, R221, R222, R223, R224, R372: the segments of the other copies, one line on each global side. `cp.s2g` and `cp.g2g` write their row's bytes to the destination's line, or, in a
deterministic launch, stage them; `cp.gath` writes a
lane's element, from the base and the lane's signed offset, at its place in the stash, and `cp.scat` the other way; `cp.plane` puts bit j of code q of line i at bit i mod 8 of byte
32 (p q + j) + i / 8, and a zero for a line past the count; `cp.tlr` reads a record into the binding or empties it, and a malformed record leaves the Key Access fault. -/
def Sys2Proof.Claims.CopyKindsMove : Prop :=
  ∀ (s : State) (o : CopyOp) (r : List CopyOp), headCopy s o r →
    (∀ pa x e, o.kind = .s2g → o.pos = 0 → o.rows = 1 → 1 ≤ o.rowBytes → stashSideOk s o o.src o.rowBytes → writeSide s o o.dst o.rowBytes pa x e →
      ∃ t, segmentWrote s t o r o.rowBytes pa e (stashBs s o o.src o.rowBytes)) ∧
    (∀ pa x, o.kind = .s2g → o.pos = 0 → o.rows = 1 → 1 ≤ o.rowBytes → stashSideOk s o o.src o.rowBytes → lineSide s o o.dst o.rowBytes pa x → mayWrite s o pa x →
      (s.gridAt (s.teamAt o.tid).grid).det = true → (s.blockAt (s.teamAt o.tid).block).staged = [] →
      ∃ t, exec .copySegment s = .next t ∧ sameMem s t ∧ t.teams = s.teams ∧ t.dies = s.dies ∧ t.cores = s.cores ∧
        (t.partAt s.ev.x).copyQ = { o with pos := o.rowBytes, held := [] } :: r ∧ (∀ k, k ≠ (s.teamAt o.tid).block → t.blockAt k = s.blockAt k) ∧
        t.blockAt (s.teamAt o.tid).block = { s.blockAt (s.teamAt o.tid).block with
          staged := [{ team := (s.teamAt o.tid).index, seq := o.id, lane := 0, pa := pa, bytes := stashBs s o o.src o.rowBytes, red := none
                       core := (s.teamAt o.tid).core, lease := 0, phase := o.phase }] }) ∧
    (∀ pa x pb y e, o.kind = .g2g → o.pos = 0 → o.rows = 1 → 1 ≤ o.rowBytes → o.overlaps = false → readSide s o o.src o.rowBytes pa x →
      writeSide s o o.dst o.rowBytes pb y e → ∃ t, segmentWrote s t o r o.rowBytes pb e (coreBs s o pa o.rowBytes)) ∧
    (∀ l d pa x, o.kind = .gath → o.pos = 0 → o.offs = [(l, d)] → o.elem ∈ [1, 2, 4, 8, 16, 32, 64] → addrPlus o.src d % o.elem = 0 → o.dst % o.elem = 0 →
      readSide s o (addrPlus o.src d) o.elem pa x → stashSideOk s o (o.dst + o.elem * l) o.elem →
      ∃ t, segmentFilled s t o r 1 (o.dst + o.elem * l) (coreBs s o pa o.elem)) ∧
    (∀ l d pa x e, o.kind = .scat → o.pos = 0 → o.offs = [(l, d)] → o.elem ∈ [1, 2, 4, 8, 16, 32, 64] → addrPlus o.dst d % o.elem = 0 → o.src % o.elem = 0 →
      stashSideOk s o (o.src + o.elem * l) o.elem → writeSide s o (addrPlus o.dst d) o.elem pa x e →
      ∃ t, segmentWrote s t o r 1 pa e (stashBs s o (o.src + o.elem * l) o.elem)) ∧
    (o.kind = .tlr → o.orient = 1 → o.pos = 0 → ∃ t, exec .copySegment s = .next t ∧ sameMem s t ∧ t.blocks = s.blocks ∧
      t.teamAt o.tid = { s.teamAt o.tid with binds := kDel o.dst (s.teamAt o.tid).binds } ∧ (t.partAt s.ev.x).copyQ = { o with pos := 1, held := [] } :: r) ∧
    (∀ pa x, o.kind = .tlr → o.orient = 0 → o.pos = 0 → o.src % 64 = 0 → readSide s o o.src 64 pa x → (s.teamAt o.tid).live ≠ 0 →
      ((tlrOf (coreBs s o pa 64)).2 = 0 → keyGranted s (s.teamAt o.tid) (tlrOf (coreBs s o pa 64)).1.key = true →
        ∃ t, exec .copySegment s = .next t ∧ sameMem s t ∧ t.blocks = s.blocks ∧
          t.teamAt o.tid = { s.teamAt o.tid with binds := kPut o.dst (tlrOf (coreBs s o pa 64)).1 (s.teamAt o.tid).binds } ∧
          (t.partAt s.ev.x).copyQ = { o with pos := 1, held := [] } :: r) ∧
      ((tlrOf (coreBs s o pa 64)).2 = 1 → ∃ t, exec .copySegment s = .next t ∧ sameMem s t ∧ t.blocks = s.blocks ∧
        t.teamAt o.tid = { s.teamAt o.tid with
          pendCopy := some { cause := 0x18, i0 := BitVec.ofNat 32 o.src, i1 := BitVec.ofNat 32 (o.src / 2 ^ 32), i2 := 0, i3 := 1, strm := false } })) ∧
    (∀ i j q a pa x, o.kind = .plane → o.pos + 1 = o.total → i < 256 → j < o.pbits → o.pos = 256 * (o.pbits * q + j) + i → 1 ≤ o.pbits → o.pbits ≤ 8 →
      a = addrPlus o.src ((if o.orient = 0 then i else q) * o.strideS +
        (((if o.orient = 0 then q else i) * specContainer o.pbits + j) / 8 : Nat)) →
      i < o.nl → readSide s o a 1 pa x → stashSideOk s o (o.dst + 32 * (o.pbits * q + j) + i / 8) 1 →
      ∃ t, segmentFilled s t o r 1 (o.dst + 32 * (o.pbits * q + j) + i / 8)
        [BitVec.ofNat 8 ((List.range 8).foldl (fun v k => if (if k = i % 8
            then ((coreBs s o pa 1).headD 0).getLsbD (((if o.orient = 0 then q else i) * specContainer o.pbits + j) % 8)
            else (bGet (s.blockAt (s.teamAt o.tid).block).stash (o.dst + 32 * (o.pbits * q + j) + i / 8)).getLsbD k) = true then v + 2 ^ k else v) 0)])

namespace Sys2Proof.Claims

/-- A side of n bytes within one 64-byte unit, at physical address pa, of an encrypted tensor's page (R214). -/
def cryptSide (s : State) (o : CopyOp) (a n pa : Nat) (x : TlbEntry) : Prop :=
  a < 2 ^ 64 ∧ 1 ≤ n ∧ a % 64 + n ≤ 64 ∧ findTlb (s.coreAt (s.teamAt o.tid).core).tlb (s.gridAt (s.teamAt o.tid).grid).asid a = some x ∧ x.mclass = 2 ∧
  x.vpage ≤ a / 64 * 64 ∧ pa = x.ppage + (a / 64 * 64 - x.vpage) ∧ pa % 64 = 0 ∧ (∀ i, i < 64 → extentGone s (pa + i) = false) ∧
  poisonIn s pa 64 = false ∧ sealedLine s (pa / 64) = false
/-- The unit at pa, as AES-256-XTS with the binding's key and the unit's number within the tensor gives it (R214). -/
def unitCrypt (s : State) (enc : Bool) (b : Tlr) (a : Nat) (d : Line) : Line :=
  let k := kGetD (b.key % 8192) KeySlot.reset s.plat.keys
  xtsUnit enc k.data k.tweak ((a / 64 * 64 - b.base) / 64) d
/-- What the unit at pa decrypts to. -/
def plainUnit (s : State) (o : CopyOp) (b : Tlr) (a pa : Nat) : Line :=
  unitCrypt s false b a (BitVec.ofNat 512 (leNat (engineBytes s (s.teamAt o.tid) pa 64)))

/-- The head copy paused, and the Key Access fault of an address, with a reason, waits for its team (R215). -/
def keyFaulted (s : State) (o : CopyOp) (r : List CopyOp) (a reason : Nat) : Prop :=
  ∃ t, exec .copySegment s = .next t ∧ sameMem s t ∧ t.blocks = s.blocks ∧ t.dies = s.dies ∧ (t.partAt s.ev.x).copyQ = { o with paused := true } :: r ∧
    t.teamAt o.tid = { s.teamAt o.tid with
      pendCopy := some { cause := 0x18, i0 := BitVec.ofNat 32 a, i1 := BitVec.ofNat 32 (a / 2 ^ 32), i2 := 0, i3 := BitVec.ofNat 32 reason, strm := false } }

end Sys2Proof.Claims

/-- R214, R215, R216: a copy of one row within a unit of an encrypted tensor. `cp.g2s` puts bytes of the decrypted unit into the stash; `cp.s2g` decrypts the unit, replaces the row's bytes,
encrypts it again and writes it whole. A unit in no binding leaves the Key Access fault with reason 3 to its team, one whose key is not granted with reason 2. -/
def Sys2Proof.Claims.EncryptedCopiesMove : Prop :=
  ∀ (s : State) (o : CopyOp) (r : List CopyOp) (a pa : Nat) (x : TlbEntry), headCopy s o r → o.pos = 0 → o.rows = 1 → cryptSide s o a o.rowBytes pa x →
    (o.kind = .g2s → o.src = a → x.r = true → o.dst % 64 + o.rowBytes ≤ 64 → stashSideOk s o o.dst o.rowBytes →
      (∀ b, bindingOf (s.teamAt o.tid) (a / 64 * 64) = some b → keyGranted s (s.teamAt o.tid) b.key = true →
        (∃ e, l2At s (dieOf (s.teamAt o.tid).core) (pa / 64) = some e) →
        ∃ t, segmentFilled s t o r o.rowBytes o.dst (((lineBytes (plainUnit s o b a pa)).drop (a % 64)).take o.rowBytes)) ∧
      ((s.teamAt o.tid).live ≠ 0 → bindingOf (s.teamAt o.tid) (a / 64 * 64) = none → keyFaulted s o r a 3) ∧
      (∀ b, (s.teamAt o.tid).live ≠ 0 → bindingOf (s.teamAt o.tid) (a / 64 * 64) = some b → keyGranted s (s.teamAt o.tid) b.key = false → keyFaulted s o r a 2)) ∧
    (o.kind = .s2g → o.dst = a → mayWrite s o pa x → stashSideOk s o o.src o.rowBytes →
      (∀ b e, bindingOf (s.teamAt o.tid) (a / 64 * 64) = some b → keyGranted s (s.teamAt o.tid) b.key = true → ownedLine s o pa e →
        ∃ t, segmentWrote s t o r o.rowBytes pa e (lineBytes (unitCrypt s true b a
          (mergeLine (plainUnit s o b a pa) (maskOf (a % 64) o.rowBytes) (lineData (a % 64) (stashBs s o o.src o.rowBytes)))))) ∧
      ((s.teamAt o.tid).live ≠ 0 → bindingOf (s.teamAt o.tid) (a / 64 * 64) = none → keyFaulted s o r a 3) ∧
      (∀ b, (s.teamAt o.tid).live ≠ 0 → bindingOf (s.teamAt o.tid) (a / 64 * 64) = some b → keyGranted s (s.teamAt o.tid) b.key = false → keyFaulted s o r a 2))

/-- R223: the move of a plane copy at every position: its code's line, its code, its plane, whatever the orientation; a line past the count has no source. -/
def Sys2Proof.Claims.PlaneMoves : Prop :=
  ∀ (o : CopyOp) (i j q : Nat), o.kind = .plane → 1 ≤ o.pbits → o.pbits ≤ 8 → i < 256 → j < o.pbits →
    elemAt o (256 * (o.pbits * q + j) + i) =
      { src := if i < o.nl then some (addrPlus o.src ((if o.orient = 0 then i else q) * o.strideS +
          (((if o.orient = 0 then q else i) * specContainer o.pbits + j) / 8 : Nat))) else none
        dst := o.dst + 32 * (o.pbits * q + j) + i / 8, len := 1, adv := 1, fill := 0
        sbit := ((if o.orient = 0 then q else i) * specContainer o.pbits + j) % 8, dbit := i % 8 }

/-- R220, R225: a copy whose last segment is performed leaves its queue; its completion counts its flag down, or its team goes on at the label with the mask of issue and the live lanes. -/
def Sys2Proof.Claims.CopyCompletes : Prop :=
  ∀ (s : State) (o : CopyOp) (r : List CopyOp), headCopy s o r → o.total ≤ o.pos → (o.scope ≤ 1 ∨ (s.coreAt (s.teamAt o.tid).core).sbuf = []) →
    ∃ t, exec .copyCompletion s = .next t ∧ sameMem s t ∧ t.blocks = s.blocks ∧ t.cores = s.cores ∧ (t.partAt s.ev.x).copyQ = r ∧
      (∀ u, u ≠ o.tid → t.teamAt u = s.teamAt u) ∧
      (o.cont = false → (∀ k, o.flag = some k → (t.teamAt o.tid).flag k = (s.teamAt o.tid).flag k - 1) ∧
        { t.teamAt o.tid with sched := (s.teamAt o.tid).sched, flags := (s.teamAt o.tid).flags } = s.teamAt o.tid) ∧
      (∀ l m, o.cont = true → o.strm = false → (s.teamAt o.tid).wait = .cont l m →
        t.teamAt o.tid = { s.teamAt o.tid with
          pc := l, clause := none, mask := m &&& (s.teamAt o.tid).live, wait := .none, sched := { (s.teamAt o.tid).sched with readySince := s.cc } })


/-! ### The matrix unit -/

namespace Sys2Proof.Claims

/-- The eight instructions of class A that touch the matrix state. -/
def matrixRows : List (Fields → Instr) := [.mzero, .mloop, .mgrp, .mdrainS, .mdrainA, .msave, .mrest, .mstat]

/-- The team has the lanes a matrix instruction needs, and no other team holds the matrix state (R295, R296). -/
def mayUseMatrix (s : State) : Prop :=
  256 ≤ s.team.lanes ∧ ((s.partAt s.team.partNo).holder = none ∨ (s.partAt s.team.partNo).holder = some s.cur)

/-- The partition of a team that has become the holder: the state is as it was for a team that held it, cleared for another (R295). -/
def heldPart (s : State) : Part :=
  if (s.partAt s.team.partNo).holder = some s.cur then s.partAt s.team.partNo
  else { s.partAt s.team.partNo with
    holder := some s.cur, mat := { acc := [], rowFlag := 0, colFlag := 0, rm := false, fresh := true, last := 0 } }

/-- The team's own part of an instruction that put one operation at the end of the matrix queue, counted on its flag, and went on. -/
def queuedMatTeam (s t : State) (f : Fields) (k : MatKind) : Prop :=
  wentOn s.team t.team (lenOf f) ∧
  t.team.matQ = s.team.matQ ++ [{ id := s.team.nextOp, kind := k, flag := selFlag s.team (modOf .a f), phase := teamPhase s s.cur }] ∧
  t.team.flags = (s.team.flagUp (selFlag s.team (modOf .a f))).flags ∧ t.team.usedMat = true ∧
  t.partAt s.team.partNo = heldPart s ∧ (∀ p, p ≠ s.team.partNo → t.partAt p = s.partAt p) ∧
  { placed s.team t.team with matQ := s.team.matQ, nextOp := s.team.nextOp, flags := s.team.flags, usedMat := s.team.usedMat } = s.team

/-- The same, with the rest of the machine untouched. -/
def queuedMat (s t : State) (f : Fields) (k : MatKind) : Prop :=
  queuedMatTeam s t f k ∧ t = { s.setTeam t.team with parts := t.parts }

/-- A loop changed its format block in the stash: offsets at bytes 8 to 15 by the increments, selectors at bytes 6 and 7 by the control word's (R304, R305). -/
def blockAdvanced (s t : State) (fo : Nat) (b : FBlock) (inc ctl : Word) : Prop :=
  t = { s.setTeam t.team with parts := t.parts, blocks := t.blocks } ∧ (∀ k, k ≠ s.team.block → t.blockAt k = s.blockAt k) ∧
  ∀ i, bGet (t.blockAt s.team.block).stash i =
    if fo + 8 ≤ i ∧ i < fo + 12 then (leBytes 4 (b.offA + 32 * (inc.toNat % 65536))).getD (i - (fo + 8)) 0
    else if fo + 12 ≤ i ∧ i < fo + 16 then (leBytes 4 (b.offB + 32 * (inc.toNat / 65536))).getD (i - (fo + 12)) 0
    else if i = fo + 6 then BitVec.ofNat 8 (b.sela + ctl.toNat / 2 ^ 12)
    else if i = fo + 7 then BitVec.ofNat 8 (b.selb + ctl.toNat / 2 ^ 20)
    else bGet (s.blockAt s.team.block).stash i

/-- A code of an operand in the stash: `p` planes from `base` on, line i, index k (R297). -/
def stashCode (st : KMap Byte) (base p k i : Nat) : Nat :=
  (List.range p).foldl (fun a t => if (bGet st (base + 32 * (p * k + t) + i / 8)).getLsbD (i % 8) then a + 2 ^ t else a) 0

/-- Round a value into an accumulator container, to nearest even (R109). -/
def acc40Of (v : XVal) : BitVec 40 := BitVec.ofNat 40 (narrow acc40 v .rne false)

/-- What a drain writes of an element (R311). -/
def drained (m : Matrix) (ty : Nat) (nf : Word) (mode : Nat) (sat : Bool) (i j : Nat) : Nat :=
  let a := (kGetD (256 * i + j) 0 m.acc).toNat
  if m.rowFlag.getLsbD i ∨ m.colFlag.getLsbD j then
    (if ty = 0 then 0x7FC00000 else if ty = 1 then 0x7E00 else if ty = 2 then 0x7FC0 else if ty = 4 then 0x7FC0000000 else ((nfFmt nf).nan).getD 0)
  else if ty = 4 then a
  else narrow (if ty = 0 then fp32 else if ty = 1 then fp16 else if ty = 2 then bf16 else nfFmt nf) (widen acc40 a) (RMode.ofCode mode) sat

/-- Bytes of a drained element. -/
def drainedBytes (ty : Nat) : Nat := match ty with
  | 0 => 4
  | 1 => 2
  | 2 => 2
  | 3 => 1
  | _ => 8

/-- The head operation of a team's matrix queue may be performed: its team holds the matrix state and is placed, and no `fenceq` holds it. -/
def headMat (s : State) (o : MatOp) (r : List MatOp) : Prop :=
  (s.teamAt s.ev.x).matQ = o :: r ∧ (s.partAt (s.teamAt s.ev.x).partNo).holder = some s.ev.x ∧ (s.teamAt s.ev.x).status ≠ .saved ∧
  heldByFenceq s s.ev.x 2 o.id = false

/-- The matrix state of the team of an event. -/
def evMat (s : State) : Matrix := (s.partAt (s.teamAt s.ev.x).partNo).mat

/-- The head operation left the queue and counted its flag down; of its team nothing else changed but what the statement says of `u`. -/
def headGone (s t : State) (o : MatOp) (r : List MatOp) (u : Team) : Prop :=
  { t.teamAt s.ev.x with sched := u.sched } = { u with matQ := r, flags := (u.flagDown o.flag).flags } ∧
  (∀ k, k ≠ s.ev.x → t.teamAt k = s.teamAt k) ∧ (∀ p, p ≠ (s.teamAt s.ev.x).partNo → t.partAt p = s.partAt p)

end Sys2Proof.Claims

/-- R295, R296: a matrix instruction of a team of fewer than 256 lanes is an Illegal Instruction; while another team holds the matrix state it waits, with no effect. -/
def Sys2Proof.Claims.MatrixHolder : Prop :=
  ∀ c ∈ matrixRows, ∀ (f : Fields) (s : State), reaches s (c f) = true →
    (s.team.lanes < 256 → exec (c f) s = trapLanes s { cause := 2 } s.team.mask) ∧
    (∀ h, 256 ≤ s.team.lanes → (s.partAt s.team.partNo).holder = some h → h ≠ s.cur → exec (c f) s = .next s)

/-- R303, R313, R315, R316, R318: `mzero`, `mstat`, `mdrain.a`, `msave` and `mrest` whose operands and pages pass enter the matrix queue with their issue-time operands; an operand out of range takes
the Illegal Operand trap, a misaligned save area the Misaligned Access fault. -/
def Sys2Proof.Claims.MatrixInstructionsEnterQueue : Prop :=
  ∀ (f : Fields) (s : State), mayUseMatrix s →
    (reaches s (.mzero f) = true → ∃ t, exec (.mzero f) s = .next t ∧ queuedMat s t f .zero) ∧
    (reaches s (.mstat f) = true → ((srcS s.team f.a.toNat (immOf f)).toNat ≤ 16 → ∃ t, exec (.mstat f) s = .next t ∧
        queuedMat s t f (.stat (if f.d.toNat < 64 then some f.d.toNat else none) (srcS s.team f.a.toNat (immOf f)).toNat)) ∧
      (16 < (srcS s.team f.a.toNat (immOf f)).toNat → exec (.mstat f) s = trapLanes s { cause := 3 } s.team.mask)) ∧
    (reaches s (.mdrainA f) = true → ∀ w col0 nc mode, w = (srcS s.team f.a.toNat (immOf f)).toNat → col0 = w % 256 → nc = w / 256 % 64 + 1 →
      modeAhead (matOf s s.team) s.team.matQ = some mode → (f.b.toNat = 3 → nfValid (s.team.nf (mNfs (modOf .a f))) = true) →
      (w < 16384 → col0 + nc ≤ 256 → f.d.toNat + nc ≤ 128 → regOk s.team .acc (f.d.toNat + nc - 1) = true → ∃ t, exec (.mdrainA f) s = .next t ∧
        queuedMat s t f (.drainA f.b.toNat (s.team.nf (mNfs (modOf .a f)))
          (if mRndCode (modOf .a f) = 7 then s.team.fmode.toNat % 8 else mRndCode (modOf .a f)) (mSat (modOf .a f)) f.d.toNat s.team.mask col0 nc)) ∧
      (16384 ≤ w ∨ 256 < col0 + nc → exec (.mdrainA f) s = trapLanes s { cause := 3 } s.team.mask)) ∧
    (∀ (c : Fields → Instr) (w : Want) (k : Nat → List TlbEntry → MatKind), (c, w, k) ∈ [(Instr.msave, wantWrite, MatKind.save), (Instr.mrest, wantRead, MatKind.rest)] →
      reaches s (c f) = true → ∀ va, va = (srcS64 s.team f.a.toNat 0).toNat →
      (va % 256 ≠ 0 → exec (c f) s = trapLanes s { cause := 0x11, i0 := BitVec.ofNat 32 va, i1 := BitVec.ofNat 32 (va / 2 ^ 32) } s.team.mask) ∧
      (va % 256 = 0 → ∀ xs : List TlbEntry, xs.length = (pagesOf s s.team va 524544).length → (∀ x ∈ xs, x.mclass ≠ 2) →
        (∀ p ∈ (pagesOf s s.team va 524544).zip xs, ∃ pa, translate s s.cur (p.1.1 % 2 ^ 64) w.bits = .ok pa p.2) →
        (∀ p ∈ pagesOf s s.team va 524544, ∀ a ∈ pageStarts (p.1 % 2 ^ 64) p.2, ∃ pa l c, checkGlobal s s.cur a 1 w = .ok none pa l c ∧ extentGone s pa = false) →
        ∃ t, exec (c f) s = .next t ∧ queuedMat s t f (k va xs)))

/-- R312, R318: `mdrain.s` of a rectangle in range, whose bytes lie in the stash, enters the matrix queue; a rectangle out of range, a reserved bit or a bad stride takes the Illegal Operand trap,
then a bad offset the Misaligned Access fault. -/
def Sys2Proof.Claims.StashDrainsEnterQueue : Prop :=
  ∀ (f : Fields) (s : State) (mode : Bool × Bool) (off stride row0 nr col0 nc last e : Nat), mayUseMatrix s → reaches s (.mdrainS f) = true →
    modeAhead (matOf s s.team) s.team.matQ = some mode → off = (s.team.sreg f.a.toNat).toNat → stride = (s.team.sreg (f.a.toNat + 1)).toNat →
    row0 = (s.team.sreg (f.a.toNat + 2)).toNat % 256 → nr = (s.team.sreg (f.a.toNat + 2)).toNat / 2 ^ 8 % 256 + 1 →
    col0 = (s.team.sreg (f.a.toNat + 2)).toNat / 2 ^ 16 % 256 → nc = (s.team.sreg (f.a.toNat + 2)).toNat / 2 ^ 24 + 1 →
    last = (s.team.sreg (f.a.toNat + 3)).toNat → e = drainedBytes f.d.toNat → f.d.toNat ≤ 4 →
    (f.d.toNat = 3 → nfValid (s.team.nf (mNfs (modOf .a f))) = true) →
    (2 ≤ last ∨ (if mode.1 then 128 else 256) < row0 + nr ∨ 256 < col0 + nc ∨ stride % e ≠ 0 → exec (.mdrainS f) s = trapLanes s { cause := 3 } s.team.mask) ∧
    (last < 2 → row0 + nr ≤ (if mode.1 then 128 else 256) → col0 + nc ≤ 256 → stride % e = 0 →
      (off % e ≠ 0 → exec (.mdrainS f) s = trapLanes s { cause := 0x11, i0 := BitVec.ofNat 32 off } s.team.mask) ∧
      (off % e = 0 → s.team.trap.sup = false →
        (∀ i j pos, i < nr → j < nc → pos = off + (if last = 1 then j * stride + i * e else i * stride + j * e) →
          pos < 2 ^ 22 ∧ pos + e ≤ (s.blockAt s.team.block).stashBytes) →
        ∃ t, exec (.mdrainS f) s = .next t ∧ queuedMat s t f (.drainS f.d.toNat (s.team.nf (mNfs (modOf .a f)))
          (if mRndCode (modOf .a f) = 7 then s.team.fmode.toNat % 8 else mRndCode (modOf .a f)) (mSat (modOf .a f)) off stride row0 nr col0 nc (last = 1))))

/-- R304, R305, R306, R307, R308: a loop whose block, ranges, key and table pass enters the matrix queue with the operands of issue and advances its block in the stash; a misaligned block, and a group
table whose rows exceed the array, take their faults, with no block written.
Readings and choices of the model's own: log entries 58, 96. -/
def Obligations.LoopsEnterQueue : Prop :=
  ∀ (f : Fields) (s : State) (fo steps : Nat) (b : FBlock) (mode : Bool × Bool), mayUseMatrix s → fo = (srcS s.team f.a.toNat 0).toNat → steps = (immOf f).toNat % 4096 + 1 →
    (s.blockAt s.team.block).windows = [] → heldByFenceq s s.cur 2 s.team.nextOp = false → modeAhead (matOf s s.team) s.team.matQ = some mode → b = fblockOf (stashRead s s.team.block fo 32) →
    (∀ c ∈ [Instr.mloop, Instr.mgrp], reaches s (c f) = true → fo % 32 ≠ 0 → exec (c f) s = trapLanes s { cause := 0x11, i0 := BitVec.ofNat 32 fo } s.team.mask) ∧
    (reaches s (.mloop f) = true → fo % 32 = 0 → rangeTrap s s.team fo 32 = none → blockTrap s.team (immOf f) b steps 0 mode = none →
      rangeTrap s s.team b.offA (1024 * elemBits (elemFmt s.team b.fa) * steps) = none → rangeTrap s s.team b.offB (1024 * elemBits (elemFmt s.team b.fb) * steps) = none →
      keyTrap s s.team fo b = none →
      ∃ t k, exec (.mloop f) s = .next t ∧ queuedMatTeam s t f k ∧ blockAdvanced s t fo b (srcS s.team f.b.toNat 0) (immOf f) ∧
        ∃ sa sb, k = .loop (elemFmt s.team b.fa) (elemFmt s.team b.fb) (16 * 2 ^ (b.len % 4)) (16 * 2 ^ (b.len / 4 % 4)) (b.flags.testBit 0) b.offA b.offB steps 0 sa sb
            [{ first := 0, count := if b.flags.testBit 0 then 128 else 256, boff := 0, bsel := 0 }] (selfPc s.team) ∧
          (b.flags.testBit 1 = false → sa = none) ∧ (b.flags.testBit 2 = false → sb = none)) ∧
    (reaches s (.mgrp f) = true → fo % 32 = 0 → rangeTrap s s.team fo 32 = none → b.flags < 2 → blockTrap s.team (immOf f) b steps 0 mode = none →
      rangeTrap s s.team b.offA (1024 * elemBits (elemFmt s.team b.fa) * steps) = none → keyTrap s s.team fo b = none →
      ∀ q gt groups, readTable s s.team (srcS s.team f.d.toNat 0).toNat (if b.flags.testBit 0 then 128 else 256) = some (q, gt) →
        groups = rowGroups (32 * steps / (16 * 2 ^ (b.len / 4 % 4))) 0 0 gt.groups →
        (∀ g ∈ groups, g.count ≠ 0 → rangeTrap s s.team (b.offB + g.boff) (1024 * elemBits (elemFmt s.team b.fb) * steps) = none) →
        (gt.tr = none → gt.bad = false → ∃ t, exec (.mgrp f) s = .next t ∧ blockAdvanced s t fo b (srcS s.team f.b.toNat 0) (immOf f) ∧
            queuedMatTeam s t f (.loop (elemFmt s.team b.fa) (elemFmt s.team b.fb) (16 * 2 ^ (b.len % 4)) (16 * 2 ^ (b.len / 4 % 4)) (b.flags.testBit 0) b.offA b.offB
              steps 0 none none groups (selfPc s.team))) ∧
        (∀ x, gt.tr = some x → exec (.mgrp f) s = trapLanes s x s.team.mask))

/-- R305, R309, R310, R319: a step of an ungrouped loop without scales adds, for each cell, the 32 products of the step in ascending k, each sum rounded to the accumulator; array row i takes line i, or i mod 128 in
redundant mode; a row or column with a special code is flagged. The first step after `mzero` sets RM, and every step LAST; the last step leaves the queue and counts the flag down.
Readings and choices of the model's own: log entry 97. -/
def Obligations.MatrixStepAccumulates : Prop :=
  ∀ (s : State) (o : MatOp) (rest : List MatOp) (fa fb : ElemFmt) (la lb : Nat) (red : Bool) (offA offB steps ran rows : Nat) (addr : DWord) (st : KMap Byte)
    (ca cb : Nat → Nat → Nat),
    headMat s o rest → (s.teamAt s.ev.x).live ≠ 0 → (s.blockAt (s.teamAt s.ev.x).block).windows = [] → rows = (if red then 128 else 256) → st = (s.blockAt (s.teamAt s.ev.x).block).stash →
    o.kind = .loop fa fb la lb red offA offB steps ran none none [{ first := 0, count := rows, boff := 0, bsel := 0 }] addr → offB < 2 ^ 32 →
    ca = stashCode st (offA + 1024 * elemBits fa * ran) (elemBits fa) → cb = stashCode st (offB + 1024 * elemBits fb * ran) (elemBits fb) →
    ∃ t m, exec .matrixStep s = .next t ∧ sameMem s t ∧ t.blocks = s.blocks ∧ t.cores = s.cores ∧
      (t.partAt (s.teamAt s.ev.x).partNo) = { s.partAt (s.teamAt s.ev.x).partNo with mat := m } ∧
      (∀ i j, i < 256 → j < 256 → kGetD (256 * i + j) 0 m.acc = (List.range 32).foldl (fun a k => acc40Of (XVal.add .rne (widen acc40 a.toNat)
        (XVal.mul (scaled fa (ca k (i % rows)) 0x80) (scaled fb (cb k j) 0x80)))) (kGetD (256 * i + j) 0 (evMat s).acc)) ∧
      (∀ i, i < 256 → (m.rowFlag.getLsbD i = true ↔ (evMat s).rowFlag.getLsbD i = true ∨ ∃ k, k < 32 ∧ elemSpecial fa (ca k (i % rows)) = true)) ∧
      (∀ j, j < 256 → (m.colFlag.getLsbD j = true ↔ (evMat s).colFlag.getLsbD j = true ∨ ∃ k, k < 32 ∧ elemSpecial fb (cb k j) = true)) ∧
      m.rm = (if (evMat s).fresh then red else (evMat s).rm) ∧ m.fresh = false ∧ m.last = addr ∧
      (ran + 1 = steps → headGone s t o rest (s.teamAt s.ev.x)) ∧
      (ran + 1 ≠ steps → t.teamAt s.ev.x = { s.teamAt s.ev.x with matQ := { o with
        kind := .loop fa fb la lb red offA offB steps (ran + 1) none none [{ first := 0, count := rows, boff := 0, bsel := 0 }] addr } :: rest })

/-- R303, R310, R311, R312, R313, R315, R316, R318: what the other operations do when the matrix queue performs them: `mzero` clears, `mstat` writes its word, the drains write the converted
elements and nothing else, a drain that finds differing copies writes nothing and leaves its trap, `msave` keeps the state and `mrest` replaces it by its area's; where the area has come to lie in a
closing or lost extent neither moves a byte, and the Extent Lost fault waits (R364). Each leaves the queue; a team without lanes or streams ends with its last. -/
def Sys2Proof.Claims.MatrixQueuePerforms : Prop :=
  ∀ (s : State) (o : MatOp) (r : List MatOp) (pn : Nat), headMat s o r → pn = (s.teamAt s.ev.x).partNo →
    (o.kind = .zero → r = [] → (s.teamAt s.ev.x).live = 0 → (s.teamAt s.ev.x).status = .live → (∀ e k, (s.teamAt s.ev.x).stream e = some k → k.ended = true) →
      ∃ t, exec .matrixQueuePerform s = .next t ∧ sameMem s t ∧ (t.teamAt s.ev.x).status = .ended ∧ (t.teamAt s.ev.x).matQ = []) ∧
    ((s.teamAt s.ev.x).live ≠ 0 →
    (o.kind = .zero → ∃ t, exec .matrixQueuePerform s = .next t ∧ sameMem s t ∧ t.blocks = s.blocks ∧ headGone s t o r (s.teamAt s.ev.x) ∧
      (t.partAt pn).mat = { acc := [], rowFlag := 0, colFlag := 0, rm := false, fresh := true, last := 0 }) ∧
    (∀ d w, o.kind = .stat (some d) w → d < 64 → w ≤ 16 → ∃ t, exec .matrixQueuePerform s = .next t ∧ sameMem s t ∧ t.blocks = s.blocks ∧ t.partAt pn = s.partAt pn ∧
      headGone s t o r ((s.teamAt s.ev.x).setSreg d (if w < 8 then (evMat s).rowFlag.extractLsb' (32 * w) 32 else if w < 16 then (evMat s).colFlag.extractLsb' (32 * (w - 8)) 32
        else BitVec.ofBool ((evMat s).colFlag != 0) ++ BitVec.ofBool ((evMat s).rowFlag != 0) ++ BitVec.ofBool (evMat s).fresh ++ BitVec.ofBool (evMat s).rm |>.zeroExtend 32))) ∧
    (∀ ty nf mode sat dst set col0 nc, o.kind = .drainA ty nf mode sat dst set col0 nc → (evMat s).rm = false → (s.teamAt s.ev.x).warps ≤ 32 → ty ≤ 4 →
      ∃ t, exec .matrixQueuePerform s = .next t ∧ sameMem s t ∧ t.blocks = s.blocks ∧ t.partAt pn = s.partAt pn ∧
        headGone s t o r { s.teamAt s.ev.x with regs := (t.teamAt s.ev.x).regs } ∧
        ∀ q l, l < (s.teamAt s.ev.x).lanes → (t.teamAt s.ev.x).word q l =
          if set.getLsbD l = true ∧ l < 256 ∧ (s.teamAt s.ev.x).aWord dst ≤ q ∧ q < (s.teamAt s.ev.x).aWord dst + 2 * nc then
            BitVec.ofNat 32 (drained (evMat s) ty nf mode sat l (col0 + (q - (s.teamAt s.ev.x).aWord dst) / 2) / 2 ^ (32 * ((q - (s.teamAt s.ev.x).aWord dst) % 2)))
          else (s.teamAt s.ev.x).word q l) ∧
    (∀ ty nf mode sat off stride row0 col0 nc, o.kind = .drainS ty nf mode sat off stride row0 1 col0 nc false → ty ≤ 4 →
      (s.blockAt (s.teamAt s.ev.x).block).windows = [] → off % drainedBytes ty = 0 →
      ((evMat s).rm = false → ∃ t, exec .matrixQueuePerform s = .next t ∧ sameMem s t ∧ t.partAt pn = s.partAt pn ∧ headGone s t o r (s.teamAt s.ev.x) ∧
        (∀ b, b ≠ (s.teamAt s.ev.x).block → t.blockAt b = s.blockAt b) ∧
        ∀ a, bGet (t.blockAt (s.teamAt s.ev.x).block).stash a =
          if off ≤ a ∧ a < off + nc * drainedBytes ty then
            (leBytes (drainedBytes ty) (drained (evMat s) ty nf mode sat row0 (col0 + (a - off) / drainedBytes ty))).getD ((a - off) % drainedBytes ty) 0
          else bGet (s.blockAt (s.teamAt s.ev.x).block).stash a) ∧
      ((evMat s).rm = true → 1 ≤ nc → kGetD (256 * row0 + col0) 0 (evMat s).acc ≠ kGetD (256 * (row0 + 128) + col0) 0 (evMat s).acc →
        ∃ t, exec .matrixQueuePerform s = .next t ∧ sameMem s t ∧ t.blocks = s.blocks ∧ t.partAt pn = s.partAt pn ∧
          headGone s t o r { s.teamAt s.ev.x with pendMat := (s.teamAt s.ev.x).pendMat ++
            [{ cause := 0x21, i0 := (evMat s).last.extractLsb' 0 32, i1 := (evMat s).last.extractLsb' 32 32, i2 := BitVec.ofNat 32 row0, i3 := BitVec.ofNat 32 col0, strm := false }] }))) ∧
    (∀ va xs a, o.kind = .save va xs ∨ o.kind = .rest va xs → areaLost s va xs = some a → (s.teamAt s.ev.x).status = .live →
      ∃ t, exec .matrixQueuePerform s = .next t ∧ sameMem s t ∧ t.blocks = s.blocks ∧ t.dies = s.dies ∧ t.partAt pn = s.partAt pn ∧
        headGone s t o r { s.teamAt s.ev.x with pendMat := (s.teamAt s.ev.x).pendMat ++
          [{ cause := 0x13, i0 := BitVec.ofNat 32 a, i1 := BitVec.ofNat 32 (a / 2 ^ 32), i2 := 0, i3 := 0, strm := false }] }) ∧
    (∀ va xs q, o.kind = .save va xs → areaLost s va xs = none → saveArea s { tid := s.ev.x, id := o.id, phase := o.phase } va (matImage (evMat s)) xs = some q →
      ∃ t, exec .matrixQueuePerform s = .next t ∧ sameMem q t ∧ (t.partAt (q.teamAt s.ev.x).partNo).mat = evMat s ∧
        (t.teamAt s.ev.x).matQ = (q.teamAt s.ev.x).matQ.drop 1) ∧
    (∀ va xs q bs, o.kind = .rest va xs → areaLost s va xs = none → restPoisoned s va xs = false → restArea s (s.teamAt s.ev.x) va xs = some (q, bs) →
      ∃ t, exec .matrixQueuePerform s = .next t ∧ sameMem q t ∧ (t.partAt (q.teamAt s.ev.x).partNo).mat = matOfImage bs ∧
        (t.teamAt s.ev.x).matQ = (q.teamAt s.ev.x).matQ.drop 1)

/-- R314, R315: a matrix state that `msave` writes and `mrest` reads back is the same state, bit for bit: every accumulator container, both sets of flags, RM, FRESH and LAST. -/
def Sys2Proof.Claims.MatrixAreaRoundTrip : Prop :=
  ∀ m : Matrix, kCanon 0 m.acc = true → (∀ p ∈ m.acc, p.1 < 65536) → matOfImage (matImage m) = m ∧ (matImage m).length = 524544


/-! ### The function store -/

namespace Sys2Proof.Claims

/-- No log is written or read for the team's grid. -/
def notLogged (s : State) : Prop := (s.gridAt s.team.grid).replay = false ∧ (s.gridAt s.team.grid).recording = false

/-- An instruction put one operation at the end of its core's store queue, counted on a flag; the rest of the machine but its team is as before. -/
def queuedFs (s t : State) (k : FsKind) (flag : Option Nat) : Prop :=
  t = { s.setTeam t.team with cores := t.cores } ∧
  t.coreAt s.team.core = { s.coreAt s.team.core with
    fsQ := (s.coreAt s.team.core).fsQ ++ [{ id := s.team.nextOp, tid := s.cur, kind := k, flag := flag }] } ∧
  (∀ c, c ≠ s.team.core → t.coreAt c = s.coreAt c) ∧ t.team.flags = (s.team.flagUp flag).flags

/-- The team went on, with nothing else of it changed. -/
def fsWentOn (s t : State) (f : Fields) : Prop :=
  wentOn s.team t.team (lenOf f) ∧ { placed s.team t.team with nextOp := s.team.nextOp, flags := s.team.flags } = s.team

/-- Word i of the register group from code d in a lane. -/
def groupWord (t : Team) (d i l : Nat) : Word := t.word (t.vWord d + i) l

/-- The head operation of a core's store queue, which no `fenceq` holds and whose grid goes on. -/
def headFs (s : State) (o : FsOp) (r : List FsOp) : Prop :=
  (s.coreAt s.ev.x).fsQ = o :: r ∧ heldByFenceq s o.tid 4 o.id = false ∧ (s.gridAt (s.teamAt o.tid).grid).failed = false ∧
  (s.teamAt o.tid).core = s.ev.x

/-- A slot of the grid of an operation's team, on the core of the event. -/
def evSlot (s : State) (o : FsOp) (k : Nat) : FnSlot := slotAt s s.ev.x (s.teamAt o.tid).grid k

/-- The operation left the queue, and of the slots of its grid at most slot k changed. -/
def fsPerformed (s t : State) (o : FsOp) (r : List FsOp) (k : Nat) : Prop :=
  (t.coreAt s.ev.x).fsQ = r ∧ (∀ c, c ≠ s.ev.x → t.coreAt c = s.coreAt c) ∧ sameMem s t ∧ t.blocks = s.blocks ∧
  (∀ j, j ≠ k → j < 16 → k < 16 → evSlot t o j = evSlot s o j) ∧ ∀ u, u ≠ o.tid → t.teamAt u = s.teamAt u

/-- The team of an operation counted its flag down; nothing else of it changed but its waiting time. -/
def fsTeamDone (s t : State) (o : FsOp) : Prop :=
  { t.teamAt o.tid with sched := (s.teamAt o.tid).sched } = { s.teamAt o.tid with flags := ((s.teamAt o.tid).flagDown o.flag).flags }

/-- A list of records, in descending serial, is what a load takes of the records at the places below n of a page: the newest, up to a number, but those
that a newer one taken supersedes (R340). -/
def newestRecords (allot : Nat) (rec : Nat → Option FnRec) (n : Nat) (l : List FnRec) : Prop :=
  l.length ≤ allot ∧ (l.map (fun x => x.serial)).Pairwise (· > ·) ∧
  (∀ x ∈ l, (∃ i, i < n ∧ rec i = some x) ∧ ∀ y ∈ l, x.serial < y.serial → y.super ≠ x.serial) ∧
  ∀ i x, i < n → rec i = some x → x ∈ l ∨ (∃ y ∈ l, x.serial < y.serial ∧ y.super = x.serial) ∨ (l.length = allot ∧ ∀ y ∈ l, x.serial < y.serial)

/-- A record of a working set lies near enough to an argument to grow (R338). -/
def mayGrow (d : FnDesc) (x : List Word) (q : WRec) : Prop := XVal.le (fnDist d.w x q.r.c) (rneV (XVal.mul (ofF32 d.g) (ofF32 q.r.radius))) = true

/-- FP32 codes that are finite numbers. -/
def allFinite (l : List Word) : Prop := ∀ w ∈ l, (ofF32 w).isFinite = true

end Sys2Proof.Claims

/-- R333, R335, R340, R341, R342, R348: `fsload`, `fsdrop`, `fsqry` and `fcall` of a bound slot enter the store queue of their core; `fcall` reads its arguments at issue and waits; an unbound slot and a bad selector
take the Illegal Operand trap, a call within a call the Nested Call trap, reason 1; with an empty mask `fcall` does nothing. In a log's run the log comes first. -/
def Sys2Proof.Claims.StoreInstructionsEnterQueue : Prop :=
  ∀ (f : Fields) (s : State), notLogged s →
    (reaches s (.fsload f) = true → (∀ d, descAhead s s.team f.d.toNat = some d → d.staged = false →
        ∃ t, exec (.fsload f) s = .next t ∧ queuedFs s t (.load f.d.toNat) (selFlag s.team (modOf .y f)) ∧ fsWentOn s t f) ∧
      (descAhead s s.team f.d.toNat = none → exec (.fsload f) s = trapLanes s { cause := 3 } s.team.mask)) ∧
    (reaches s (.fsdrop f) = true → (∀ d, descAhead s s.team f.d.toNat = some d → d.staged = false →
        ∃ t, exec (.fsdrop f) s = .next t ∧ queuedFs s t (.drop f.d.toNat) none ∧ fsWentOn s t f) ∧
      (descAhead s s.team f.d.toNat = none → exec (.fsdrop f) s = trapLanes s { cause := 3 } s.team.mask)) ∧
    (reaches s (.fsqry f) = true →
      ((immOf f).toNat ≤ 6 → ((immOf f).toNat = 6 ∨ (descAhead s s.team f.b.toNat).isSome = true) → ∃ t, exec (.fsqry f) s = .next t ∧
        queuedFs s t (.query f.b.toNat (immOf f).toNat f.d.toNat) (selFlag s.team (modOf .y f)) ∧ fsWentOn s t f) ∧
      (6 < (immOf f).toNat ∨ ((immOf f).toNat ≠ 6 ∧ descAhead s s.team f.b.toNat = none) → exec (.fsqry f) s = trapLanes s { cause := 3 } s.team.mask)) ∧
    (reaches s (.fcall f) = true → descAhead s s.team f.b.toNat = none → s.team.call = none → exec (.fcall f) s = trapLanes s { cause := 3 } s.team.mask) ∧
    (reaches s (.fcall f) = true → ∀ d, descAhead s s.team f.b.toNat = some d → groupOk s.team f.d.toNat d.m = true → groupOk s.team f.a.toNat d.d = true →
      (s.team.call = none → s.team.mask ≠ 0 → s.team.stack.length < 32 → ∃ t, exec (.fcall f) s = .next t ∧
        queuedFs s t (.search f.b.toNat f.d.toNat f.a.toNat d.m (labelOf s.team f) (s.team.pc + BitVec.ofNat 64 (lenOf f)) s.team.mask
          ((laneList s.team.lanes s.team.mask).map (fun l => (l, (List.range d.d).map (fun i => groupWord s.team f.a.toNat i l))))) (selFlag s.team (modOf .y f)) ∧
        t.team.wait = .store ∧ wentOn s.team t.team (lenOf f) ∧
        { placed s.team t.team with nextOp := s.team.nextOp, flags := s.team.flags, wait := s.team.wait } = s.team) ∧
      (s.team.call = none → s.team.mask ≠ 0 → 32 ≤ s.team.stack.length → exec (.fcall f) s = trapLanes s (stackTrapOf 1 s.team.stack) s.team.mask) ∧
      (s.team.call = none → s.team.mask = 0 → ∃ t, exec (.fcall f) s = .next t ∧ OnlyTeam s t ∧ wentOn s.team t.team (lenOf f) ∧ placed s.team t.team = s.team) ∧
      (∀ c, s.team.call = some c → exec (.fcall f) s = trapLanes s { cause := 0x22, i0 := 1, i1 := BitVec.ofNat 32 f.b.toNat } s.team.mask))

/-- R337, R348: `fret` writes its lanes' results to the registers the call named, queues their arguments, values and derivatives for insertion, and returns its lanes to the mask and the word after the call; without an
open call it takes the Nested Call trap, reason 2. -/
def Sys2Proof.Claims.FretReturns : Prop :=
  ∀ (f : Fields) (s : State), notLogged s → reaches s (.fret f) = true → s.team.warps ≤ 32 →
    (s.team.call = none → exec (.fret f) s = trapLanes s { cause := 0x22, i0 := 2, i1 := 0 } s.team.mask) ∧
    (∀ c e r d, s.team.call = some c → s.team.stack = e :: r → e.kind = .fnK → descAhead s s.team c.slot = some d →
      groupOk s.team f.d.toNat d.m = true → groupOk s.team f.a.toNat (d.m * d.d) = true →
      ∃ t, exec (.fret f) s = .next t ∧
        queuedFs s t (.insert c d.d d.m ((laneList s.team.lanes s.team.mask).map (fun l =>
          ((List.range d.d).map (fun i => groupWord s.team c.a i l), (List.range d.m).map (fun i => groupWord s.team f.d.toNat i l),
            (List.range (d.m * d.d)).map (fun i => groupWord s.team f.a.toNat i l))))) (selFlag s.team (modOf .y f)) ∧
        t.team.pc = e.addr ∧ t.team.clause = none ∧ t.team.mask = e.save &&& s.team.live ∧ t.team.stack = r ∧ t.team.call = none ∧
        (∀ q l, l < s.team.lanes → t.team.word q l = if s.team.mask.getLsbD l = true ∧ s.team.vWord c.d ≤ q ∧ q < s.team.vWord c.d + d.m then
          groupWord s.team f.d.toNat (q - s.team.vWord c.d) l else s.team.word q l) ∧
        { placed s.team t.team with
          nextOp := s.team.nextOp, flags := s.team.flags, regs := s.team.regs, mask := s.team.mask, stack := s.team.stack, call := s.team.call } = s.team)

/-- R326, R334: `fsdef` whose descriptor, read from the core's valid copy of its line, has every field in range, names an append-class region at a page boundary and fits the slot's allotment queues the binding; a field
out of range takes the Illegal Operand trap, a TBASE outside an append-class region the Region Class fault; in a deterministic launch it takes the Illegal Operand trap whatever the descriptor
(R370). -/
def Sys2Proof.Claims.FsdefBinds : Prop :=
  ∀ (f : Fields) (s : State) (va pa lease cls : Nat) (x : L1Copy) (d : FnDesc) (ok : Bool), notLogged s → reaches s (.fsdef f) = true → va = (srcS64 s.team f.a.toNat 0).toNat →
    checkGlobal s s.cur va 64 wantRead = .ok none pa lease cls → s.team.memQ = [] → sealedLine s (pa / 64) = false → winsOf s s.team.core (pa / 64) = [] →
    l1At s s.team.core (pa / 64) = some x → copyValid s s.team.core x = true → descOf (lineBytes (overlay s s.team.core (pa / 64) x.data)) = (d, ok) →
    ((s.gridAt s.team.grid).det = true → exec (.fsdef f) s = trapLanes s { cause := 3 } s.team.mask) ∧
    ((s.gridAt s.team.grid).det = false → tbaseClass s (dieOf s.team.core) (s.gridAt s.team.grid).asid d = false →
      exec (.fsdef f) s = trapLanes s { cause := 0x14, i0 := BitVec.ofNat 32 d.tbase, i1 := BitVec.ofNat 32 (d.tbase / 2 ^ 32) } s.team.mask) ∧
    (tbaseClass s (dieOf s.team.core) (s.gridAt s.team.grid).asid d = true → tbaseOk s (dieOf s.team.core) (s.gridAt s.team.grid).asid d = true → d.staged = false →
      (s.gridAt s.team.grid).det = false → (∀ q, descAhead s s.team f.d.toNat = some q → q.staged = false) → d.allot ≤ slotLimit (s.gridAt s.team.grid) f.d.toNat →
      (ok = true → ∃ t, exec (.fsdef f) s = .next t ∧ queuedFs s t (.define f.d.toNat d) none ∧ fsWentOn s t f) ∧
      (ok = false → exec (.fsdef f) s = trapLanes s { cause := 3 } s.team.mask))

/-- R327, R334, R335, R337, R338, R340, R341, R342, R343, R346: what a store queue's operations do: a binding empties the slot, zeroes its counts and raises its generation; a drop empties the resident set; a query writes its word; a call
writes every hit's predictions, and opens a context over the missing lanes or, with none, goes on; an insertion under an old generation, or of a code that is not finite, or past the last page, is dropped and counted; any other
appends its record at the current page under the serial of its place, and the record enters the resident set; a load takes the newest records of a sealed page.
Readings and choices of the model's own: log entry 59. -/
def Obligations.StoreQueuePerforms : Prop :=
  ∀ (s : State) (o : FsOp) (r : List FsOp), headFs s o r →
    (∀ k d, o.kind = .define k d → ∃ t, exec .fsQueuePerform s = .next t ∧ fsPerformed s t o r k ∧ fsTeamDone s t o ∧
      evSlot t o k = { desc := some d, gen := (evSlot s o k).gen + 1, resident := [], page := 0, hits := 0, misses := 0, inserted := 0, superseding := 0, dropped := 0 }) ∧
    (∀ k, o.kind = .drop k → ∃ t, exec .fsQueuePerform s = .next t ∧ fsPerformed s t o r k ∧ fsTeamDone s t o ∧ evSlot t o k = { evSlot s o k with resident := [] }) ∧
    (∀ k w d n, o.kind = .query k w d → d < 64 → w ≤ 6 → n = [(evSlot s o k).resident.length, (evSlot s o k).hits, (evSlot s o k).misses, (evSlot s o k).inserted,
        (evSlot s o k).superseding, (evSlot s o k).dropped, match (evSlot s o k).desc with
          | none => 0
          | some q => q.d + 2 ^ 4 * q.m + (if q.staged then 2 ^ 8 else 0) + 2 ^ 9 + 2 ^ 16 * ((evSlot s o k).gen % 2 ^ 16)] →
      ∃ t, exec .fsQueuePerform s = .next t ∧ fsPerformed s t o r 16 ∧ t.coreAt s.ev.x = { s.coreAt s.ev.x with fsQ := r } ∧
        (∀ j, (t.teamAt o.tid).sreg j = if j = d then BitVec.ofNat 32 (n.getD w 0) else (s.teamAt o.tid).sreg j) ∧
        { t.teamAt o.tid with sched := (s.teamAt o.tid).sched, sregs := (s.teamAt o.tid).sregs } = { s.teamAt o.tid with flags := ((s.teamAt o.tid).flagDown o.flag).flags }) ∧
    (∀ k dst a m target after mask args q, o.kind = .search k dst a m target after mask args → (evSlot s o k).desc = some q → (s.teamAt o.tid).warps ≤ 32 →
      (args.map (fun p => p.1)).Nodup → (∀ p ∈ args, p.1 < (s.teamAt o.tid).lanes) →
      ∃ t, exec .fsQueuePerform s = .next t ∧ fsPerformed s t o r k ∧
        (∀ w l, l < (s.teamAt o.tid).lanes → (t.teamAt o.tid).word w l = match args.find? (fun p => p.1 = l) with
          | none => (s.teamAt o.tid).word w l
          | some p => match fnSearch (evSlot s o k).resident q.w p.2 with
            | none => (s.teamAt o.tid).word w l
            | some z => if (s.teamAt o.tid).vWord dst ≤ w ∧ w < (s.teamAt o.tid).vWord dst + m then z.pred p.2 (w - (s.teamAt o.tid).vWord dst) else (s.teamAt o.tid).word w l) ∧
        (t.teamAt o.tid).wait = .none ∧
        ((∀ p ∈ args, (fnSearch (evSlot s o k).resident q.w p.2).isSome = true) → (t.teamAt o.tid).pc = (s.teamAt o.tid).pc ∧ (t.teamAt o.tid).mask = (s.teamAt o.tid).mask ∧
          (t.teamAt o.tid).call = (s.teamAt o.tid).call ∧ (t.teamAt o.tid).stack = (s.teamAt o.tid).stack) ∧
        ((∃ p ∈ args, fnSearch (evSlot s o k).resident q.w p.2 = none) → (t.teamAt o.tid).pc = target ∧ (t.teamAt o.tid).clause = none ∧
          (t.teamAt o.tid).call = some { slot := k, d := dst, a := a, gen := (evSlot s o k).gen, core := s.ev.x } ∧
          (t.teamAt o.tid).stack = { kind := .fnK, save := mask, pend := 0, addr := after } :: (s.teamAt o.tid).stack ∧
          ∀ l, l < (s.teamAt o.tid).lanes → ((t.teamAt o.tid).mask.getLsbD l = true ↔ ∃ p ∈ args, p.1 = l ∧ fnSearch (evSlot s o k).resident q.w p.2 = none))) ∧
    (∀ c d m lanes q, o.kind = .insert c d m lanes → (evSlot s o c.slot).desc = some q →
      (c.core = s.ev.x → c.gen ≠ (evSlot s o c.slot).gen → ∃ t, exec .fsQueuePerform s = .next t ∧ fsPerformed s t o r c.slot ∧ fsTeamDone s t o ∧
        evSlot t o c.slot = { evSlot s o c.slot with dropped := min ((evSlot s o c.slot).dropped + lanes.length) 0xFFFFFFFF }) ∧
      (∀ p, c.gen = (evSlot s o c.slot).gen → q.d = d → q.m = m → lanes = [p] → (∃ w, (w ∈ p.1 ∨ w ∈ p.2.1 ∨ w ∈ p.2.2) ∧ (ofF32 w).isFinite = false) →
        ∃ t, exec .fsQueuePerform s = .next t ∧ fsPerformed s t o r c.slot ∧ fsTeamDone s t o ∧
          evSlot t o c.slot = { evSlot s o c.slot with dropped := min ((evSlot s o c.slot).dropped + 1) 0xFFFFFFFF }) ∧
      (∀ p v n sup asid size, (c.core = s.ev.x → c.gen = v.gen) → q.d = d → q.m = m → lanes = [p] → allFinite (p.1 ++ p.2.1 ++ p.2.2) → q.staged = false → v = evSlot s o c.slot →
        newRecord q p.1 p.2.1 p.2.2 ((sortRecs v.resident).map (fun y => { r := y, staged := none })) = (n, sup) → asid = (s.gridAt (s.teamAt o.tid).grid).asid →
        size = pageSize (regionOf s (dieOf s.ev.x) asid q.tbase) →
        (q.tpages ≤ v.page → ∃ t, exec .fsQueuePerform s = .next t ∧ fsPerformed s t o r c.slot ∧ fsTeamDone s t o ∧
          evSlot t o c.slot = { v with dropped := min (v.dropped + 1) 0xFFFFFFFF }) ∧
        (∀ e g at0 z w, v.page < q.tpages → coreXlat s s.ev.x asid (q.tbase + v.page * size) accW = .ok s e → pageGone s e.ppage size = false →
          kGet e.ppage s.pages = some g → g.st = .opened → at0 = (g.tail + 127) / 128 * 128 → at0 + 128 ≤ size → z = { n with serial := (v.page * size + at0) / 128 + 1 } →
          appendWrite (setPageRec s e.ppage { g with tail := at0 + 128 }) (e.ppage + at0) (recBytes c.slot z) = some w →
          ∃ t, exec .fsQueuePerform s = .next t ∧ sameMem w t ∧ t.dies = w.dies ∧ t.blocks = s.blocks ∧ (t.coreAt s.ev.x).fsQ = r ∧ fsTeamDone s t o ∧
            kGet e.ppage t.pages = some { g with tail := at0 + 128 } ∧ (∀ u, u ≠ e.ppage → kGet u t.pages = kGet u s.pages) ∧
            (∀ line, e.ppage + at0 < 64 * line + 64 → 64 * line < e.ppage + at0 + 128 → l1At t s.ev.x line = none) ∧
            (∀ j, j ≠ c.slot → j < 16 → c.slot < 16 → evSlot t o j = evSlot s o j) ∧
            evSlot t o c.slot = { v with
              inserted := min (v.inserted + 1) 0xFFFFFFFF
              superseding := min (v.superseding + (if n.grown = true then 1 else 0)) 0xFFFFFFFF
              resident := enterResident q.allot z v.resident }))) ∧
    (∀ k q e g size, o.kind = .load k → (evSlot s o k).desc = some q → q.staged = false → q.tpages = 1 →
      size = pageSize (regionOf s (dieOf s.ev.x) (s.gridAt (s.teamAt o.tid).grid).asid q.tbase) →
      findTlb (s.coreAt s.ev.x).tlb (s.gridAt (s.teamAt o.tid).grid).asid q.tbase = some e → permOk e accR = true → pageGone s e.ppage size = false →
      kGet e.ppage s.pages = some g →
      ∃ t l, exec .fsQueuePerform s = .next t ∧ fsPerformed s t o r k ∧ fsTeamDone s t o ∧ evSlot t o k = { evSlot s o k with resident := l } ∧
        (g.st ≠ .sealed → l = []) ∧ (g.st = .sealed → newestRecords q.allot (fun i => recOf q.d q.m (1 + i) (viewBytes s (e.ppage + 128 * i) 128)) (size / 128) l))

/-- R338: of the records of a working set near enough to the argument the one of least distance, the later on a tie, is the growth candidate; the new record is a copy of it with the radius that reaches the argument where its
predictions agree within TAU, else a record at the argument with radius R0. -/
def Sys2Proof.Claims.RecordsGrow : Prop :=
  ∀ (d : FnDesc) (x y j : List Word) (ws : List WRec),
    (growth d x ws = none ↔ ∀ q ∈ ws, ¬ mayGrow d x q) ∧
    (∀ q, growth d x ws = some q → mayGrow d x q ∧ ∃ older newer, ws = older ++ q :: newer ∧
      (∀ p ∈ older, mayGrow d x p → XVal.le (fnDist d.w x q.r.c) (fnDist d.w x p.r.c) = true) ∧
      ∀ p ∈ newer, mayGrow d x p → XVal.le (fnDist d.w x p.r.c) (fnDist d.w x q.r.c) = false) ∧
    (∀ q, growth d x ws = some q → (∀ i, i < d.m → XVal.le (rneV (XVal.sub .rne (ofF32 (q.r.pred x i)) (ofF32 (y.getD i 0)))).absV (ofF32 d.tau) = true) →
      newRecord d x y j ws = ({ q.r with
        serial := 0, super := q.r.serial, grown := true
        radius := if XVal.lt (ofF32 q.r.radius) (fnDist d.w x q.r.c) = true then toF32 (fnDist d.w x q.r.c) .rne false else q.r.radius }, some q)) ∧
    ((∀ q, growth d x ws = some q → ∃ i, i < d.m ∧ XVal.le (rneV (XVal.sub .rne (ofF32 (q.r.pred x i)) (ofF32 (y.getD i 0)))).absV (ofF32 d.tau) = false) →
      newRecord d x y j ws = ({ serial := 0, radius := d.r0, super := 0, grown := false, c := x, y := y, j := j }, none))

/-- R331: a search finds, of the records that contain the argument, the one of highest serial; nothing contains an argument with a code that is not finite. -/
def Sys2Proof.Claims.SearchPicksNewest : Prop :=
  ∀ (rs : List FnRec) (w x : List Word), (rs.map (fun r => r.serial)).Nodup →
    (∀ r, fnSearch rs w x = some r ↔ allFinite x ∧ r ∈ rs ∧ r.contains w x = true ∧ ∀ q ∈ rs, q.contains w x = true → q.serial ≤ r.serial) ∧
    (fnSearch rs w x = none ↔ ¬ allFinite x ∨ ∀ r ∈ rs, r.contains w x = false)

/-- R328, R329: the 128 bytes of a record with finite codes and a positive radius read back as the record, and its place's serial is the one it carries. -/
def Sys2Proof.Claims.RecordRoundTrip : Prop :=
  ∀ (r : FnRec) (slot d m : Nat), slot < 16 → 1 ≤ d → d ≤ 6 → 1 ≤ m → m ≤ 3 → r.c.length = d → r.y.length = m → r.j.length = m * d → r.serial < 2 ^ 32 → r.super < 2 ^ 32 →
    allFinite (r.c ++ r.y ++ r.j) → (ofF32 r.radius).isFinite = true → XVal.lt (ofF32 0) (ofF32 r.radius) = true →
    (recBytes slot r).length = 128 ∧ recOf d m r.serial (recBytes slot r) = some r ∧ ∀ n, n ≠ r.serial → recOf d m n (recBytes slot r) = none

/-- R323, R343: a record that enters a resident set in serial order comes last; the record it supersedes leaves, and in a full set the oldest. -/
def Sys2Proof.Claims.ResidentSet : Prop :=
  ∀ (allot : Nat) (r : FnRec) (rs : List FnRec), 1 ≤ allot → rs.length ≤ allot → (rs.map (fun q => q.serial)).Pairwise (· < ·) → (∀ q ∈ rs, q.serial < r.serial) →
    (enterResident allot r rs).length ≤ allot ∧ ∃ kept, enterResident allot r rs = kept ++ [r] ∧
      (∀ q, q ∈ kept → q ∈ rs ∧ (r.super ≠ 0 → q.serial ≠ r.super)) ∧
      ((rs.length < allot ∨ (r.super ≠ 0 ∧ ∃ q ∈ rs, q.serial = r.super)) → ∀ q ∈ rs, (r.super = 0 ∨ q.serial ≠ r.super) → q ∈ kept) ∧
      (rs.length = allot → (r.super = 0 ∨ ∀ q ∈ rs, q.serial ≠ r.super) → kept = rs.drop 1)

namespace Sys2Proof.Claims

/-- A staged record comes before another: by block, then by team, then by issue (R344). -/
def stagedFirst (a b : StagedRec) : Prop := a.block < b.block ∨ (a.block = b.block ∧ (a.team < b.team ∨ (a.team = b.team ∧ a.seq < b.seq)))

end Sys2Proof.Claims

/-- R327, R344, R345, R373: once every block of a grid has retired, and in a deterministic launch has had its phases released, the ticket unit appends a single staged record to the empty first page of its slot's table, and seals the page. -/
def Sys2Proof.Claims.StagedRecordsAppended : Prop :=
  ∀ (s w : State) (r : StagedRec) (d : FnDesc) (e e2 : TlbEntry) (g : Grid), g = s.gridAt s.ev.x → g.staged = [r] → g.failed = false → g.ended = false → g.blocks ≤ g.retired →
    g.descs[r.slot]? = some d → 1 ≤ d.tpages → r.superStaged = none →
    kGet e.ppage s.pages = some { size := pageSize (regionOf s g.tailDie g.asid d.tbase), tail := 0, st := .opened, pending := 0, recalled := [] } → pageGone s e.ppage (pageSize (regionOf s g.tailDie g.asid d.tbase)) = false →
    (g.det = true → ∀ p ∈ s.blocks, p.2.grid = s.ev.x → p.2.phase < p.2.relPhase) →
    128 ≤ pageSize (regionOf s g.tailDie g.asid d.tbase) → cpXlat s g.tailDie g.asid d.tbase accW = .ok s e →
    appendWrite (setPageRec s e.ppage { size := pageSize (regionOf s g.tailDie g.asid d.tbase), tail := 128, st := .opened, pending := 0, recalled := [] }) e.ppage
      (recBytes r.slot { r.frec with serial := 1 }) = some w →
    (∀ q ∈ w.dies, ∀ l ∈ q.2.dir, e.ppage ≤ 64 * l.1 → 64 * l.1 < e.ppage + pageSize (regionOf s g.tailDie g.asid d.tbase) → l.2.waiting = []) →
    cpXlat w g.tailDie g.asid d.tbase accW = .ok w e2 → e2.ppage = e.ppage → w.pages = kPut e.ppage { size := pageSize (regionOf s g.tailDie g.asid d.tbase), tail := 128, st := .opened, pending := 0, recalled := [] } s.pages →
    ∃ t, exec .stagedRecordAppend s = .next t ∧ (t.gridAt s.ev.x).staged = [] ∧ sameMem w t ∧
      kGet e.ppage t.pages = some { size := pageSize (regionOf s g.tailDie g.asid d.tbase), tail := 128, st := .sealed, pending := 0, recalled := [] }

/-- R327, R344: two records that teams staged in one slot, in whatever order, are appended in the order of block, team and issue, those of one `fret` in the order staged, behind each other in the first page that is open,
under the serials of their places; a copy of the first names its serial; the page is sealed. -/
def Sys2Proof.Claims.StagedRecordsInOrder : Prop :=
  ∀ (s w1 w2 : State) (x y : StagedRec) (d : FnDesc) (g : Grid) (page : APage) (e e1 e2 : TlbEntry) (n size at0 k sup : Nat), g = s.gridAt s.ev.x →
    g.failed = false → g.ended = false → g.blocks ≤ g.retired → (g.det = true → ∀ p ∈ s.blocks, p.2.grid = s.ev.x → p.2.phase < p.2.relPhase) →
    ((stagedFirst x y ∧ (g.staged = [x, y] ∨ g.staged = [y, x])) ∨ (x.block = y.block ∧ x.team = y.team ∧ x.seq = y.seq ∧ g.staged = [x, y])) →
    x.slot = k → y.slot = k → g.descs[k]? = some d → size = pageSize (regionOf s g.tailDie g.asid d.tbase) → n < d.tpages →
    (∀ i, i < n → ∃ p r, cpXlat s g.tailDie g.asid (d.tbase + i * size) accW = .ok s p ∧ pageGone s p.ppage size = false ∧ kGet p.ppage s.pages = some r ∧ r.st ≠ .opened) →
    cpXlat s g.tailDie g.asid (d.tbase + n * size) accW = .ok s e → pageGone s e.ppage size = false → kGet e.ppage s.pages = some page → page.st = .opened → page.pending = 0 → page.size = size →
    at0 = (page.tail + 127) / 128 * 128 → at0 + 256 ≤ size → x.superStaged = none →
    ((y.superStaged = none ∧ sup = y.frec.super) ∨ (y.superStaged = some 0 ∧ x.block = y.block ∧ x.team = y.team ∧ x.seq = y.seq ∧ sup = (n * size + at0) / 128 + 1)) →
    appendWrite (setPageRec s e.ppage { page with tail := at0 + 128 }) (e.ppage + at0) (recBytes k { x.frec with serial := (n * size + at0) / 128 + 1 }) = some w1 →
    cpXlat w1 g.tailDie g.asid (d.tbase + n * size) accW = .ok w1 e1 → e1.ppage = e.ppage → pageGone w1 e.ppage size = false →
    appendWrite (setPageRec w1 e.ppage { page with tail := at0 + 256 }) (e.ppage + at0 + 128)
      (recBytes k { y.frec with super := sup, serial := (n * size + at0) / 128 + 2 }) = some w2 →
    cpXlat w2 g.tailDie g.asid (d.tbase + n * size) accW = .ok w2 e2 → e2.ppage = e.ppage →
    (∀ q ∈ w2.dies, ∀ l ∈ q.2.dir, e.ppage ≤ 64 * l.1 → 64 * l.1 < e.ppage + size → l.2.waiting = []) →
    ∃ t, exec .stagedRecordAppend s = .next t ∧ (t.gridAt s.ev.x).staged = [] ∧ sameMem w2 t ∧
      kGet e.ppage t.pages = some { page with tail := at0 + 256, st := .sealed, recalled := [] }


/-! ### Launch queues -/

namespace Sys2Proof.Claims

/-- A queue whose registers an enable accepts (R249): QDIES not 0, QSIZE 4 to 16, QBASE, QRAF and QCOMP aligned. -/
def enableFits (k : Queue) : Prop :=
  k.dies ≠ 0 ∧ 4 ≤ k.size.toNat ∧ k.size.toNat ≤ 16 ∧ k.base.toNat % 64 = 0 ∧ k.raf.toNat % 256 = 0 ∧ k.comp.toNat % 4096 = 0

/-- A queue's registers below QCTL's reach, by their offset, with what a write of a word makes of them (R248). -/
def queueRegs : List (Nat × (Queue → Word → Queue)) :=
  [(0x00, fun k v => { k with base := k.base.extractLsb' 32 32 ++ v }), (0x04, fun k v => { k with base := v ++ k.base.extractLsb' 0 32 }),
   (0x08, fun k v => { k with size := v }),
   (0x18, fun k v => { k with raf := k.raf.extractLsb' 32 32 ++ v }), (0x1C, fun k v => { k with raf := v ++ k.raf.extractLsb' 0 32 }),
   (0x20, fun k v => { k with comp := k.comp.extractLsb' 32 32 ++ v }), (0x24, fun k v => { k with comp := v ++ k.comp.extractLsb' 0 32 }),
   (0x28, fun k v => { k with tvec := k.tvec.extractLsb' 32 32 ++ v }), (0x2C, fun k v => { k with tvec := v ++ k.tvec.extractLsb' 0 32 }),
   (0x30, fun k v => { k with log := k.log.extractLsb' 32 32 ++ v }), (0x34, fun k v => { k with log := v ++ k.log.extractLsb' 0 32 }),
   (0x38, fun k v => { k with logn := v }), (0x3C, fun k v => { k with asid := v &&& 0xFFFF })]

/-- Management registers of the page by their offset, with what a write makes of them (R382, R384, R385, R390, R392). -/
def pageRegs : List (Nat × (Plat → Word → Plat)) :=
  [(0x3000, fun p v => { p with msbud := p.msbud.extractLsb' 32 32 ++ v }),
   (0x3004, fun p v => { p with msbud := (v &&& 0xFFFF) ++ p.msbud.extractLsb' 0 32 }),
   (0x3008, fun p v => { p with mswgt := v &&& 0xFFF }), (0x3010, fun p v => { p with actth := v &&& 0x3FFF }),
   (0x3014, fun p v => { p with eyesel := v &&& 7 }), (0x3018, fun p v => { p with
     eyeth := v &&& 0xFFFF, lowSeen := p.lowSeen.filter (fun x => laneLow { p with eyeth := v &&& 0xFFFF } (kGetD x 0 p.lanes)) }),
   (0x8100, fun p v => { p with swaddr := p.swaddr.extractLsb' 32 32 ++ v }), (0x8104, fun p v => { p with swaddr := v ++ p.swaddr.extractLsb' 0 32 }),
   (0x8108, fun p v => { p with swlen := v })]

/-- A record's completion word was written in the queue's context, and a ring record counts in QHEAD (R250, R255). -/
def recordDone (s w t : State) (q die key comp status : Nat) (child : Bool) (r : LaunchRec) : Prop :=
  cpWrite s die key (comp + 4 * r.cslot) (leBytes 4 (status * 2 ^ 16 + r.seq)) = .ok w () →
    t = (if child then w else w.setQueue q { w.queueAt q with head := (w.queueAt q).head + 1 })

/-- A header's reserved fields are zero and its values in range, the views start within a lane's bytes (R39, R72, R73, R92). -/
def headerFits (h : CodeHdr) : Prop :=
  h.resv = false ∧ h.flags < 2 ∧ (64 ≤ h.regBytes ∧ h.regBytes ≤ 1024 ∧ h.regBytes % 64 = 0) ∧ (h.viewV % 4 = 0 ∧ h.viewT % 64 = 0 ∧ h.viewA % 8 = 0) ∧
  (64 ≤ h.strideT ∧ h.strideT ≤ 1024 ∧ h.strideT % 64 = 0) ∧ h.viewV ≤ h.regBytes ∧ h.viewT ≤ h.regBytes ∧ h.viewA ≤ h.regBytes ∧
  (32 ≤ h.lanes ∧ h.lanes ≤ 1024 ∧ h.lanes % 32 = 0) ∧ (1 ≤ h.teams ∧ h.teams ≤ 16) ∧ h.coh ≤ 4 ∧ (h.coh ≠ 0 → h.csize ≠ 0) ∧ h.nfunc ≤ 16 ∧
  (∀ w ∈ h.nf, w = 0 ∨ nfValid w = true) ∧ h.codeOff % 4 = 0 ∧ h.funcOff % 64 = 0

/-- A block's registers stay within 2.5 MiB, and with its stash within 3.75 MiB (R73). -/
def blockFits (r : LaunchRec) (h : CodeHdr) : Prop :=
  ∀ n, n = h.regBytes * (if r.lanes = 0 then h.lanes else r.lanes) * (if r.teams = 0 then h.teams else r.teams) →
    n ≤ 5 * 2 ^ 19 ∧ n + (if r.stash = 0xFFFF then h.stash else 64 * r.stash) ≤ 15 * 2 ^ 18

end Sys2Proof.Claims

/-- R249, R250, R388: what a write of QTAIL and of QCTL does: records are made pending, a bad advance or an enable with bad registers halts the queue with ERR, an enable starts at count 0, before boot's last phase it only
sets ERR; clearing EN, which leaves a tail child at the head its time, and writing 1 to ERR. -/
def Sys2Proof.Claims.QueueCommands : Prop :=
  ∀ (s : State) (k : Queue) (w : Word), k = s.queueAt s.ev.x → w = s.ev.w →
    (k.en = true → w ≠ k.tail → (w - k.tail).toNat < 2 ^ 31 → (w - k.head).toNat ≤ 2 ^ k.size.toNat → exec .qtailWrite s = .next (s.setQueue s.ev.x { k with tail := w })) ∧
    (k.en = true → w ≠ k.tail → (2 ^ 31 ≤ (w - k.tail).toNat ∨ 2 ^ k.size.toNat < (w - k.head).toNat) →
      exec .qtailWrite s = .next (s.setQueue s.ev.x { k with halt := true, err := true })) ∧
    (k.en = false ∨ w = k.tail → exec .qtailWrite s = .next s) ∧
    (6 ≤ s.plat.bootPhase → k.en = false → k.running = none → k.children = [] →
      ∃ e, e = { k with dies := w.extractLsb' 8 8, err := k.err && !w.getLsbD 2, en := true, halt := false, head := 0, tail := 0, startableAt := none } ∧
        (enableFits e → exec .queueEnable s = .next (s.setQueue s.ev.x e)) ∧
        (¬ enableFits e → exec .queueEnable s = .next (s.setQueue s.ev.x { e with halt := true, err := true }))) ∧
    (s.plat.bootPhase < 6 → exec .queueEnable s = .next (s.setQueue s.ev.x { k with dies := w.extractLsb' 8 8, err := true })) ∧
    exec .queueDisable s = .next (s.setQueue s.ev.x { k with dies := w.extractLsb' 8 8, err := k.err && !w.getLsbD 2, en := false, startableAt := if k.children = [] then none else k.startableAt }) ∧
    exec .queueErrClear s = .next (s.setQueue s.ev.x { k with err := false })

/-- R4, R11, R248, R382, R384, R385, R390: a 32-bit host write replaces its register, or its half of a wide one; an enabled queue's registers, and addresses that are no multiple of 4, ignore it. -/
def Sys2Proof.Claims.RegisterWrites : Prop :=
  (∀ row ∈ queueRegs, ∀ (s : State) (q : Nat), q < 64 → s.ev.x = 0x1000 + 64 * q + row.1 →
    ((s.queueAt q).en = false → exec .registerWrite s = .next (s.setQueue q (row.2 (s.queueAt q) s.ev.w))) ∧
    ((s.queueAt q).en = true → exec .registerWrite s = .next s)) ∧
  (∀ row ∈ pageRegs, ∀ s : State, s.ev.x = row.1 → exec .registerWrite s = .next (s.setPlat (row.2 s.plat s.ev.w))) ∧
  (∀ s : State, s.ev.x % 4 ≠ 0 → exec .registerWrite s = .next s)

/-- R250, R254, R255, R256, R258: an invalid record at a queue's head completes with status 0x0B; the head that starts first completes with 0x0A when a dependence failed, with 0x0F when its key grant does not fit, with 0x0B when a region of its
context is invalid, else with the status that its code object or its want of fit gives (`RefusalStatuses`); a head that passes becomes a running grid with the record's values, or the code object's where the record names none. -/
def Sys2Proof.Claims.GridStarts : Prop :=
  ∀ (s s1 : State) (q : Nat) (h : Head) (r : LaunchRec), q = s.ev.x → s.plat.dispatch = true → readHead s q = (s1, some h) → r = recordOf h.bytes →
    (recordOk r = false → ∀ w, cpWrite (popHead s1 q h) (cpDie (s1.queueAt q).dies.toNat) (cpKey q) ((s1.queueAt q).comp.toNat + 4 * r.cslot) (leBytes 4 (0x0B * 2 ^ 16 + r.seq)) = .ok w () →
      ∃ t, exec .gridStart s = .next t ∧ recordDone (popHead s1 q h) w t q (cpDie (s1.queueAt q).dies.toNat) (cpKey q) (s1.queueAt q).comp.toNat 0x0B h.parent.isSome r) ∧
    (recordOk r = true → ∀ s2 x die comp, firstStartable s1 = (s2, some x) → x.q = q → die = cpDie (s2.queueAt q).dies.toNat → comp = (s2.queueAt q).comp.toNat →
      (∀ status w, (status = 0x0A ∧ x.failed = true) ∨ (status = 0x0F ∧ x.failed = false ∧ grantOk (recordOf x.head.bytes) = false) ∨
          (x.failed = false ∧ grantOk (recordOf x.head.bytes) = true ∧ ((status = 0x0B ∧ (kGetD (cpKey q) [] (s2.dieAt die).rafs).all rfOk = false) ∨
            ((kGetD (cpKey q) [] (s2.dieAt die).rafs).all rfOk = true ∧ readCode s2 die (cpKey q) (recordOf x.head.bytes) = .bad status))) →
        cpWrite (popHead s2 q x.head) die (cpKey q) (comp + 4 * (recordOf x.head.bytes).cslot) (leBytes 4 (status * 2 ^ 16 + (recordOf x.head.bytes).seq)) = .ok w () →
        ∃ t, exec .gridStart s = .next t ∧ recordDone (popHead s2 q x.head) w t q die (cpKey q) comp status x.head.parent.isSome (recordOf x.head.bytes)) ∧
      (∀ s3 hdr ds s4 snap log g, x.failed = false → grantOk (recordOf x.head.bytes) = true → (kGetD (cpKey q) [] (s2.dieAt die).rafs).all rfOk = true →
        readCode s2 die (cpKey q) (recordOf x.head.bytes) = .ok s3 hdr ds →
        snapshotOf s3 die (cpKey q) (launchDescs (detOf (recordOf x.head.bytes) hdr) ds) = some (s4, snap) → startLog s4 q x.head hdr = some log → g = newGrid s4 q x.head hdr ds snap log →
        (∀ status w, fitStatus s4 s4.nextGid g = some status →
          cpWrite (popHead s4 q x.head) (cpDie (s4.queueAt q).dies.toNat) (cpKey q) ((s4.queueAt q).comp.toNat + 4 * g.lrec.cslot) (leBytes 4 (status * 2 ^ 16 + g.lrec.seq)) = .ok w () →
          ∃ t, exec .gridStart s = .next t ∧
            recordDone (popHead s4 q x.head) w t q (cpDie (s4.queueAt q).dies.toNat) (cpKey q) (s4.queueAt q).comp.toNat status x.head.parent.isSome g.lrec) ∧
        (fitStatus s4 s4.nextGid g = none →
        ∃ t, exec .gridStart s = .next t ∧ (t.queueAt q).running = some s4.nextGid ∧ t.nextGid = s4.nextGid + 1 ∧
          { t.gridAt s4.nextGid with groups := g.groups } = g ∧ g.lrec = recordOf x.head.bytes ∧
          g.lanes = (if g.lrec.lanes = 0 then hdr.lanes else g.lrec.lanes) ∧ g.teams = (if g.lrec.teams = 0 then hdr.teams else g.lrec.teams) ∧
          g.stash = (if g.lrec.stash = 0xFFFF then hdr.stash else 64 * g.lrec.stash) ∧ g.cohLvl = (if g.lrec.coh = 7 then hdr.coh else g.lrec.coh) ∧
          g.blocks = g.lrec.gx * g.lrec.gy * g.lrec.gz ∧ g.nextBlock = 0 ∧ g.retired = 0 ∧ g.ended = false ∧ g.log = log ∧ (g.replay = false → log = []) ∧ g.failed = false ∧ g.started = s4.cc ∧
          (g.det = true ↔ g.lrec.flags % 4 = 2 ∨ (g.lrec.flags % 4 = 0 ∧ hdr.flags % 2 = 1)))))

/-- R29, R39, R72, R73, R257, R259: a code object that cannot be read, or whose magic is wrong, has status 0x0D; then one of another encoding hash 0x0E; then one with a field out of range or with more register and stash bytes
than a block may have 0x0D; one that passes, without function descriptors, is accepted. A grid whose cohort no unit can hold has status 0x0C, then one whose block no core can hold 0x10. -/
def Sys2Proof.Claims.RefusalStatuses : Prop :=
  (∀ (s : State) (die key : Nat) (r : LaunchRec),
    (∀ k, cpRead s die key r.code 80 = .bad k → readCode s die key r = .bad 0x0D) ∧
    (∀ u bs h, cpRead s die key r.code 80 = .ok u bs → h = headerOf bs →
      (leNat (bs.take 4) ≠ 0x4F524B31 → readCode s die key r = .bad 0x0D) ∧
      (leNat (bs.take 4) = 0x4F524B31 → leNat ((bs.drop 4).take 4) ≠ 0x7C4E91B3 → readCode s die key r = .bad 0x0E) ∧
      (leNat (bs.take 4) = 0x4F524B31 → leNat ((bs.drop 4).take 4) = 0x7C4E91B3 →
        (¬ headerFits h ∨ ¬ blockFits r h → readCode s die key r = .bad 0x0D) ∧
        (headerFits h → blockFits r h → h.nfunc = 0 → readCode s die key r = .ok u h [])))) ∧
  (∀ (s : State) (gid : Nat) (g : Grid) (caps : List (Nat × Nat)), caps = unitCaps s g.diesMask g.cohLvl (idleCapacity gid g 64 Room.idle) →
    (g.cohLvl ≠ 0 → (∀ u ∈ caps, u.2 < g.cohSize) → fitStatus s gid g = some 0x0C) ∧
    (g.cohLvl = 0 ∨ (∃ u ∈ caps, g.cohSize ≤ u.2) →
      (fitRoom Room.idle gid g (freshMats g) = none → fitStatus s gid g = some 0x10) ∧
      (fitRoom Room.idle gid g (freshMats g) ≠ none → unitCores s g.diesMask 0 0 ≠ [] → fitStatus s gid g = none)))

/-- R31, R33, R255, R257: once every block of a grid has left and no core that ran it has a store buffered, its completion word is written with its status and sequence, its queue runs nothing, its tail children stand
at the head of the queue with its completion scope, and QHEAD counts a ring record. -/
def Sys2Proof.Claims.LaunchCompletes : Prop :=
  ∀ (s w : State) (g : Grid), g = s.gridAt s.ev.x → gridDone s s.ev.x = true → g.recording = false → g.logFull = false →
    (∀ c, c < 384 → (s.coreAt c).sbuf = []) →
    cpWrite s g.tailDie g.asid (g.compVa + 4 * g.lrec.cslot) (leBytes 4 (worseStatus g.status 0 * 2 ^ 16 + g.lrec.seq)) = .ok w () →
    ∃ t, exec .launchCompletion s = .next t ∧ sameMem w t ∧ t.gridAt s.ev.x = { g with ended := true } ∧
      t.queueAt g.queue = { w.queueAt g.queue with
        head := if g.child then (w.queueAt g.queue).head else (w.queueAt g.queue).head + 1
        running := none
        children := (g.tails.foldl (fun l r => insertTail r l) []).map (fun r => (r.bytes, g.lrec.cscope)) ++ (w.queueAt g.queue).children } ∧
      (∀ q, q ≠ g.queue → t.queueAt q = w.queueAt q) ∧ t.blocks = w.blocks ∧
      ∀ u, (w.teamAt u).grid ≠ s.ev.x → t.teamAt u = w.teamAt u


/-! ### Placement and pre-emption -/

namespace Sys2Proof.Claims

/-- A partition, as teams, used slots and a held matrix state, can take a team of w warps (R19). -/
def partTakes (w : Nat) (mat : Bool) (p : Nat × List Nat × Bool) : Prop :=
  p.1 < 16 ∧ p.2.1.length + w ≤ 64 ∧ (mat = true → p.2.2 = false)

/-- A grid whose blocks stand alone, whose slots bind nothing, and for which no log is written or read. -/
def plainGrid (g : Grid) : Prop := g.cohLvl = 0 ∧ g.descs = [] ∧ g.replay = false ∧ g.recording = false

/-- A team as it starts on a core (R38, R40, R42, R47, R258): at the code object's first clause with every lane, arguments in s0 and s1, all else clear. -/
def started (t : Team) (g : Grid) (bid i core : Nat) (seat : Nat × List Nat) : Prop :=
  t.block = bid ∧ t.index = i ∧ t.core = core ∧ t.part = seat.1 ∧ t.slots = seat.2 ∧ t.status = .live ∧
  t.warps = g.lanes / 32 ∧ t.pc = BitVec.ofNat 64 (g.codeVa + g.hdr.codeOff) ∧ t.clause = none ∧ t.mask = fullMask (g.lanes / 32) ∧ t.live = fullMask (g.lanes / 32) ∧
  t.stack = [] ∧ t.regs = [] ∧ t.preds = [] ∧ t.flags = [] ∧ t.memQ = [] ∧ t.matQ = [] ∧ t.rep = 0 ∧ t.wait = .none ∧ t.call = none ∧
  (∀ n, n < 64 → t.sreg n = if n = 0 then BitVec.ofNat 32 g.lrec.args else if n = 1 then BitVec.ofNat 32 (g.lrec.args / 2 ^ 32) else 0) ∧
  t.latch = { k0 := [], k1 := [], k2 := [], v0 := 0, v1 := 0, v2 := 0, ptr := 0 } ∧ t.trap.sup = false ∧ t.trap.tvec = g.tvec ∧ t.epoch = 0 ∧
  t.viewV = BitVec.ofNat 32 g.hdr.viewV ∧ t.viewA = BitVec.ofNat 32 g.hdr.viewA ∧ t.viewT = BitVec.ofNat 32 (2 ^ 16 * g.hdr.strideT + g.hdr.viewT) ∧
  t.est = (if g.lrec.est = 0xFFFF then 0xFFFFFFFF else BitVec.ofNat 32 (256 * g.lrec.est)) ∧
  t.nf0 = g.hdr.nf.getD 0 0 ∧ t.nf1 = g.hdr.nf.getD 1 0 ∧ t.nf2 = g.hdr.nf.getD 2 0 ∧ t.nf3 = g.hdr.nf.getD 3 0

/-- Nothing of a team hinders its save: no pending special-function result, no watch entry, no matrix state. -/
def plainTeam (s : State) (tid : Nat) : Prop :=
  (∀ o ∈ (s.partAt (s.teamAt tid).partNo).sfuQ, o.tid ≠ tid) ∧ (∀ w ∈ (s.coreAt (s.teamAt tid).core).watch, w.tid ≠ tid) ∧
  (s.partAt (s.teamAt tid).partNo).holder ≠ some tid

/-- The status a victim's option begins with (R263, R265). -/
def beginsAs (s : State) (o : Option3) (cost : Nat) : BStatus :=
  match o with
  | .drain => .draining (s.cc + cost + 4096)
  | .save => .toSave
  | .flush => .toFlush

end Sys2Proof.Claims

/-- R19, R260, R264: a team goes to the partition with the most free warp slots among those that can take it, ties to the lowest number; a block goes to an open core of the most free granules among those that have room;
of the options of a victim the cheapest within the bound is taken, or the cheapest of all. -/
def Sys2Proof.Claims.PlacementChoices : Prop :=
  (∀ (w : Nat) (mat : Bool) (ps : List (Nat × List Nat × Bool)) (k : Nat), 1 ≤ w → (bestPart w mat ps = some k ↔
    ∃ p, ps[k]? = some p ∧ partTakes w mat p ∧ ∀ j q, ps[j]? = some q → partTakes w mat q → p.2.1.length ≤ q.2.1.length ∧ (p.2.1.length = q.2.1.length → k ≤ j))) ∧
  (∀ (s : State) (gid : Nat) (g : Grid) (cs : List Nat) (mats : List Bool) (idx : Nat) (rooms : KMap Room) (seat : Seat), placeOne s gid g cs mats idx [] = some (rooms, seat) →
    seat.1 = idx ∧ seat.2.1 ∈ cs ∧ coreOpen s gid g idx seat.2.1 = true ∧
    ∀ c ∈ cs, coreOpen s gid g idx c = true → (fitRoom (roomOf s c) gid g mats).isSome = true → (roomOf s c).free ≤ (roomOf s seat.2.1).free) ∧
  (∀ (l : List (Option3 × Nat)) (bound : Nat), l ≠ [] → chooseOption l bound ∈ l ∧
    ((∃ p ∈ l, p.2 ≤ bound) → (chooseOption l bound).2 ≤ bound) ∧ ∀ p ∈ l, (p.2 ≤ bound ∨ ∀ q ∈ l, bound < q.2) → (chooseOption l bound).2 ≤ p.2)

/-- R38, R40, R42, R47, R258, R260, R261: placing a block of a grid starts its teams at the first clause of the code object with the launch's values; nothing else of the machine changes but the grid's count, the marks that the grid had set, and the L1 copies of the core, of which those in granules that the block takes go
(R259). A block that finds no room marks the cores whose free granules, with those of their blocks of lower priority, would hold it, and a marked core takes no block of another grid. -/
def Sys2Proof.Claims.BlocksPlaced : Prop :=
  ∀ (s : State) (g : Grid) (c : Nat) (seats : List (Nat × List Nat)), g = s.gridAt s.ev.x → canPlace s g = true → plainGrid g → seats.length ≤ 16 →
    (seatsFor s s.ev.x (fun _ => List.replicate g.teams false) (fun _ => true) g.nextBlock = some [(g.nextBlock, c, seats)] →
      ∃ t, exec .blockPlacement s = .next t ∧
        t = { s with teams := t.teams, blocks := t.blocks, grids := t.grids, cores := t.cores, nextBid := s.nextBid + 1, nextTid := s.nextTid + seats.length } ∧
        (∀ k, { t.coreAt k with l1 := (s.coreAt k).l1 } = { s.coreAt k with relayout := if (s.coreAt k).relayout = some s.ev.x then none else (s.coreAt k).relayout }) ∧
        (∀ k, k ≠ c → (t.coreAt k).l1 = (s.coreAt k).l1) ∧ (∀ line x, l1At t c line = some x → l1At s c line = some x) ∧
        (∀ k, k ≠ s.ev.x → t.gridAt k = s.gridAt k) ∧ t.gridAt s.ev.x = { g with nextBlock := g.nextBlock + 1 } ∧
        t.blockAt s.nextBid = { Block.blank with grid := s.ev.x, idx := g.nextBlock, core := c, status := .resident, stashBytes := g.stash } ∧
        (∀ b, b ≠ s.nextBid → t.blockAt b = s.blockAt b) ∧
        (∀ i, i < seats.length → (t.teamAt (s.nextTid + i)).grid = s.ev.x ∧ started (t.teamAt (s.nextTid + i)) g s.nextBid i c (seats.getD i (0, []))) ∧
        ∀ u, u < s.nextTid → t.teamAt u = s.teamAt u) ∧
    (seatsFor s s.ev.x (fun _ => List.replicate g.teams false) (fun _ => true) g.nextBlock = none →
      ∃ t, exec .blockPlacement s = .next t ∧ t = { s with cores := t.cores } ∧
        ∀ k, ((s.coreAt k).enabled = true ∧ g.diesMask.testBit (k / 48) = true ∧ (s.coreAt k).relayout = none ∧ granulesFit (roomAbove s k g.prio) s.ev.x g = true →
            t.coreAt k = { s.coreAt k with relayout := some s.ev.x }) ∧
          ((s.coreAt k).enabled = false ∨ g.diesMask.testBit (k / 48) = false ∨ (s.coreAt k).relayout ≠ none ∨ granulesFit (roomAbove s k g.prio) s.ev.x g = false →
            t.coreAt k = s.coreAt k)) ∧
    (∀ r, (s.coreAt c).relayout = some r → ∀ gid idx, gid ≠ r → coreOpen s gid (s.gridAt gid) idx c = false)

/-- R262, R263, R265, R266: a grid with a bound whose block finds no room makes its victims drain, save or flush; without a bound nothing happens; a drain that has overrun goes on as a flush where that is free, else as a
save. -/
def Sys2Proof.Claims.PreemptionBegins : Prop :=
  (∀ (s : State) (g : Grid), g = s.gridAt s.ev.x → canPlace s g = true →
    (g.lrec.bound = 0 → exec .preemptionDecision s = .next s) ∧
    (∀ v, g.lrec.bound ≠ 0 → seatsFor s s.ev.x (fun _ => List.replicate g.teams false) (fun _ => true) g.nextBlock = none → takeVictims s s.ev.x g [] (victims s g) = [v] →
      (s.blockAt v.bid).status = .resident → (s.gridAt (s.blockAt v.bid).grid).cohLvl = 0 →
      (∀ k b, (k, b) ∈ s.blocks → b.grid = (s.blockAt v.bid).grid → b.idx = (s.blockAt v.bid).idx → k = v.bid) → (∃ b, kGet v.bid s.blocks = some b) →
      ∃ t, exec .preemptionDecision s = .next t ∧ t = { s with blocks := t.blocks } ∧ t.blockAt v.bid = { s.blockAt v.bid with status := beginsAs s v.opt v.cost } ∧
        ∀ b, b ≠ v.bid → t.blockAt b = s.blockAt b)) ∧
  (∀ (s : State) (till : Nat), (s.blockAt s.ev.x).status = .draining till → (s.gridAt (s.blockAt s.ev.x).grid).cohLvl = 0 → 0 < saveCost s s.ev.x →
    (∀ k b, (k, b) ∈ s.blocks → b.grid = (s.blockAt s.ev.x).grid → b.idx = (s.blockAt s.ev.x).idx → k = s.ev.x) → (∃ b, kGet s.ev.x s.blocks = some b) →
    (s.cc < till → exec .drainTimeout s = .next s) ∧
    (till ≤ s.cc → ∃ t, exec .drainTimeout s = .next t ∧ t = { s with blocks := t.blocks } ∧ (∀ b, b ≠ s.ev.x → t.blockAt b = s.blockAt b) ∧
      t.blockAt s.ev.x = { s.blockAt s.ev.x with status := if canFlush s s.ev.x then .toFlush else .toSave }))

namespace Sys2Proof.Claims

/-- The blocks of a block's cohort, itself among them, that are neither saved nor retired (R28, R266). -/
def cohortLeft (s : State) (b : Block) : KMap Block :=
  s.blocks.filter (fun p => p.2.grid = b.grid && (cohortOf (s.gridAt b.grid) b.idx).1 ≤ p.2.idx &&
    p.2.idx < (cohortOf (s.gridAt b.grid) b.idx).1 + (cohortOf (s.gridAt b.grid) b.idx).2 && p.2.status ≠ .saved && p.2.status ≠ .retired)

end Sys2Proof.Claims

/-- R28, R265, R266, R276, R286: a block to be saved whose teams stand still is saved with them, out of their slots, keeping registers, mask, stack and program counter; one to be flushed gives up its teams and its stash; while a team does
not stand still, nothing happens, nor for a block of a grid that has failed. The blocks of a cohort are saved together, once the teams of all of them stand still (R28). -/
def Sys2Proof.Claims.BlocksLeave : Prop :=
  ∀ (s : State) (b : Block), b = s.blockAt s.ev.x → b.windows = [] → (s.coreAt b.core).sbuf = [] →
    ((s.gridAt b.grid).failed = true → exec .blockSave s = .next s ∧ exec .blockFlush s = .next s) ∧
    (b.status = .toSave → (s.gridAt b.grid).failed = false → (s.gridAt b.grid).cohLvl = 0 → s.blocks.filter (fun p => p.2.grid = b.grid && p.2.idx = b.idx) = [(s.ev.x, b)] →
      (∀ p ∈ blockTeams s s.ev.x, saveReady s p = true) → (∀ p ∈ blockTeams s s.ev.x, p.2.core = b.core ∧ kGet p.1 s.teams = some p.2 ∧ plainTeam s p.1) →
      ∃ t, exec .blockSave s = .next t ∧ sameMem s t ∧ t.blockAt s.ev.x = { b with status := .saved } ∧ (∀ k, k ≠ s.ev.x → t.blockAt k = s.blockAt k) ∧
        ∀ p ∈ blockTeams s s.ev.x, p.2.status = .live → { t.teamAt p.1 with wait := p.2.wait, sched := p.2.sched } =
          { p.2 with status := .saved, slots := [], xlat := [] } ∧ (t.teamAt p.1).sched = { p.2.sched with savedAt := s.cc }) ∧
    (b.status = .toFlush → (s.gridAt b.grid).failed = false → (∀ p ∈ blockTeams s s.ev.x, saveReady s p = true ∧ p.2.matQ = []) → (∀ p ∈ blockTeams s s.ev.x, p.2.core = b.core ∧ kGet p.1 s.teams = some p.2 ∧ plainTeam s p.1) →
      ∃ t, exec .blockFlush s = .next t ∧ sameMem s t ∧ blockTeams t s.ev.x = [] ∧
        t.blockAt s.ev.x = { Block.blank with grid := b.grid, idx := b.idx, core := b.core, status := .flushed, stashBytes := b.stashBytes } ∧
        (∀ k, k ≠ s.ev.x → t.blockAt k = s.blockAt k) ∧ ∀ u, (s.teamAt u).block ≠ s.ev.x → t.teamAt u = s.teamAt u) ∧
    (b.status = .toSave → (s.gridAt b.grid).failed = false → kSorted s.blocks = true → kSorted s.teams = true →
      (∀ q ∈ cohortLeft s b, q.2.status = .toSave ∧ q.2.windows = [] ∧ (s.coreAt q.2.core).sbuf = [] ∧ ∀ p ∈ blockTeams s q.1, saveReady s p = true) →
      ∃ t, exec .blockSave s = .next t ∧ sameMem s t ∧ (∀ q ∈ cohortLeft s b, (t.blockAt q.1).status = .saved ∧ (t.blockAt q.1).stash = q.2.stash ∧
        ∀ p ∈ blockTeams s q.1, p.2.status = .live → (t.teamAt p.1).status = .saved ∧ (t.teamAt p.1).slots = []) ∧
        ∀ k, (∀ q ∈ cohortLeft s b, q.1 ≠ k) → t.blockAt k = s.blockAt k) ∧
    (∀ q ∈ cohortLeft s b, q.2.status ≠ .toSave ∨ (∃ p ∈ blockTeams s q.1, saveReady s p = false) → exec .blockSave s = .next s) ∧
    (b.status = .toFlush → (∃ p ∈ blockTeams s s.ev.x, saveReady s p = false) → exec .blockFlush s = .next s)

/-- R265, R266, R286: a flushed block that finds a core starts again with fresh teams; a saved block that finds one goes on there: its team keeps everything but its place, `%epoch` rises, saved time does not count, and
matrix state that it carried is its partition's. Time saved before a first issue counts for nothing. -/
def Sys2Proof.Claims.BlocksReturn : Prop :=
  ∀ (s : State) (b : Block) (g : Grid) (c : Nat), b = s.blockAt s.ev.x → g = s.gridAt b.grid → plainGrid g → b.windows = [] → s.plat.dispatch = true → g.ended = false → g.failed = false →
    (∀ rooms seats, b.status = .flushed → placeOne s b.grid g (unitCores s g.diesMask 0 0) (List.replicate g.teams false) b.idx [] = some (rooms, (b.idx, c, seats)) → seats.length ≤ 16 →
      ∃ t, exec .blockRestart s = .next t ∧ sameMem s t ∧ t.blockAt s.ev.x = { b with core := c, status := .resident } ∧
        (∀ i, i < seats.length → (t.teamAt (s.nextTid + i)).grid = b.grid ∧ started (t.teamAt (s.nextTid + i)) g s.ev.x i c (seats.getD i (0, []))) ∧
        ∀ u, u < s.nextTid → t.teamAt u = s.teamAt u) ∧
    (∀ tid u seat, b.status = .saved → blockBy s b.grid b.idx = some (s.ev.x, b) → (∀ k v, (k, v) ∈ s.blocks → v.grid = b.grid → v.idx = b.idx → k = s.ev.x ∧ v = b) →
      savedTeams s s.ev.x = [(tid, u)] → kGet tid s.teams = some u →
      seatsFor s b.grid (fun i => match blockBy s b.grid i with
        | some p => (savedTeams s p.1).map (fun t => t.2.heldMat.isSome)
        | none => []) (fun i => (blockBy s b.grid i).any (fun p => p.2.status = .saved)) b.idx = some [(b.idx, c, [seat])] →
      ∃ t, exec .blockResume s = .next t ∧ sameMem s t ∧ (t.blockAt s.ev.x).status = .resident ∧ (t.blockAt s.ev.x).core = c ∧ (t.blockAt s.ev.x).stash = b.stash ∧
        t.teamAt tid = { u with
          core := c, part := seat.1, slots := seat.2, status := .live, epoch := u.epoch + 1, heldMat := none
          sched := { u.sched with readySince := s.cc, savedTime := if u.sched.firstIssue = none then 0 else u.sched.savedTime + (s.cc - u.sched.savedAt) } } ∧
        (∀ m, u.heldMat = some m → (t.partAt (4 * c + seat.1)).holder = some tid ∧ (t.partAt (4 * c + seat.1)).mat = m))

/-- R121, R195, R202, R276, R295, R320: an ended team with nothing in flight frees its slots, its watch entries and its matrix state, and with its last team a block retires and counts in its grid; a team with an access in flight keeps them. -/
def Sys2Proof.Claims.SlotsReleased : Prop :=
  ∀ (s : State) (u : Team), u = s.teamAt s.ev.x → kGet s.ev.x s.teams = some u → kSorted s.teams = true →
    (endedQuiet s (s.ev.x, u) = false → exec .warpSlotRelease s = .next s) ∧
    (endedQuiet s (s.ev.x, u) = true → (s.blockAt u.block).windows = [] → (s.coreAt (s.blockAt u.block).core).sbuf = [] →
      ∃ t, exec .warpSlotRelease s = .next t ∧ sameMem s t ∧ t.teamAt s.ev.x = { u with slots := [], struck := u.struck || (teamWatches s s.ev.x).any (fun w => w.st = .struck) } ∧
        (∀ w ∈ (t.coreAt u.core).watch, w.tid ≠ s.ev.x) ∧ (∀ k, k ≠ s.ev.x → t.teamAt k = s.teamAt k) ∧
        ((s.partAt u.partNo).holder = some s.ev.x → (t.partAt u.partNo).holder = none) ∧
        ((∀ p ∈ blockTeams s u.block, p.1 ≠ s.ev.x → p.2.status = .ended ∧ p.2.slots = []) → (t.blockAt u.block).status = .retired ∧
          (t.gridAt (s.blockAt u.block).grid).retired = (s.gridAt (s.blockAt u.block).grid).retired + 1) ∧
        ((∃ p ∈ blockTeams s u.block, p.1 ≠ s.ev.x ∧ (p.2.status ≠ .ended ∨ p.2.slots ≠ [])) → t.blocks = s.blocks ∧ t.grids = s.grids))

/-- R35: a team ready for 1,024 cc rises one class, up to 7, and its count starts again; a younger one does not. Within a class the scheduler goes round: a team that issues becomes the last of the round of
its partition, and no team is taken while another of its class, without a yield hint, that stands before it in the round could issue. -/
def Sys2Proof.Claims.TeamsAge : Prop :=
  (∀ (s : State) (tid k : Nat), k ≠ tid → roundPlace ((noteIssue s tid).partAt (s.teamAt tid).partNo).rr k < roundPlace ((noteIssue s tid).partAt (s.teamAt tid).partNo).rr tid) ∧
  (∀ (s : State) (tid : Nat) (q : Nat × Team), q ∈ teamsOn s (s.teamAt tid).partNo → q.1 ≠ tid → q.2.sched.cls = (s.teamAt tid).sched.cls → q.2.sched.yld = false →
    q.2.sched.stalled ≤ s.cc → couldIssue s q = true → roundPlace (s.partAt (s.teamAt tid).partNo).rr q.1 < roundPlace (s.partAt (s.teamAt tid).partNo).rr tid → turnOk s tid = false) ∧
  ∀ (s : State) (u : Team), u = s.teamAt s.ev.x →
    (teamReady s s.ev.x = true → u.sched.readySince + 1024 ≤ s.cc → exec .priorityAging s = .next (s.setTeamAt s.ev.x { u with
      sched := { u.sched with cls := min 7 (u.sched.cls + 1), readySince := u.sched.readySince + 1024 } })) ∧
    (s.cc < u.sched.readySince + 1024 → exec .priorityAging s = .next s)

/-- R125, R224, R270, R281, R310: a pending trap is taken outside a handler, at a boundary or by leaving a wait: the whole mask, the pc of the point where the team stood, a stream's before a copy's before the matrix unit's; in a
handler, or in a wait it may not leave, it stays pending. A page that is not present is reported with what its merge has gathered; every other trap stands as it was raised. -/
def Sys2Proof.Claims.PendingTrapsTaken : Prop :=
  ∀ (s : State) (u : Team) (p : PendTrap), u = s.teamAt s.ev.x → u.status = .live →
    (u.trap.sup = true ∨ u.live = 0 → exec .pendingTrapTaken s = .next s) ∧
    (∀ va acc, u.wait = .walk va acc → exec .pendingTrapTaken s = .next s) ∧
    (u.trap.sup = false → u.live ≠ 0 → (u.wait = .none ∨ (∃ l g e, u.wait = .barrier l g e) ∨ (∃ e, u.wait = .rdv e) ∨ u.wait = .watch ∨ (∃ n, u.wait = .sleep n) ∨ (∃ a m, u.wait = .cont a m)) →
      (∀ r, u.pendStream = p :: r → exec .pendingTrapTaken s = .next (enterTrap (s.setTeamAt s.ev.x { u with pendStream := r }) s.ev.x
        (mergedTrap s s.ev.x { cause := p.cause, i0 := p.i0, i1 := p.i1, i2 := p.i2, i3 := p.i3 }) u.mask u.pc p.strm)) ∧
      (u.pendStream = [] → u.pendCopy = some p → exec .pendingTrapTaken s = .next (enterTrap (s.setTeamAt s.ev.x { u with pendCopy := none }) s.ev.x
        (mergedTrap s s.ev.x { cause := p.cause, i0 := p.i0, i1 := p.i1, i2 := p.i2, i3 := p.i3 }) u.mask u.pc p.strm)) ∧
      (∀ r, u.pendStream = [] → u.pendCopy = none → u.pendMat = p :: r → exec .pendingTrapTaken s = .next (enterTrap (s.setTeamAt s.ev.x { u with pendMat := r }) s.ev.x
        (mergedTrap s s.ev.x { cause := p.cause, i0 := p.i0, i1 := p.i1, i2 := p.i2, i3 := p.i3 }) u.mask u.pc p.strm))) ∧
    (∀ tr, tr.cause ≠ 0x12 ∨ tr.i3 ≠ 1 ∨ (s.dieAt (u.core / 48)).stage = [] → mergedTrap s s.ev.x tr = tr)

/-! ### Deterministic launches -/

namespace Sys2Proof.Claims

/-- Blocks of a block's grid that stand before it (R371). -/
def lowerBlocks (s : State) (b : Block) : KMap Block := s.blocks.filter (fun q => q.2.grid = b.grid && q.2.idx < b.idx)

end Sys2Proof.Claims

/-- R111, R370, R371: outside cohorts, a placed block of a deterministic grid holds its ticket once every lower block has been placed, has released the phase or has retired or ended with all it staged, and its atomics up to
the phase have been applied, whether it stays or is to leave its core; while one lower block is unplaced, flushed, or still runs in the phase, it does not. -/
def Sys2Proof.Claims.TicketsGranted : Prop :=
  ∀ (s : State) (b : Block), b = s.blockAt s.ev.x → (s.gridAt b.grid).det = true → (s.gridAt b.grid).cohLvl = 0 → (s.gridAt b.grid).failed = false →
    ((lowerBlocks s b).length = b.idx →
      (∀ q ∈ lowerBlocks s b, kGet q.1 s.blocks = some q.2 ∧ atomPending s q.1 b.phase = false ∧
        (b.phase < q.2.relPhase ∨ (q.2.phase < q.2.relPhase ∧ (q.2.status = .retired ∨ (q.2.status ≠ .flushed ∧ liveTeams s q.1 = []))))) →
      exec .ticketGrant s = .next (s.setBlock s.ev.x { b with ticket := true })) ∧
    ((lowerBlocks s b).length < b.idx → exec .ticketGrant s = .next s) ∧
    (∀ q ∈ lowerBlocks s b, kGet q.1 s.blocks = some q.2 → q.2.relPhase ≤ b.phase →
      (q.2.relPhase ≤ q.2.phase ∨ (q.2.status ≠ .retired ∧ (q.2.status = .flushed ∨ liveTeams s q.1 ≠ []))) → exec .ticketGrant s = .next s)

/-- R372, R373: a block that has passed its oldest unreleased phase, with the phase of every lower block released, has the phase's staged writes performed in their order and its appends after them; until then nothing
happens. -/
def Sys2Proof.Claims.PhasesReleased : Prop :=
  ∀ (s : State) (b : Block), b = s.blockAt s.ev.x → (s.gridAt b.grid).det = true → (s.gridAt b.grid).cohLvl = 0 → b.relPhase < b.phase →
    (∀ q u, (lowerBlocks s b).length = b.idx → (∀ v ∈ lowerBlocks s b, b.relPhase < v.2.relPhase) → blockPending s s.ev.x b.relPhase = false →
      performStagedAll s b.core (b.staged.filter (fun w => w.phase ≤ b.relPhase)) = some q → performAppends q s.ev.x b.relPhase = some u →
      ∃ t, exec .ticketPhaseRelease s = .next t ∧ t = { u with blocks := t.blocks } ∧ (∀ k, k ≠ s.ev.x → t.blockAt k = u.blockAt k) ∧
        t.blockAt s.ev.x = { u.blockAt s.ev.x with relPhase := b.relPhase + 1, staged := (u.blockAt s.ev.x).staged.filter (fun w => b.relPhase < w.phase) }) ∧
    (blockPending s s.ev.x b.relPhase = true → exec .ticketPhaseRelease s = .next s) ∧
    ((lowerBlocks s b).length < b.idx → exec .ticketPhaseRelease s = .next s) ∧
    (∀ v ∈ lowerBlocks s b, kGet v.1 s.blocks = some v.2 → v.2.relPhase ≤ b.relPhase → v.2.status ≠ .retired → v.2.status = .flushed ∨ liveTeams s v.1 ≠ [] → (s.gridAt b.grid).failed = false →
      exec .ticketPhaseRelease s = .next s)

/-- R377: a team held at issue for the log tries again; the event changes nothing else. -/
def Sys2Proof.Claims.ReplayTriesAgain : Prop :=
  ∀ (s : State) (u : Team), u = s.teamAt s.ev.x →
    (u.wait = .replay → exec .replayDecision s = .next (s.setTeamAt s.ev.x { u with wait := .none, sched := { u.sched with readySince := s.cc } })) ∧
    (u.wait ≠ .replay → u.memQ = [] → exec .replayDecision s = .next s)

/-! ### Tiers, frames, channels, lanes, keys -/

namespace Sys2Proof.Claims

/-- The mailbox after it is free: its registers are 0, or name the next request (R365). -/
def nextMail (p : Plat) : Plat :=
  match p.xwait with
  | [] => { p with xpend := false, xforced := false, xbase := 0, xlen := 0 }
  | (b, forced) :: r => { p with
      xpend := true, xforced := forced, xwait := r, intr := true, xbase := BitVec.ofNat 64 b
      xlen := BitVec.ofNat 64 (((p.extents.find? (fun e => e.base = b)).map (fun e => e.len)).getD 0) }

/-- A generation count once a change of its record has begun: the next odd one (R14). -/
def begun (g : Nat) : Nat := if g % 2 = 0 then g + 1 else g + 2

/-- A class of R381 whose turn the place of the round is: W1 turns of class 1, then W2 of class 2, then W3 of class 3. -/
def roundClass (w : Nat → Nat) (n : Nat) : Nat := if n < w 1 then 1 else if n < w 1 + w 2 then 2 else 3

/-- How far a stamp lies from a base, modulo 4,096. -/
def stampFrom (b stamp : Nat) : Nat := (stamp + (4096 - b % 4096)) % 4096

/-- A bank of a stack, as its rows' counters and its open row name it. -/
def bankAt (stack line : Nat) : Nat := stack + 16 * (Config.bankOf line % 65536)

/-- Nothing holds the bank that a line lies in: none of its rows stands at the threshold (R384). -/
def bankFree (p : Plat) (stack line : Nat) : Prop :=
  ∀ r ∈ p.rowAct, r.1 % 2 ^ 20 = bankAt stack line → r.2 < max 256 (p.actth.toNat % 2 ^ 14)

/-- A spare lane carries nothing and is not itself repaired (R386). -/
def spareFree (p : Plat) (k q : Nat) : Prop :=
  (kGetD (4096 * k + q) 0 p.lanes).getLsbD 30 = false ∧ ∀ r ∈ p.repairs, r.stack = k → r.spare ≠ q

/-- Activations that a row may not reach (R384). -/
def threshold (s : State) : Nat := max 256 (s.plat.actth.toNat % 2 ^ 14)

/-- A counter that stands at its greatest value. -/
def count32 (v : Word) : Word := if v = 0xFFFFFFFF then v else v + 1

end Sys2Proof.Claims

/-- R6, R14, R15, R362, R364, R365, R366: an extent added above HBM, apart from the others, is present and begins a change of the record: its generation is odd, and even again once a cycle leaves the record as it is; a release request waits for the mailbox; the host's acceptance closes the extent, its
refusal leaves it present; a closing extent is gone, and its lines' entries with it, once its lines are home, and not while a request for one of them is under way. -/
def Sys2Proof.Claims.ExtentLifeCycle : Prop :=
  ∀ s : State,
    (2 ^ 40 ≤ s.ev.x → s.ev.y ≠ 0 → s.ev.x % 4096 = 0 → s.ev.y % 4096 = 0 → s.ev.x + s.ev.y ≤ 2 ^ 52 → s.ev.z < 8 → (∀ e ∈ s.plat.extents, s.ev.x + s.ev.y ≤ e.base ∨ e.base + e.len ≤ s.ev.x) →
      (s.plat.extents.filter (fun e => e.st ≠ .lost)).length < 200 → tierUsed s.plat + s.ev.y ≤ 2 ^ 45 → ∃ t, exec .extentAdd s = .next t ∧ t = s.setPlat { s.plat with extents := t.plat.extents, genExt := begun s.plat.genExt } ∧
        ∀ e, e ∈ t.plat.extents ↔ e ∈ s.plat.extents ∨ e = { base := s.ev.x, len := s.ev.y, port := s.ev.z, st := .present }) ∧
    (200 ≤ (s.plat.extents.filter (fun e => e.st ≠ .lost)).length ∨ 2 ^ 45 < tierUsed s.plat + s.ev.y → exec .extentAdd s = .next s) ∧
    ((settleGens s.plat s).plat.genExt % 2 = 0 ∧ (settleGens s.plat s).plat.genInv % 2 = 0 ∧ (settleGens s.plat s).plat.genLink % 2 = 0) ∧
    (∀ e, s.plat.extents.find? (fun e => e.base = s.ev.x) = some e → e.st = .present → s.plat.xpend = false → s.plat.xwait = [] →
      exec .extentReleaseRequest s = .next (s.setPlat { s.plat with
        xpend := true, xforced := false, intr := true, xbase := BitVec.ofNat 64 e.base, xlen := BitVec.ofNat 64 e.len })) ∧
    (∀ e, s.plat.extents.find? (fun e => e.base = s.ev.x) = some e → e.st = .present → s.plat.xpend = true →
      exec .extentReleaseRequest s = .next (s.setPlat { s.plat with xwait := s.plat.xwait ++ [(e.base, false)] })) ∧
    (s.plat.xpend = true → s.plat.xforced = false → exec .extentDecline s = .next (s.setPlat (nextMail s.plat)) ∧
      exec .extentAccept s = .next (s.setPlat (nextMail { s.plat with
        genExt := begun s.plat.genExt
        extents := s.plat.extents.map (fun e => if e.base = s.plat.xbase.toNat then { e with st := .closing } else e) }))) ∧
    (s.plat.xpend = false → exec .extentDecline s = .next s ∧ exec .extentAccept s = .next s) ∧
    (∀ e, s.plat.extents.find? (fun e => e.base = s.ev.x) = some e → e.st = .closing → heldLines s e.base e.len = [] →
      (∀ q ∈ (s.dieAt e.port).dir, e.base ≤ 64 * q.1 → 64 * q.1 < e.base + e.len → q.2.tr = none ∧ q.2.waiting = []) →
      exec .extentCloseComplete s = .next ((s.modDie e.port (fun d => { d with dir := d.dir.filter (fun q => ¬ (e.base ≤ 64 * q.1 ∧ 64 * q.1 < e.base + e.len)) })).setPlat
        { s.plat with extents := s.plat.extents.filter (fun x => x.base ≠ e.base), genExt := begun s.plat.genExt })) ∧
    (∀ e q, s.plat.extents.find? (fun e => e.base = s.ev.x) = some e → q ∈ (s.dieAt e.port).dir → e.base ≤ 64 * q.1 → 64 * q.1 < e.base + e.len → (q.2.tr ≠ none ∨ q.2.waiting ≠ []) →
      exec .extentCloseComplete s = .next s) ∧
    (∀ e, s.plat.extents.find? (fun e => e.base = s.ev.x) = some e → e.st ≠ .closing → exec .extentCloseComplete s = .next s)

/-- R367: a forced release takes the extent at once: no die holds a line of it any more, its range is poisoned, the port's log counts the dirty lines lost, and the mailbox names it; DONE ends the poison and the extent. -/
def Sys2Proof.Claims.ForcedReleases : Prop :=
  ∀ (s : State) (e : Extent),
    (s.plat.extents.find? (fun e => e.base = s.ev.x) = some e → e.st ≠ .lost → s.plat.xpend = false → s.plat.xwait = [] →
      ∃ t, exec .forcedExtentRelease s = .next t ∧ sameMem s t ∧ t.teams = s.teams ∧ heldLines t e.base e.len = [] ∧
        (t.dieAt e.port).log = (s.dieAt e.port).log ++ [.forcedRelease e.base e.len (dirtyLines s e.base e.len)] ∧
        (t.dieAt e.port).poison = (s.dieAt e.port).poison ++ [(e.base, e.len)] ∧
        t.plat.extents = s.plat.extents.map (fun x => if x.base = e.base then { x with st := .lost } else x) ∧
        t.plat.xpend = true ∧ t.plat.xforced = true ∧ t.plat.xbase = BitVec.ofNat 64 e.base ∧ t.plat.xlen = BitVec.ofNat 64 e.len ∧ t.plat.intr = true ∧
        (∀ d line, d < 8 → (64 * line < e.base ∨ e.base + e.len ≤ 64 * line) → l2At t d line = l2At s d line)) ∧
    (s.plat.xpend = true → s.plat.xforced = true → ∃ t, exec .extentDone s = .next t ∧ sameMem s t ∧ t.teams = s.teams ∧
      t.plat = nextMail { s.plat with extents := s.plat.extents.filter (fun x => x.base ≠ s.plat.xbase.toNat), genExt := begun s.plat.genExt } ∧
      ∀ d, (t.dieAt d).poison = (s.dieAt d).poison.filter (fun r => r.1 ≠ s.plat.xbase.toNat)) ∧
    (s.plat.xforced = false → exec .extentDone s = .next s)

/-- R186, R190: a frame obtained for an append page reads zero, is open with tail 0, and leaves the pools' free ranges; a sealed page that is freed loses the leaf that maps it, which reads zero, and has no record, no translation and
no place in a die's L2 any more, and its frame joins a pool. -/
def Sys2Proof.Claims.FramesTakenAndFreed : Prop :=
  ∀ s : State,
    (s.ev.y ≠ 0 → s.ev.x % s.ev.y = 0 → backed s s.ev.x = true → backed s (s.ev.x + s.ev.y - 1) = true → (∀ p ∈ s.pages, s.ev.x + s.ev.y ≤ p.1 ∨ p.1 + p.2.size ≤ s.ev.x) →
      ∃ t, exec .appendFrameAlloc s = .next t ∧ kGet s.ev.x t.pages = some { size := s.ev.y, tail := 0, st := .opened, pending := 0, recalled := [] } ∧
        (∀ p, p ≠ s.ev.x → kGet p t.pages = kGet p s.pages) ∧ t.teams = s.teams ∧
        (∀ a, s.ev.x ≤ a → a < s.ev.x + s.ev.y → bGet t.mem a = 0) ∧ (∀ a, a < s.ev.x ∨ s.ev.x + s.ev.y ≤ a → bGet t.mem a = bGet s.mem a) ∧
        ∀ r ∈ kGetD s.ev.z [] t.pools, r.1 + r.2 ≤ s.ev.x ∨ s.ev.x + s.ev.y ≤ r.1) ∧
    (∀ g a u, kGet s.ev.x s.pages = some g → g.st = .sealed → leafOf s s.ev.w.toNat s.ev.u s.ev.y s.ev.x = some a → agentWrite s s.ev.w.toNat a (leBytes 8 0) = some u →
      kSorted u.pages = true →
      ∃ t, exec .pageFree s = .next t ∧ sameMem u t ∧ kGet s.ev.x t.pages = none ∧ (∀ p, p ≠ s.ev.x → kGet p t.pages = kGet p u.pages) ∧
        (s.ev.x, g.size) ∈ kGetD s.ev.z [] t.pools ∧ (∀ k e, e ∈ (t.teamAt k).xlat → e.ppage + e.size ≤ s.ev.x ∨ s.ev.x + g.size ≤ e.ppage) ∧ (∀ c e, e ∈ (t.coreAt c).tlb → e.ppage + e.size ≤ s.ev.x ∨ s.ev.x + g.size ≤ e.ppage) ∧
        ∀ d line, d < 8 → s.ev.x ≤ 64 * line → 64 * line < s.ev.x + g.size → l2At t d line = none) ∧
    (∀ g, kGet s.ev.x s.pages = some g → g.st ≠ .sealed → exec .pageFree s = .next s) ∧
    (leafOf s s.ev.w.toNat s.ev.u s.ev.y s.ev.x = none → exec .pageFree s = .next s)

/-- R380, R381, R382, R383, R384: a channel serves class 0 first, else by weighted rounds, within a class the earliest stamp and among equal ones the earliest arrival; a request served after its stamp counts as missed for its
requester and class; a request keeps the weight of its class as it stood when it was stamped; an activate counts for the row it closes, and no request to a bank with a row at its threshold is served, the one whose activate closed that row included, until the row's back-off, nor one of its class behind it, while other classes go on; the
counters reach the page when the management controller copies them. -/
def Sys2Proof.Claims.ChannelsServe : Prop :=
  ∀ s : State,
    (∀ here cls pos r, s.ev.nums = [] → here = s.plat.chan.filter (fun r => r.stack = s.ev.x && Config.channelOf r.line % 32 = s.ev.y) →
      nextClass (waitingWeight here) (classReady s.plat here) (kGetD (32 * s.ev.x + s.ev.y) 0 s.plat.rrChan) = some (cls, pos) →
      earliest (here.filter (fun r => r.cls = cls)) = some r →
      (∀ q, s.ev.ok = true → kGet (bankAt s.ev.x r.line) s.plat.openRow = some q → kGetD (bankAt s.ev.x r.line + 2 ^ 20 * q) 0 s.plat.rowAct + 1 < threshold s) →
      ∃ t, exec .channelService s = .next t ∧
        t = s.setPlat { s.plat with chan := s.plat.chan.erase r, rrChan := t.plat.rrChan, missed := t.plat.missed, rowAct := t.plat.rowAct, openRow := t.plat.openRow } ∧
        (∀ k, kGetD k 0 t.plat.rrChan = if k = 32 * s.ev.x + s.ev.y then pos else kGetD k 0 s.plat.rrChan) ∧
        (∀ k, kGetD k 0 t.plat.missed = if k = 4 * r.who + cls ∧ stampBefore r.stamp (s.cc / 28 % 4096) = true then count32 (kGetD k 0 s.plat.missed) else kGetD k 0 s.plat.missed) ∧
        (∀ k, kGet k t.plat.openRow = if s.ev.ok = true ∧ k = bankAt s.ev.x r.line then some s.ev.z else kGet k s.plat.openRow) ∧
        (∀ k, (∃ q, s.ev.ok = true ∧ kGet (bankAt s.ev.x r.line) s.plat.openRow = some q ∧ k = bankAt s.ev.x r.line + 2 ^ 20 * q) →
          kGetD k 0 t.plat.rowAct = min 16383 (kGetD k 0 s.plat.rowAct + 1)) ∧
        (∀ k, (∀ q, s.ev.ok = true → kGet (bankAt s.ev.x r.line) s.plat.openRow = some q → k ≠ bankAt s.ev.x r.line + 2 ^ 20 * q) →
          kGetD k 0 t.plat.rowAct = kGetD k 0 s.plat.rowAct)) ∧
    (∀ here, s.ev.nums = [] → here = s.plat.chan.filter (fun r => r.stack = s.ev.x && Config.channelOf r.line % 32 = s.ev.y) →
      (∀ c, c ≤ 3 → classReady s.plat here c = false) → exec .channelService s = .next s) ∧
    (∀ here c, classReady s.plat here c = true ↔ ∃ r, earliest (here.filter (fun r => r.cls = c)) = some r ∧ bankFree s.plat r.stack r.line) ∧
    (∀ here cls pos r q bank, s.ev.nums = [] → here = s.plat.chan.filter (fun r => r.stack = s.ev.x && Config.channelOf r.line % 32 = s.ev.y) →
      nextClass (waitingWeight here) (classReady s.plat here) (kGetD (32 * s.ev.x + s.ev.y) 0 s.plat.rrChan) = some (cls, pos) →
      earliest (here.filter (fun r => r.cls = cls)) = some r → s.ev.x < 16 → s.ev.ok = true → bank = bankAt s.ev.x r.line →
      kGet bank s.plat.openRow = some q → threshold s ≤ kGetD (bank + 2 ^ 20 * q) 0 s.plat.rowAct + 1 →
      ∃ t, exec .channelService s = .next t ∧ t = s.setPlat { s.plat with rowAct := t.plat.rowAct, openRow := t.plat.openRow } ∧
        kGetD (bank + 2 ^ 20 * q) 0 t.plat.rowAct = min 16383 (kGetD (bank + 2 ^ 20 * q) 0 s.plat.rowAct + 1) ∧
        (∀ k, k ≠ bank + 2 ^ 20 * q → kGetD k 0 t.plat.rowAct = kGetD k 0 s.plat.rowAct) ∧ kGet bank t.plat.openRow = none ∧
        (∀ k, k ≠ bank → kGet k t.plat.openRow = kGet k s.plat.openRow) ∧ ¬ bankFree t.plat s.ev.x r.line) ∧
    (∀ r, s.ev.nums = [] → bankFree s.plat s.ev.x r.line → s.plat.chan = [r] → r.stack = s.ev.x → Config.channelOf r.line % 32 = s.ev.y → r.cls ≤ 3 → s.ev.ok = false →
      ∃ t, exec .channelService s = .next t ∧ t.plat.chan = []) ∧
    (∀ w ready pos, ready 0 = true → nextClass w ready pos = some (0, pos)) ∧
    (∀ w ready pos c q, ready 0 = false → nextClass w ready pos = some (c, q) → ready c = true ∧
      ∃ i n, n = w 1 + w 2 + w 3 ∧ i < n ∧ c = roundClass w ((pos + i) % n) ∧ q = (pos + i + 1) % n ∧
        ∀ j, j < i → ready (roundClass w ((pos + j) % n)) = false) ∧
    (∀ here c r, earliest (here.filter (fun r => r.cls = c)) = some r → waitingWeight here c = if r.wgt = 0 then 1 else r.wgt) ∧
    (∀ l b r, (∀ q ∈ l, stampFrom b q.stamp < 2048) → earliest l = some r → (∀ q ∈ l, stampFrom b r.stamp ≤ stampFrom b q.stamp) ∧
      ∃ older newer, l = older ++ r :: newer ∧ ∀ q ∈ older, stampFrom b r.stamp < stampFrom b q.stamp) ∧
    (∀ cls who line, cls ≠ 0 → 64 * line < 2 ^ 40 → ∃ r, (chanRequest s cls who line).plat.chan = s.plat.chan ++ [r] ∧ r.line = line ∧ r.cls = cls ∧ r.who = who ∧
      r.stack = stackOf line ∧ r.wgt = s.plat.mswgt.toNat / 2 ^ (4 * (cls - 1)) % 16) ∧
    (s.plat.mgmt = true → s.ev.nums = [] → exec .telemetryCopy s = .next (s.setPlat { s.plat with missedPage := s.plat.missed })) ∧
    (s.plat.mgmt = false → exec .telemetryCopy s = .next s) ∧
    (∀ k n, k = s.ev.x + 16 * (s.ev.z % 65536) + 2 ^ 20 * s.ev.y → n = kGetD k 0 s.plat.rowAct →
      (n < max 256 (s.plat.actth.toNat % 2 ^ 14) → exec .rowActivationAlert s = .next s) ∧
      (max 256 (s.plat.actth.toNat % 2 ^ 14) ≤ n → ∃ t, exec .rowActivationAlert s = .next t ∧ t = s.setPlat { s.plat with rowAct := t.plat.rowAct, alerts := t.plat.alerts } ∧
        kGetD k 0 t.plat.rowAct = 0 ∧ (∀ j, j ≠ k → kGetD j 0 t.plat.rowAct = kGetD j 0 s.plat.rowAct) ∧ kGetD s.ev.x 0 t.plat.alerts = count32 (kGetD s.ev.x 0 s.plat.alerts)))

/-- R385, R386: a lane whose margins stand below EYETH is retrained; if the margins found still stand below it, a data lane goes onto a free spare of its channel, the lane that a failing spare carries onto the other one, and the
repair into the list in flash; without a free spare the channel is degraded; the die's log and the host interrupt report each. A lane at or above the threshold is left alone, as are a
repaired lane, one whose fall was answered already, and every lane before the management controller runs. What counts as a fall is log entry 48's. -/
def Sys2Proof.Claims.LanesRetrained : Prop :=
  ∀ (s : State) (k n : Nat) (w : Word), k = s.ev.x → n = s.ev.y → k < 16 → n < 2112 → w = kGetD (4096 * k + n) 0 s.plat.lanes →
    (laneLow s.plat w = false ∨ s.plat.mgmt = false ∨ w.getLsbD 30 = true ∨ 4096 * k + n ∈ s.plat.lowSeen → exec .laneRetrain s = .next s) ∧
    (∀ v, s.plat.mgmt = true → laneLow s.plat w = true → w.getLsbD 30 = false → 4096 * k + n ∉ s.plat.lowSeen → v = (w &&& 0xFFFF0000) ||| BitVec.ofNat 32 (256 * (s.ev.z % 256) + s.ev.u % 256) →
      (laneLow s.plat v = false → ∃ t, exec .laneRetrain s = .next t ∧ t.plat = { s.plat with lanes := kPut (4096 * k + n) v s.plat.lanes, intr := true } ∧
        (t.dieAt (k / 2)).log = (s.dieAt (k / 2)).log ++ [.laneEvent k n false]) ∧
      (∀ q, laneLow s.plat v = true → n < 2048 → (∀ r ∈ s.plat.repairs, r.stack = k → 2048 ≤ r.spare) → spareFree s.plat k q →
        q = 2048 + 2 * (n / 64) ∨ (q = 2049 + 2 * (n / 64) ∧ ¬ spareFree s.plat k (2048 + 2 * (n / 64))) →
        ∃ t, exec .laneRetrain s = .next t ∧ kGetD (4096 * k + n) 0 t.plat.lanes = (v &&& 0xFF00FFFF) ||| 0x40000000 ∧
          (kGetD (4096 * k + q) 0 t.plat.lanes).getLsbD 31 = true ∧ (kGetD (4096 * k + q) 0 t.plat.lanes).extractLsb' 16 8 = BitVec.ofNat 8 (n % 64) ∧
          { stack := k, lane := n, spare := q } ∈ t.plat.repairs ∧ t.plat.degraded = s.plat.degraded ∧
          t.plat.intr = true ∧ (t.dieAt (k / 2)).log = (s.dieAt (k / 2)).log ++ [.laneEvent k n true]) ∧
      (∀ q l, laneLow s.plat v = true → 2048 ≤ n → q = 2048 + 2 * ((n - 2048) / 2) + (1 - n % 2) → spareFree s.plat k q → l < 2048 → { stack := k, lane := l, spare := n } ∈ s.plat.repairs →
        (∀ r ∈ s.plat.repairs, r.stack = k → r.spare = n → r.lane = l) →
        ∃ t, exec .laneRetrain s = .next t ∧ { stack := k, lane := l, spare := q } ∈ t.plat.repairs ∧ (∀ r ∈ t.plat.repairs, r.stack = k → r.spare ≠ n) ∧
          (kGetD (4096 * k + q) 0 t.plat.lanes).getLsbD 31 = true ∧ (kGetD (4096 * k + q) 0 t.plat.lanes).extractLsb' 16 8 = BitVec.ofNat 8 (l % 64) ∧
          t.plat.intr = true ∧ (t.dieAt (k / 2)).log = (s.dieAt (k / 2)).log ++ [.laneEvent k n true]) ∧
      (∀ c, laneLow s.plat v = true → c = (if n < 2048 then n / 64 else (n - 2048) / 2) →
        (∀ q, q = 2048 + 2 * c ∨ q = 2049 + 2 * c → q = n ∨ ¬ spareFree s.plat k q) →
        ∃ t, exec .laneRetrain s = .next t ∧ 32 * k + c ∈ t.plat.degraded ∧ 4096 * k + n ∈ t.plat.lowSeen ∧ t.plat.repairs = s.plat.repairs ∧ t.plat.intr = true ∧
        (t.dieAt (k / 2)).log = (s.dieAt (k / 2)).log ++ [.laneEvent k n false]))

/-- R387: a load under the session key fills an empty slot with its two keys and raises its generation, never to 0; a full slot answers 1, a rejected blob 2; a revoke empties its slot; BUSY ends once the command is done. A blob
with a nonzero reserved byte is rejected. -/
def Sys2Proof.Claims.KeyCommands : Prop :=
  ∀ (s : State) (slot : Nat) (k : KeySlot) (gen : Nat), slot = s.plat.vkeyreq.toNat % 2 ^ 13 → k = kGetD slot KeySlot.reset s.plat.keys →
    gen = (if 65535 ≤ k.gen then 1 else k.gen + 1) → s.plat.kbusy = true →
    (s.plat.vkeyreq.toNat / 2 ^ 30 = 1 →
      (k.loaded = true → exec .keyLoad s = .next (s.setPlat { s.plat with kres := 1, kgen := k.gen, vkeyreq := 0 })) ∧
      (k.loaded = false → s.plat.session.bind (openBlob s.plat) = none → exec .keyLoad s = .next (s.setPlat { s.plat with kres := 2, kgen := k.gen, vkeyreq := 0 })) ∧
      (∀ key b, k.loaded = false → s.plat.session = some key → openBlob s.plat key = some b → exec .keyLoad s = .next (s.setPlat { s.plat with
        keys := kPut slot { loaded := true, data := b.extractLsb' 0 256, tweak := b.extractLsb' 256 256, gen := gen } s.plat.keys, kres := 0, kgen := gen, vkeyreq := 0 }))) ∧
    (∀ i key, i < 4 → kGetD (92 + i) 0 s.plat.kblob ≠ 0 → openBlob s.plat key = none) ∧
    (s.plat.vkeyreq.toNat / 2 ^ 30 = 2 → exec .keyRevoke s = .next (s.setPlat { s.plat with
      keys := kPut slot { loaded := false, data := 0, tweak := 0, gen := gen } s.plat.keys, kres := 0, kgen := gen, vkeyreq := 0 })) ∧
    (s.plat.vkeyreq = 0 → exec .kstatBusyClear s = .next (s.setPlat { s.plat with kbusy := false })) ∧
    (s.plat.vkeyreq ≠ 0 → exec .kstatBusyClear s = .next s)

/-! ### Boot, swap, watchdog, attestation -/

namespace Sys2Proof.Claims

/-- Rung n is enabled, and its own trigger is true, or that of a lower rung when every rung from that one up to it is disabled (R392). -/
def wouldFire (s : State) (n : Nat) (trig : Nat → Bool) : Prop :=
  s.plat.wdctl.getLsbD n = true ∧ ∃ m, m ≤ n ∧ trig m = true ∧ ∀ k, m ≤ k → k < n → s.plat.wdctl.getLsbD k = false

/-- WDST and the log of a die name the rung; the host hears of rung 1 and above. -/
def rungReported (s t : State) (n die unit lost : Nat) : Prop :=
  t.plat.wdLast = n ∧ t.plat.wdDie = die ∧ t.plat.wdCount = (s.plat.wdCount + 1) % 2 ^ 16 ∧ (1 ≤ n → t.plat.intr = true) ∧
  (t.dieAt die).log = (s.dieAt die).log ++ [.watchdog n unit lost]

/-- A time held while a handover lasts goes on: what began before it begins that much later, what began meanwhile begins now (R391). -/
def heldTime (s : State) (t : Nat) : Nat := if s.plat.swapAt ≤ t then s.cc else t + (s.cc - s.plat.swapAt)

/-- The timers of a core after a handover. -/
def timersHeld (s t : State) (cp : Nat) : Prop :=
  (∀ v, kGet cp s.plat.cps = some v → kGet cp t.plat.cps = some { v with pet := heldTime s v.pet, rungAt := heldTime s v.rungAt })

/-- Every rung 2 under way, as it goes on after a handover. -/
def rungsHeld (s : State) : KMap Rung2 := s.plat.rung2.map (fun r => (r.1, { r.2 with firedAt := heldTime s r.2.firedAt }))

/-- Rungs 2 under way once a core has reported alive: none waits for it any more, and one that waits for nothing has finished (R392). -/
def rungsTold (cp : Nat) (r : KMap Rung2) : KMap Rung2 :=
  (r.map (fun r => (r.1, { r.2 with down := r.2.down.filter (fun i => i ≠ cp) }))).filter (fun r => r.2.left ≠ [] ∨ r.2.down ≠ [])

/-- A command processor as a step leaves it. -/
def cpCore (s : State) (i : Nat) : CpCore := kGetD i CpCore.reset s.plat.cps

end Sys2Proof.Claims

/-- R8, R10, R388, R389: boot goes through its phases in order: the root key and its certificate, the Shell of the flash image, the manifest's enabled cores, memory-side cache and lane repairs, Carcass with the PMP entries and
the resident routines, the release of the command processors, and the first VALIVE ends it; a verification that fails stops it at its phase, until a signed image is written over the host link, which a swap under way forbids. -/
def Sys2Proof.Claims.BootPhases : Prop :=
  ∀ s : State,
    (s.plat.bootStop = false → s.plat.bootPhase = 0 → exec .boot s = .next (s.setPlat { s.plat with
      bootPhase := 1, identity := some Config.identityKey, cert := some (Config.rootKey, Config.leafKey Config.identityKey) })) ∧
    (s.plat.bootStop = false → s.plat.bootPhase = 1 → s.ev.ok = true → s.plat.flashShell.signed = true →
      exec .boot s = .next (s.setPlat { s.plat with bootPhase := 2, shell := s.plat.flashShell })) ∧
    (s.plat.bootStop = false → s.plat.bootPhase = 2 → s.ev.ok = true → ∃ t, exec .boot s = .next t ∧
      t = { s.setPlat { s.plat with bootPhase := 3, manifest := { enable := s.ev.bits, mscUnits := s.ev.x, trims := s.ev.nums }, mscBytes := 2 ^ 25 * min s.ev.x 8, genInv := begun s.plat.genInv, lanes := t.plat.lanes } with
        cores := t.cores } ∧
      (∀ r ∈ s.plat.repairs, (kGetD (4096 * r.stack + r.spare) 0 t.plat.lanes).getLsbD 31 = true ∧ (kGetD (4096 * r.stack + r.lane) 0 t.plat.lanes).getLsbD 30 = true) ∧
      (s.plat.repairs = [] → t.plat.lanes = s.plat.lanes) ∧
      ∀ c, c < 384 → t.coreAt c = { s.coreAt c with enabled := s.ev.bits.getLsbD c }) ∧
    (s.plat.bootStop = false → s.plat.bootPhase = 3 → s.ev.ok = true → s.plat.flash.signed = true → ∃ t, exec .boot s = .next t ∧
      t = s.setPlat { s.plat with bootPhase := 4, running := s.plat.flash, routines := true, cps := t.plat.cps } ∧
      ∀ i, i < 32 → kGet i t.plat.cps = some { cpCore s i with pmp := Config.pmpEntries i }) ∧
    (s.plat.bootStop = false → s.plat.bootPhase = 4 → ∃ t, exec .boot s = .next t ∧ t = s.setPlat { s.plat with bootPhase := 5, cps := t.plat.cps, mgmt := true } ∧
      ∀ i, i < 32 → kGet i t.plat.cps = some { cpCore s i with pet := s.cc, mode := 1 }) ∧
    (∀ n, s.plat.bootStop = false → 1 ≤ n → n ≤ 3 → s.plat.bootPhase = n → s.ev.ok = false ∨ (n = 1 ∧ s.plat.flashShell.signed = false) ∨ (n = 3 ∧ s.plat.flash.signed = false) →
      exec .boot s = .next (s.setPlat { s.plat with bootPhase := n + 1, bootStop := true, bootFail := (Config.bootCode (n + 1)).toNat })) ∧
    (s.plat.bootStop = true → exec .boot s = .next s) ∧
    (∀ i, i = imageIn s → s.plat.swaddr.toNat % 4096 = 0 → s.plat.swlen.toNat ≤ 2 ^ 26 → s.plat.bootStop = true → (s.plat.swst = 0 ∨ 4 ≤ s.plat.swst) →
      exec .recoveryWrite s = .next (if i.signed = true then
        s.setPlat { s.plat with flash := i, flashShell := shellIn s, bootPhase := 1, bootStop := false, bootFail := 0 } else s)) ∧
    (s.plat.bootStop = false ∨ (1 ≤ s.plat.swst ∧ s.plat.swst ≤ 3) → exec .recoveryWrite s = .next s) ∧
    (s.plat.bootPhase = 5 → s.plat.swst ≠ 2 → s.ev.x < 32 → exec .aliveReport s = .next (s.setPlat { s.plat with
      bootPhase := 6, rung4At := none, rung2 := rungsTold s.ev.x s.plat.rung2
      cps := kPut s.ev.x { cpCore s s.ev.x with alive := true, rung := 0, pet := s.cc, sip := false } s.plat.cps })) ∧
    (s.plat.bootPhase < 5 → exec .aliveReport s = .next s)

/-- R390, R391: a swap command has its image verified: a bad one is refused with a reason; at the swap point dispatch stops; VALIVE within 50 ms starts the new image on trial, its absence brings the old one back; after 10 s flash holds
the new one. The watchdog timers stand still while the handover lasts. -/
def Sys2Proof.Claims.FirmwareSwaps : Prop :=
  ∀ (s : State) (i : Image), i = imageIn s →
    (s.plat.swst = 0 ∨ 4 ≤ s.plat.swst →
      exec .firmwareSwap s = .next (if s.plat.swaddr.toNat % 4096 = 0 ∧ s.plat.swlen.toNat ≤ 2 ^ 26 ∧ i.signed = true then
          s.setPlat { s.plat with swst := 1, vswap := 1, staged := some i }
        else { s.setPlat { s.plat with swst := 6, vswap := 6, staged := none, swreason := (Config.swapReason s.freeCtr).toNat } with freeCtr := s.freeCtr + 1 })) ∧
    (∀ k, s.plat.swst = 1 → s.plat.staged = some k → exec .swapPoint s = .next (s.setPlat { s.plat with
      swst := 2, vswap := 2, dispatch := false, prevImage := s.plat.running, swapAt := s.cc })) ∧
    (∀ k, s.plat.bootPhase = 6 → s.plat.swst = 2 → s.plat.staged = some k → s.cc ≤ s.plat.swapAt + 35000000 → s.ev.x < 32 → ∃ t, exec .aliveReport s = .next t ∧
      t = s.setPlat { s.plat with swst := 3, vswap := 3, dispatch := true, running := k, swapAt := s.cc, staged := none, cps := t.plat.cps, rung2 := rungsTold s.ev.x (rungsHeld s) } ∧
      (cpCore t s.ev.x).pet = s.cc ∧ ∀ c, c ≠ s.ev.x → timersHeld s t c) ∧
    (s.plat.swst = 2 → s.plat.swapAt + 35000000 < s.cc → ∃ t, exec .swapAliveTimeout s = .next t ∧
      t = s.setPlat { s.plat with swst := 5, vswap := 5, dispatch := true, running := s.plat.prevImage, staged := none, cps := t.plat.cps, rung2 := rungsHeld s } ∧
      ∀ c, timersHeld s t c) ∧
    (s.plat.swst = 3 → s.plat.swapAt + 7000000000 ≤ s.cc → exec .swapCommit s = .next (s.setPlat { s.plat with swst := 4, vswap := 4, flash := s.plat.running })) ∧
    (s.plat.swst ≠ 1 → exec .swapPoint s = .next s) ∧ (s.plat.swst ≠ 2 → exec .swapAliveTimeout s = .next s) ∧ (s.plat.swst ≠ 3 → exec .swapCommit s = .next s)

/-- R392, R393: VPET restarts a core's timer and ends its rung 0; each rung, when it is enabled and its trigger or that of the disabled rungs right below it is true, does its part, and nothing otherwise: 0 an interrupt on the core,
1 a restart of Carcass there, 2 the save of every block on the die with its cohort, 3 the die's reset with every grid on it failed by status 4, 4 the package's with every queue disabled and boot again, 5 a request for a power cycle.
Readings and choices of the model's own: log entries 46, 47. -/
def Obligations.WatchdogLadder : Prop :=
  ∀ s : State, s.plat.swst = 0 →
    (5 ≤ s.plat.bootPhase → s.ev.x < 32 → ∃ t, exec .watchdogPet s = .next t ∧ t = s.setPlat { s.plat with cps := t.plat.cps } ∧
      cpAt t s.ev.x = { cpAt s s.ev.x with pet := s.cc, rung := if (cpAt s s.ev.x).rung = 1 then 0 else (cpAt s s.ev.x).rung, sip := false } ∧ ∀ c, c ≠ s.ev.x → cpAt t c = cpAt s c) ∧
    (wouldFire s 0 (trigCp s s.ev.x) → ∃ t, exec .watchdogRung0 s = .next t ∧ rungReported s t 0 (s.ev.x / 4) s.ev.x 0 ∧ (cpAt t s.ev.x).rung = 1 ∧ (cpAt t s.ev.x).rungAt = s.cc ∧
      (cpAt t s.ev.x).sip = true ∧ t.teams = s.teams ∧ t.queues = s.queues ∧ sameMem s t) ∧
    (wouldFire s 1 (trigCp s s.ev.x) → ∃ t, exec .watchdogRung1 s = .next t ∧ rungReported s t 1 (s.ev.x / 4) s.ev.x 0 ∧ (cpAt t s.ev.x).rung = 2 ∧ (cpAt t s.ev.x).alive = false ∧
      (cpAt t s.ev.x).rung1At = some s.cc ∧ t.teams = s.teams ∧ t.queues = s.queues ∧ sameMem s t) ∧
    (s.ev.x < 8 → wouldFire s 2 (trigDie s s.ev.x) → ∃ t, exec .watchdogRung2 s = .next t ∧ rungReported s t 2 s.ev.x s.ev.x 0 ∧ t.teams = s.teams ∧ t.queues = s.queues ∧ sameMem s t ∧
      (∀ c, c / 48 = s.ev.x → (t.coreAt c).relayout = none) ∧ (∃ l, kGet s.ev.x t.plat.rung2 = some { firedAt := s.cc, left := l, down := [4 * s.ev.x, 4 * s.ev.x + 1, 4 * s.ev.x + 2, 4 * s.ev.x + 3] } ∧
        ∀ c k b, c / 48 = s.ev.x → (k, b) ∈ onCore s c → kGet k s.blocks = some b → k ∈ l ∧ t.blockAt k = { b with status := .toSave } ∧
          ∀ j v, kGet j s.blocks = some v → v.grid = b.grid → v.status = .resident → (s.gridAt b.grid).cohLvl ≠ 0 →
            (cohortOf (s.gridAt b.grid) b.idx).1 ≤ v.idx → v.idx < (cohortOf (s.gridAt b.grid) b.idx).1 + (cohortOf (s.gridAt b.grid) b.idx).2 →
            t.blockAt j = { v with status := .toSave })) ∧
    (s.ev.x < 8 → wouldFire s 3 (trigDie s s.ev.x) → ∃ t, exec .watchdogRung3 s = .next t ∧ (t.dieAt s.ev.x).l2 = [] ∧ (t.dieAt s.ev.x).wbuf = [] ∧ t.queues = s.queues ∧
      (∀ c, c / 48 = s.ev.x → (t.coreAt c).l1 = [] ∧ (t.coreAt c).sbuf = [] ∧ (t.coreAt c).tlb = [] ∧ (t.coreAt c).fs = [] ∧ (t.coreAt c).enabled = (s.coreAt c).enabled) ∧
      (∀ g ∈ gridsOn s s.ev.x, (t.gridAt g).failed = true ∧ (t.gridAt g).status = 4) ∧ kGet s.ev.x t.plat.rung3At = some s.cc ∧
      ∀ k u, kGet k s.teams = some u → (∃ b, (u.block, b) ∈ onCore s (s.blockAt u.block).core ∧ (s.blockAt u.block).core / 48 = s.ev.x) → (t.teamAt k).status = .ended) ∧
    (wouldFire s 4 (trigPkg s) → ∃ t, exec .watchdogRung4 s = .next t ∧ t.teams = [] ∧ t.blocks = [] ∧ t.plat.bootPhase = 1 ∧ t.plat.rung4At = some s.cc ∧
      t.plat.genInv = begun s.plat.genInv ∧ (t.dieAt 0).log = (s.dieAt 0).log ++ [.watchdog 4 0 (s.grids.countP (fun p => !p.2.ended))] ∧
      (∀ q, (t.queueAt q).en = false ∧ (t.queueAt q).head = (s.queueAt q).tail ∧ (t.queueAt q).tail = (s.queueAt q).tail) ∧ ∀ c, (t.coreAt c).enabled = false) ∧
    (s.plat.powerReq = false → wouldFire s 5 (trigPkg s) → exec .watchdogRung5 s = .next (s.setPlat { s.plat with
      powerReq := true, wdLast := 5, wdDie := 0, wdCount := (s.plat.wdCount + 1) % 2 ^ 16 })) ∧
    (s.plat.powerReq = true → trigger5 s = false) ∧
    (¬ wouldFire s 0 (trigCp s s.ev.x) → exec .watchdogRung0 s = .next s) ∧ (¬ wouldFire s 1 (trigCp s s.ev.x) → exec .watchdogRung1 s = .next s) ∧
    (¬ wouldFire s 2 (trigDie s s.ev.x) → exec .watchdogRung2 s = .next s) ∧ (¬ wouldFire s 3 (trigDie s s.ev.x) → exec .watchdogRung3 s = .next s) ∧
    (¬ wouldFire s 4 (trigPkg s) → exec .watchdogRung4 s = .next s) ∧ (s.plat.powerReq = true ∨ ¬ wouldFire s 5 (trigPkg s) → exec .watchdogRung5 s = .next s) ∧
    (s.plat.wdctl.toNat % 64 = 0 → ∀ i ∈ [Instr.watchdogRung0, .watchdogRung1, .watchdogRung2, .watchdogRung3, .watchdogRung4, .watchdogRung5], exec i s = .next s)

/-- R14, R15, R394: a measurement of the Shell, the manifest with the lane repairs, the running or the staged image is that content's digest, signed under the leaf key of the certificate; a key exchange opens a session under a fresh key; only in a session is an IDE key programmed;
a change of links or ports begins a change of its record. -/
def Sys2Proof.Claims.AttestationAndLinks : Prop :=
  ∀ s : State,
    (∀ n d, (n, d) ∈ [(2, s.plat.shell.digest), (4, s.plat.running.digest)] ∨ (n = 6 ∧ ((∃ i, s.plat.staged = some i ∧ d = i.digest) ∨ (s.plat.staged = none ∧ d = 0))) ∨
        (n = 3 ∧ d = Config.manifestDigest s.plat.manifest.enable s.plat.manifest.mscUnits s.plat.manifest.trims (s.plat.repairs.map (fun r => (r.stack, r.lane, r.spare)))) →
      s.ev.x = n → (∀ root leaf, s.plat.cert = some (root, leaf) → exec .getMeasurements s = .next (s.setPlat { s.plat with spdmResp := some (n, d, Config.responseSignature leaf n d) })) ∧
        (s.plat.cert = none → exec .getMeasurements s = .next (s.setPlat { s.plat with spdmResp := none }))) ∧
    (s.ev.x = 0 ∨ 6 < s.ev.x → exec .getMeasurements s = .next (s.setPlat { s.plat with spdmResp := none })) ∧
    exec .keyExchange s = .next { s.setPlat { s.plat with session := some (Config.sessionSecret s.ev.bits s.freeCtr) } with freeCtr := s.freeCtr + 1 } ∧
    (s.plat.session = none → exec .ideKeyProgramming s = .next s) ∧
    (∀ k, s.plat.session = some k → exec .ideKeyProgramming s = .next (s.setPlat { s.plat with ideKey := some (s.ev.bits.extractLsb' 0 256) })) ∧
    exec .linkUpMaskChange s = .next (s.setPlat { s.plat with
      suinoMask := s.ev.bits.extractLsb' 0 16, cxlMask := BitVec.ofNat 8 s.ev.x
      genLink := if s.ev.bits.extractLsb' 0 16 = s.plat.suinoMask then s.plat.genLink else begun s.plat.genLink
      genExt := if BitVec.ofNat 8 s.ev.x = s.plat.cxlMask then s.plat.genExt else begun s.plat.genExt })

/-! ### Encodings, steps, reset, and the invariant -/

namespace Sys2Proof.Claims

/-- A team whose turn comes: live, its grid goes on, its block stays, no trap pends, no wait holds it. -/
def takesTurn (s : State) (tid : Nat) : Prop :=
  (s.teamAt tid).status = .live ∧ (s.teamAt tid).live ≠ 0 ∧ mustStop s tid = false ∧ heldToLeave s tid = false ∧ (s.teamAt tid).pendStream = [] ∧ (s.teamAt tid).pendCopy = none ∧
  (s.teamAt tid).pendMat = [] ∧ (s.teamAt tid).wait = .none

/-- What a step from s adds around what a team does in s1: an instruction's issue is noted, and a cycle passes. -/
def afterIssue (s s1 : State) (tid : Nat) (t : State) : State :=
  tick s (if (s1.teamAt tid).sched.issues = (t.teamAt tid).sched.issues then t else noteIssue t tid)

end Sys2Proof.Claims

/-- R51, R57, R68: instruction words, as the manual writes them out, of every class decode to the instructions they stand for. -/
def Obligations.DecodedWords : Prop :=
  decode .m [0x0A26E073, 0x1A010000, 0x00000040] = .ok (.ld32 { d := 9, a := 92, b := 7, hold := 0, mod := some 0x1A010000, imm := some 0x40 }) [] ∧
  decode .v [0x54104834] = .ok (.fmul { d := 4, a := 9, b := 3, hold := 1, mod := none, imm := none }) [] ∧
  decode .v [0x481C0DB3, 0x12000380, 0x00000026] = .ok (.sel { d := 7, a := 1, b := 91, hold := 0, mod := some 0x12000380, imm := some 0x26 }) [] ∧
  decode .x [0x28001000] = .ok (.breakP { d := 0, a := 2, b := 0, hold := 0, mod := none, imm := none }) [] ∧
  decode .s [0x42180002, 0x00000010] = .ok (.sld { d := 6, a := 0, b := 0, hold := 0, mod := none, imm := some 0x10 }) [] ∧
  decode .q [0x04501801, 0x00200380] = .ok (.rsq { d := 20, a := 3, b := 0, hold := 0, mod := some 0x00200380, imm := none }) [] ∧
  decode .c [0x03B2E603, 0x01028000, 0x00000040] = .ok (.cpG2s { d := 108, a := 92, b := 96, hold := 0, mod := some 0x01028000, imm := some 0x40 }) [] ∧
  decode .a [0x08050001, 0x00000000] = .ok (.mdrainS { d := 1, a := 32, b := 0, hold := 0, mod := some 0, imm := none }) [] ∧
  decode .y [0x0C500022, 0x00000003] = .ok (.fsqry { d := 20, a := 0, b := 2, hold := 0, mod := none, imm := some 3 }) [] ∧
  decode .v [0xFE1D0000] = .ok (.rep .v { cnt := 3, sd := true, sa := false, sb := true, by2 := false }) []

/-- R57, R68, R77: the words of an instruction decode, in its class and whatever follows them, to that instruction, every operand at every value its field admits; and words that decode are those of what they decode to. -/
def Obligations.DecodeEncode : Prop :=
  (∀ (i : Instr) (k : Cls) (ws rest : List Word), classOf i = some k → encode i = some ws → decode k (ws ++ rest) = .ok i rest) ∧
  (∀ (k : Cls) (i : Instr) (ws rest : List Word), decode k ws = .ok i rest → classOf i = some k ∧ ∃ us, encode i = some us ∧ ws = us ++ rest)

/-- R51, R69: when the words at a team's pc, read in its clause's class, decode to an instruction, the step of that team, when the scheduler may take it, is the instruction's effect on it, its issue noted, a cycle later; inside a repeat, the repeated instruction's; at a
clause boundary, the header's; a team that is not its partition's turn issues nothing. A cycle that passes changes no memory, no block but the leases of its windows' lines, and no team but the time it waits. Noting an issue leaves the team, all memory and every other part alone but the others' yields and the round's place.
Readings and choices of the model's own: log entries 1, 10, 17, 54. -/
def Obligations.StepRunsDecoded : Prop :=
  (∀ (s s1 : State) (tid : Nat) (r : List Choice) (c : Clause) (ws tl : List Word) (i j : Instr), s.agenda = .issue tid :: r → s1 = { s with agenda := r, cur := tid, curStream := none } →
    turnOk { s with agenda := r } tid = true → takesTurn s1 tid → s1.team.clause = some c → fetchInstr s1 tid (selfPc s1.team).toNat = .ok ws → decode c.cls ws = .ok i tl →
    (s1.team.inRep = none ∧ j = i ∨ ∃ p, s1.team.inRep = some p ∧ j = repeated p (s1.team.rep.toNat % 64) i) →
    (∀ t, exec j s1 = .next t → step s = .next (afterIssue s s1 tid t)) ∧ (∀ e, exec j s1 = .fault e → step s = .fault e) ∧ (∀ e, exec j s1 = .refused e → step s = .refused e)) ∧
  (∀ (s s1 : State) (tid : Nat) (r : List Choice) (w : Word), s.agenda = .issue tid :: r → s1 = { s with agenda := r, cur := tid, curStream := none } →
    turnOk { s with agenda := r } tid = true → takesTurn s1 tid → s1.team.clause = none → fetchWord s1 tid s1.team.pc.toNat = .ok w → ∀ t, exec (.clauseStart w) s1 = .next t → step s = .next (afterIssue s s1 tid t)) ∧
  (∀ (s : State) (i : Instr) (a : EvArgs) (r : List Choice), s.agenda = .event i a :: r → isEvent i = true → ∀ t, exec i { s with agenda := r, ev := a } = .next t → step s = .next (tick s t)) ∧
  (∀ (s : State) (tid : Nat) (r : List Choice), s.agenda = .issue tid :: r → turnOk { s with agenda := r } tid = false → step s = .next (tick s { s with agenda := r })) ∧
  (∀ s t : State, (tick s t).cc = t.cc + 1 ∧ (tick s t).mem = t.mem ∧ (tick s t).grids = t.grids ∧ (tick s t).parts = t.parts ∧
    (∀ k, { (tick s t).blockAt k with windows := (t.blockAt k).windows } = t.blockAt k) ∧ ∀ k, { (tick s t).teamAt k with sched := (t.teamAt k).sched } = t.teamAt k) ∧
  (∀ (t : State) (tid : Nat), (noteIssue t tid).teamAt tid = t.teamAt tid ∧ (∀ k, { (noteIssue t tid).teamAt k with wait := (t.teamAt k).wait, sched := (t.teamAt k).sched } = t.teamAt k) ∧
    (∀ k, k ≠ (t.teamAt tid).partNo → (noteIssue t tid).partAt k = t.partAt k) ∧ { noteIssue t tid with teams := t.teams, parts := t.parts } = t)

/-- R4, R248, R249, R352, R387: right after reset every launch queue's registers are 0, EN, HALT and ERR clear, its queue idle; no line has a directory entry in use; every key slot is empty; nothing runs. The values of registers the
manual gives no reset value are the model's own (log entries 2, 5, 6, 8, 9). -/
def Obligations.ResetState : Prop :=
  (∀ q, ((State.reset.queueAt q).base = 0 ∧ (State.reset.queueAt q).size = 0 ∧ (State.reset.queueAt q).dies = 0 ∧ (State.reset.queueAt q).tail = 0 ∧ (State.reset.queueAt q).head = 0 ∧
      (State.reset.queueAt q).raf = 0 ∧ (State.reset.queueAt q).comp = 0 ∧ (State.reset.queueAt q).tvec = 0 ∧ (State.reset.queueAt q).log = 0 ∧ (State.reset.queueAt q).logn = 0 ∧
      (State.reset.queueAt q).asid = 0 ∧ (State.reset.queueAt q).en = false ∧ (State.reset.queueAt q).halt = false ∧ (State.reset.queueAt q).err = false ∧ queueIdle (State.reset.queueAt q) = true)) ∧
  (∀ d, (State.reset.dieAt d).dir = [] ∧ (State.reset.dieAt d).l2 = [] ∧ (State.reset.dieAt d).poison = []) ∧
  (∀ n, (kGetD n KeySlot.reset State.reset.plat.keys).loaded = false ∧ (kGetD n KeySlot.reset State.reset.plat.keys).gen ≠ 0) ∧ State.reset.teams = [] ∧ State.reset.grids = [] ∧ State.reset.blocks = [] ∧
  Inv State.reset

/-- The invariant of the machine is kept by every step: the memory's one canonical form (Sys2Proof.Safety.Inv). The form is the model's own; what a byte of memory that nothing has written reads as is log entry 7. -/
def Obligations.StepKeepsMemoryForm : Prop :=
  ∀ s t : State, Inv s → step s = .next t → Inv t

/-! ### Claims of one subject, joined -/

/-- The scalar arithmetic, pair and compare results: the claims
`ScalarArithmeticResults`, `ScalarPairResults`, `ScalarCompareResults`. -/
def Obligations.ScalarArithmeticAndCompares : Prop :=
  Sys2Proof.Claims.ScalarArithmeticResults ∧
  Sys2Proof.Claims.ScalarPairResults ∧
  Sys2Proof.Claims.ScalarCompareResults

/-- The vector predicate results and the pair `unpk` writes: the claims
`VectorPredicateResults`, `UnpackWritesPair`. -/
def Obligations.VectorPredicatesAndUnpack : Prop :=
  Sys2Proof.Claims.VectorPredicateResults ∧
  Sys2Proof.Claims.UnpackWritesPair

/-- The cross-lane reads, the reductions and scans, and the tree the sums follow: the claims
`CrossLaneReads`, `ReductionsAndScans`, `TreeSum`. -/
def Obligations.CrossLaneResults : Prop :=
  Sys2Proof.Claims.CrossLaneReads ∧
  Sys2Proof.Claims.ReductionsAndScans ∧
  Sys2Proof.Claims.TreeSum

/-- The segment width and the hold latch: the claims
`SegmentWidth`, `HoldFillsLatch`, `HoldOfOtherClasses`. -/
def Obligations.SegmentsAndHold : Prop :=
  Sys2Proof.Claims.SegmentWidth ∧
  Sys2Proof.Claims.HoldFillsLatch ∧
  Sys2Proof.Claims.HoldOfOtherClasses

/-- Subfield reads and writes and saturation: the claims
`SubfieldsReadAndWrite`, `SaturationClamps`. -/
def Obligations.SubfieldsAndSaturation : Prop :=
  Sys2Proof.Claims.SubfieldsReadAndWrite ∧
  Sys2Proof.Claims.SaturationClamps

/-- Code round trips, the directed roundings and the special floating results: the claims
`CodesSurviveRounding`, `DirectedRoundingBrackets`, `SpecialFloatResults`.
Readings and choices of the model's own: log entry 87. -/
def Obligations.RoundingAndSpecialFloats : Prop :=
  Sys2Proof.Claims.CodesSurviveRounding ∧
  Sys2Proof.Claims.DirectedRoundingBrackets ∧
  Sys2Proof.Claims.SpecialFloatResults

/-- Special functions from issue to result, the resident routine included: the claims
`SpecialFunctionIssue`, `SpecialFunctionResult`, `ResidentRoutine`, `SpecialFunctionTable`.
Readings and choices of the model's own: log entry 88. -/
def Obligations.SpecialFunctions : Prop :=
  Sys2Proof.Claims.SpecialFunctionIssue ∧
  Sys2Proof.Claims.SpecialFunctionResult ∧
  Sys2Proof.Claims.ResidentRoutine ∧
  Sys2Proof.Claims.SpecialFunctionTable

/-- Clause opening, `nop` and `rep`: the claims
`ClauseOpens`, `NopGoesOn`, `RepeatStarts`.
Readings and choices of the model's own: log entry 89. -/
def Obligations.ClausesNopAndRepeat : Prop :=
  Sys2Proof.Claims.ClauseOpens ∧
  Sys2Proof.Claims.NopGoesOn ∧
  Sys2Proof.Claims.RepeatStarts

/-- Label branches, register branches and calls: the claims
`LabelBranches`, `RegisterBranchesAndCalls`.
Readings and choices of the model's own: log entry 70. -/
def Obligations.BranchesAndCalls : Prop :=
  Sys2Proof.Claims.LabelBranches ∧
  Sys2Proof.Claims.RegisterBranchesAndCalls

/-- Structured control and its mask-stack traps: the claims
`StructuredControl`, `MaskStackTraps`. -/
def Obligations.StructuredControlAndMaskStack : Prop :=
  Sys2Proof.Claims.StructuredControl ∧
  Sys2Proof.Claims.MaskStackTraps

/-- `exit`, yielding and sleeping, forking and joining: the claims
`ExitLeavesLanes`, `YieldAndSleep`, `ForkAndJoin`.
Readings and choices of the model's own: log entries 60, 75, 90. -/
def Obligations.ExitYieldForkJoin : Prop :=
  Sys2Proof.Claims.ExitLeavesLanes ∧
  Sys2Proof.Claims.YieldAndSleep ∧
  Sys2Proof.Claims.ForkAndJoin

/-- Barrier arrival, barrier traps and the end of a generation: the claims
`BarrierArrivals`, `BarrierTraps`, `BarrierGenerationCompletes`.
Readings and choices of the model's own: log entries 36, 91, 100. -/
def Obligations.Barriers : Prop :=
  Sys2Proof.Claims.BarrierArrivals ∧
  Sys2Proof.Claims.BarrierTraps ∧
  Sys2Proof.Claims.BarrierGenerationCompletes

/-- Software traps, the watch check and tail records: the claims
`SoftwareTrapAndWatchCheck`, `TailRecords`.
Readings and choices of the model's own: log entries 70, 83, 99. -/
def Obligations.TrapsAndTail : Prop :=
  Sys2Proof.Claims.SoftwareTrapAndWatchCheck ∧
  Sys2Proof.Claims.TailRecords

/-- Trap entry and the return from a trap: the claims
`TrapEntry`, `TrapReturn`.
Readings and choices of the model's own: log entries 24, 110. -/
def Obligations.TrapEntryAndReturn : Prop :=
  Sys2Proof.Claims.TrapEntry ∧
  Sys2Proof.Claims.TrapReturn

/-- The order of the issue checks, uniform guards and the full flag: the claims
`EncodingChecksComeFirst`, `UniformGuardSkips`, `FullFlagHolds`. -/
def Obligations.IssueChecks : Prop :=
  Sys2Proof.Claims.EncodingChecksComeFirst ∧
  Sys2Proof.Claims.UniformGuardSkips ∧
  Sys2Proof.Claims.FullFlagHolds

/-- Reads and writes of the special registers: the claims
`SystemReads`, `SpecialRegisterWrites`, `SpecialValues`.
Readings and choices of the model's own: log entries 27, 49. -/
def Obligations.SpecialRegisters : Prop :=
  Sys2Proof.Claims.SystemReads ∧
  Sys2Proof.Claims.SpecialRegisterWrites ∧
  Sys2Proof.Claims.SpecialValues

/-- The privilege traps and the supervisor instructions: the claims
`PrivilegeTraps`, `SupervisorInstructions`.
Readings and choices of the model's own: log entries 27, 50, 109. -/
def Obligations.PrivilegeAndSupervisor : Prop :=
  Sys2Proof.Claims.PrivilegeTraps ∧
  Sys2Proof.Claims.SupervisorInstructions

/-- Loads, stores and atomics entering the memory queue: the claims
`StashChecks`, `GlobalChecks`, `LaneFaults`, `LoadsEnterQueue`, `StoresAndAtomicsEnterQueue`, `ReleasesWait`.
Readings and choices of the model's own: log entries 18, 32, 35, 38, 92. -/
def Obligations.LoadsStoresAndAtomicsEnterQueue : Prop :=
  Sys2Proof.Claims.StashChecks ∧
  Sys2Proof.Claims.GlobalChecks ∧
  Sys2Proof.Claims.LaneFaults ∧
  Sys2Proof.Claims.LoadsEnterQueue ∧
  Sys2Proof.Claims.StoresAndAtomicsEnterQueue ∧
  Sys2Proof.Claims.ReleasesWait

/-- The performing of memory operations and of fences: the claims
`MemoryOperationsPerform`, `FencePerforms`.
Readings and choices of the model's own: log entries 18, 21, 64. -/
def Obligations.MemoryOperationsAndFencesPerform : Prop :=
  Sys2Proof.Claims.MemoryOperationsPerform ∧
  Sys2Proof.Claims.FencePerforms

/-- Append pages at their home, and the frames behind them: the claims
`AppendAndSealAtHome`, `FramesTakenAndFreed`.
Readings and choices of the model's own: log entries 34, 45, 64, 95. -/
def Obligations.AppendPagesAndFrames : Prop :=
  Sys2Proof.Claims.AppendAndSealAtHome ∧
  Sys2Proof.Claims.FramesTakenAndFreed

/-- The requests for a shared copy and for write permission: the claims
`ReadSharedRequest`, `WritePermissionRequests`.
Readings and choices of the model's own: log entries 30, 81. -/
def Obligations.ReadAndWritePermissions : Prop :=
  Sys2Proof.Claims.ReadSharedRequest ∧
  Sys2Proof.Claims.WritePermissionRequests

/-- Snoops, their completion, and evictions: the claims
`SnoopsAndCompletion`, `EvictionsWriteBack`.
Readings and choices of the model's own: log entries 15, 81. -/
def Obligations.SnoopsAndEvictions : Prop :=
  Sys2Proof.Claims.SnoopsAndCompletion ∧
  Sys2Proof.Claims.EvictionsWriteBack

/-- Stores and atomics at the L2: the claims
`StoresAtL2`, `AtomicValues`, `AtomicsReadModifyWrite`.
Readings and choices of the model's own: log entry 12. -/
def Obligations.StoresAndAtomicsAtL2 : Prop :=
  Sys2Proof.Claims.StoresAtL2 ∧
  Sys2Proof.Claims.AtomicValues ∧
  Sys2Proof.Claims.AtomicsReadModifyWrite

/-- Page walks, their indexes and the service of faults: the claims
`PageWalks`, `WalkIndexes`, `WalkEntries`, `FaultService`.
Readings and choices of the model's own: log entries 23, 85. -/
def Obligations.TranslationAndFaultService : Prop :=
  Sys2Proof.Claims.PageWalks ∧
  Sys2Proof.Claims.WalkIndexes ∧
  Sys2Proof.Claims.WalkEntries ∧
  Sys2Proof.Claims.FaultService

/-- The segments a copy moves and its completion: the claims
`CopySegmentsMove`, `CopyKindsMove`, `EncryptedCopiesMove`, `PlaneMoves`, `CopyCompletes`.
Readings and choices of the model's own: log entries 35, 52, 78, 79, 86, 93, 94, 103, 104. -/
def Obligations.CopiesMoveAndComplete : Prop :=
  Sys2Proof.Claims.CopySegmentsMove ∧
  Sys2Proof.Claims.CopyKindsMove ∧
  Sys2Proof.Claims.EncryptedCopiesMove ∧
  Sys2Proof.Claims.PlaneMoves ∧
  Sys2Proof.Claims.CopyCompletes

/-- The matrix holder and the matrix instructions entering the queue: the claims
`MatrixHolder`, `MatrixInstructionsEnterQueue`, `StashDrainsEnterQueue`.
Readings and choices of the model's own: log entry 58. -/
def Obligations.MatrixIssue : Prop :=
  Sys2Proof.Claims.MatrixHolder ∧
  Sys2Proof.Claims.MatrixInstructionsEnterQueue ∧
  Sys2Proof.Claims.StashDrainsEnterQueue

/-- The matrix queue performing, and the saved matrix area: the claims
`MatrixQueuePerforms`, `MatrixAreaRoundTrip`.
Readings and choices of the model's own: log entry 53. -/
def Obligations.MatrixPerforms : Prop :=
  Sys2Proof.Claims.MatrixQueuePerforms ∧
  Sys2Proof.Claims.MatrixAreaRoundTrip

/-- The function-store instructions at issue: the claims
`StoreInstructionsEnterQueue`, `FretReturns`, `FsdefBinds`.
Readings and choices of the model's own: log entry 59. -/
def Obligations.FunctionStoreIssue : Prop :=
  Sys2Proof.Claims.StoreInstructionsEnterQueue ∧
  Sys2Proof.Claims.FretReturns ∧
  Sys2Proof.Claims.FsdefBinds

/-- The search, the record layout and the resident set: the claims
`SearchPicksNewest`, `RecordsGrow`, `RecordRoundTrip`, `ResidentSet`. -/
def Obligations.FunctionStoreRecords : Prop :=
  Sys2Proof.Claims.SearchPicksNewest ∧
  Sys2Proof.Claims.RecordsGrow ∧
  Sys2Proof.Claims.RecordRoundTrip ∧
  Sys2Proof.Claims.ResidentSet

/-- Tickets, phases, replay and staged records: the claims
`TicketsGranted`, `PhasesReleased`, `ReplayTriesAgain`, `StagedRecordsAppended`, `StagedRecordsInOrder`.
Readings and choices of the model's own: log entries 35, 36, 38, 59, 66, 68, 105. -/
def Obligations.DeterministicOrder : Prop :=
  Sys2Proof.Claims.TicketsGranted ∧
  Sys2Proof.Claims.PhasesReleased ∧
  Sys2Proof.Claims.ReplayTriesAgain ∧
  Sys2Proof.Claims.StagedRecordsAppended ∧
  Sys2Proof.Claims.StagedRecordsInOrder

/-- The queue commands and the management register writes: the claims
`QueueCommands`, `RegisterWrites`.
Readings and choices of the model's own: log entry 40. -/
def Obligations.QueueCommandsAndRegisters : Prop :=
  Sys2Proof.Claims.QueueCommands ∧
  Sys2Proof.Claims.RegisterWrites

/-- The start and the completion of a grid: the claims
`GridStarts`, `RefusalStatuses`, `LaunchCompletes`.
Readings and choices of the model's own: log entries 39, 41, 72. -/
def Obligations.GridsStartAndComplete : Prop :=
  Sys2Proof.Claims.GridStarts ∧
  Sys2Proof.Claims.RefusalStatuses ∧
  Sys2Proof.Claims.LaunchCompletes

/-- The placement of blocks: the claims
`PlacementChoices`, `BlocksPlaced`.
Readings and choices of the model's own: log entries 2, 60, 69, 76, 84. -/
def Obligations.BlockPlacement : Prop :=
  Sys2Proof.Claims.PlacementChoices ∧
  Sys2Proof.Claims.BlocksPlaced

/-- The start of preemption and the aging of teams: the claims
`PreemptionBegins`, `TeamsAge`.
Readings and choices of the model's own: log entries 4, 10, 17, 98, 107, 108. -/
def Obligations.PreemptionAndAging : Prop :=
  Sys2Proof.Claims.PreemptionBegins ∧
  Sys2Proof.Claims.TeamsAge

/-- Blocks leaving a core and returning to it: the claims
`BlocksLeave`, `BlocksReturn`.
Readings and choices of the model's own: log entries 61, 69, 107. -/
def Obligations.BlocksLeaveAndReturn : Prop :=
  Sys2Proof.Claims.BlocksLeave ∧
  Sys2Proof.Claims.BlocksReturn

/-- The release of slots and pending traps: the claims
`SlotsReleased`, `PendingTrapsTaken`.
Readings and choices of the model's own: log entry 60. -/
def Obligations.SlotsAndPendingTraps : Prop :=
  Sys2Proof.Claims.SlotsReleased ∧
  Sys2Proof.Claims.PendingTrapsTaken

/-- The life cycle of extents and their forced release: the claims
`ExtentLifeCycle`, `ForcedReleases`.
Readings and choices of the model's own: log entries 48, 49, 64. -/
def Obligations.Extents : Prop :=
  Sys2Proof.Claims.ExtentLifeCycle ∧
  Sys2Proof.Claims.ForcedReleases

/-- Memory channels and lane retraining: the claims
`ChannelsServe`, `LanesRetrained`.
Readings and choices of the model's own: log entries 14, 44, 48, 82. -/
def Obligations.ChannelsAndLanes : Prop :=
  Sys2Proof.Claims.ChannelsServe ∧
  Sys2Proof.Claims.LanesRetrained

/-- Key commands, attestation and links: the claims
`KeyCommands`, `AttestationAndLinks`.
Readings and choices of the model's own: log entries 9, 11, 13, 43, 49, 71. -/
def Obligations.KeysAttestationLinks : Prop :=
  Sys2Proof.Claims.KeyCommands ∧
  Sys2Proof.Claims.AttestationAndLinks

/-- Boot phases and firmware swaps: the claims
`BootPhases`, `FirmwareSwaps`.
Readings and choices of the model's own: log entries 43, 47, 73. -/
def Obligations.BootAndFirmware : Prop :=
  Sys2Proof.Claims.BootPhases ∧
  Sys2Proof.Claims.FirmwareSwaps
end

