-- ==== Sys2Proof/Laws/Dispatch.lean ====
section
/-! SUPPORT. One equation for each arm of the dispatch, so that no proof unfolds the whole of it. -/

namespace Sys2Proof.Machine

theorem exec_clauseStart (w : Word) (s : State) : exec (.clauseStart w) s = execClauseStart w s := rfl
theorem exec_nop (cls : Cls) (f : Fields) (s : State) : exec (.nop cls f) s = execNop cls f s := rfl
theorem exec_rep (cls : Cls) (p : RepWord) (s : State) : exec (.rep cls p) s = execRep cls p s := rfl
theorem exec_bra (f : Fields) (s : State) : exec (.bra f) s = execBra f s := rfl
theorem exec_braAny (f : Fields) (s : State) : exec (.braAny f) s = execBraAny f s := rfl
theorem exec_braAll (f : Fields) (s : State) : exec (.braAll f) s = execBraAll f s := rfl
theorem exec_braNone (f : Fields) (s : State) : exec (.braNone f) s = execBraNone f s := rfl
theorem exec_brx (f : Fields) (s : State) : exec (.brx f) s = execBrx f s := rfl
theorem exec_call (f : Fields) (s : State) : exec (.call f) s = execCall f s := rfl
theorem exec_callx (f : Fields) (s : State) : exec (.callx f) s = execCallx f s := rfl
theorem exec_ifP (f : Fields) (s : State) : exec (.ifP f) s = execIfP f s := rfl
theorem exec_breakP (f : Fields) (s : State) : exec (.breakP f) s = execBreakP f s := rfl
theorem exec_contP (f : Fields) (s : State) : exec (.contP f) s = execContP f s := rfl
theorem exec_exit (f : Fields) (s : State) : exec (.exit f) s = execExit f s := rfl
theorem exec_yield (f : Fields) (s : State) : exec (.yield f) s = execYield f s := rfl
theorem exec_sleep (f : Fields) (s : State) : exec (.sleep f) s = execSleep f s := rfl
theorem exec_fork (f : Fields) (s : State) : exec (.fork f) s = execFork f s := rfl
theorem exec_rdv (f : Fields) (s : State) : exec (.rdv f) s = execRdv f s := rfl
theorem exec_bar (lvl : Lvl) (f : Fields) (s : State) : exec (.bar lvl f) s = execBar lvl f s := rfl
theorem exec_bara (lvl : Lvl) (f : Fields) (s : State) : exec (.bara lvl f) s = execBara lvl f s := rfl
theorem exec_barw (lvl : Lvl) (f : Fields) (s : State) : exec (.barw lvl f) s = execBarw lvl f s := rfl
theorem exec_bare (lvl : Lvl) (f : Fields) (s : State) : exec (.bare lvl f) s = execBare lvl f s := rfl
theorem exec_tail (f : Fields) (s : State) : exec (.tail f) s = execTail f s := rfl
theorem exec_trap (f : Fields) (s : State) : exec (.trap f) s = execTrap f s := rfl
theorem exec_chkw (f : Fields) (s : State) : exec (.chkw f) s = execChkw f s := rfl
theorem exec_smov (f : Fields) (s : State) : exec (.smov f) s = execSmov f s := rfl
theorem exec_sadd (f : Fields) (s : State) : exec (.sadd f) s = execSadd f s := rfl
theorem exec_ssub (f : Fields) (s : State) : exec (.ssub f) s = execSsub f s := rfl
theorem exec_smul (f : Fields) (s : State) : exec (.smul f) s = execSmul f s := rfl
theorem exec_smulhiI32 (f : Fields) (s : State) : exec (.smulhiI32 f) s = execSmulhiI32 f s := rfl
theorem exec_smulhiZ32 (f : Fields) (s : State) : exec (.smulhiZ32 f) s = execSmulhiZ32 f s := rfl
theorem exec_smad (f : Fields) (s : State) : exec (.smad f) s = execSmad f s := rfl
theorem exec_sadd64 (f : Fields) (s : State) : exec (.sadd64 f) s = execSadd64 f s := rfl
theorem exec_ssub64 (f : Fields) (s : State) : exec (.ssub64 f) s = execSsub64 f s := rfl
theorem exec_smad64 (f : Fields) (s : State) : exec (.smad64 f) s = execSmad64 f s := rfl
theorem exec_sshl (f : Fields) (s : State) : exec (.sshl f) s = execSshl f s := rfl
theorem exec_sshr (f : Fields) (s : State) : exec (.sshr f) s = execSshr f s := rfl
theorem exec_ssra (f : Fields) (s : State) : exec (.ssra f) s = execSsra f s := rfl
theorem exec_sand (f : Fields) (s : State) : exec (.sand f) s = execSand f s := rfl
theorem exec_sor (f : Fields) (s : State) : exec (.sor f) s = execSor f s := rfl
theorem exec_sxor (f : Fields) (s : State) : exec (.sxor f) s = execSxor f s := rfl
theorem exec_snot (f : Fields) (s : State) : exec (.snot f) s = execSnot f s := rfl
theorem exec_sminI32 (f : Fields) (s : State) : exec (.sminI32 f) s = execSminI32 f s := rfl
theorem exec_sminZ32 (f : Fields) (s : State) : exec (.sminZ32 f) s = execSminZ32 f s := rfl
theorem exec_smaxI32 (f : Fields) (s : State) : exec (.smaxI32 f) s = execSmaxI32 f s := rfl
theorem exec_smaxZ32 (f : Fields) (s : State) : exec (.smaxZ32 f) s = execSmaxZ32 f s := rfl
theorem exec_scmpEq (f : Fields) (s : State) : exec (.scmpEq f) s = execScmpEq f s := rfl
theorem exec_scmpNe (f : Fields) (s : State) : exec (.scmpNe f) s = execScmpNe f s := rfl
theorem exec_scmpLtI32 (f : Fields) (s : State) : exec (.scmpLtI32 f) s = execScmpLtI32 f s := rfl
theorem exec_scmpLeI32 (f : Fields) (s : State) : exec (.scmpLeI32 f) s = execScmpLeI32 f s := rfl
theorem exec_scmpLtZ32 (f : Fields) (s : State) : exec (.scmpLtZ32 f) s = execScmpLtZ32 f s := rfl
theorem exec_scmpLeZ32 (f : Fields) (s : State) : exec (.scmpLeZ32 f) s = execScmpLeZ32 f s := rfl
theorem exec_ssel (f : Fields) (s : State) : exec (.ssel f) s = execSsel f s := rfl
theorem exec_sld (f : Fields) (s : State) : exec (.sld f) s = execSld f s := rfl
theorem exec_srd (f : Fields) (s : State) : exec (.srd f) s = execSrd f s := rfl
theorem exec_rfa (f : Fields) (s : State) : exec (.rfa f) s = execRfa f s := rfl
theorem exec_rlane (f : Fields) (s : State) : exec (.rlane f) s = execRlane f s := rfl
theorem exec_spopc (f : Fields) (s : State) : exec (.spopc f) s = execSpopc f s := rfl
theorem exec_sclz (f : Fields) (s : State) : exec (.sclz f) s = execSclz f s := rfl
theorem exec_sbfeZ32 (f : Fields) (s : State) : exec (.sbfeZ32 f) s = execSbfeZ32 f s := rfl
theorem exec_sbfeI32 (f : Fields) (s : State) : exec (.sbfeI32 f) s = execSbfeI32 f s := rfl
theorem exec_mov (f : Fields) (s : State) : exec (.mov f) s = execMov f s := rfl
theorem exec_iadd (f : Fields) (s : State) : exec (.iadd f) s = execIadd f s := rfl
theorem exec_isub (f : Fields) (s : State) : exec (.isub f) s = execIsub f s := rfl
theorem exec_imul (f : Fields) (s : State) : exec (.imul f) s = execImul f s := rfl
theorem exec_imulhiI32 (f : Fields) (s : State) : exec (.imulhiI32 f) s = execImulhiI32 f s := rfl
theorem exec_imulhiZ32 (f : Fields) (s : State) : exec (.imulhiZ32 f) s = execImulhiZ32 f s := rfl
theorem exec_imad (f : Fields) (s : State) : exec (.imad f) s = execImad f s := rfl
theorem exec_idivI32 (f : Fields) (s : State) : exec (.idivI32 f) s = execIdivI32 f s := rfl
theorem exec_idivZ32 (f : Fields) (s : State) : exec (.idivZ32 f) s = execIdivZ32 f s := rfl
theorem exec_iremI32 (f : Fields) (s : State) : exec (.iremI32 f) s = execIremI32 f s := rfl
theorem exec_iremZ32 (f : Fields) (s : State) : exec (.iremZ32 f) s = execIremZ32 f s := rfl
theorem exec_iminI32 (f : Fields) (s : State) : exec (.iminI32 f) s = execIminI32 f s := rfl
theorem exec_iminZ32 (f : Fields) (s : State) : exec (.iminZ32 f) s = execIminZ32 f s := rfl
theorem exec_imaxI32 (f : Fields) (s : State) : exec (.imaxI32 f) s = execImaxI32 f s := rfl
theorem exec_imaxZ32 (f : Fields) (s : State) : exec (.imaxZ32 f) s = execImaxZ32 f s := rfl
theorem exec_iabs (f : Fields) (s : State) : exec (.iabs f) s = execIabs f s := rfl
theorem exec_shl (f : Fields) (s : State) : exec (.shl f) s = execShl f s := rfl
theorem exec_shr (f : Fields) (s : State) : exec (.shr f) s = execShr f s := rfl
theorem exec_sra (f : Fields) (s : State) : exec (.sra f) s = execSra f s := rfl
theorem exec_and (f : Fields) (s : State) : exec (.and f) s = execAnd f s := rfl
theorem exec_or (f : Fields) (s : State) : exec (.or f) s = execOr f s := rfl
theorem exec_xor (f : Fields) (s : State) : exec (.xor f) s = execXor f s := rfl
theorem exec_not (f : Fields) (s : State) : exec (.not f) s = execNot f s := rfl
theorem exec_bfeZ32 (f : Fields) (s : State) : exec (.bfeZ32 f) s = execBfeZ32 f s := rfl
theorem exec_bfeI32 (f : Fields) (s : State) : exec (.bfeI32 f) s = execBfeI32 f s := rfl
theorem exec_bfi (f : Fields) (s : State) : exec (.bfi f) s = execBfi f s := rfl
theorem exec_popc (f : Fields) (s : State) : exec (.popc f) s = execPopc f s := rfl
theorem exec_clz (f : Fields) (s : State) : exec (.clz f) s = execClz f s := rfl
theorem exec_brev (f : Fields) (s : State) : exec (.brev f) s = execBrev f s := rfl
theorem exec_icmpEq (f : Fields) (s : State) : exec (.icmpEq f) s = execIcmpEq f s := rfl
theorem exec_icmpNe (f : Fields) (s : State) : exec (.icmpNe f) s = execIcmpNe f s := rfl
theorem exec_icmpLtI32 (f : Fields) (s : State) : exec (.icmpLtI32 f) s = execIcmpLtI32 f s := rfl
theorem exec_icmpLeI32 (f : Fields) (s : State) : exec (.icmpLeI32 f) s = execIcmpLeI32 f s := rfl
theorem exec_icmpLtZ32 (f : Fields) (s : State) : exec (.icmpLtZ32 f) s = execIcmpLtZ32 f s := rfl
theorem exec_icmpLeZ32 (f : Fields) (s : State) : exec (.icmpLeZ32 f) s = execIcmpLeZ32 f s := rfl
theorem exec_sel (f : Fields) (s : State) : exec (.sel f) s = execSel f s := rfl
theorem exec_fadd (f : Fields) (s : State) : exec (.fadd f) s = execFadd f s := rfl
theorem exec_fsub (f : Fields) (s : State) : exec (.fsub f) s = execFsub f s := rfl
theorem exec_fmul (f : Fields) (s : State) : exec (.fmul f) s = execFmul f s := rfl
theorem exec_ffma (f : Fields) (s : State) : exec (.ffma f) s = execFfma f s := rfl
theorem exec_fmin (f : Fields) (s : State) : exec (.fmin f) s = execFmin f s := rfl
theorem exec_fmax (f : Fields) (s : State) : exec (.fmax f) s = execFmax f s := rfl
theorem exec_fcmpEq (f : Fields) (s : State) : exec (.fcmpEq f) s = execFcmpEq f s := rfl
theorem exec_fcmpLt (f : Fields) (s : State) : exec (.fcmpLt f) s = execFcmpLt f s := rfl
theorem exec_fcmpLe (f : Fields) (s : State) : exec (.fcmpLe f) s = execFcmpLe f s := rfl
theorem exec_fcmpUn (f : Fields) (s : State) : exec (.fcmpUn f) s = execFcmpUn f s := rfl
theorem exec_fcmpNe (f : Fields) (s : State) : exec (.fcmpNe f) s = execFcmpNe f s := rfl
theorem exec_fclass (f : Fields) (s : State) : exec (.fclass f) s = execFclass f s := rfl
theorem exec_hadd2 (f : Fields) (s : State) : exec (.hadd2 f) s = execHadd2 f s := rfl
theorem exec_hmul2 (f : Fields) (s : State) : exec (.hmul2 f) s = execHmul2 f s := rfl
theorem exec_hfma2 (f : Fields) (s : State) : exec (.hfma2 f) s = execHfma2 f s := rfl
theorem exec_hmin2 (f : Fields) (s : State) : exec (.hmin2 f) s = execHmin2 f s := rfl
theorem exec_hmax2 (f : Fields) (s : State) : exec (.hmax2 f) s = execHmax2 f s := rfl
theorem exec_badd2 (f : Fields) (s : State) : exec (.badd2 f) s = execBadd2 f s := rfl
theorem exec_bmul2 (f : Fields) (s : State) : exec (.bmul2 f) s = execBmul2 f s := rfl
theorem exec_bfma2 (f : Fields) (s : State) : exec (.bfma2 f) s = execBfma2 f s := rfl
theorem exec_cvtI32 (f : Fields) (s : State) : exec (.cvtI32 f) s = execCvtI32 f s := rfl
theorem exec_cvtZ32 (f : Fields) (s : State) : exec (.cvtZ32 f) s = execCvtZ32 f s := rfl
theorem exec_cvtF32 (f : Fields) (s : State) : exec (.cvtF32 f) s = execCvtF32 f s := rfl
theorem exec_cvtF16 (f : Fields) (s : State) : exec (.cvtF16 f) s = execCvtF16 f s := rfl
theorem exec_cvtBf16 (f : Fields) (s : State) : exec (.cvtBf16 f) s = execCvtBf16 f s := rfl
theorem exec_cvtNf (f : Fields) (s : State) : exec (.cvtNf f) s = execCvtNf f s := rfl
theorem exec_pack (f : Fields) (s : State) : exec (.pack f) s = execPack f s := rfl
theorem exec_unpk (f : Fields) (s : State) : exec (.unpk f) s = execUnpk f s := rfl
theorem exec_shflIdx (f : Fields) (s : State) : exec (.shflIdx f) s = execShflIdx f s := rfl
theorem exec_shflUp (f : Fields) (s : State) : exec (.shflUp f) s = execShflUp f s := rfl
theorem exec_shflDown (f : Fields) (s : State) : exec (.shflDown f) s = execShflDown f s := rfl
theorem exec_shflXor (f : Fields) (s : State) : exec (.shflXor f) s = execShflXor f s := rfl
theorem exec_voteAny (f : Fields) (s : State) : exec (.voteAny f) s = execVoteAny f s := rfl
theorem exec_voteAll (f : Fields) (s : State) : exec (.voteAll f) s = execVoteAll f s := rfl
theorem exec_voteBal (f : Fields) (s : State) : exec (.voteBal f) s = execVoteBal f s := rfl
theorem exec_matchLanes (f : Fields) (s : State) : exec (.matchLanes f) s = execMatchLanes f s := rfl
theorem exec_vRedAdd (f : Fields) (s : State) : exec (.vRedAdd f) s = execVRedAdd f s := rfl
theorem exec_vRedMinI32 (f : Fields) (s : State) : exec (.vRedMinI32 f) s = execVRedMinI32 f s := rfl
theorem exec_vRedMinZ32 (f : Fields) (s : State) : exec (.vRedMinZ32 f) s = execVRedMinZ32 f s := rfl
theorem exec_vRedMaxI32 (f : Fields) (s : State) : exec (.vRedMaxI32 f) s = execVRedMaxI32 f s := rfl
theorem exec_vRedMaxZ32 (f : Fields) (s : State) : exec (.vRedMaxZ32 f) s = execVRedMaxZ32 f s := rfl
theorem exec_vRedAnd (f : Fields) (s : State) : exec (.vRedAnd f) s = execVRedAnd f s := rfl
theorem exec_vRedOr (f : Fields) (s : State) : exec (.vRedOr f) s = execVRedOr f s := rfl
theorem exec_vRedXor (f : Fields) (s : State) : exec (.vRedXor f) s = execVRedXor f s := rfl
theorem exec_vRedFadd (f : Fields) (s : State) : exec (.vRedFadd f) s = execVRedFadd f s := rfl
theorem exec_scanAdd (f : Fields) (s : State) : exec (.scanAdd f) s = execScanAdd f s := rfl
theorem exec_scanMaxI32 (f : Fields) (s : State) : exec (.scanMaxI32 f) s = execScanMaxI32 f s := rfl
theorem exec_scanMaxZ32 (f : Fields) (s : State) : exec (.scanMaxZ32 f) s = execScanMaxZ32 f s := rfl
theorem exec_pand (f : Fields) (s : State) : exec (.pand f) s = execPand f s := rfl
theorem exec_por (f : Fields) (s : State) : exec (.por f) s = execPor f s := rfl
theorem exec_pxor (f : Fields) (s : State) : exec (.pxor f) s = execPxor f s := rfl
theorem exec_pnot (f : Fields) (s : State) : exec (.pnot f) s = execPnot f s := rfl
theorem exec_pmov (f : Fields) (s : State) : exec (.pmov f) s = execPmov f s := rfl
theorem exec_seg (f : Fields) (s : State) : exec (.seg f) s = execSeg f s := rfl
theorem exec_rcp (f : Fields) (s : State) : exec (.rcp f) s = execRcp f s := rfl
theorem exec_rsq (f : Fields) (s : State) : exec (.rsq f) s = execRsq f s := rfl
theorem exec_sqrt (f : Fields) (s : State) : exec (.sqrt f) s = execSqrt f s := rfl
theorem exec_ex2 (f : Fields) (s : State) : exec (.ex2 f) s = execEx2 f s := rfl
theorem exec_lg2 (f : Fields) (s : State) : exec (.lg2 f) s = execLg2 f s := rfl
theorem exec_sinp (f : Fields) (s : State) : exec (.sinp f) s = execSinp f s := rfl
theorem exec_cosp (f : Fields) (s : State) : exec (.cosp f) s = execCosp f s := rfl
theorem exec_tanh (f : Fields) (s : State) : exec (.tanh f) s = execTanh f s := rfl
theorem exec_rcpA (f : Fields) (s : State) : exec (.rcpA f) s = execRcpA f s := rfl
theorem exec_rsqA (f : Fields) (s : State) : exec (.rsqA f) s = execRsqA f s := rfl
theorem exec_ex2A (f : Fields) (s : State) : exec (.ex2A f) s = execEx2A f s := rfl
theorem exec_ld8I (f : Fields) (s : State) : exec (.ld8I f) s = execLd8I f s := rfl
theorem exec_ld8Z (f : Fields) (s : State) : exec (.ld8Z f) s = execLd8Z f s := rfl
theorem exec_ld16I (f : Fields) (s : State) : exec (.ld16I f) s = execLd16I f s := rfl
theorem exec_ld16Z (f : Fields) (s : State) : exec (.ld16Z f) s = execLd16Z f s := rfl
theorem exec_ld32 (f : Fields) (s : State) : exec (.ld32 f) s = execLd32 f s := rfl
theorem exec_ld64 (f : Fields) (s : State) : exec (.ld64 f) s = execLd64 f s := rfl
theorem exec_ld128 (f : Fields) (s : State) : exec (.ld128 f) s = execLd128 f s := rfl
theorem exec_st8 (f : Fields) (s : State) : exec (.st8 f) s = execSt8 f s := rfl
theorem exec_st16 (f : Fields) (s : State) : exec (.st16 f) s = execSt16 f s := rfl
theorem exec_st32 (f : Fields) (s : State) : exec (.st32 f) s = execSt32 f s := rfl
theorem exec_st64 (f : Fields) (s : State) : exec (.st64 f) s = execSt64 f s := rfl
theorem exec_st128 (f : Fields) (s : State) : exec (.st128 f) s = execSt128 f s := rfl
theorem exec_ldw32 (f : Fields) (s : State) : exec (.ldw32 f) s = execLdw32 f s := rfl
theorem exec_ldw64 (f : Fields) (s : State) : exec (.ldw64 f) s = execLdw64 f s := rfl
theorem exec_ldw128 (f : Fields) (s : State) : exec (.ldw128 f) s = execLdw128 f s := rfl
theorem exec_atomAdd (f : Fields) (s : State) : exec (.atomAdd f) s = execAtomAdd f s := rfl
theorem exec_atomMinI32 (f : Fields) (s : State) : exec (.atomMinI32 f) s = execAtomMinI32 f s := rfl
theorem exec_atomMinZ32 (f : Fields) (s : State) : exec (.atomMinZ32 f) s = execAtomMinZ32 f s := rfl
theorem exec_atomMaxI32 (f : Fields) (s : State) : exec (.atomMaxI32 f) s = execAtomMaxI32 f s := rfl
theorem exec_atomMaxZ32 (f : Fields) (s : State) : exec (.atomMaxZ32 f) s = execAtomMaxZ32 f s := rfl
theorem exec_atomAnd (f : Fields) (s : State) : exec (.atomAnd f) s = execAtomAnd f s := rfl
theorem exec_atomOr (f : Fields) (s : State) : exec (.atomOr f) s = execAtomOr f s := rfl
theorem exec_atomXor (f : Fields) (s : State) : exec (.atomXor f) s = execAtomXor f s := rfl
theorem exec_atomXchg (f : Fields) (s : State) : exec (.atomXchg f) s = execAtomXchg f s := rfl
theorem exec_atomCas (f : Fields) (s : State) : exec (.atomCas f) s = execAtomCas f s := rfl
theorem exec_atomFadd (f : Fields) (s : State) : exec (.atomFadd f) s = execAtomFadd f s := rfl
theorem exec_atomFmin (f : Fields) (s : State) : exec (.atomFmin f) s = execAtomFmin f s := rfl
theorem exec_atomFmax (f : Fields) (s : State) : exec (.atomFmax f) s = execAtomFmax f s := rfl
theorem exec_mRedAdd (f : Fields) (s : State) : exec (.mRedAdd f) s = execMRedAdd f s := rfl
theorem exec_mRedMinI32 (f : Fields) (s : State) : exec (.mRedMinI32 f) s = execMRedMinI32 f s := rfl
theorem exec_mRedMinZ32 (f : Fields) (s : State) : exec (.mRedMinZ32 f) s = execMRedMinZ32 f s := rfl
theorem exec_mRedMaxI32 (f : Fields) (s : State) : exec (.mRedMaxI32 f) s = execMRedMaxI32 f s := rfl
theorem exec_mRedMaxZ32 (f : Fields) (s : State) : exec (.mRedMaxZ32 f) s = execMRedMaxZ32 f s := rfl
theorem exec_mRedAnd (f : Fields) (s : State) : exec (.mRedAnd f) s = execMRedAnd f s := rfl
theorem exec_mRedOr (f : Fields) (s : State) : exec (.mRedOr f) s = execMRedOr f s := rfl
theorem exec_mRedXor (f : Fields) (s : State) : exec (.mRedXor f) s = execMRedXor f s := rfl
theorem exec_mRedFadd (f : Fields) (s : State) : exec (.mRedFadd f) s = execMRedFadd f s := rfl
theorem exec_mRedFmin (f : Fields) (s : State) : exec (.mRedFmin f) s = execMRedFmin f s := rfl
theorem exec_mRedFmax (f : Fields) (s : State) : exec (.mRedFmax f) s = execMRedFmax f s := rfl
theorem exec_append (f : Fields) (s : State) : exec (.append f) s = execAppend f s := rfl
theorem exec_sealPage (f : Fields) (s : State) : exec (.sealPage f) s = execSealPage f s := rfl
theorem exec_fence (f : Fields) (s : State) : exec (.fence f) s = execFence f s := rfl
theorem exec_fenceq (f : Fields) (s : State) : exec (.fenceq f) s = execFenceq f s := rfl
theorem exec_pref (f : Fields) (s : State) : exec (.pref f) s = execPref f s := rfl
theorem exec_smap (f : Fields) (s : State) : exec (.smap f) s = execSmap f s := rfl
theorem exec_sunmap (f : Fields) (s : State) : exec (.sunmap f) s = execSunmap f s := rfl
theorem exec_sflush (f : Fields) (s : State) : exec (.sflush f) s = execSflush f s := rfl
theorem exec_hdecl (f : Fields) (s : State) : exec (.hdecl f) s = execHdecl f s := rfl
theorem exec_hpush (f : Fields) (s : State) : exec (.hpush f) s = execHpush f s := rfl
theorem exec_cpG2s (f : Fields) (s : State) : exec (.cpG2s f) s = execCpG2s f s := rfl
theorem exec_cpS2g (f : Fields) (s : State) : exec (.cpS2g f) s = execCpS2g f s := rfl
theorem exec_cpG2g (f : Fields) (s : State) : exec (.cpG2g f) s = execCpG2g f s := rfl
theorem exec_cpGath (f : Fields) (s : State) : exec (.cpGath f) s = execCpGath f s := rfl
theorem exec_cpScat (f : Fields) (s : State) : exec (.cpScat f) s = execCpScat f s := rfl
theorem exec_cpFill (f : Fields) (s : State) : exec (.cpFill f) s = execCpFill f s := rfl
theorem exec_cpPlane (f : Fields) (s : State) : exec (.cpPlane f) s = execCpPlane f s := rfl
theorem exec_cpTlr (f : Fields) (s : State) : exec (.cpTlr f) s = execCpTlr f s := rfl
theorem exec_mzero (f : Fields) (s : State) : exec (.mzero f) s = execMzero f s := rfl
theorem exec_mloop (f : Fields) (s : State) : exec (.mloop f) s = execMloop f s := rfl
theorem exec_mgrp (f : Fields) (s : State) : exec (.mgrp f) s = execMgrp f s := rfl
theorem exec_mdrainS (f : Fields) (s : State) : exec (.mdrainS f) s = execMdrainS f s := rfl
theorem exec_mdrainA (f : Fields) (s : State) : exec (.mdrainA f) s = execMdrainA f s := rfl
theorem exec_msave (f : Fields) (s : State) : exec (.msave f) s = execMsave f s := rfl
theorem exec_mrest (f : Fields) (s : State) : exec (.mrest f) s = execMrest f s := rfl
theorem exec_mstat (f : Fields) (s : State) : exec (.mstat f) s = execMstat f s := rfl
theorem exec_fsdef (f : Fields) (s : State) : exec (.fsdef f) s = execFsdef f s := rfl
theorem exec_fcall (f : Fields) (s : State) : exec (.fcall f) s = execFcall f s := rfl
theorem exec_fret (f : Fields) (s : State) : exec (.fret f) s = execFret f s := rfl
theorem exec_fsload (f : Fields) (s : State) : exec (.fsload f) s = execFsload f s := rfl
theorem exec_fsdrop (f : Fields) (s : State) : exec (.fsdrop f) s = execFsdrop f s := rfl
theorem exec_fsqry (f : Fields) (s : State) : exec (.fsqry f) s = execFsqry f s := rfl
theorem exec_srr (f : Fields) (s : State) : exec (.srr f) s = execSrr f s := rfl
theorem exec_srw (f : Fields) (s : State) : exec (.srw f) s = execSrw f s := rfl
theorem exec_fmap (f : Fields) (s : State) : exec (.fmap f) s = execFmap f s := rfl
theorem exec_tlbinv (f : Fields) (s : State) : exec (.tlbinv f) s = execTlbinv f s := rfl
theorem exec_capr (f : Fields) (s : State) : exec (.capr f) s = execCapr f s := rfl
theorem exec_phase (f : Fields) (s : State) : exec (.phase f) s = execPhase f s := rfl
theorem exec_halt (f : Fields) (s : State) : exec (.halt f) s = execHalt f s := rfl
theorem exec_ret (s : State) : exec (.ret) s = execRet s := rfl
theorem exec_elseP (s : State) : exec (.elseP) s = execElseP s := rfl
theorem exec_endifP (s : State) : exec (.endifP) s = execEndifP s := rfl
theorem exec_loopP (s : State) : exec (.loopP) s = execLoopP s := rfl
theorem exec_endloopP (s : State) : exec (.endloopP) s = execEndloopP s := rfl
theorem exec_qResultWrite (s : State) : exec (.qResultWrite) s = execQResultWrite s := rfl
theorem exec_appendHomeReservation (s : State) : exec (.appendHomeReservation) s = execAppendHomeReservation s := rfl
theorem exec_sealCompletion (s : State) : exec (.sealCompletion) s = execSealCompletion s := rfl
theorem exec_haloPush (s : State) : exec (.haloPush) s = execHaloPush s := rfl
theorem exec_copySegment (s : State) : exec (.copySegment) s = execCopySegment s := rfl
theorem exec_copyCompletion (s : State) : exec (.copyCompletion) s = execCopyCompletion s := rfl
theorem exec_matrixStep (s : State) : exec (.matrixStep) s = execMatrixStep s := rfl
theorem exec_matrixQueuePerform (s : State) : exec (.matrixQueuePerform) s = execMatrixQueuePerform s := rfl
theorem exec_fsQueuePerform (s : State) : exec (.fsQueuePerform) s = execFsQueuePerform s := rfl
theorem exec_tret (s : State) : exec (.tret) s = execTret s := rfl
theorem exec_variableLatencyCompletion (s : State) : exec (.variableLatencyCompletion) s = execVariableLatencyCompletion s := rfl
theorem exec_priorityAging (s : State) : exec (.priorityAging) s = execPriorityAging s := rfl
theorem exec_sleepExpiry (s : State) : exec (.sleepExpiry) s = execSleepExpiry s := rfl
theorem exec_barrierGenerationComplete (s : State) : exec (.barrierGenerationComplete) s = execBarrierGenerationComplete s := rfl
theorem exec_warpSlotRelease (s : State) : exec (.warpSlotRelease) s = execWarpSlotRelease s := rfl
theorem exec_watchValidation (s : State) : exec (.watchValidation) s = execWatchValidation s := rfl
theorem exec_residencyScheduleLoad (s : State) : exec (.residencyScheduleLoad) s = execResidencyScheduleLoad s := rfl
theorem exec_residencyEviction (s : State) : exec (.residencyEviction) s = execResidencyEviction s := rfl
theorem exec_ptsTick (s : State) : exec (.ptsTick) s = execPtsTick s := rfl
theorem exec_ptsBroadcast (s : State) : exec (.ptsBroadcast) s = execPtsBroadcast s := rfl
theorem exec_leaseExpiry (s : State) : exec (.leaseExpiry) s = execLeaseExpiry s := rfl
theorem exec_l1LeaseSweep (s : State) : exec (.l1LeaseSweep) s = execL1LeaseSweep s := rfl
theorem exec_l2LineSweep (s : State) : exec (.l2LineSweep) s = execL2LineSweep s := rfl
theorem exec_externalAgentWrite (s : State) : exec (.externalAgentWrite) s = execExternalAgentWrite s := rfl
theorem exec_qtailWrite (s : State) : exec (.qtailWrite) s = execQtailWrite s := rfl
theorem exec_queueEnable (s : State) : exec (.queueEnable) s = execQueueEnable s := rfl
theorem exec_queueDisable (s : State) : exec (.queueDisable) s = execQueueDisable s := rfl
theorem exec_queueErrClear (s : State) : exec (.queueErrClear) s = execQueueErrClear s := rfl
theorem exec_registerWrite (s : State) : exec (.registerWrite) s = execRegisterWrite s := rfl
theorem exec_gridStart (s : State) : exec (.gridStart) s = execGridStart s := rfl
theorem exec_launchCompletion (s : State) : exec (.launchCompletion) s = execLaunchCompletion s := rfl
theorem exec_blockPlacement (s : State) : exec (.blockPlacement) s = execBlockPlacement s := rfl
theorem exec_preemptionDecision (s : State) : exec (.preemptionDecision) s = execPreemptionDecision s := rfl
theorem exec_drainTimeout (s : State) : exec (.drainTimeout) s = execDrainTimeout s := rfl
theorem exec_blockSave (s : State) : exec (.blockSave) s = execBlockSave s := rfl
theorem exec_blockFlush (s : State) : exec (.blockFlush) s = execBlockFlush s := rfl
theorem exec_blockRestart (s : State) : exec (.blockRestart) s = execBlockRestart s := rfl
theorem exec_blockResume (s : State) : exec (.blockResume) s = execBlockResume s := rfl
theorem exec_pendingTrapTaken (s : State) : exec (.pendingTrapTaken) s = execPendingTrapTaken s := rfl
theorem exec_pageWalk (s : State) : exec (.pageWalk) s = execPageWalk s := rfl
theorem exec_hostFaultAcknowledge (s : State) : exec (.hostFaultAcknowledge) s = execHostFaultAcknowledge s := rfl
theorem exec_faultWaiterReplay (s : State) : exec (.faultWaiterReplay) s = execFaultWaiterReplay s := rfl
theorem exec_stagedRecordAppend (s : State) : exec (.stagedRecordAppend) s = execStagedRecordAppend s := rfl
theorem exec_ticketGrant (s : State) : exec (.ticketGrant) s = execTicketGrant s := rfl
theorem exec_ticketPhaseRelease (s : State) : exec (.ticketPhaseRelease) s = execTicketPhaseRelease s := rfl
theorem exec_replayDecision (s : State) : exec (.replayDecision) s = execReplayDecision s := rfl
theorem exec_rds (s : State) : exec (.rds) s = execRds s := rfl
theorem exec_rdx (s : State) : exec (.rdx) s = execRdx s := rfl
theorem exec_upg (s : State) : exec (.upg) s = execUpg s := rfl
theorem exec_wb (s : State) : exec (.wb) s = execWb s := rfl
theorem exec_fwds (s : State) : exec (.fwds) s = execFwds s := rfl
theorem exec_fwdx (s : State) : exec (.fwdx) s = execFwdx s := rfl
theorem exec_invSnoop (s : State) : exec (.invSnoop) s = execInvSnoop s := rfl
theorem exec_snoopResponse (s : State) : exec (.snoopResponse) s = execSnoopResponse s := rfl
theorem exec_wbAcknowledge (s : State) : exec (.wbAcknowledge) s = execWbAcknowledge s := rfl
theorem exec_sealRecall (s : State) : exec (.sealRecall) s = execSealRecall s := rfl
theorem exec_mscEviction (s : State) : exec (.mscEviction) s = execMscEviction s := rfl
theorem exec_extentAdd (s : State) : exec (.extentAdd) s = execExtentAdd s := rfl
theorem exec_extentReleaseRequest (s : State) : exec (.extentReleaseRequest) s = execExtentReleaseRequest s := rfl
theorem exec_forcedExtentRelease (s : State) : exec (.forcedExtentRelease) s = execForcedExtentRelease s := rfl
theorem exec_extentAccept (s : State) : exec (.extentAccept) s = execExtentAccept s := rfl
theorem exec_extentDecline (s : State) : exec (.extentDecline) s = execExtentDecline s := rfl
theorem exec_extentCloseComplete (s : State) : exec (.extentCloseComplete) s = execExtentCloseComplete s := rfl
theorem exec_extentDone (s : State) : exec (.extentDone) s = execExtentDone s := rfl
theorem exec_appendFrameAlloc (s : State) : exec (.appendFrameAlloc) s = execAppendFrameAlloc s := rfl
theorem exec_pageFree (s : State) : exec (.pageFree) s = execPageFree s := rfl
theorem exec_channelService (s : State) : exec (.channelService) s = execChannelService s := rfl
theorem exec_telemetryCopy (s : State) : exec (.telemetryCopy) s = execTelemetryCopy s := rfl
theorem exec_rowActivationAlert (s : State) : exec (.rowActivationAlert) s = execRowActivationAlert s := rfl
theorem exec_laneRetrain (s : State) : exec (.laneRetrain) s = execLaneRetrain s := rfl
theorem exec_keyLoad (s : State) : exec (.keyLoad) s = execKeyLoad s := rfl
theorem exec_keyRevoke (s : State) : exec (.keyRevoke) s = execKeyRevoke s := rfl
theorem exec_boot (s : State) : exec (.boot) s = execBoot s := rfl
theorem exec_recoveryWrite (s : State) : exec (.recoveryWrite) s = execRecoveryWrite s := rfl
theorem exec_firmwareSwap (s : State) : exec (.firmwareSwap) s = execFirmwareSwap s := rfl
theorem exec_swapPoint (s : State) : exec (.swapPoint) s = execSwapPoint s := rfl
theorem exec_aliveReport (s : State) : exec (.aliveReport) s = execAliveReport s := rfl
theorem exec_swapAliveTimeout (s : State) : exec (.swapAliveTimeout) s = execSwapAliveTimeout s := rfl
theorem exec_swapCommit (s : State) : exec (.swapCommit) s = execSwapCommit s := rfl
theorem exec_watchdogPet (s : State) : exec (.watchdogPet) s = execWatchdogPet s := rfl
theorem exec_watchdogRung0 (s : State) : exec (.watchdogRung0) s = execWatchdogRung0 s := rfl
theorem exec_watchdogRung1 (s : State) : exec (.watchdogRung1) s = execWatchdogRung1 s := rfl
theorem exec_watchdogRung2 (s : State) : exec (.watchdogRung2) s = execWatchdogRung2 s := rfl
theorem exec_watchdogRung3 (s : State) : exec (.watchdogRung3) s = execWatchdogRung3 s := rfl
theorem exec_watchdogRung4 (s : State) : exec (.watchdogRung4) s = execWatchdogRung4 s := rfl
theorem exec_watchdogRung5 (s : State) : exec (.watchdogRung5) s = execWatchdogRung5 s := rfl
theorem exec_getMeasurements (s : State) : exec (.getMeasurements) s = execGetMeasurements s := rfl
theorem exec_keyExchange (s : State) : exec (.keyExchange) s = execKeyExchange s := rfl
theorem exec_linkUpMaskChange (s : State) : exec (.linkUpMaskChange) s = execLinkUpMaskChange s := rfl
theorem exec_kstatBusyClear (s : State) : exec (.kstatBusyClear) s = execKstatBusyClear s := rfl
theorem exec_ideKeyProgramming (s : State) : exec (.ideKeyProgramming) s = execIdeKeyProgramming s := rfl

end Sys2Proof.Machine
end

