-- ==== Sys2Proof/Laws/Encoding.lean ====
section
/-! SUPPORT. Reading back the words that the encoder writes: the numeric value of an instruction word, its fields, and the decoding
of a word whose OP the class names (03_instruction_words.md R57, R68, R77). -/

namespace Sys2Proof.Laws

open Sys2Proof Sys2Proof.Machine

/-- The number an instruction word is. -/
theorem wordOf_toNat (op : Nat) (x : Fields) (h : op < 128) :
    (wordOf op x).toNat = op * 2^25 + x.d.toNat * 2^18 + x.a.toNat * 2^11 + x.b.toNat * 2^4 + x.hold.toNat * 4 + extOf x := by
  have h1 := x.d.isLt; have h2 := x.a.isLt; have h3 := x.b.isLt; have h4 := x.hold.isLt
  have h5 : extOf x < 4 := by unfold extOf; split <;> split <;> decide
  unfold wordOf
  simp only [BitVec.toNat_append, BitVec.toNat_ofNat]
  rw [Nat.mod_eq_of_lt (by simpa using h), Nat.mod_eq_of_lt (a := extOf x) (by simpa using h5)]
  rw [← Nat.shiftLeft_add_eq_or_of_lt (by omega), ← Nat.shiftLeft_add_eq_or_of_lt (by omega), ← Nat.shiftLeft_add_eq_or_of_lt (by omega), ← Nat.shiftLeft_add_eq_or_of_lt (by omega), ← Nat.shiftLeft_add_eq_or_of_lt (by omega)]
  simp only [Nat.shiftLeft_eq]
  ring

theorem opOf_wordOf (op : Nat) (x : Fields) (h : op < 128) : opOf (wordOf op x) = op := by
  have h1 := x.d.isLt; have h2 := x.a.isLt; have h3 := x.b.isLt; have h4 := x.hold.isLt
  have h5 : extOf x < 4 := by unfold extOf; split <;> split <;> decide
  unfold opOf bitsOf
  rw [wordOf_toNat op x h, Nat.shiftRight_eq_div_pow]
  omega

theorem extOf_wordOf (op : Nat) (x : Fields) (h : op < 128) : bitsOf (wordOf op x) 1 0 = extOf x := by
  have h1 := x.d.isLt; have h2 := x.a.isLt; have h3 := x.b.isLt; have h4 := x.hold.isLt
  have h5 : extOf x < 4 := by unfold extOf; split <;> split <;> decide
  unfold bitsOf
  rw [wordOf_toNat op x h, Nat.shiftRight_eq_div_pow]
  omega

theorem fieldsOf_wordOf (op : Nat) (x : Fields) (h : op < 128) : fieldsOf (wordOf op x) x.mod x.imm = x := by
  have h1 := x.d.isLt; have h2 := x.a.isLt; have h3 := x.b.isLt; have h4 := x.hold.isLt
  have h5 : extOf x < 4 := by unfold extOf; split <;> split <;> decide
  have e := wordOf_toNat op x h
  cases x
  dsimp only at *
  simp only [fieldsOf, Fields.mk.injEq, and_true]
  refine ⟨?_, ?_, ?_, ?_⟩ <;> apply BitVec.eq_of_toNat_eq <;>
    (rw [BitVec.extractLsb'_toNat, e, Nat.shiftRight_eq_div_pow]; omega)

theorem extWords_self (x : Fields) : extWords (extOf x) (x.mod.toList ++ x.imm.toList) = some (x.mod, x.imm, []) := by
  obtain ⟨d, a, b, h, m, i⟩ := x
  cases m <;> cases i <;> rfl

theorem decode_wordOf {op : Nat} {x : Fields} {k : Cls} {i : Instr} (h : op < 127)
    (hi : instrAt k op x = some i) :
    decode k (wordOf op x :: (x.mod.toList ++ x.imm.toList)) = .ok i [] := by
  have e : opOf (wordOf op x) = op := opOf_wordOf op x (by omega)
  simp only [decode, e, extOf_wordOf op x (by omega), extWords_self, fieldsOf_wordOf op x (by omega), hi]
  rw [if_neg (by omega)]

theorem decode_repWordOf (k : Cls) (p : RepWord) : decode k [repWordOf p] = .ok (.rep k p) [] := by
  have h : ∀ (n : BitVec 6) (a b d e : Bool), opOf (repWordOf ⟨n, a, b, d, e⟩) = 0x7F ∧ bitsOf (repWordOf ⟨n, a, b, d, e⟩) 14 0 = 0 ∧ repOf (repWordOf ⟨n, a, b, d, e⟩) = ⟨n, a, b, d, e⟩ := by
    decide +kernel
  obtain ⟨n, a, b, d, e⟩ := p
  obtain ⟨h1, h2, h3⟩ := h n a b d e
  simp only [decode, h1, h2, h3, if_true]

end Sys2Proof.Laws
end

