-- ==== Sys2Proof/Laws/Tables.lean ====
section
/-! SUPPORT. Sparse tables: reading after writing, rising keys, the canonical form, and bytes. -/

namespace Sys2Proof.Machine

variable {α : Type}

/-! ### Reading back -/

@[simp] theorem kGet_kPut_same (k : Nat) (v : α) (m : KMap α) : kGet k (kPut k v m) = some v := by
  induction m with
  | nil => simp [kPut, kGet]
  | cons p r ih =>
    obtain ⟨j, w⟩ := p
    simp only [kPut]
    split
    · simp [kGet]
    · split
      · simp [kGet]
      · simp [kGet, *]

theorem kGet_kPut_other (k : Nat) (v : α) (m : KMap α) (j : Nat) (h : j ≠ k) : kGet j (kPut k v m) = kGet j m := by
  induction m with
  | nil => simp [kPut, kGet, h]
  | cons p r ih =>
    obtain ⟨i, w⟩ := p
    simp only [kPut]
    split
    · simp [kGet, h]
    · split
      · subst_vars; simp [kGet, h]
      · simp [kGet, ih]

theorem kGet_filter (q : Nat → Bool) (m : KMap α) (j : Nat) :
    kGet j (m.filter (fun p => q p.1)) = if q j then kGet j m else none := by
  induction m with
  | nil => simp [kGet]
  | cons p r ih =>
    obtain ⟨i, w⟩ := p
    by_cases hq : q i
    · by_cases hj : j = i
      · subst hj; simp [hq, kGet]
      · simp [hq, kGet, hj, ih]
    · by_cases hj : j = i
      · subst hj; simp [hq, ih]
      · simp [hq, kGet, hj, ih]

theorem kGet_append (a b : KMap α) (j : Nat) : kGet j (a ++ b) = (kGet j a).or (kGet j b) := by
  induction a with
  | nil => simp [kGet]
  | cons p r ih =>
    obtain ⟨i, w⟩ := p
    by_cases h : j = i <;> simp [kGet, h, ih]

theorem kGet_kDel (k j : Nat) (m : KMap α) : kGet j (kDel k m) = if j = k then none else kGet j m := by
  have := kGet_filter (fun i => i != k) m j
  simp only [kDel, this]
  by_cases h : j = k <;> simp [h]

/-- A table with a default reads back what was set. -/
theorem kGetD_kSet_same [DecidableEq α] (d v : α) (k : Nat) (m : KMap α) : kGetD k d (kSet d k v m) = v := by
  unfold kSet kGetD
  split
  · simp [kGet_kDel, *]
  · simp

theorem kGetD_kSet_other [DecidableEq α] (d v : α) (k j : Nat) (m : KMap α) (h : j ≠ k) :
    kGetD j d (kSet d k v m) = kGetD j d m := by
  unfold kSet kGetD
  split
  · simp [kGet_kDel, h]
  · simp [kGet_kPut_other _ _ _ _ h]

/-! ### Rising keys and the canonical form -/

theorem kSorted_iff (m : KMap α) : kSorted m = true ↔ m.Pairwise (fun p q => p.1 < q.1) := by
  induction m with
  | nil => simp [kSorted]
  | cons p r ih =>
    obtain ⟨a, v⟩ := p
    cases r with
    | nil => simp [kSorted]
    | cons q r =>
      obtain ⟨b, w⟩ := q
      rw [kSorted, Bool.and_eq_true, ih, List.pairwise_cons (a := (a, v)), decide_eq_true_eq]
      constructor
      · rintro ⟨hab, hp⟩
        refine ⟨fun x hx => ?_, hp⟩
        rcases List.mem_cons.1 hx with rfl | hx
        · exact hab
        · exact hab.trans ((List.pairwise_cons.1 hp).1 x hx)
      · rintro ⟨h, hp⟩
        exact ⟨h (b, w) (by simp), hp⟩

theorem kSorted_filter (q : Nat × α → Bool) (m : KMap α) (h : kSorted m = true) : kSorted (m.filter q) = true := by
  rw [kSorted_iff] at *; exact h.filter q

/-- The key of an entry of `kPut` is the key put or one that stood there. -/
theorem mem_kPut {k : Nat} {v : α} {m : KMap α} {p : Nat × α} (h : p ∈ kPut k v m) : p = (k, v) ∨ p ∈ m := by
  induction m with
  | nil => simpa [kPut] using h
  | cons q r ih =>
    obtain ⟨i, w⟩ := q
    simp only [kPut] at h
    split at h
    · simpa using h
    · split at h
      · rcases List.mem_cons.1 h with h | h
        · exact .inl h
        · exact .inr (List.mem_cons_of_mem _ h)
      · rcases List.mem_cons.1 h with h | h
        · exact .inr (by simp [h])
        · rcases ih h with h | h
          · exact .inl h
          · exact .inr (List.mem_cons_of_mem _ h)

theorem kSorted_kPut (k : Nat) (v : α) (m : KMap α) (h : kSorted m = true) : kSorted (kPut k v m) = true := by
  rw [kSorted_iff] at *
  induction m with
  | nil => simp [kPut]
  | cons q r ih =>
    obtain ⟨i, w⟩ := q
    obtain ⟨h1, h2⟩ := List.pairwise_cons.1 h
    simp only [kPut]
    split
    · rename_i hk
      refine List.pairwise_cons.2 ⟨fun p hp => ?_, h⟩
      rcases List.mem_cons.1 hp with rfl | hp
      · exact hk
      · exact hk.trans (h1 p hp)
    · split
      · subst_vars; exact List.pairwise_cons.2 ⟨h1, h2⟩
      · refine List.pairwise_cons.2 ⟨fun p hp => ?_, ih h2⟩
        rcases mem_kPut hp with rfl | hp
        · simp only; omega
        · exact h1 p hp

variable [DecidableEq α]

theorem kCanon_iff (d : α) (m : KMap α) :
    kCanon d m = true ↔ m.Pairwise (fun p q => p.1 < q.1) ∧ ∀ p ∈ m, p.2 ≠ d := by
  simp [kCanon, kSorted_iff]

theorem kCanon_filter (d : α) (q : Nat × α → Bool) (m : KMap α) (h : kCanon d m = true) : kCanon d (m.filter q) = true := by
  rw [kCanon_iff] at *
  exact ⟨h.1.filter q, fun p hp => h.2 p (List.mem_of_mem_filter hp)⟩

/-- Setting a key keeps the canonical form. -/
theorem kCanon_kSet (d v : α) (k : Nat) (m : KMap α) (h : kCanon d m = true) : kCanon d (kSet d k v m) = true := by
  unfold kSet
  split
  · exact kCanon_filter d _ m h
  · rename_i hv
    rw [kCanon_iff] at *
    refine ⟨(kSorted_iff _).1 (kSorted_kPut k v m ((kSorted_iff _).2 h.1)), fun p hp => ?_⟩
    rcases mem_kPut hp with rfl | hp
    · exact hv
    · exact h.2 p hp

/-! ### Bytes -/

theorem mem_bCells {a : Nat} {bs : List Byte} {p : Nat × Byte} (h : p ∈ bCells a bs) : a ≤ p.1 ∧ p.1 < a + bs.length ∧ p.2 ≠ 0 := by
  induction bs generalizing a with
  | nil => simp [bCells] at h
  | cons b r ih =>
    simp only [bCells] at h
    split at h
    · obtain ⟨h1, h2, h3⟩ := ih h
      simp only [List.length_cons]; exact ⟨by omega, by omega, h3⟩
    · rename_i hb
      rcases List.mem_cons.1 h with rfl | h
      · exact ⟨le_rfl, by simp, hb⟩
      · obtain ⟨h1, h2, h3⟩ := ih h
        simp only [List.length_cons]; exact ⟨by omega, by omega, h3⟩

theorem bCells_sorted (a : Nat) (bs : List Byte) : (bCells a bs).Pairwise (fun p q => p.1 < q.1) := by
  induction bs generalizing a with
  | nil => simp [bCells]
  | cons b r ih =>
    simp only [bCells]
    split
    · exact ih _
    · exact List.pairwise_cons.2 ⟨fun p hp => by have := (mem_bCells hp).1; simp only; omega, ih _⟩

/-- Writing bytes keeps the canonical form. -/
theorem kCanon_bWrite (m : KMap Byte) (a : Nat) (bs : List Byte) (h : kCanon 0 m = true) : kCanon 0 (bWrite m a bs) = true := by
  rw [kCanon_iff] at *
  obtain ⟨hs, hz⟩ := h
  unfold bWrite
  refine ⟨?_, fun p hp => ?_⟩
  · rw [List.pairwise_append, List.pairwise_append]
    refine ⟨⟨hs.filter _, bCells_sorted a bs, fun p hp q hq => ?_⟩, hs.filter _, fun p hp q hq => ?_⟩
    · have := (mem_bCells hq).1
      simp at hp; omega
    · simp at hq
      rcases List.mem_append.1 hp with hp | hp
      · simp at hp; omega
      · have := (mem_bCells hp).2.1; omega
  · rcases List.mem_append.1 hp with hp | hp
    · rcases List.mem_append.1 hp with hp | hp
      · exact hz p (List.mem_of_mem_filter hp)
      · exact (mem_bCells hp).2.2
    · exact hz p (List.mem_of_mem_filter hp)

theorem kGetD_bCells (a j : Nat) (bs : List Byte) : kGetD j 0 (bCells a bs) = if a ≤ j ∧ j < a + bs.length then bs.getD (j - a) 0 else 0 := by
  induction bs generalizing a with
  | nil => simp [bCells, kGetD, kGet]
  | cons b r ih =>
    simp only [kGetD] at *
    by_cases hb : b = 0
    · rw [bCells, if_pos hb, ih]
      by_cases hj : j = a
      · subst hj; simp [hb]
      · by_cases h1 : a ≤ j ∧ j < a + (b :: r).length
        · rw [if_pos h1, if_pos (by simp at h1; omega)]
          have : j - a = (j - (a + 1)) + 1 := by omega
          rw [this]; simp
        · rw [if_neg h1, if_neg (by simp at h1 ⊢; omega)]
    · rw [bCells, if_neg hb, kGet]
      by_cases hj : j = a
      · subst hj; simp
      · rw [if_neg hj, ih]
        by_cases h1 : a ≤ j ∧ j < a + (b :: r).length
        · rw [if_pos h1, if_pos (by simp at h1; omega)]
          have : j - a = (j - (a + 1)) + 1 := by omega
          rw [this]; simp
        · rw [if_neg h1, if_neg (by simp at h1 ⊢; omega)]

omit [DecidableEq α] in
theorem kGet_none_of_forall (m : KMap α) (j : Nat) (h : ∀ p ∈ m, p.1 ≠ j) : kGet j m = none := by
  induction m with
  | nil => rfl
  | cons p r ih =>
    obtain ⟨i, w⟩ := p
    have hi : j ≠ i := fun e => h (i, w) (by simp) e.symm
    simp [kGet, hi, ih (fun p hp => h p (List.mem_cons_of_mem _ hp))]

/-- A byte read after a write of consecutive bytes. -/
theorem bGet_bWrite (m : KMap Byte) (a : Nat) (bs : List Byte) (j : Nat) :
    bGet (bWrite m a bs) j = if a ≤ j ∧ j < a + bs.length then bs.getD (j - a) 0 else bGet m j := by
  have h1 := kGet_filter (α := Byte) (fun i => decide (i < a)) m j
  have h3 := kGet_filter (α := Byte) (fun i => decide (a + bs.length ≤ i)) m j
  have h2 := kGetD_bCells a j bs
  unfold bGet kGetD at *
  unfold bWrite
  rw [kGet_append, kGet_append, h1, h3]
  by_cases hin : a ≤ j ∧ j < a + bs.length
  · have ha : ¬ j < a := by omega
    have hb : ¬ a + bs.length ≤ j := by omega
    rw [if_pos hin] at h2 ⊢
    simpa [ha, hb] using h2
  · rw [if_neg hin]
    have hn : kGet j (bCells a bs) = none :=
      kGet_none_of_forall _ _ (fun p hp e => hin ⟨e ▸ (mem_bCells hp).1, e ▸ (mem_bCells hp).2.1⟩)
    rw [hn]
    by_cases ha : j < a
    · have hb : ¬ a + bs.length ≤ j := by omega
      simp [ha, hb]
    · have hb : a + bs.length ≤ j := by omega
      simp [ha, hb]

theorem bRead_eq (m : KMap Byte) (a n : Nat) : bRead m a n = (List.range n).map (fun i => bGet m (a + i)) := by
  induction n generalizing a with
  | zero => rfl
  | succ n ih =>
    rw [bRead, ih, List.range_succ_eq_map, List.map_cons, List.map_map]
    refine congrArg₂ _ (by simp) (List.map_congr_left fun i _ => ?_)
    simp only [Function.comp]; congr 1; omega

/-- Bytes read where they were written. -/
theorem bRead_bWrite_same (m : KMap Byte) (a : Nat) (bs : List Byte) : bRead (bWrite m a bs) a bs.length = bs := by
  rw [bRead_eq]
  refine List.ext_getElem (by simp) fun i h1 h2 => ?_
  simp [bGet_bWrite, h2]

@[simp] theorem leBytes_length (n v : Nat) : (leBytes n v).length = n := by
  induction n generalizing v with
  | zero => rfl
  | succ n ih => simp [leBytes, ih]

/-- Little-endian bytes read back as the number they were made of. -/
theorem leNat_leBytes (n v : Nat) : leNat (leBytes n v) = v % 256 ^ n := by
  induction n generalizing v with
  | zero => simp [leBytes, leNat, Nat.mod_one]
  | succ n ih =>
    rw [leBytes, leNat, ih, pow_succ', Nat.mod_mul]
    simp

end Sys2Proof.Machine
end

