-- ==== Sys2Proof/Laws/State.lean ====
section
/-! SUPPORT. What each named update of the state leaves of every field, and what it reads back. -/

namespace Sys2Proof.Machine

/-! ### `setTeamAt` -/

@[simp] theorem State.setTeamAt_cc (s : State) (t : Nat) (v : Team) : (s.setTeamAt t v).cc = s.cc := rfl
@[simp] theorem State.setTeamAt_freeCtr (s : State) (t : Nat) (v : Team) : (s.setTeamAt t v).freeCtr = s.freeCtr := rfl
@[simp] theorem State.setTeamAt_agenda (s : State) (t : Nat) (v : Team) : (s.setTeamAt t v).agenda = s.agenda := rfl
@[simp] theorem State.setTeamAt_cur (s : State) (t : Nat) (v : Team) : (s.setTeamAt t v).cur = s.cur := rfl
@[simp] theorem State.setTeamAt_curStream (s : State) (t : Nat) (v : Team) : (s.setTeamAt t v).curStream = s.curStream := rfl
@[simp] theorem State.setTeamAt_ev (s : State) (t : Nat) (v : Team) : (s.setTeamAt t v).ev = s.ev := rfl
@[simp] theorem State.setTeamAt_nextTid (s : State) (t : Nat) (v : Team) : (s.setTeamAt t v).nextTid = s.nextTid := rfl
@[simp] theorem State.setTeamAt_nextBid (s : State) (t : Nat) (v : Team) : (s.setTeamAt t v).nextBid = s.nextBid := rfl
@[simp] theorem State.setTeamAt_nextGid (s : State) (t : Nat) (v : Team) : (s.setTeamAt t v).nextGid = s.nextGid := rfl
@[simp] theorem State.setTeamAt_teams (s : State) (t : Nat) (v : Team) : (s.setTeamAt t v).teams = kPut t v s.teams := rfl
@[simp] theorem State.setTeamAt_blocks (s : State) (t : Nat) (v : Team) : (s.setTeamAt t v).blocks = s.blocks := rfl
@[simp] theorem State.setTeamAt_grids (s : State) (t : Nat) (v : Team) : (s.setTeamAt t v).grids = s.grids := rfl
@[simp] theorem State.setTeamAt_barriers (s : State) (t : Nat) (v : Team) : (s.setTeamAt t v).barriers = s.barriers := rfl
@[simp] theorem State.setTeamAt_parts (s : State) (t : Nat) (v : Team) : (s.setTeamAt t v).parts = s.parts := rfl
@[simp] theorem State.setTeamAt_cores (s : State) (t : Nat) (v : Team) : (s.setTeamAt t v).cores = s.cores := rfl
@[simp] theorem State.setTeamAt_dies (s : State) (t : Nat) (v : Team) : (s.setTeamAt t v).dies = s.dies := rfl
@[simp] theorem State.setTeamAt_queues (s : State) (t : Nat) (v : Team) : (s.setTeamAt t v).queues = s.queues := rfl
@[simp] theorem State.setTeamAt_mem (s : State) (t : Nat) (v : Team) : (s.setTeamAt t v).mem = s.mem := rfl
@[simp] theorem State.setTeamAt_pages (s : State) (t : Nat) (v : Team) : (s.setTeamAt t v).pages = s.pages := rfl
@[simp] theorem State.setTeamAt_pools (s : State) (t : Nat) (v : Team) : (s.setTeamAt t v).pools = s.pools := rfl
@[simp] theorem State.setTeamAt_plat (s : State) (t : Nat) (v : Team) : (s.setTeamAt t v).plat = s.plat := rfl

/-! ### `setBlock` -/

@[simp] theorem State.setBlock_cc (s : State) (b : Nat) (v : Block) : (s.setBlock b v).cc = s.cc := rfl
@[simp] theorem State.setBlock_freeCtr (s : State) (b : Nat) (v : Block) : (s.setBlock b v).freeCtr = s.freeCtr := rfl
@[simp] theorem State.setBlock_agenda (s : State) (b : Nat) (v : Block) : (s.setBlock b v).agenda = s.agenda := rfl
@[simp] theorem State.setBlock_cur (s : State) (b : Nat) (v : Block) : (s.setBlock b v).cur = s.cur := rfl
@[simp] theorem State.setBlock_curStream (s : State) (b : Nat) (v : Block) : (s.setBlock b v).curStream = s.curStream := rfl
@[simp] theorem State.setBlock_ev (s : State) (b : Nat) (v : Block) : (s.setBlock b v).ev = s.ev := rfl
@[simp] theorem State.setBlock_nextTid (s : State) (b : Nat) (v : Block) : (s.setBlock b v).nextTid = s.nextTid := rfl
@[simp] theorem State.setBlock_nextBid (s : State) (b : Nat) (v : Block) : (s.setBlock b v).nextBid = s.nextBid := rfl
@[simp] theorem State.setBlock_nextGid (s : State) (b : Nat) (v : Block) : (s.setBlock b v).nextGid = s.nextGid := rfl
@[simp] theorem State.setBlock_teams (s : State) (b : Nat) (v : Block) : (s.setBlock b v).teams = s.teams := rfl
@[simp] theorem State.setBlock_blocks (s : State) (b : Nat) (v : Block) : (s.setBlock b v).blocks = kPut b v s.blocks := rfl
@[simp] theorem State.setBlock_grids (s : State) (b : Nat) (v : Block) : (s.setBlock b v).grids = s.grids := rfl
@[simp] theorem State.setBlock_barriers (s : State) (b : Nat) (v : Block) : (s.setBlock b v).barriers = s.barriers := rfl
@[simp] theorem State.setBlock_parts (s : State) (b : Nat) (v : Block) : (s.setBlock b v).parts = s.parts := rfl
@[simp] theorem State.setBlock_cores (s : State) (b : Nat) (v : Block) : (s.setBlock b v).cores = s.cores := rfl
@[simp] theorem State.setBlock_dies (s : State) (b : Nat) (v : Block) : (s.setBlock b v).dies = s.dies := rfl
@[simp] theorem State.setBlock_queues (s : State) (b : Nat) (v : Block) : (s.setBlock b v).queues = s.queues := rfl
@[simp] theorem State.setBlock_mem (s : State) (b : Nat) (v : Block) : (s.setBlock b v).mem = s.mem := rfl
@[simp] theorem State.setBlock_pages (s : State) (b : Nat) (v : Block) : (s.setBlock b v).pages = s.pages := rfl
@[simp] theorem State.setBlock_pools (s : State) (b : Nat) (v : Block) : (s.setBlock b v).pools = s.pools := rfl
@[simp] theorem State.setBlock_plat (s : State) (b : Nat) (v : Block) : (s.setBlock b v).plat = s.plat := rfl

/-! ### `setGrid` -/

@[simp] theorem State.setGrid_cc (s : State) (g : Nat) (v : Grid) : (s.setGrid g v).cc = s.cc := rfl
@[simp] theorem State.setGrid_freeCtr (s : State) (g : Nat) (v : Grid) : (s.setGrid g v).freeCtr = s.freeCtr := rfl
@[simp] theorem State.setGrid_agenda (s : State) (g : Nat) (v : Grid) : (s.setGrid g v).agenda = s.agenda := rfl
@[simp] theorem State.setGrid_cur (s : State) (g : Nat) (v : Grid) : (s.setGrid g v).cur = s.cur := rfl
@[simp] theorem State.setGrid_curStream (s : State) (g : Nat) (v : Grid) : (s.setGrid g v).curStream = s.curStream := rfl
@[simp] theorem State.setGrid_ev (s : State) (g : Nat) (v : Grid) : (s.setGrid g v).ev = s.ev := rfl
@[simp] theorem State.setGrid_nextTid (s : State) (g : Nat) (v : Grid) : (s.setGrid g v).nextTid = s.nextTid := rfl
@[simp] theorem State.setGrid_nextBid (s : State) (g : Nat) (v : Grid) : (s.setGrid g v).nextBid = s.nextBid := rfl
@[simp] theorem State.setGrid_nextGid (s : State) (g : Nat) (v : Grid) : (s.setGrid g v).nextGid = s.nextGid := rfl
@[simp] theorem State.setGrid_teams (s : State) (g : Nat) (v : Grid) : (s.setGrid g v).teams = s.teams := rfl
@[simp] theorem State.setGrid_blocks (s : State) (g : Nat) (v : Grid) : (s.setGrid g v).blocks = s.blocks := rfl
@[simp] theorem State.setGrid_grids (s : State) (g : Nat) (v : Grid) : (s.setGrid g v).grids = kPut g v s.grids := rfl
@[simp] theorem State.setGrid_barriers (s : State) (g : Nat) (v : Grid) : (s.setGrid g v).barriers = s.barriers := rfl
@[simp] theorem State.setGrid_parts (s : State) (g : Nat) (v : Grid) : (s.setGrid g v).parts = s.parts := rfl
@[simp] theorem State.setGrid_cores (s : State) (g : Nat) (v : Grid) : (s.setGrid g v).cores = s.cores := rfl
@[simp] theorem State.setGrid_dies (s : State) (g : Nat) (v : Grid) : (s.setGrid g v).dies = s.dies := rfl
@[simp] theorem State.setGrid_queues (s : State) (g : Nat) (v : Grid) : (s.setGrid g v).queues = s.queues := rfl
@[simp] theorem State.setGrid_mem (s : State) (g : Nat) (v : Grid) : (s.setGrid g v).mem = s.mem := rfl
@[simp] theorem State.setGrid_pages (s : State) (g : Nat) (v : Grid) : (s.setGrid g v).pages = s.pages := rfl
@[simp] theorem State.setGrid_pools (s : State) (g : Nat) (v : Grid) : (s.setGrid g v).pools = s.pools := rfl
@[simp] theorem State.setGrid_plat (s : State) (g : Nat) (v : Grid) : (s.setGrid g v).plat = s.plat := rfl

/-! ### `setPart` -/

@[simp] theorem State.setPart_cc (s : State) (p : Nat) (v : Part) : (s.setPart p v).cc = s.cc := rfl
@[simp] theorem State.setPart_freeCtr (s : State) (p : Nat) (v : Part) : (s.setPart p v).freeCtr = s.freeCtr := rfl
@[simp] theorem State.setPart_agenda (s : State) (p : Nat) (v : Part) : (s.setPart p v).agenda = s.agenda := rfl
@[simp] theorem State.setPart_cur (s : State) (p : Nat) (v : Part) : (s.setPart p v).cur = s.cur := rfl
@[simp] theorem State.setPart_curStream (s : State) (p : Nat) (v : Part) : (s.setPart p v).curStream = s.curStream := rfl
@[simp] theorem State.setPart_ev (s : State) (p : Nat) (v : Part) : (s.setPart p v).ev = s.ev := rfl
@[simp] theorem State.setPart_nextTid (s : State) (p : Nat) (v : Part) : (s.setPart p v).nextTid = s.nextTid := rfl
@[simp] theorem State.setPart_nextBid (s : State) (p : Nat) (v : Part) : (s.setPart p v).nextBid = s.nextBid := rfl
@[simp] theorem State.setPart_nextGid (s : State) (p : Nat) (v : Part) : (s.setPart p v).nextGid = s.nextGid := rfl
@[simp] theorem State.setPart_teams (s : State) (p : Nat) (v : Part) : (s.setPart p v).teams = s.teams := rfl
@[simp] theorem State.setPart_blocks (s : State) (p : Nat) (v : Part) : (s.setPart p v).blocks = s.blocks := rfl
@[simp] theorem State.setPart_grids (s : State) (p : Nat) (v : Part) : (s.setPart p v).grids = s.grids := rfl
@[simp] theorem State.setPart_barriers (s : State) (p : Nat) (v : Part) : (s.setPart p v).barriers = s.barriers := rfl
@[simp] theorem State.setPart_parts (s : State) (p : Nat) (v : Part) : (s.setPart p v).parts = kPut p v s.parts := rfl
@[simp] theorem State.setPart_cores (s : State) (p : Nat) (v : Part) : (s.setPart p v).cores = s.cores := rfl
@[simp] theorem State.setPart_dies (s : State) (p : Nat) (v : Part) : (s.setPart p v).dies = s.dies := rfl
@[simp] theorem State.setPart_queues (s : State) (p : Nat) (v : Part) : (s.setPart p v).queues = s.queues := rfl
@[simp] theorem State.setPart_mem (s : State) (p : Nat) (v : Part) : (s.setPart p v).mem = s.mem := rfl
@[simp] theorem State.setPart_pages (s : State) (p : Nat) (v : Part) : (s.setPart p v).pages = s.pages := rfl
@[simp] theorem State.setPart_pools (s : State) (p : Nat) (v : Part) : (s.setPart p v).pools = s.pools := rfl
@[simp] theorem State.setPart_plat (s : State) (p : Nat) (v : Part) : (s.setPart p v).plat = s.plat := rfl

/-! ### `setCore` -/

@[simp] theorem State.setCore_cc (s : State) (c : Nat) (v : Core) : (s.setCore c v).cc = s.cc := rfl
@[simp] theorem State.setCore_freeCtr (s : State) (c : Nat) (v : Core) : (s.setCore c v).freeCtr = s.freeCtr := rfl
@[simp] theorem State.setCore_agenda (s : State) (c : Nat) (v : Core) : (s.setCore c v).agenda = s.agenda := rfl
@[simp] theorem State.setCore_cur (s : State) (c : Nat) (v : Core) : (s.setCore c v).cur = s.cur := rfl
@[simp] theorem State.setCore_curStream (s : State) (c : Nat) (v : Core) : (s.setCore c v).curStream = s.curStream := rfl
@[simp] theorem State.setCore_ev (s : State) (c : Nat) (v : Core) : (s.setCore c v).ev = s.ev := rfl
@[simp] theorem State.setCore_nextTid (s : State) (c : Nat) (v : Core) : (s.setCore c v).nextTid = s.nextTid := rfl
@[simp] theorem State.setCore_nextBid (s : State) (c : Nat) (v : Core) : (s.setCore c v).nextBid = s.nextBid := rfl
@[simp] theorem State.setCore_nextGid (s : State) (c : Nat) (v : Core) : (s.setCore c v).nextGid = s.nextGid := rfl
@[simp] theorem State.setCore_teams (s : State) (c : Nat) (v : Core) : (s.setCore c v).teams = s.teams := rfl
@[simp] theorem State.setCore_blocks (s : State) (c : Nat) (v : Core) : (s.setCore c v).blocks = s.blocks := rfl
@[simp] theorem State.setCore_grids (s : State) (c : Nat) (v : Core) : (s.setCore c v).grids = s.grids := rfl
@[simp] theorem State.setCore_barriers (s : State) (c : Nat) (v : Core) : (s.setCore c v).barriers = s.barriers := rfl
@[simp] theorem State.setCore_parts (s : State) (c : Nat) (v : Core) : (s.setCore c v).parts = s.parts := rfl
@[simp] theorem State.setCore_cores (s : State) (c : Nat) (v : Core) : (s.setCore c v).cores = kPut c v s.cores := rfl
@[simp] theorem State.setCore_dies (s : State) (c : Nat) (v : Core) : (s.setCore c v).dies = s.dies := rfl
@[simp] theorem State.setCore_queues (s : State) (c : Nat) (v : Core) : (s.setCore c v).queues = s.queues := rfl
@[simp] theorem State.setCore_mem (s : State) (c : Nat) (v : Core) : (s.setCore c v).mem = s.mem := rfl
@[simp] theorem State.setCore_pages (s : State) (c : Nat) (v : Core) : (s.setCore c v).pages = s.pages := rfl
@[simp] theorem State.setCore_pools (s : State) (c : Nat) (v : Core) : (s.setCore c v).pools = s.pools := rfl
@[simp] theorem State.setCore_plat (s : State) (c : Nat) (v : Core) : (s.setCore c v).plat = s.plat := rfl

/-! ### `setDie` -/

@[simp] theorem State.setDie_cc (s : State) (d : Nat) (v : Die) : (s.setDie d v).cc = s.cc := rfl
@[simp] theorem State.setDie_freeCtr (s : State) (d : Nat) (v : Die) : (s.setDie d v).freeCtr = s.freeCtr := rfl
@[simp] theorem State.setDie_agenda (s : State) (d : Nat) (v : Die) : (s.setDie d v).agenda = s.agenda := rfl
@[simp] theorem State.setDie_cur (s : State) (d : Nat) (v : Die) : (s.setDie d v).cur = s.cur := rfl
@[simp] theorem State.setDie_curStream (s : State) (d : Nat) (v : Die) : (s.setDie d v).curStream = s.curStream := rfl
@[simp] theorem State.setDie_ev (s : State) (d : Nat) (v : Die) : (s.setDie d v).ev = s.ev := rfl
@[simp] theorem State.setDie_nextTid (s : State) (d : Nat) (v : Die) : (s.setDie d v).nextTid = s.nextTid := rfl
@[simp] theorem State.setDie_nextBid (s : State) (d : Nat) (v : Die) : (s.setDie d v).nextBid = s.nextBid := rfl
@[simp] theorem State.setDie_nextGid (s : State) (d : Nat) (v : Die) : (s.setDie d v).nextGid = s.nextGid := rfl
@[simp] theorem State.setDie_teams (s : State) (d : Nat) (v : Die) : (s.setDie d v).teams = s.teams := rfl
@[simp] theorem State.setDie_blocks (s : State) (d : Nat) (v : Die) : (s.setDie d v).blocks = s.blocks := rfl
@[simp] theorem State.setDie_grids (s : State) (d : Nat) (v : Die) : (s.setDie d v).grids = s.grids := rfl
@[simp] theorem State.setDie_barriers (s : State) (d : Nat) (v : Die) : (s.setDie d v).barriers = s.barriers := rfl
@[simp] theorem State.setDie_parts (s : State) (d : Nat) (v : Die) : (s.setDie d v).parts = s.parts := rfl
@[simp] theorem State.setDie_cores (s : State) (d : Nat) (v : Die) : (s.setDie d v).cores = s.cores := rfl
@[simp] theorem State.setDie_dies (s : State) (d : Nat) (v : Die) : (s.setDie d v).dies = kPut d v s.dies := rfl
@[simp] theorem State.setDie_queues (s : State) (d : Nat) (v : Die) : (s.setDie d v).queues = s.queues := rfl
@[simp] theorem State.setDie_mem (s : State) (d : Nat) (v : Die) : (s.setDie d v).mem = s.mem := rfl
@[simp] theorem State.setDie_pages (s : State) (d : Nat) (v : Die) : (s.setDie d v).pages = s.pages := rfl
@[simp] theorem State.setDie_pools (s : State) (d : Nat) (v : Die) : (s.setDie d v).pools = s.pools := rfl
@[simp] theorem State.setDie_plat (s : State) (d : Nat) (v : Die) : (s.setDie d v).plat = s.plat := rfl

/-! ### `setQueue` -/

@[simp] theorem State.setQueue_cc (s : State) (q : Nat) (v : Queue) : (s.setQueue q v).cc = s.cc := rfl
@[simp] theorem State.setQueue_freeCtr (s : State) (q : Nat) (v : Queue) : (s.setQueue q v).freeCtr = s.freeCtr := rfl
@[simp] theorem State.setQueue_agenda (s : State) (q : Nat) (v : Queue) : (s.setQueue q v).agenda = s.agenda := rfl
@[simp] theorem State.setQueue_cur (s : State) (q : Nat) (v : Queue) : (s.setQueue q v).cur = s.cur := rfl
@[simp] theorem State.setQueue_curStream (s : State) (q : Nat) (v : Queue) : (s.setQueue q v).curStream = s.curStream := rfl
@[simp] theorem State.setQueue_ev (s : State) (q : Nat) (v : Queue) : (s.setQueue q v).ev = s.ev := rfl
@[simp] theorem State.setQueue_nextTid (s : State) (q : Nat) (v : Queue) : (s.setQueue q v).nextTid = s.nextTid := rfl
@[simp] theorem State.setQueue_nextBid (s : State) (q : Nat) (v : Queue) : (s.setQueue q v).nextBid = s.nextBid := rfl
@[simp] theorem State.setQueue_nextGid (s : State) (q : Nat) (v : Queue) : (s.setQueue q v).nextGid = s.nextGid := rfl
@[simp] theorem State.setQueue_teams (s : State) (q : Nat) (v : Queue) : (s.setQueue q v).teams = s.teams := rfl
@[simp] theorem State.setQueue_blocks (s : State) (q : Nat) (v : Queue) : (s.setQueue q v).blocks = s.blocks := rfl
@[simp] theorem State.setQueue_grids (s : State) (q : Nat) (v : Queue) : (s.setQueue q v).grids = s.grids := rfl
@[simp] theorem State.setQueue_barriers (s : State) (q : Nat) (v : Queue) : (s.setQueue q v).barriers = s.barriers := rfl
@[simp] theorem State.setQueue_parts (s : State) (q : Nat) (v : Queue) : (s.setQueue q v).parts = s.parts := rfl
@[simp] theorem State.setQueue_cores (s : State) (q : Nat) (v : Queue) : (s.setQueue q v).cores = s.cores := rfl
@[simp] theorem State.setQueue_dies (s : State) (q : Nat) (v : Queue) : (s.setQueue q v).dies = s.dies := rfl
@[simp] theorem State.setQueue_queues (s : State) (q : Nat) (v : Queue) : (s.setQueue q v).queues = kPut q v s.queues := rfl
@[simp] theorem State.setQueue_mem (s : State) (q : Nat) (v : Queue) : (s.setQueue q v).mem = s.mem := rfl
@[simp] theorem State.setQueue_pages (s : State) (q : Nat) (v : Queue) : (s.setQueue q v).pages = s.pages := rfl
@[simp] theorem State.setQueue_pools (s : State) (q : Nat) (v : Queue) : (s.setQueue q v).pools = s.pools := rfl
@[simp] theorem State.setQueue_plat (s : State) (q : Nat) (v : Queue) : (s.setQueue q v).plat = s.plat := rfl

/-! ### `setBarrier` -/

@[simp] theorem State.setBarrier_cc (s : State) (k : Nat) (v : Barrier) : (s.setBarrier k v).cc = s.cc := rfl
@[simp] theorem State.setBarrier_freeCtr (s : State) (k : Nat) (v : Barrier) : (s.setBarrier k v).freeCtr = s.freeCtr := rfl
@[simp] theorem State.setBarrier_agenda (s : State) (k : Nat) (v : Barrier) : (s.setBarrier k v).agenda = s.agenda := rfl
@[simp] theorem State.setBarrier_cur (s : State) (k : Nat) (v : Barrier) : (s.setBarrier k v).cur = s.cur := rfl
@[simp] theorem State.setBarrier_curStream (s : State) (k : Nat) (v : Barrier) : (s.setBarrier k v).curStream = s.curStream := rfl
@[simp] theorem State.setBarrier_ev (s : State) (k : Nat) (v : Barrier) : (s.setBarrier k v).ev = s.ev := rfl
@[simp] theorem State.setBarrier_nextTid (s : State) (k : Nat) (v : Barrier) : (s.setBarrier k v).nextTid = s.nextTid := rfl
@[simp] theorem State.setBarrier_nextBid (s : State) (k : Nat) (v : Barrier) : (s.setBarrier k v).nextBid = s.nextBid := rfl
@[simp] theorem State.setBarrier_nextGid (s : State) (k : Nat) (v : Barrier) : (s.setBarrier k v).nextGid = s.nextGid := rfl
@[simp] theorem State.setBarrier_teams (s : State) (k : Nat) (v : Barrier) : (s.setBarrier k v).teams = s.teams := rfl
@[simp] theorem State.setBarrier_blocks (s : State) (k : Nat) (v : Barrier) : (s.setBarrier k v).blocks = s.blocks := rfl
@[simp] theorem State.setBarrier_grids (s : State) (k : Nat) (v : Barrier) : (s.setBarrier k v).grids = s.grids := rfl
@[simp] theorem State.setBarrier_barriers (s : State) (k : Nat) (v : Barrier) : (s.setBarrier k v).barriers = kPut k v s.barriers := rfl
@[simp] theorem State.setBarrier_parts (s : State) (k : Nat) (v : Barrier) : (s.setBarrier k v).parts = s.parts := rfl
@[simp] theorem State.setBarrier_cores (s : State) (k : Nat) (v : Barrier) : (s.setBarrier k v).cores = s.cores := rfl
@[simp] theorem State.setBarrier_dies (s : State) (k : Nat) (v : Barrier) : (s.setBarrier k v).dies = s.dies := rfl
@[simp] theorem State.setBarrier_queues (s : State) (k : Nat) (v : Barrier) : (s.setBarrier k v).queues = s.queues := rfl
@[simp] theorem State.setBarrier_mem (s : State) (k : Nat) (v : Barrier) : (s.setBarrier k v).mem = s.mem := rfl
@[simp] theorem State.setBarrier_pages (s : State) (k : Nat) (v : Barrier) : (s.setBarrier k v).pages = s.pages := rfl
@[simp] theorem State.setBarrier_pools (s : State) (k : Nat) (v : Barrier) : (s.setBarrier k v).pools = s.pools := rfl
@[simp] theorem State.setBarrier_plat (s : State) (k : Nat) (v : Barrier) : (s.setBarrier k v).plat = s.plat := rfl

/-! ### `setPlat` -/

@[simp] theorem State.setPlat_cc (s : State) (p : Plat) : (s.setPlat p).cc = s.cc := rfl
@[simp] theorem State.setPlat_freeCtr (s : State) (p : Plat) : (s.setPlat p).freeCtr = s.freeCtr := rfl
@[simp] theorem State.setPlat_agenda (s : State) (p : Plat) : (s.setPlat p).agenda = s.agenda := rfl
@[simp] theorem State.setPlat_cur (s : State) (p : Plat) : (s.setPlat p).cur = s.cur := rfl
@[simp] theorem State.setPlat_curStream (s : State) (p : Plat) : (s.setPlat p).curStream = s.curStream := rfl
@[simp] theorem State.setPlat_ev (s : State) (p : Plat) : (s.setPlat p).ev = s.ev := rfl
@[simp] theorem State.setPlat_nextTid (s : State) (p : Plat) : (s.setPlat p).nextTid = s.nextTid := rfl
@[simp] theorem State.setPlat_nextBid (s : State) (p : Plat) : (s.setPlat p).nextBid = s.nextBid := rfl
@[simp] theorem State.setPlat_nextGid (s : State) (p : Plat) : (s.setPlat p).nextGid = s.nextGid := rfl
@[simp] theorem State.setPlat_teams (s : State) (p : Plat) : (s.setPlat p).teams = s.teams := rfl
@[simp] theorem State.setPlat_blocks (s : State) (p : Plat) : (s.setPlat p).blocks = s.blocks := rfl
@[simp] theorem State.setPlat_grids (s : State) (p : Plat) : (s.setPlat p).grids = s.grids := rfl
@[simp] theorem State.setPlat_barriers (s : State) (p : Plat) : (s.setPlat p).barriers = s.barriers := rfl
@[simp] theorem State.setPlat_parts (s : State) (p : Plat) : (s.setPlat p).parts = s.parts := rfl
@[simp] theorem State.setPlat_cores (s : State) (p : Plat) : (s.setPlat p).cores = s.cores := rfl
@[simp] theorem State.setPlat_dies (s : State) (p : Plat) : (s.setPlat p).dies = s.dies := rfl
@[simp] theorem State.setPlat_queues (s : State) (p : Plat) : (s.setPlat p).queues = s.queues := rfl
@[simp] theorem State.setPlat_mem (s : State) (p : Plat) : (s.setPlat p).mem = s.mem := rfl
@[simp] theorem State.setPlat_pages (s : State) (p : Plat) : (s.setPlat p).pages = s.pages := rfl
@[simp] theorem State.setPlat_pools (s : State) (p : Plat) : (s.setPlat p).pools = s.pools := rfl
@[simp] theorem State.setPlat_plat (s : State) (p : Plat) : (s.setPlat p).plat = p := rfl

/-! ### Reading back -/

@[simp] theorem State.teamAt_setTeamAt_same (s : State) (k : Nat) (v : Team) : (s.setTeamAt k v).teamAt k = v := by simp [State.teamAt, State.setTeamAt, kGetD]
theorem State.teamAt_setTeamAt_other (s : State) (k j : Nat) (v : Team) (h : j ≠ k) : (s.setTeamAt k v).teamAt j = s.teamAt j := by
  simp [State.teamAt, State.setTeamAt, kGetD, kGet_kPut_other _ _ _ _ h]
@[simp] theorem State.teamAt_setBlock (s : State) (k j : Nat) (v : Block) : (s.setBlock k v).teamAt j = s.teamAt j := rfl
@[simp] theorem State.teamAt_setGrid (s : State) (k j : Nat) (v : Grid) : (s.setGrid k v).teamAt j = s.teamAt j := rfl
@[simp] theorem State.teamAt_setPart (s : State) (k j : Nat) (v : Part) : (s.setPart k v).teamAt j = s.teamAt j := rfl
@[simp] theorem State.teamAt_setCore (s : State) (k j : Nat) (v : Core) : (s.setCore k v).teamAt j = s.teamAt j := rfl
@[simp] theorem State.teamAt_setDie (s : State) (k j : Nat) (v : Die) : (s.setDie k v).teamAt j = s.teamAt j := rfl
@[simp] theorem State.teamAt_setQueue (s : State) (k j : Nat) (v : Queue) : (s.setQueue k v).teamAt j = s.teamAt j := rfl
@[simp] theorem State.teamAt_setBarrier (s : State) (k j : Nat) (v : Barrier) : (s.setBarrier k v).teamAt j = s.teamAt j := rfl
@[simp] theorem State.teamAt_setPlat (s : State) (p : Plat) (j : Nat) : (s.setPlat p).teamAt j = s.teamAt j := rfl
@[simp] theorem State.blockAt_setBlock_same (s : State) (k : Nat) (v : Block) : (s.setBlock k v).blockAt k = v := by simp [State.blockAt, State.setBlock, kGetD]
theorem State.blockAt_setBlock_other (s : State) (k j : Nat) (v : Block) (h : j ≠ k) : (s.setBlock k v).blockAt j = s.blockAt j := by
  simp [State.blockAt, State.setBlock, kGetD, kGet_kPut_other _ _ _ _ h]
@[simp] theorem State.blockAt_setTeamAt (s : State) (k j : Nat) (v : Team) : (s.setTeamAt k v).blockAt j = s.blockAt j := rfl
@[simp] theorem State.blockAt_setGrid (s : State) (k j : Nat) (v : Grid) : (s.setGrid k v).blockAt j = s.blockAt j := rfl
@[simp] theorem State.blockAt_setPart (s : State) (k j : Nat) (v : Part) : (s.setPart k v).blockAt j = s.blockAt j := rfl
@[simp] theorem State.blockAt_setCore (s : State) (k j : Nat) (v : Core) : (s.setCore k v).blockAt j = s.blockAt j := rfl
@[simp] theorem State.blockAt_setDie (s : State) (k j : Nat) (v : Die) : (s.setDie k v).blockAt j = s.blockAt j := rfl
@[simp] theorem State.blockAt_setQueue (s : State) (k j : Nat) (v : Queue) : (s.setQueue k v).blockAt j = s.blockAt j := rfl
@[simp] theorem State.blockAt_setBarrier (s : State) (k j : Nat) (v : Barrier) : (s.setBarrier k v).blockAt j = s.blockAt j := rfl
@[simp] theorem State.blockAt_setPlat (s : State) (p : Plat) (j : Nat) : (s.setPlat p).blockAt j = s.blockAt j := rfl
@[simp] theorem State.gridAt_setGrid_same (s : State) (k : Nat) (v : Grid) : (s.setGrid k v).gridAt k = v := by simp [State.gridAt, State.setGrid, kGetD]
theorem State.gridAt_setGrid_other (s : State) (k j : Nat) (v : Grid) (h : j ≠ k) : (s.setGrid k v).gridAt j = s.gridAt j := by
  simp [State.gridAt, State.setGrid, kGetD, kGet_kPut_other _ _ _ _ h]
@[simp] theorem State.gridAt_setTeamAt (s : State) (k j : Nat) (v : Team) : (s.setTeamAt k v).gridAt j = s.gridAt j := rfl
@[simp] theorem State.gridAt_setBlock (s : State) (k j : Nat) (v : Block) : (s.setBlock k v).gridAt j = s.gridAt j := rfl
@[simp] theorem State.gridAt_setPart (s : State) (k j : Nat) (v : Part) : (s.setPart k v).gridAt j = s.gridAt j := rfl
@[simp] theorem State.gridAt_setCore (s : State) (k j : Nat) (v : Core) : (s.setCore k v).gridAt j = s.gridAt j := rfl
@[simp] theorem State.gridAt_setDie (s : State) (k j : Nat) (v : Die) : (s.setDie k v).gridAt j = s.gridAt j := rfl
@[simp] theorem State.gridAt_setQueue (s : State) (k j : Nat) (v : Queue) : (s.setQueue k v).gridAt j = s.gridAt j := rfl
@[simp] theorem State.gridAt_setBarrier (s : State) (k j : Nat) (v : Barrier) : (s.setBarrier k v).gridAt j = s.gridAt j := rfl
@[simp] theorem State.gridAt_setPlat (s : State) (p : Plat) (j : Nat) : (s.setPlat p).gridAt j = s.gridAt j := rfl
@[simp] theorem State.partAt_setPart_same (s : State) (k : Nat) (v : Part) : (s.setPart k v).partAt k = v := by simp [State.partAt, State.setPart, kGetD]
theorem State.partAt_setPart_other (s : State) (k j : Nat) (v : Part) (h : j ≠ k) : (s.setPart k v).partAt j = s.partAt j := by
  simp [State.partAt, State.setPart, kGetD, kGet_kPut_other _ _ _ _ h]
@[simp] theorem State.partAt_setTeamAt (s : State) (k j : Nat) (v : Team) : (s.setTeamAt k v).partAt j = s.partAt j := rfl
@[simp] theorem State.partAt_setBlock (s : State) (k j : Nat) (v : Block) : (s.setBlock k v).partAt j = s.partAt j := rfl
@[simp] theorem State.partAt_setGrid (s : State) (k j : Nat) (v : Grid) : (s.setGrid k v).partAt j = s.partAt j := rfl
@[simp] theorem State.partAt_setCore (s : State) (k j : Nat) (v : Core) : (s.setCore k v).partAt j = s.partAt j := rfl
@[simp] theorem State.partAt_setDie (s : State) (k j : Nat) (v : Die) : (s.setDie k v).partAt j = s.partAt j := rfl
@[simp] theorem State.partAt_setQueue (s : State) (k j : Nat) (v : Queue) : (s.setQueue k v).partAt j = s.partAt j := rfl
@[simp] theorem State.partAt_setBarrier (s : State) (k j : Nat) (v : Barrier) : (s.setBarrier k v).partAt j = s.partAt j := rfl
@[simp] theorem State.partAt_setPlat (s : State) (p : Plat) (j : Nat) : (s.setPlat p).partAt j = s.partAt j := rfl
@[simp] theorem State.coreAt_setCore_same (s : State) (k : Nat) (v : Core) : (s.setCore k v).coreAt k = v := by simp [State.coreAt, State.setCore, kGetD]
theorem State.coreAt_setCore_other (s : State) (k j : Nat) (v : Core) (h : j ≠ k) : (s.setCore k v).coreAt j = s.coreAt j := by
  simp [State.coreAt, State.setCore, kGetD, kGet_kPut_other _ _ _ _ h]
@[simp] theorem State.coreAt_setTeamAt (s : State) (k j : Nat) (v : Team) : (s.setTeamAt k v).coreAt j = s.coreAt j := rfl
@[simp] theorem State.coreAt_setBlock (s : State) (k j : Nat) (v : Block) : (s.setBlock k v).coreAt j = s.coreAt j := rfl
@[simp] theorem State.coreAt_setGrid (s : State) (k j : Nat) (v : Grid) : (s.setGrid k v).coreAt j = s.coreAt j := rfl
@[simp] theorem State.coreAt_setPart (s : State) (k j : Nat) (v : Part) : (s.setPart k v).coreAt j = s.coreAt j := rfl
@[simp] theorem State.coreAt_setDie (s : State) (k j : Nat) (v : Die) : (s.setDie k v).coreAt j = s.coreAt j := rfl
@[simp] theorem State.coreAt_setQueue (s : State) (k j : Nat) (v : Queue) : (s.setQueue k v).coreAt j = s.coreAt j := rfl
@[simp] theorem State.coreAt_setBarrier (s : State) (k j : Nat) (v : Barrier) : (s.setBarrier k v).coreAt j = s.coreAt j := rfl
@[simp] theorem State.coreAt_setPlat (s : State) (p : Plat) (j : Nat) : (s.setPlat p).coreAt j = s.coreAt j := rfl
@[simp] theorem State.dieAt_setDie_same (s : State) (k : Nat) (v : Die) : (s.setDie k v).dieAt k = v := by simp [State.dieAt, State.setDie, kGetD]
theorem State.dieAt_setDie_other (s : State) (k j : Nat) (v : Die) (h : j ≠ k) : (s.setDie k v).dieAt j = s.dieAt j := by
  simp [State.dieAt, State.setDie, kGetD, kGet_kPut_other _ _ _ _ h]
@[simp] theorem State.dieAt_setTeamAt (s : State) (k j : Nat) (v : Team) : (s.setTeamAt k v).dieAt j = s.dieAt j := rfl
@[simp] theorem State.dieAt_setBlock (s : State) (k j : Nat) (v : Block) : (s.setBlock k v).dieAt j = s.dieAt j := rfl
@[simp] theorem State.dieAt_setGrid (s : State) (k j : Nat) (v : Grid) : (s.setGrid k v).dieAt j = s.dieAt j := rfl
@[simp] theorem State.dieAt_setPart (s : State) (k j : Nat) (v : Part) : (s.setPart k v).dieAt j = s.dieAt j := rfl
@[simp] theorem State.dieAt_setCore (s : State) (k j : Nat) (v : Core) : (s.setCore k v).dieAt j = s.dieAt j := rfl
@[simp] theorem State.dieAt_setQueue (s : State) (k j : Nat) (v : Queue) : (s.setQueue k v).dieAt j = s.dieAt j := rfl
@[simp] theorem State.dieAt_setBarrier (s : State) (k j : Nat) (v : Barrier) : (s.setBarrier k v).dieAt j = s.dieAt j := rfl
@[simp] theorem State.dieAt_setPlat (s : State) (p : Plat) (j : Nat) : (s.setPlat p).dieAt j = s.dieAt j := rfl
@[simp] theorem State.queueAt_setQueue_same (s : State) (k : Nat) (v : Queue) : (s.setQueue k v).queueAt k = v := by simp [State.queueAt, State.setQueue, kGetD]
theorem State.queueAt_setQueue_other (s : State) (k j : Nat) (v : Queue) (h : j ≠ k) : (s.setQueue k v).queueAt j = s.queueAt j := by
  simp [State.queueAt, State.setQueue, kGetD, kGet_kPut_other _ _ _ _ h]
@[simp] theorem State.queueAt_setTeamAt (s : State) (k j : Nat) (v : Team) : (s.setTeamAt k v).queueAt j = s.queueAt j := rfl
@[simp] theorem State.queueAt_setBlock (s : State) (k j : Nat) (v : Block) : (s.setBlock k v).queueAt j = s.queueAt j := rfl
@[simp] theorem State.queueAt_setGrid (s : State) (k j : Nat) (v : Grid) : (s.setGrid k v).queueAt j = s.queueAt j := rfl
@[simp] theorem State.queueAt_setPart (s : State) (k j : Nat) (v : Part) : (s.setPart k v).queueAt j = s.queueAt j := rfl
@[simp] theorem State.queueAt_setCore (s : State) (k j : Nat) (v : Core) : (s.setCore k v).queueAt j = s.queueAt j := rfl
@[simp] theorem State.queueAt_setDie (s : State) (k j : Nat) (v : Die) : (s.setDie k v).queueAt j = s.queueAt j := rfl
@[simp] theorem State.queueAt_setBarrier (s : State) (k j : Nat) (v : Barrier) : (s.setBarrier k v).queueAt j = s.queueAt j := rfl
@[simp] theorem State.queueAt_setPlat (s : State) (p : Plat) (j : Nat) : (s.setPlat p).queueAt j = s.queueAt j := rfl
@[simp] theorem State.barrierAt_setBarrier_same (s : State) (k : Nat) (v : Barrier) : (s.setBarrier k v).barrierAt k = v := by simp [State.barrierAt, State.setBarrier, kGetD]
theorem State.barrierAt_setBarrier_other (s : State) (k j : Nat) (v : Barrier) (h : j ≠ k) : (s.setBarrier k v).barrierAt j = s.barrierAt j := by
  simp [State.barrierAt, State.setBarrier, kGetD, kGet_kPut_other _ _ _ _ h]
@[simp] theorem State.barrierAt_setTeamAt (s : State) (k j : Nat) (v : Team) : (s.setTeamAt k v).barrierAt j = s.barrierAt j := rfl
@[simp] theorem State.barrierAt_setBlock (s : State) (k j : Nat) (v : Block) : (s.setBlock k v).barrierAt j = s.barrierAt j := rfl
@[simp] theorem State.barrierAt_setGrid (s : State) (k j : Nat) (v : Grid) : (s.setGrid k v).barrierAt j = s.barrierAt j := rfl
@[simp] theorem State.barrierAt_setPart (s : State) (k j : Nat) (v : Part) : (s.setPart k v).barrierAt j = s.barrierAt j := rfl
@[simp] theorem State.barrierAt_setCore (s : State) (k j : Nat) (v : Core) : (s.setCore k v).barrierAt j = s.barrierAt j := rfl
@[simp] theorem State.barrierAt_setDie (s : State) (k j : Nat) (v : Die) : (s.setDie k v).barrierAt j = s.barrierAt j := rfl
@[simp] theorem State.barrierAt_setQueue (s : State) (k j : Nat) (v : Queue) : (s.setQueue k v).barrierAt j = s.barrierAt j := rfl
@[simp] theorem State.barrierAt_setPlat (s : State) (p : Plat) (j : Nat) : (s.setPlat p).barrierAt j = s.barrierAt j := rfl

@[simp] theorem State.setTeam_eq (s : State) (v : Team) : s.setTeam v = s.setTeamAt s.cur v := rfl
@[simp] theorem State.team_setTeamAt_cur (s : State) (v : Team) : (s.setTeamAt s.cur v).team = v := by simp [State.team]

end Sys2Proof.Machine
end

