-- ==== Sys2Proof/Laws/Issue.lean ====
section
/-! SUPPORT. Registers read back, and one lemma for each way an instruction ends: what issue, finish, finishHold and transfer do. -/

namespace Sys2Proof.Machine

open Sys2Proof.Safety

/-! ### Issue -/

/-- An instruction that reaches its effect is its body. -/
theorem issue_reaches {i : Instr} {s : State} {f : Form} {x : Fields} (body : Team → Form → Fields → Out)
    (he : encOf i = some (f, x)) (h : reaches s i = true) : issue i s body = body s.team f x := by
  simp only [reaches, he, Bool.and_eq_true, Option.isNone_iff_eq_none, Bool.or_eq_true, Bool.not_eq_true',
    bne_iff_ne] at h
  obtain ⟨⟨⟨h1, h2⟩, h3⟩, h4⟩ := h
  have h5 : (decide (f.guard = .uniform) && !uniformHolds s.team (modOf f.cls x)) = false := by
    rcases h3 with h3 | h3 <;> simp [h3]
  simp [issue, he, h1, h2, h5, h4]

/-! ### The team after a write of the acting team -/

theorem OnlyTeam_setTeam (s : State) (u : Team) : OnlyTeam s (s.setTeam u) :=
  ⟨by rw [State.setTeam_eq, State.team_setTeamAt_cur]; rfl, fun _ => rfl⟩

/-! ### Going on -/

theorem Team.takeLeft_closeClause_clause (t : Team) (n : Nat) :
    (t.takeLeft n).closeClause.clause = t.clause.bind (fun c => if c.left ≤ n then none else some { c with left := c.left - n }) := by
  cases hc : t.clause with
  | none => simp [Team.takeLeft, Team.closeClause, hc]
  | some c =>
    simp only [Team.takeLeft, Team.closeClause, hc, Option.map_some, Option.bind_some]
    by_cases h : c.left ≤ n
    · simp [h]
    · have : c.left - n ≠ 0 := by omega
      simp [h, this]

/-- Closing a clause touches nothing but the clause and the yield hint. -/
theorem Team.takeLeft_closeClause_rest (t : Team) (n : Nat) :
    ∃ c y, (t.takeLeft n).closeClause = { t with clause := c, sched := { t.sched with yld := y } } := by
  cases hc : t.clause with
  | none => exact ⟨none, t.sched.yld, by simp [Team.takeLeft, Team.closeClause, hc]⟩
  | some c =>
    by_cases h : c.left - n = 0
    · exact ⟨none, c.yld, by simp [Team.takeLeft, Team.closeClause, hc, h]⟩
    · exact ⟨some { c with left := c.left - n }, t.sched.yld, by simp [Team.takeLeft, Team.closeClause, hc, h]⟩

/-- Advancing touches the place and the yield hint alone. -/
theorem Team.advance_rest (t : Team) (len : Nat) :
    ∃ p c r q y, t.advance len = { t with pc := p, clause := c, rep := r, inRep := q, sched := { t.sched with yld := y } } := by
  unfold Team.advance
  split
  · obtain ⟨c, y, h⟩ := Team.takeLeft_closeClause_rest { t with rep := 0, inRep := none, pc := t.pc + BitVec.ofNat 64 (4 + len) } 2
    rename_i r _
    by_cases hn : (t.rep.extractLsb' 0 6).toNat < r.cnt.toNat
    · exact ⟨t.pc, t.clause, _, t.inRep, t.sched.yld, if_pos hn⟩
    · exact ⟨_, c, 0, none, y, (if_neg hn).trans h⟩
  · obtain ⟨c, y, h⟩ := Team.takeLeft_closeClause_rest { t with pc := t.pc + BitVec.ofNat 64 len } 1
    exact ⟨_, c, t.rep, t.inRep, y, h⟩

theorem Team.advance_none {t : Team} (len : Nat) (h : t.inRep = none) :
    t.advance len = (({ t with pc := t.pc + BitVec.ofNat 64 len } : Team).takeLeft 1).closeClause := by
  unfold Team.advance
  split
  · next e => rw [h] at e; cases e
  · rfl

theorem Team.advance_repeat {t : Team} (len : Nat) {r : RepWord} (h : t.inRep = some r)
    (hn : (t.rep.extractLsb' 0 6).toNat < r.cnt.toNat) :
    t.advance len = { t with rep := 64#7 ||| BitVec.ofNat 7 ((t.rep.extractLsb' 0 6).toNat + 1) } := by
  unfold Team.advance
  split
  · next e => rw [h] at e; cases e; exact if_pos hn
  · next e => rw [h] at e; cases e

theorem Team.advance_last {t : Team} (len : Nat) {r : RepWord} (h : t.inRep = some r)
    (hn : ¬(t.rep.extractLsb' 0 6).toNat < r.cnt.toNat) :
    t.advance len =
      (({ t with rep := 0, inRep := none, pc := t.pc + BitVec.ofNat 64 (4 + len) } : Team).takeLeft 2).closeClause := by
  unfold Team.advance
  split
  · next e => rw [h] at e; cases e; exact if_neg hn
  · next e => rw [h] at e; cases e

/-- Where the team stands after an advance. -/
theorem Team.advance_wentOn (t : Team) (len : Nat) : wentOn t (t.advance len) len := by
  unfold wentOn
  split
  · next hr =>
    obtain ⟨c, y, h⟩ := Team.takeLeft_closeClause_rest { t with pc := t.pc + BitVec.ofNat 64 len } 1
    have hc := Team.takeLeft_closeClause_clause { t with pc := t.pc + BitVec.ofNat 64 len } 1
    rw [Team.advance_none len hr]
    exact ⟨by rw [h], by rw [h], by rw [h]; exact hr, hc⟩
  · next r hr =>
    have hlt : ∀ v : BitVec 6, v.toNat < r.cnt.toNat → (64#7 ||| BitVec.ofNat 7 (v.toNat + 1)) = BitVec.ofNat 7 (64 + (v.toNat + 1)) := by
      intro v hv
      have h1 : v.toNat + 1 < 64 := by have := r.cnt.isLt; omega
      generalize v.toNat + 1 = n at h1
      revert n
      decide
    by_cases hn : (t.rep.extractLsb' 0 6).toNat < r.cnt.toNat
    · rw [Team.advance_repeat len hr hn]
      exact (if_pos hn).mpr ⟨rfl, hlt _ hn, hr, rfl⟩
    · obtain ⟨c, y, h⟩ := Team.takeLeft_closeClause_rest { t with rep := 0, inRep := none, pc := t.pc + BitVec.ofNat 64 (4 + len) } 2
      have hc := Team.takeLeft_closeClause_clause { t with rep := 0, inRep := none, pc := t.pc + BitVec.ofNat 64 (4 + len) } 2
      rw [Team.advance_last len hr hn]
      exact (if_neg hn).mpr ⟨by rw [h], by rw [h], by rw [h], hc⟩

theorem wentOn_congr {a a' b : Team} {len : Nat} (h : wentOn a' b len) (hp : a'.pc = a.pc) (hr : a'.rep = a.rep) (hi : a'.inRep = a.inRep)
    (hc : a'.clause = a.clause) : wentOn a b len := by
  unfold wentOn at *
  rw [hp, hr, hi, hc] at h
  exact h

/-- An instruction that ends in `finish` with team `u`: only the team changes; it goes on; but for its place it is `u`. -/
theorem finish_spec (s : State) (u : Team) (x : Fields) (hp : u.pc = s.team.pc) (hr : u.rep = s.team.rep) (hi : u.inRep = s.team.inRep)
    (hc : u.clause = s.team.clause) :
    ∃ t, finish s u x = .next t ∧ OnlyTeam s t ∧ wentOn s.team t.team (lenOf x) ∧
      ∃ p c r q k d y z, t.team = { u with pc := p, clause := c, rep := r, inRep := q, latch := k, sched := d, xlat := y, walkFault := z } := by
  refine ⟨_, rfl, OnlyTeam_setTeam _ _, ?_, ?_⟩
  · rw [State.setTeam_eq, State.team_setTeamAt_cur]
    exact wentOn_congr (Team.advance_wentOn _ _) hp hr hi hc
  · rw [State.setTeam_eq, State.team_setTeamAt_cur]
    obtain ⟨p, c, r, q, y, h⟩ := Team.advance_rest (u.issued s.cc) (lenOf x)
    exact ⟨p, c, r, q, _, _, _, _, h⟩

/-- The same for `finishHold`. -/
theorem finishHold_spec (s : State) (u : Team) (x : Fields) (row : Option (KMap Word)) (hp : u.pc = s.team.pc) (hr : u.rep = s.team.rep)
    (hi : u.inRep = s.team.inRep) (hc : u.clause = s.team.clause) :
    ∃ t, finishHold s u x row = .next t ∧ OnlyTeam s t ∧ wentOn s.team t.team (lenOf x) ∧
      t.team.latch = (match row with
        | some r => u.latch.tick.write r
        | none => u.latch.tick) ∧
      ∃ p c r q k d y z, t.team = { u with pc := p, clause := c, rep := r, inRep := q, latch := k, sched := d, xlat := y, walkFault := z } := by
  refine ⟨_, rfl, OnlyTeam_setTeam _ _, ?_, ?_, ?_⟩ <;> rw [State.setTeam_eq, State.team_setTeamAt_cur]
  · cases row <;> exact wentOn_congr (Team.advance_wentOn _ _) hp hr hi hc
  · obtain ⟨p, c, r, q, y, h⟩ := Team.advance_rest (match row with
      | some r => (u.issued s.cc).holdRow r
      | none => u.issued s.cc) (lenOf x)
    cases row <;> simp only at h ⊢ <;> rw [h] <;> rfl
  · obtain ⟨p, c, r, q, y, h⟩ := Team.advance_rest (match row with
      | some r => (u.issued s.cc).holdRow r
      | none => u.issued s.cc) (lenOf x)
    cases row <;> exact ⟨p, c, r, q, _, _, _, _, h⟩

/-- An instruction that transfers control changes the team alone, which stands before the header at the target. -/
theorem transfer_spec (s : State) (u : Team) (target : DWord) :
    ∃ t, transfer s u target = .next t ∧ OnlyTeam s t ∧ t.team = (u.issued s.cc).jump target :=
  ⟨_, rfl, OnlyTeam_setTeam _ _, by rw [State.setTeam_eq, State.team_setTeamAt_cur]⟩

/-! ### Registers -/

theorem Team.sreg_setSreg (t : Team) (k n : Nat) (v : Word) : (t.setSreg k v).sreg n = if n = k then v else t.sreg n := by
  unfold Team.sreg Team.setSreg
  by_cases h : n = k
  · subst h; simp [kGetD_kSet_same]
  · simp [kGetD_kSet_other _ _ _ _ _ h, h]

theorem Team.sreg_setSdst (t : Team) (k n : Nat) (v : Word) (hn : n < 64) :
    (t.setSdst k v).sreg n = if k = n then v else t.sreg n := by
  unfold Team.setSdst
  by_cases hk : k < 64
  · simp only [hk, if_true, Team.sreg_setSreg, eq_comm]
  · have : k ≠ n := by omega
    simp [hk, this]

theorem Team.pred_setPred (t : Team) (k p : Nat) (set v : LaneSet) (l : Nat) (hl : l < 1024) :
    ((t.setPred k set v).pred p).getLsbD l =
      if p = k ∧ p ≠ 31 ∧ set.getLsbD l = true then v.getLsbD l else (t.pred p).getLsbD l := by
  unfold Team.setPred
  by_cases hk : k = 31
  · subst hk
    by_cases hp : p = 31 <;> simp [hp]
  · simp only [hk, if_false]
    by_cases hp : p = 31
    · simp [hp, Team.pred]
    · by_cases hpk : p = k
      · subst hpk
        have : ({ t with preds := kSet 0 p ((t.pred p &&& ~~~set) ||| (v &&& set)) t.preds } : Team).pred p =
            (t.pred p &&& ~~~set) ||| (v &&& set) := by
          simp only [Team.pred, hp, if_false, kGetD_kSet_same]
        rw [this]
        rw [BitVec.getLsbD_or, BitVec.getLsbD_and, BitVec.getLsbD_and, BitVec.getLsbD_not]
        cases h : set.getLsbD l <;> simp [hk, hl]
      · have : ({ t with preds := kSet 0 k ((t.pred k &&& ~~~set) ||| (v &&& set)) t.preds } : Team).pred p = t.pred p := by
          simp only [Team.pred, hp, if_false]
          exact kGetD_kSet_other _ _ _ _ _ hpk
        rw [this]
        simp [hpk]

/-- A row built from a function of the lane: no key but its own. -/
theorem kGet_row_none (w : Nat → Word) (q k : Nat) (ls : List Nat) (h : ∀ l ∈ ls, 1024 * q + l ≠ k) :
    kGet k (ls.filterMap (fun l => let v := w l; if v = 0 then none else some (1024 * q + l, v))) = none := by
  induction ls with
  | nil => rfl
  | cons a r ih =>
    have hr := ih (fun l hl => h l (List.mem_cons_of_mem _ hl))
    have ha : k ≠ 1024 * q + a := fun e => h a List.mem_cons_self e.symm
    by_cases h0 : w a = 0
    · rw [List.filterMap_cons_none (by simp [h0])]; exact hr
    · rw [List.filterMap_cons_some (b := (1024 * q + a, w a)) (by simpa using h0)]
      simp only [kGet, ha, if_false]; exact hr

/-- A row built from a function of the lane reads as the function at its lanes. -/
theorem kGetD_row (w : Nat → Word) (q l : Nat) (ls : List Nat) (h : l ∈ ls) :
    kGetD (1024 * q + l) 0 (ls.filterMap (fun l => let v := w l; if v = 0 then none else some (1024 * q + l, v))) = w l := by
  induction ls with
  | nil => cases h
  | cons a r ih =>
    by_cases h0 : w a = 0
    · rw [List.filterMap_cons_none (by simp [h0])]
      by_cases hr : l ∈ r
      · exact ih hr
      · have ha : l = a := by
          cases h with
          | head => rfl
          | tail _ h => exact absurd h hr
        unfold kGetD
        rw [kGet_row_none w q _ r (fun b hb e => hr (by have : b = l := by omega
                                                        exact this ▸ hb)), ha, h0]
        rfl
    · rw [List.filterMap_cons_some (b := (1024 * q + a, w a)) (by simpa using h0)]
      by_cases ha : l = a
      · subst ha; simp [kGetD, kGet]
      · have hr : l ∈ r := by
          cases h with
          | head => exact absurd rfl ha
          | tail _ h => exact h
        have hk : 1024 * q + l ≠ 1024 * q + a := by omega
        have := ih hr
        unfold kGetD at this ⊢
        simp only [kGet, hk, if_false]; exact this

/-- A row of register space holds, for each lane of the team, the new value in the set and the old one elsewhere. -/
theorem kGetD_regRow (t : Team) (q : Nat) (set : LaneSet) (val : Nat → Word) (l : Nat) (hl : l < t.lanes) :
    kGetD (1024 * q + l) 0 (regRow t q set val) = if set.getLsbD l then val l else t.word q l :=
  kGetD_row (fun l => if set.getLsbD l then val l else t.word q l) q l (List.range t.lanes) (List.mem_range.mpr hl)

/-- Reading register space after a write of one row: lanes of the team, at most 32 warps. -/
theorem Team.word_setWord (t : Team) (q : Nat) (set : LaneSet) (val : Nat → Word) (p l : Nat) (hw : t.warps ≤ 32) (hl : l < t.lanes) :
    (t.setWord q set val).word p l = if p = q ∧ set.getLsbD l = true then val l else t.word p l := by
  have hlt : l < 1024 := by unfold Team.lanes at hl; omega
  have hlanes : t.lanes ≤ 1024 := by unfold Team.lanes; omega
  unfold Team.word Team.setWord
  simp only [kGetD, kGet_append]
  have h1 := kGet_filter (fun k => decide (k < 1024 * q)) t.regs (1024 * p + l)
  have h2 := kGet_filter (fun k => decide (1024 * (q + 1) ≤ k)) t.regs (1024 * p + l)
  rw [h1, h2]
  have hrow : p ≠ q → kGet (1024 * p + l) (regRow t q set val) = none := fun hpq =>
    kGet_row_none (fun l => if set.getLsbD l then val l else t.word q l) q _ (List.range t.lanes)
      (fun b hb => by have := List.mem_range.mp hb; omega)
  by_cases hpq : p = q
  · subst hpq
    have a1 : decide (1024 * p + l < 1024 * p) = false := by simp
    have a2 : decide (1024 * (p + 1) ≤ 1024 * p + l) = false := by simp; omega
    have hr := kGetD_regRow t p set val l hl
    simp only [kGetD] at hr
    have hr' : (kGet (1024 * p + l) (regRow t p set val)).getD 0 = if set.getLsbD l = true then val l else t.word p l := hr
    simp only [a1, a2, true_and]
    simpa [Team.word, kGetD] using hr'
  · rw [hrow hpq]
    by_cases hlo : p < q
    · have a1 : 1024 * p + l < 1024 * q := by omega
      have a2 : ¬ 1024 * (q + 1) ≤ 1024 * p + l := by omega
      simp [a1, a2, hpq]
    · have a1 : ¬ 1024 * p + l < 1024 * q := by omega
      have a2 : 1024 * (q + 1) ≤ 1024 * p + l := by omega
      simp [a1, a2, hpq]

theorem Team.word_setV (t : Team) (d : Nat) (set : LaneSet) (val : Nat → Word) (p l : Nat) (hw : t.warps ≤ 32) (hl : l < t.lanes) :
    (t.setV d set val).word p l = if d < 88 ∧ p = t.vWord d ∧ set.getLsbD l = true then val l else t.word p l := by
  unfold Team.setV
  by_cases hd : d < 88
  · simp [hd, Team.word_setWord _ _ _ _ _ _ hw hl]
  · simp [hd]

/-! ### Lane sets -/

theorem foldl_bits (p : Nat → Bool) (n : Nat) :
    ((List.range n).foldl (fun a l => if p l then a + 2 ^ l else a) 0) < 2 ^ n ∧
      ∀ l, ((List.range n).foldl (fun a l => if p l then a + 2 ^ l else a) 0).testBit l = (decide (l < n) && p l) := by
  induction n with
  | zero => simp
  | succ n ih =>
    obtain ⟨h1, h2⟩ := ih
    rw [List.range_succ, List.foldl_append]
    simp only [List.foldl_cons, List.foldl_nil]
    generalize (List.range n).foldl (fun a l => if p l then a + 2 ^ l else a) 0 = v at h1 h2
    by_cases hp : p n
    · simp only [hp, if_true]
      have hv : v + 2 ^ n < 2 ^ (n + 1) := by rw [pow_succ]; omega
      refine ⟨hv, fun l => ?_⟩
      rw [Nat.add_comm]
      by_cases hl : l < n
      · rw [Nat.testBit_two_pow_add_gt hl, h2]; simp [hl, Nat.lt_succ_of_lt hl]
      · by_cases he : l = n
        · subst he; rw [Nat.testBit_two_pow_add_eq, h2]; simp [hp]
        · have : n + 1 ≤ l := by omega
          rw [Nat.testBit_lt_two_pow]
          · simp; omega
          · calc 2 ^ n + v < 2 ^ (n + 1) := by omega
              _ ≤ 2 ^ l := Nat.pow_le_pow_right (by decide) this
    · have hp' : p n = false := by simpa using hp
      simp only [hp', Bool.false_eq_true, if_false]
      refine ⟨by rw [pow_succ]; omega, fun l => ?_⟩
      rw [h2]
      by_cases hl : l < n
      · simp [hl, Nat.lt_succ_of_lt hl]
      · by_cases he : l = n
        · subst he; simp [hp']
        · have : ¬ l < n + 1 := by omega
          simp [hl, this]

/-- Members of a lane set given by a test. -/
theorem getLsbD_laneSetOf (n : Nat) (p : Nat → Bool) (l : Nat) (hn : n ≤ 1024) :
    (laneSetOf n p).getLsbD l = (decide (l < n) && p l) := by
  obtain ⟨h1, h2⟩ := foldl_bits p n
  unfold laneSetOf
  rw [BitVec.getLsbD_ofNat, h2]
  by_cases hl : l < n
  · simp [hl, Nat.lt_of_lt_of_le hl hn]
  · simp [hl]

/-- Every lane of the team is in the full mask. -/
theorem getLsbD_fullMask (w l : Nat) (hw : w ≤ 32) (hl : l < 32 * w) : (fullMask w).getLsbD l = true := by
  unfold fullMask
  rw [BitVec.getLsbD_ofNat, Nat.testBit_two_pow_sub_one]
  simp [hl]; omega

end Sys2Proof.Machine
end

