-- ==== Sys2Proof/Laws/Memory.lean ====
section
/-! SUPPORT. Device memory: what a read gives after a write, and that every operation on memory keeps its one canonical form. -/

namespace Sys2Proof.Machine

/-- A read of n bytes, byte by byte. -/
theorem memRead_eq (s : State) (pa n : Nat) : memRead s pa n = (List.range n).map (fun i => bGet s.mem (pa + i)) := by
  unfold memRead
  rw [bRead_eq]
  apply List.map_congr_left
  intro i hi
  have hlt : i < n := List.mem_range.mp hi
  have h := kGet_filter (fun k => decide (pa ≤ k) && decide (k < pa + n)) s.mem (pa + i)
  unfold bGet kGetD
  rw [h]
  simp [hlt]

/-- Every byte after a write. -/
theorem bGet_memWrite (s : State) (pa : Nat) (bs : List Byte) (a : Nat) :
    bGet (memWrite s pa bs).mem a = if pa ≤ a ∧ a < pa + bs.length then bs.getD (a - pa) 0 else bGet s.mem a :=
  bGet_bWrite s.mem pa bs a

/-- A write is read back. -/
theorem memRead_memWrite_same (s : State) (pa : Nat) (bs : List Byte) : memRead (memWrite s pa bs) pa bs.length = bs := by
  rw [memRead_eq, ← bRead_eq]
  exact bRead_bWrite_same s.mem pa bs

/-- A write leaves the bytes outside it alone. -/
theorem memRead_memWrite_other (s : State) (pa : Nat) (bs : List Byte) (qa n : Nat) (h : qa + n ≤ pa ∨ pa + bs.length ≤ qa) :
    memRead (memWrite s pa bs) qa n = memRead s qa n := by
  rw [memRead_eq, memRead_eq]
  apply List.map_congr_left
  intro i hi
  have hlt : i < n := List.mem_range.mp hi
  rw [bGet_memWrite, if_neg (by omega)]

/-- A write keeps the canonical form. -/
theorem memWrite_wf (s : State) (pa : Nat) (bs : List Byte) (h : Memory.wf s.mem = true) : Memory.wf (memWrite s pa bs).mem = true :=
  kCanon_bWrite s.mem pa bs h

/-- A value put where a line is kept keeps the canonical form. -/
theorem homePut_wf (s : State) (h line : Nat) (v : Line) (hw : Memory.wf s.mem = true) : Memory.wf (homePut s h line v).mem = true := by
  unfold homePut
  split
  · exact hw
  · exact memWrite_wf _ _ _ hw

/-- Changing a die leaves memory alone. -/
theorem State.modDie_mem (s : State) (d : Nat) (g : Die → Die) : (s.modDie d g).mem = s.mem := rfl

/-- Changing one die after another leaves memory alone. -/
theorem mem_foldDies (g : Nat → Die → Die) (l : List Nat) (s : State) : (l.foldl (fun s k => s.modDie k (g k)) s).mem = s.mem := by
  induction l generalizing s with
  | nil => rfl
  | cons a l ih => exact (ih _).trans rfl

/-- Recalling every copy of a line keeps the canonical form. -/
theorem recallLine_wf (s : State) (h line : Nat) (hw : Memory.wf s.mem = true) : Memory.wf (recallLine s h line).mem = true := by
  have hf : Memory.wf ((List.range Config.dies).foldl
      (fun s k => s.modDie k (fun x => { x with l2 := kDel line x.l2, wbuf := kDel line x.wbuf })) s).mem = true := by
    rw [mem_foldDies (fun _ x => { x with l2 := kDel line x.l2, wbuf := kDel line x.wbuf })]; exact hw
  unfold recallLine
  simp only [setDir, State.modDie_mem]
  split
  · exact homePut_wf _ _ _ _ hf
  · exact hf

/-- A line that leaves the memory-side cache keeps the canonical form. -/
theorem evictMsc_wf (s : State) (h line : Nat) (hw : Memory.wf s.mem = true) : Memory.wf (evictMsc s h line).mem = true := by
  have hr := recallLine_wf s h line hw
  unfold evictMsc
  simp only
  split
  · exact hr
  · simp only [State.modDie_mem]
    split
    · exact memWrite_wf _ _ _ hr
    · exact hr

/-- Room made in the memory-side cache keeps the canonical form. -/
theorem mscRoom_wf (s : State) (h line : Nat) (hw : Memory.wf s.mem = true) : Memory.wf (mscRoom s h line).mem = true := by
  unfold mscRoom
  simp only
  repeat' split
  all_goals first | exact hw | exact evictMsc_wf _ _ _ hw

/-- A write at a line's home keeps the canonical form, whether the cache or the device takes it. -/
theorem homeWrite_wf (s : State) (h line : Nat) (v : Line) (hw : Memory.wf s.mem = true) : Memory.wf (homeWrite s h line v).mem = true := by
  unfold homeWrite
  split
  · exact mscRoom_wf _ _ _ hw
  · exact memWrite_wf _ _ _ hw

/-- Zeroing a frame keeps the canonical form. -/
theorem zeroFrame_wf (s : State) (f n : Nat) (h : Memory.wf s.mem = true) : Memory.wf (zeroFrame s f n).mem = true :=
  kCanon_filter 0 _ _ h

/-- A zeroed frame reads as zero, and every other byte as before. -/
theorem bGet_zeroFrame (s : State) (f n a : Nat) :
    bGet (zeroFrame s f n).mem a = if f ≤ a ∧ a < f + n then 0 else bGet s.mem a := by
  have h := kGet_filter (fun k => decide (k < f) || decide (f + n ≤ k)) s.mem a
  unfold bGet kGetD
  show (kGet a (s.mem.filter _)).getD 0 = _
  rw [h]
  by_cases h1 : f ≤ a ∧ a < f + n
  · rw [if_neg (by simp; omega), if_pos h1]; rfl
  · rw [if_pos (by simp; omega), if_neg h1]

end Sys2Proof.Machine
end

