-- ==== Sys2Proof/Laws/PerInstr.lean ====
section
/-! SUPPORT. Statements that are made of each instruction by itself. OpcodeMap: the OP that the form of an instruction
gives is the OP under which its class's map lists the instruction, and it is not the OP of `rep` (03_instruction_words.md R57, R68, R77). -/

namespace Sys2Proof.Laws.OpcodeMap

/-- The form's class and OP name the instruction again. -/
def Statement (i : Instr) : Prop :=
  ∀ f x, Machine.encOf i = some (f, x) → f.op < 127 ∧ Machine.instrAt f.cls f.op x = some i

/-- An instruction with this form. -/
theorem Statement.of_eq {i : Instr} {f : Machine.Form} {x : Fields} (h : Machine.encOf i = some (f, x)) (ho : f.op < 127)
    (hi : Machine.instrAt f.cls f.op x = some i) : Statement i := by
  intro g y hg
  rw [h] at hg
  cases hg
  exact ⟨ho, hi⟩

/-- An instruction that has no form. -/
theorem Statement.of_none {i : Instr} (h : Machine.encOf i = none) : Statement i := by
  intro f x hf
  rw [h] at hf
  cases hf

theorem clauseStart (w : Word) : Statement (.clauseStart w) := .of_none rfl
theorem nop (cls : Cls) (f : Fields) : Statement (.nop cls f) := .of_eq rfl (Nat.zero_lt_succ 126) rfl
theorem rep (cls : Cls) (p : RepWord) : Statement (.rep cls p) := .of_none rfl
theorem bra (f : Fields) : Statement (.bra f) := .of_eq rfl (by decide) rfl
theorem braAny (f : Fields) : Statement (.braAny f) := .of_eq rfl (by decide) rfl
theorem braAll (f : Fields) : Statement (.braAll f) := .of_eq rfl (by decide) rfl
theorem braNone (f : Fields) : Statement (.braNone f) := .of_eq rfl (by decide) rfl
theorem brx (f : Fields) : Statement (.brx f) := .of_eq rfl (by decide) rfl
theorem call (f : Fields) : Statement (.call f) := .of_eq rfl (by decide) rfl
theorem callx (f : Fields) : Statement (.callx f) := .of_eq rfl (by decide) rfl
theorem ifP (f : Fields) : Statement (.ifP f) := .of_eq rfl (by decide) rfl
theorem breakP (f : Fields) : Statement (.breakP f) := .of_eq rfl (by decide) rfl
theorem contP (f : Fields) : Statement (.contP f) := .of_eq rfl (by decide) rfl
theorem exit (f : Fields) : Statement (.exit f) := .of_eq rfl (by decide) rfl
theorem yield (f : Fields) : Statement (.yield f) := .of_eq rfl (by decide) rfl
theorem sleep (f : Fields) : Statement (.sleep f) := .of_eq rfl (by decide) rfl
theorem fork (f : Fields) : Statement (.fork f) := .of_eq rfl (by decide) rfl
theorem rdv (f : Fields) : Statement (.rdv f) := .of_eq rfl (by decide) rfl
theorem bar (lvl : Lvl) (f : Fields) : Statement (.bar lvl f) := by
  cases lvl <;> exact .of_eq rfl (by decide) rfl
theorem bara (lvl : Lvl) (f : Fields) : Statement (.bara lvl f) := by
  cases lvl <;> exact .of_eq rfl (by decide) rfl
theorem barw (lvl : Lvl) (f : Fields) : Statement (.barw lvl f) := by
  cases lvl <;> exact .of_eq rfl (by decide) rfl
theorem bare (lvl : Lvl) (f : Fields) : Statement (.bare lvl f) := by
  cases lvl <;> exact .of_eq rfl (by decide) rfl
theorem tail (f : Fields) : Statement (.tail f) := .of_eq rfl (by decide) rfl
theorem trap (f : Fields) : Statement (.trap f) := .of_eq rfl (by decide) rfl
theorem chkw (f : Fields) : Statement (.chkw f) := .of_eq rfl (by decide) rfl
theorem smov (f : Fields) : Statement (.smov f) := .of_eq rfl (by decide) rfl
theorem sadd (f : Fields) : Statement (.sadd f) := .of_eq rfl (by decide) rfl
theorem ssub (f : Fields) : Statement (.ssub f) := .of_eq rfl (by decide) rfl
theorem smul (f : Fields) : Statement (.smul f) := .of_eq rfl (by decide) rfl
theorem smulhiI32 (f : Fields) : Statement (.smulhiI32 f) := .of_eq rfl (by decide) rfl
theorem smulhiZ32 (f : Fields) : Statement (.smulhiZ32 f) := .of_eq rfl (by decide) rfl
theorem smad (f : Fields) : Statement (.smad f) := .of_eq rfl (by decide) rfl
theorem sadd64 (f : Fields) : Statement (.sadd64 f) := .of_eq rfl (by decide) rfl
theorem ssub64 (f : Fields) : Statement (.ssub64 f) := .of_eq rfl (by decide) rfl
theorem smad64 (f : Fields) : Statement (.smad64 f) := .of_eq rfl (by decide) rfl
theorem sshl (f : Fields) : Statement (.sshl f) := .of_eq rfl (by decide) rfl
theorem sshr (f : Fields) : Statement (.sshr f) := .of_eq rfl (by decide) rfl
theorem ssra (f : Fields) : Statement (.ssra f) := .of_eq rfl (by decide) rfl
theorem sand (f : Fields) : Statement (.sand f) := .of_eq rfl (by decide) rfl
theorem sor (f : Fields) : Statement (.sor f) := .of_eq rfl (by decide) rfl
theorem sxor (f : Fields) : Statement (.sxor f) := .of_eq rfl (by decide) rfl
theorem snot (f : Fields) : Statement (.snot f) := .of_eq rfl (by decide) rfl
theorem sminI32 (f : Fields) : Statement (.sminI32 f) := .of_eq rfl (by decide) rfl
theorem sminZ32 (f : Fields) : Statement (.sminZ32 f) := .of_eq rfl (by decide) rfl
theorem smaxI32 (f : Fields) : Statement (.smaxI32 f) := .of_eq rfl (by decide) rfl
theorem smaxZ32 (f : Fields) : Statement (.smaxZ32 f) := .of_eq rfl (by decide) rfl
theorem scmpEq (f : Fields) : Statement (.scmpEq f) := .of_eq rfl (by decide) rfl
theorem scmpNe (f : Fields) : Statement (.scmpNe f) := .of_eq rfl (by decide) rfl
theorem scmpLtI32 (f : Fields) : Statement (.scmpLtI32 f) := .of_eq rfl (by decide) rfl
theorem scmpLeI32 (f : Fields) : Statement (.scmpLeI32 f) := .of_eq rfl (by decide) rfl
theorem scmpLtZ32 (f : Fields) : Statement (.scmpLtZ32 f) := .of_eq rfl (by decide) rfl
theorem scmpLeZ32 (f : Fields) : Statement (.scmpLeZ32 f) := .of_eq rfl (by decide) rfl
theorem ssel (f : Fields) : Statement (.ssel f) := .of_eq rfl (by decide) rfl
theorem sld (f : Fields) : Statement (.sld f) := .of_eq rfl (by decide) rfl
theorem srd (f : Fields) : Statement (.srd f) := .of_eq rfl (by decide) rfl
theorem rfa (f : Fields) : Statement (.rfa f) := .of_eq rfl (by decide) rfl
theorem rlane (f : Fields) : Statement (.rlane f) := .of_eq rfl (by decide) rfl
theorem spopc (f : Fields) : Statement (.spopc f) := .of_eq rfl (by decide) rfl
theorem sclz (f : Fields) : Statement (.sclz f) := .of_eq rfl (by decide) rfl
theorem sbfeZ32 (f : Fields) : Statement (.sbfeZ32 f) := .of_eq rfl (by decide) rfl
theorem sbfeI32 (f : Fields) : Statement (.sbfeI32 f) := .of_eq rfl (by decide) rfl
theorem mov (f : Fields) : Statement (.mov f) := .of_eq rfl (by decide) rfl
theorem iadd (f : Fields) : Statement (.iadd f) := .of_eq rfl (by decide) rfl
theorem isub (f : Fields) : Statement (.isub f) := .of_eq rfl (by decide) rfl
theorem imul (f : Fields) : Statement (.imul f) := .of_eq rfl (by decide) rfl
theorem imulhiI32 (f : Fields) : Statement (.imulhiI32 f) := .of_eq rfl (by decide) rfl
theorem imulhiZ32 (f : Fields) : Statement (.imulhiZ32 f) := .of_eq rfl (by decide) rfl
theorem imad (f : Fields) : Statement (.imad f) := .of_eq rfl (by decide) rfl
theorem idivI32 (f : Fields) : Statement (.idivI32 f) := .of_eq rfl (by decide) rfl
theorem idivZ32 (f : Fields) : Statement (.idivZ32 f) := .of_eq rfl (by decide) rfl
theorem iremI32 (f : Fields) : Statement (.iremI32 f) := .of_eq rfl (by decide) rfl
theorem iremZ32 (f : Fields) : Statement (.iremZ32 f) := .of_eq rfl (by decide) rfl
theorem iminI32 (f : Fields) : Statement (.iminI32 f) := .of_eq rfl (by decide) rfl
theorem iminZ32 (f : Fields) : Statement (.iminZ32 f) := .of_eq rfl (by decide) rfl
theorem imaxI32 (f : Fields) : Statement (.imaxI32 f) := .of_eq rfl (by decide) rfl
theorem imaxZ32 (f : Fields) : Statement (.imaxZ32 f) := .of_eq rfl (by decide) rfl
theorem iabs (f : Fields) : Statement (.iabs f) := .of_eq rfl (by decide) rfl
theorem shl (f : Fields) : Statement (.shl f) := .of_eq rfl (by decide) rfl
theorem shr (f : Fields) : Statement (.shr f) := .of_eq rfl (by decide) rfl
theorem sra (f : Fields) : Statement (.sra f) := .of_eq rfl (by decide) rfl
theorem and (f : Fields) : Statement (.and f) := .of_eq rfl (by decide) rfl
theorem or (f : Fields) : Statement (.or f) := .of_eq rfl (by decide) rfl
theorem xor (f : Fields) : Statement (.xor f) := .of_eq rfl (by decide) rfl
theorem not (f : Fields) : Statement (.not f) := .of_eq rfl (by decide) rfl
theorem bfeZ32 (f : Fields) : Statement (.bfeZ32 f) := .of_eq rfl (by decide) rfl
theorem bfeI32 (f : Fields) : Statement (.bfeI32 f) := .of_eq rfl (by decide) rfl
theorem bfi (f : Fields) : Statement (.bfi f) := .of_eq rfl (by decide) rfl
theorem popc (f : Fields) : Statement (.popc f) := .of_eq rfl (by decide) rfl
theorem clz (f : Fields) : Statement (.clz f) := .of_eq rfl (by decide) rfl
theorem brev (f : Fields) : Statement (.brev f) := .of_eq rfl (by decide) rfl
theorem icmpEq (f : Fields) : Statement (.icmpEq f) := .of_eq rfl (by decide) rfl
theorem icmpNe (f : Fields) : Statement (.icmpNe f) := .of_eq rfl (by decide) rfl
theorem icmpLtI32 (f : Fields) : Statement (.icmpLtI32 f) := .of_eq rfl (by decide) rfl
theorem icmpLeI32 (f : Fields) : Statement (.icmpLeI32 f) := .of_eq rfl (by decide) rfl
theorem icmpLtZ32 (f : Fields) : Statement (.icmpLtZ32 f) := .of_eq rfl (by decide) rfl
theorem icmpLeZ32 (f : Fields) : Statement (.icmpLeZ32 f) := .of_eq rfl (by decide) rfl
theorem sel (f : Fields) : Statement (.sel f) := .of_eq rfl (by decide) rfl
theorem fadd (f : Fields) : Statement (.fadd f) := .of_eq rfl (by decide) rfl
theorem fsub (f : Fields) : Statement (.fsub f) := .of_eq rfl (by decide) rfl
theorem fmul (f : Fields) : Statement (.fmul f) := .of_eq rfl (by decide) rfl
theorem ffma (f : Fields) : Statement (.ffma f) := .of_eq rfl (by decide) rfl
theorem fmin (f : Fields) : Statement (.fmin f) := .of_eq rfl (by decide) rfl
theorem fmax (f : Fields) : Statement (.fmax f) := .of_eq rfl (by decide) rfl
theorem fcmpEq (f : Fields) : Statement (.fcmpEq f) := .of_eq rfl (by decide) rfl
theorem fcmpLt (f : Fields) : Statement (.fcmpLt f) := .of_eq rfl (by decide) rfl
theorem fcmpLe (f : Fields) : Statement (.fcmpLe f) := .of_eq rfl (by decide) rfl
theorem fcmpUn (f : Fields) : Statement (.fcmpUn f) := .of_eq rfl (by decide) rfl
theorem fcmpNe (f : Fields) : Statement (.fcmpNe f) := .of_eq rfl (by decide) rfl
theorem fclass (f : Fields) : Statement (.fclass f) := .of_eq rfl (by decide) rfl
theorem hadd2 (f : Fields) : Statement (.hadd2 f) := .of_eq rfl (by decide) rfl
theorem hmul2 (f : Fields) : Statement (.hmul2 f) := .of_eq rfl (by decide) rfl
theorem hfma2 (f : Fields) : Statement (.hfma2 f) := .of_eq rfl (by decide) rfl
theorem hmin2 (f : Fields) : Statement (.hmin2 f) := .of_eq rfl (by decide) rfl
theorem hmax2 (f : Fields) : Statement (.hmax2 f) := .of_eq rfl (by decide) rfl
theorem badd2 (f : Fields) : Statement (.badd2 f) := .of_eq rfl (by decide) rfl
theorem bmul2 (f : Fields) : Statement (.bmul2 f) := .of_eq rfl (by decide) rfl
theorem bfma2 (f : Fields) : Statement (.bfma2 f) := .of_eq rfl (by decide) rfl
theorem cvtI32 (f : Fields) : Statement (.cvtI32 f) := .of_eq rfl (by decide) rfl
theorem cvtZ32 (f : Fields) : Statement (.cvtZ32 f) := .of_eq rfl (by decide) rfl
theorem cvtF32 (f : Fields) : Statement (.cvtF32 f) := .of_eq rfl (by decide) rfl
theorem cvtF16 (f : Fields) : Statement (.cvtF16 f) := .of_eq rfl (by decide) rfl
theorem cvtBf16 (f : Fields) : Statement (.cvtBf16 f) := .of_eq rfl (by decide) rfl
theorem cvtNf (f : Fields) : Statement (.cvtNf f) := .of_eq rfl (by decide) rfl
theorem pack (f : Fields) : Statement (.pack f) := .of_eq rfl (by decide) rfl
theorem unpk (f : Fields) : Statement (.unpk f) := .of_eq rfl (by decide) rfl
theorem shflIdx (f : Fields) : Statement (.shflIdx f) := .of_eq rfl (by decide) rfl
theorem shflUp (f : Fields) : Statement (.shflUp f) := .of_eq rfl (by decide) rfl
theorem shflDown (f : Fields) : Statement (.shflDown f) := .of_eq rfl (by decide) rfl
theorem shflXor (f : Fields) : Statement (.shflXor f) := .of_eq rfl (by decide) rfl
theorem voteAny (f : Fields) : Statement (.voteAny f) := .of_eq rfl (by decide) rfl
theorem voteAll (f : Fields) : Statement (.voteAll f) := .of_eq rfl (by decide) rfl
theorem voteBal (f : Fields) : Statement (.voteBal f) := .of_eq rfl (by decide) rfl
theorem matchLanes (f : Fields) : Statement (.matchLanes f) := .of_eq rfl (by decide) rfl
theorem vRedAdd (f : Fields) : Statement (.vRedAdd f) := .of_eq rfl (by decide) rfl
theorem vRedMinI32 (f : Fields) : Statement (.vRedMinI32 f) := .of_eq rfl (by decide) rfl
theorem vRedMinZ32 (f : Fields) : Statement (.vRedMinZ32 f) := .of_eq rfl (by decide) rfl
theorem vRedMaxI32 (f : Fields) : Statement (.vRedMaxI32 f) := .of_eq rfl (by decide) rfl
theorem vRedMaxZ32 (f : Fields) : Statement (.vRedMaxZ32 f) := .of_eq rfl (by decide) rfl
theorem vRedAnd (f : Fields) : Statement (.vRedAnd f) := .of_eq rfl (by decide) rfl
theorem vRedOr (f : Fields) : Statement (.vRedOr f) := .of_eq rfl (by decide) rfl
theorem vRedXor (f : Fields) : Statement (.vRedXor f) := .of_eq rfl (by decide) rfl
theorem vRedFadd (f : Fields) : Statement (.vRedFadd f) := .of_eq rfl (by decide) rfl
theorem scanAdd (f : Fields) : Statement (.scanAdd f) := .of_eq rfl (by decide) rfl
theorem scanMaxI32 (f : Fields) : Statement (.scanMaxI32 f) := .of_eq rfl (by decide) rfl
theorem scanMaxZ32 (f : Fields) : Statement (.scanMaxZ32 f) := .of_eq rfl (by decide) rfl
theorem pand (f : Fields) : Statement (.pand f) := .of_eq rfl (by decide) rfl
theorem por (f : Fields) : Statement (.por f) := .of_eq rfl (by decide) rfl
theorem pxor (f : Fields) : Statement (.pxor f) := .of_eq rfl (by decide) rfl
theorem pnot (f : Fields) : Statement (.pnot f) := .of_eq rfl (by decide) rfl
theorem pmov (f : Fields) : Statement (.pmov f) := .of_eq rfl (by decide) rfl
theorem seg (f : Fields) : Statement (.seg f) := .of_eq rfl (by decide) rfl
theorem rcp (f : Fields) : Statement (.rcp f) := .of_eq rfl (by decide) rfl
theorem rsq (f : Fields) : Statement (.rsq f) := .of_eq rfl (by decide) rfl
theorem sqrt (f : Fields) : Statement (.sqrt f) := .of_eq rfl (by decide) rfl
theorem ex2 (f : Fields) : Statement (.ex2 f) := .of_eq rfl (by decide) rfl
theorem lg2 (f : Fields) : Statement (.lg2 f) := .of_eq rfl (by decide) rfl
theorem sinp (f : Fields) : Statement (.sinp f) := .of_eq rfl (by decide) rfl
theorem cosp (f : Fields) : Statement (.cosp f) := .of_eq rfl (by decide) rfl
theorem tanh (f : Fields) : Statement (.tanh f) := .of_eq rfl (by decide) rfl
theorem rcpA (f : Fields) : Statement (.rcpA f) := .of_eq rfl (by decide) rfl
theorem rsqA (f : Fields) : Statement (.rsqA f) := .of_eq rfl (by decide) rfl
theorem ex2A (f : Fields) : Statement (.ex2A f) := .of_eq rfl (by decide) rfl
theorem ld8I (f : Fields) : Statement (.ld8I f) := .of_eq rfl (by decide) rfl
theorem ld8Z (f : Fields) : Statement (.ld8Z f) := .of_eq rfl (by decide) rfl
theorem ld16I (f : Fields) : Statement (.ld16I f) := .of_eq rfl (by decide) rfl
theorem ld16Z (f : Fields) : Statement (.ld16Z f) := .of_eq rfl (by decide) rfl
theorem ld32 (f : Fields) : Statement (.ld32 f) := .of_eq rfl (by decide) rfl
theorem ld64 (f : Fields) : Statement (.ld64 f) := .of_eq rfl (by decide) rfl
theorem ld128 (f : Fields) : Statement (.ld128 f) := .of_eq rfl (by decide) rfl
theorem st8 (f : Fields) : Statement (.st8 f) := .of_eq rfl (by decide) rfl
theorem st16 (f : Fields) : Statement (.st16 f) := .of_eq rfl (by decide) rfl
theorem st32 (f : Fields) : Statement (.st32 f) := .of_eq rfl (by decide) rfl
theorem st64 (f : Fields) : Statement (.st64 f) := .of_eq rfl (by decide) rfl
theorem st128 (f : Fields) : Statement (.st128 f) := .of_eq rfl (by decide) rfl
theorem ldw32 (f : Fields) : Statement (.ldw32 f) := .of_eq rfl (by decide) rfl
theorem ldw64 (f : Fields) : Statement (.ldw64 f) := .of_eq rfl (by decide) rfl
theorem ldw128 (f : Fields) : Statement (.ldw128 f) := .of_eq rfl (by decide) rfl
theorem atomAdd (f : Fields) : Statement (.atomAdd f) := .of_eq rfl (by decide) rfl
theorem atomMinI32 (f : Fields) : Statement (.atomMinI32 f) := .of_eq rfl (by decide) rfl
theorem atomMinZ32 (f : Fields) : Statement (.atomMinZ32 f) := .of_eq rfl (by decide) rfl
theorem atomMaxI32 (f : Fields) : Statement (.atomMaxI32 f) := .of_eq rfl (by decide) rfl
theorem atomMaxZ32 (f : Fields) : Statement (.atomMaxZ32 f) := .of_eq rfl (by decide) rfl
theorem atomAnd (f : Fields) : Statement (.atomAnd f) := .of_eq rfl (by decide) rfl
theorem atomOr (f : Fields) : Statement (.atomOr f) := .of_eq rfl (by decide) rfl
theorem atomXor (f : Fields) : Statement (.atomXor f) := .of_eq rfl (by decide) rfl
theorem atomXchg (f : Fields) : Statement (.atomXchg f) := .of_eq rfl (by decide) rfl
theorem atomCas (f : Fields) : Statement (.atomCas f) := .of_eq rfl (by decide) rfl
theorem atomFadd (f : Fields) : Statement (.atomFadd f) := .of_eq rfl (by decide) rfl
theorem atomFmin (f : Fields) : Statement (.atomFmin f) := .of_eq rfl (by decide) rfl
theorem atomFmax (f : Fields) : Statement (.atomFmax f) := .of_eq rfl (by decide) rfl
theorem mRedAdd (f : Fields) : Statement (.mRedAdd f) := .of_eq rfl (by decide) rfl
theorem mRedMinI32 (f : Fields) : Statement (.mRedMinI32 f) := .of_eq rfl (by decide) rfl
theorem mRedMinZ32 (f : Fields) : Statement (.mRedMinZ32 f) := .of_eq rfl (by decide) rfl
theorem mRedMaxI32 (f : Fields) : Statement (.mRedMaxI32 f) := .of_eq rfl (by decide) rfl
theorem mRedMaxZ32 (f : Fields) : Statement (.mRedMaxZ32 f) := .of_eq rfl (by decide) rfl
theorem mRedAnd (f : Fields) : Statement (.mRedAnd f) := .of_eq rfl (by decide) rfl
theorem mRedOr (f : Fields) : Statement (.mRedOr f) := .of_eq rfl (by decide) rfl
theorem mRedXor (f : Fields) : Statement (.mRedXor f) := .of_eq rfl (by decide) rfl
theorem mRedFadd (f : Fields) : Statement (.mRedFadd f) := .of_eq rfl (by decide) rfl
theorem mRedFmin (f : Fields) : Statement (.mRedFmin f) := .of_eq rfl (by decide) rfl
theorem mRedFmax (f : Fields) : Statement (.mRedFmax f) := .of_eq rfl (by decide) rfl
theorem append (f : Fields) : Statement (.append f) := .of_eq rfl (by decide) rfl
theorem sealPage (f : Fields) : Statement (.sealPage f) := .of_eq rfl (by decide) rfl
theorem fence (f : Fields) : Statement (.fence f) := .of_eq rfl (by decide) rfl
theorem fenceq (f : Fields) : Statement (.fenceq f) := .of_eq rfl (by decide) rfl
theorem pref (f : Fields) : Statement (.pref f) := .of_eq rfl (by decide) rfl
theorem smap (f : Fields) : Statement (.smap f) := .of_eq rfl (by decide) rfl
theorem sunmap (f : Fields) : Statement (.sunmap f) := .of_eq rfl (by decide) rfl
theorem sflush (f : Fields) : Statement (.sflush f) := .of_eq rfl (by decide) rfl
theorem hdecl (f : Fields) : Statement (.hdecl f) := .of_eq rfl (by decide) rfl
theorem hpush (f : Fields) : Statement (.hpush f) := .of_eq rfl (by decide) rfl
theorem cpG2s (f : Fields) : Statement (.cpG2s f) := .of_eq rfl (by decide) rfl
theorem cpS2g (f : Fields) : Statement (.cpS2g f) := .of_eq rfl (by decide) rfl
theorem cpG2g (f : Fields) : Statement (.cpG2g f) := .of_eq rfl (by decide) rfl
theorem cpGath (f : Fields) : Statement (.cpGath f) := .of_eq rfl (by decide) rfl
theorem cpScat (f : Fields) : Statement (.cpScat f) := .of_eq rfl (by decide) rfl
theorem cpFill (f : Fields) : Statement (.cpFill f) := .of_eq rfl (by decide) rfl
theorem cpPlane (f : Fields) : Statement (.cpPlane f) := .of_eq rfl (by decide) rfl
theorem cpTlr (f : Fields) : Statement (.cpTlr f) := .of_eq rfl (by decide) rfl
theorem mzero (f : Fields) : Statement (.mzero f) := .of_eq rfl (by decide) rfl
theorem mloop (f : Fields) : Statement (.mloop f) := .of_eq rfl (by decide) rfl
theorem mgrp (f : Fields) : Statement (.mgrp f) := .of_eq rfl (by decide) rfl
theorem mdrainS (f : Fields) : Statement (.mdrainS f) := .of_eq rfl (by decide) rfl
theorem mdrainA (f : Fields) : Statement (.mdrainA f) := .of_eq rfl (by decide) rfl
theorem msave (f : Fields) : Statement (.msave f) := .of_eq rfl (by decide) rfl
theorem mrest (f : Fields) : Statement (.mrest f) := .of_eq rfl (by decide) rfl
theorem mstat (f : Fields) : Statement (.mstat f) := .of_eq rfl (by decide) rfl
theorem fsdef (f : Fields) : Statement (.fsdef f) := .of_eq rfl (by decide) rfl
theorem fcall (f : Fields) : Statement (.fcall f) := .of_eq rfl (by decide) rfl
theorem fret (f : Fields) : Statement (.fret f) := .of_eq rfl (by decide) rfl
theorem fsload (f : Fields) : Statement (.fsload f) := .of_eq rfl (by decide) rfl
theorem fsdrop (f : Fields) : Statement (.fsdrop f) := .of_eq rfl (by decide) rfl
theorem fsqry (f : Fields) : Statement (.fsqry f) := .of_eq rfl (by decide) rfl
theorem srr (f : Fields) : Statement (.srr f) := .of_eq rfl (by decide) rfl
theorem srw (f : Fields) : Statement (.srw f) := .of_eq rfl (by decide) rfl
theorem fmap (f : Fields) : Statement (.fmap f) := .of_eq rfl (by decide) rfl
theorem tlbinv (f : Fields) : Statement (.tlbinv f) := .of_eq rfl (by decide) rfl
theorem capr (f : Fields) : Statement (.capr f) := .of_eq rfl (by decide) rfl
theorem phase (f : Fields) : Statement (.phase f) := .of_eq rfl (by decide) rfl
theorem halt (f : Fields) : Statement (.halt f) := .of_eq rfl (by decide) rfl
theorem ret : Statement (.ret) := .of_eq rfl (by decide) rfl
theorem elseP : Statement (.elseP) := .of_eq rfl (by decide) rfl
theorem endifP : Statement (.endifP) := .of_eq rfl (by decide) rfl
theorem loopP : Statement (.loopP) := .of_eq rfl (by decide) rfl
theorem endloopP : Statement (.endloopP) := .of_eq rfl (by decide) rfl
theorem qResultWrite : Statement (.qResultWrite) := .of_none rfl
theorem appendHomeReservation : Statement (.appendHomeReservation) := .of_none rfl
theorem sealCompletion : Statement (.sealCompletion) := .of_none rfl
theorem haloPush : Statement (.haloPush) := .of_none rfl
theorem copySegment : Statement (.copySegment) := .of_none rfl
theorem copyCompletion : Statement (.copyCompletion) := .of_none rfl
theorem matrixStep : Statement (.matrixStep) := .of_none rfl
theorem matrixQueuePerform : Statement (.matrixQueuePerform) := .of_none rfl
theorem fsQueuePerform : Statement (.fsQueuePerform) := .of_none rfl
theorem tret : Statement (.tret) := .of_eq rfl (by decide) rfl
theorem variableLatencyCompletion : Statement (.variableLatencyCompletion) := .of_none rfl
theorem priorityAging : Statement (.priorityAging) := .of_none rfl
theorem sleepExpiry : Statement (.sleepExpiry) := .of_none rfl
theorem barrierGenerationComplete : Statement (.barrierGenerationComplete) := .of_none rfl
theorem warpSlotRelease : Statement (.warpSlotRelease) := .of_none rfl
theorem watchValidation : Statement (.watchValidation) := .of_none rfl
theorem residencyScheduleLoad : Statement (.residencyScheduleLoad) := .of_none rfl
theorem residencyEviction : Statement (.residencyEviction) := .of_none rfl
theorem ptsTick : Statement (.ptsTick) := .of_none rfl
theorem ptsBroadcast : Statement (.ptsBroadcast) := .of_none rfl
theorem leaseExpiry : Statement (.leaseExpiry) := .of_none rfl
theorem l1LeaseSweep : Statement (.l1LeaseSweep) := .of_none rfl
theorem l2LineSweep : Statement (.l2LineSweep) := .of_none rfl
theorem externalAgentWrite : Statement (.externalAgentWrite) := .of_none rfl
theorem qtailWrite : Statement (.qtailWrite) := .of_none rfl
theorem queueEnable : Statement (.queueEnable) := .of_none rfl
theorem queueDisable : Statement (.queueDisable) := .of_none rfl
theorem queueErrClear : Statement (.queueErrClear) := .of_none rfl
theorem registerWrite : Statement (.registerWrite) := .of_none rfl
theorem gridStart : Statement (.gridStart) := .of_none rfl
theorem launchCompletion : Statement (.launchCompletion) := .of_none rfl
theorem blockPlacement : Statement (.blockPlacement) := .of_none rfl
theorem preemptionDecision : Statement (.preemptionDecision) := .of_none rfl
theorem drainTimeout : Statement (.drainTimeout) := .of_none rfl
theorem blockSave : Statement (.blockSave) := .of_none rfl
theorem blockFlush : Statement (.blockFlush) := .of_none rfl
theorem blockRestart : Statement (.blockRestart) := .of_none rfl
theorem blockResume : Statement (.blockResume) := .of_none rfl
theorem pendingTrapTaken : Statement (.pendingTrapTaken) := .of_none rfl
theorem pageWalk : Statement (.pageWalk) := .of_none rfl
theorem hostFaultAcknowledge : Statement (.hostFaultAcknowledge) := .of_none rfl
theorem faultWaiterReplay : Statement (.faultWaiterReplay) := .of_none rfl
theorem stagedRecordAppend : Statement (.stagedRecordAppend) := .of_none rfl
theorem ticketGrant : Statement (.ticketGrant) := .of_none rfl
theorem ticketPhaseRelease : Statement (.ticketPhaseRelease) := .of_none rfl
theorem replayDecision : Statement (.replayDecision) := .of_none rfl
theorem rds : Statement (.rds) := .of_none rfl
theorem rdx : Statement (.rdx) := .of_none rfl
theorem upg : Statement (.upg) := .of_none rfl
theorem wb : Statement (.wb) := .of_none rfl
theorem fwds : Statement (.fwds) := .of_none rfl
theorem fwdx : Statement (.fwdx) := .of_none rfl
theorem invSnoop : Statement (.invSnoop) := .of_none rfl
theorem snoopResponse : Statement (.snoopResponse) := .of_none rfl
theorem wbAcknowledge : Statement (.wbAcknowledge) := .of_none rfl
theorem sealRecall : Statement (.sealRecall) := .of_none rfl
theorem mscEviction : Statement (.mscEviction) := .of_none rfl
theorem extentAdd : Statement (.extentAdd) := .of_none rfl
theorem extentReleaseRequest : Statement (.extentReleaseRequest) := .of_none rfl
theorem forcedExtentRelease : Statement (.forcedExtentRelease) := .of_none rfl
theorem extentAccept : Statement (.extentAccept) := .of_none rfl
theorem extentDecline : Statement (.extentDecline) := .of_none rfl
theorem extentCloseComplete : Statement (.extentCloseComplete) := .of_none rfl
theorem extentDone : Statement (.extentDone) := .of_none rfl
theorem appendFrameAlloc : Statement (.appendFrameAlloc) := .of_none rfl
theorem pageFree : Statement (.pageFree) := .of_none rfl
theorem channelService : Statement (.channelService) := .of_none rfl
theorem telemetryCopy : Statement (.telemetryCopy) := .of_none rfl
theorem rowActivationAlert : Statement (.rowActivationAlert) := .of_none rfl
theorem laneRetrain : Statement (.laneRetrain) := .of_none rfl
theorem keyLoad : Statement (.keyLoad) := .of_none rfl
theorem keyRevoke : Statement (.keyRevoke) := .of_none rfl
theorem boot : Statement (.boot) := .of_none rfl
theorem recoveryWrite : Statement (.recoveryWrite) := .of_none rfl
theorem firmwareSwap : Statement (.firmwareSwap) := .of_none rfl
theorem swapPoint : Statement (.swapPoint) := .of_none rfl
theorem aliveReport : Statement (.aliveReport) := .of_none rfl
theorem swapAliveTimeout : Statement (.swapAliveTimeout) := .of_none rfl
theorem swapCommit : Statement (.swapCommit) := .of_none rfl
theorem watchdogPet : Statement (.watchdogPet) := .of_none rfl
theorem watchdogRung0 : Statement (.watchdogRung0) := .of_none rfl
theorem watchdogRung1 : Statement (.watchdogRung1) := .of_none rfl
theorem watchdogRung2 : Statement (.watchdogRung2) := .of_none rfl
theorem watchdogRung3 : Statement (.watchdogRung3) := .of_none rfl
theorem watchdogRung4 : Statement (.watchdogRung4) := .of_none rfl
theorem watchdogRung5 : Statement (.watchdogRung5) := .of_none rfl
theorem getMeasurements : Statement (.getMeasurements) := .of_none rfl
theorem keyExchange : Statement (.keyExchange) := .of_none rfl
theorem linkUpMaskChange : Statement (.linkUpMaskChange) := .of_none rfl
theorem kstatBusyClear : Statement (.kstatBusyClear) := .of_none rfl
theorem ideKeyProgramming : Statement (.ideKeyProgramming) := .of_none rfl

end Sys2Proof.Laws.OpcodeMap
end

