-- ==== Sys2Proof/Laws/Queue.lean ====
section
/-! SUPPORT. The operations shared by the class M instructions: what the lane checks of passing lanes gather, what queueing an operation does, and
when the watch rule lets a release through. -/

namespace Sys2Proof.Machine

open Sys2Proof.Safety

/-- Lanes that all pass the checks go on with their accesses. -/
theorem gather_ok (accs : List LaneAcc) (h : ∀ a ∈ accs, a.data = 0 ∧ a.data2 = 0) :
    gather (accs.map (fun a => (a.lane, a.va, Chk.ok a.blk a.addr a.lease a.mclass))) = .go accs := by
  have e1 : ∀ l : List LaneAcc, (l.map (fun a => (a.lane, a.va, Chk.ok a.blk a.addr a.lease a.mclass))).filterMap (fun r => r.2.2.order) = [] := by
    intro l; induction l with
    | nil => rfl
    | cons a l ih => simp [Chk.order]
  have e2 : ∀ l : List LaneAcc, (l.map (fun a => (a.lane, a.va, Chk.ok a.blk a.addr a.lease a.mclass))).find? (fun r => decide (r.2.2 = Chk.miss)) = none := by
    intro l; induction l with
    | nil => rfl
    | cons a l ih => simp
  have e4 : ∀ l : List LaneAcc, (∀ a ∈ l, a.data = 0 ∧ a.data2 = 0) → l.map (fun x => ({ lane := x.lane, blk := x.blk, addr := x.addr, va := x.va, data := 0, data2 := 0, lease := x.lease, mclass := x.mclass } : LaneAcc)) = l := by
    intro l h
    conv => rhs; rw [← List.map_id l]
    apply List.map_congr_left
    intro a ha
    obtain ⟨h1, h2⟩ := h a ha
    cases a; simp_all
  unfold gather
  simp only [e1, e2]
  simp
  split
  · next pa h =>
    rw [List.findSome?_eq_some_iff] at h
    obtain ⟨_, x, _, h1, h2, -⟩ := h
    have : x ∈ accs.map (fun a => (a.lane, a.va, Chk.ok a.blk a.addr a.lease a.mclass)) := by rw [h1]; simp
    simp at this; obtain ⟨a, -, rfl⟩ := this
    simp at h2
  · exact congrArg _ (e4 accs h)

/-- Raising a flag changes the flags alone. -/
theorem Team.flagUp_rest (t : Team) (o : Option Nat) : ∃ g, t.flagUp o = { t with flags := g } := by
  cases o with
  | none => exact ⟨t.flags, rfl⟩
  | some k => exact ⟨_, rfl⟩

/-- Queueing an operation: one more operation, its number used, its flag raised, and nothing else of the machine changed. -/
theorem enqueueOp_spec (s : State) (x : Fields) (o : MemOp) (hold : Option (KMap Word)) :
    ∃ t, enqueueOp s s.team x o hold = .next t ∧ OnlyTeam s t ∧ wentOn s.team t.team (lenOf x) ∧
      t.team.memQ = s.team.memQ ++ [{ o with phase := teamPhase s s.cur }] ∧ t.team.nextOp = s.team.nextOp + 1 ∧
      t.team.flags = (s.team.flagUp o.flag).flags ∧
      { placed s.team t.team with memQ := s.team.memQ, nextOp := s.team.nextOp, flags := s.team.flags } = s.team := by
  unfold enqueueOp
  obtain ⟨g, hg⟩ := Team.flagUp_rest s.team o.flag
  rw [hg]
  obtain ⟨t, h1, h2, h3, -, p, c, r, q, k, d, y, z, h⟩ := finishHold_spec s
    { s.team with flags := g, memQ := s.team.memQ ++ [{ o with phase := teamPhase s s.cur }], nextOp := s.team.nextOp + 1 }
    x hold rfl rfl rfl rfl
  exact ⟨t, h1, h2, h3, by rw [h], by rw [h], by rw [h], by rw [h]; rfl⟩

/-- With nothing left to do, a release is clear. -/
theorem releaseGate_quiet {s : State} (h : Safety.quiet s) : releaseGate s s.cur = .clear := by
  obtain ⟨h1, h2, h3, h4⟩ := h
  have : teamWatches s s.cur = [] := by
    unfold teamWatches
    rw [List.filter_eq_nil_iff]
    intro w hw
    simpa using h3 w hw
  have h1' : (s.teamAt s.cur).memQ = [] := h1
  have h4' : (s.teamAt s.cur).struck = false := h4
  simp [releaseGate, this, pendingWatched, h1', h4']

/-- The watch rule lets an instruction through that does not release, or has nothing left to do. -/
theorem withGate_quiet {s : State} (m : Word) (h : mSem m < 2 ∨ Safety.quiet s) (k : Out) : withGate s (2 ≤ mSem m) k = k := by
  unfold withGate
  rcases h with h | h
  · simp [Nat.not_le.mpr h]
  · simp [releaseGate_quiet h]

end Sys2Proof.Machine
end

