-- ==== Sys2Proof/Tests/Slice0.lean ====
section
/-! SUPPORT. The model's own tests: ill-formed terms that the checks refuse, words written out from the manual's encodings, single steps on
small states, and for each statement with hypotheses a concrete state and operands that meet them. -/

namespace Sys2Proof.Tests

set_option Elab.async false

open Sys2Proof Sys2Proof.Machine Sys2Proof.Safety Sys2Proof.Claims

/-! ### Small states -/

/-- Team 0 of one warp on core 0, its clause of class k open with flags 0 and 1, all lanes active, NF0 set to the manual's s1e2m1 (R92). -/
def st (k : Cls) : State :=
  let s := placeWords State.reset k []
  s.setTeam { s.team with
    clause := some { hdr := 0x1000, cls := k, left := 15, setA := 0, setB := 1, yld := false }
    nf0 := 0x00010921 }
/-- The same with the acting team changed. -/
def stT (k : Cls) (g : Team → Team) : State := (st k).setTeam (g (st k).team)
/-- The same with event operands. -/
def stE (x y z u : Nat) : State := { st .x with ev := { (st .x).ev with x := x, y := y, z := z, u := u } }
/-- The team in supervisor mode. -/
def sup (t : Team) : Team := { t with trap := { t.trap with sup := true } }
/-- The team with a trap handler. -/
def handler (t : Team) : Team := { t with trap := { t.trap with tvec := 0x2000 } }
/-- Fields by D, A and B. -/
def fDAB (d a b : Nat) : Fields := { d := BitVec.ofNat 7 d, a := BitVec.ofNat 7 a, b := BitVec.ofNat 7 b }
/-- Some of these fields reach the effect of every row. -/
def allReach (s : State) (fs : List Fields) (rows : List (Fields → Instr)) : Bool := rows.all (fun r => fs.any (fun f => reaches s (r f)))
/-- Fields tried for class S, V and Q rows. -/
def plain : List Fields :=
  [fDAB 1 2 3, fDAB 1 2 0, fDAB 1 0 0, { fDAB 1 2 3 with imm := some 1 }, { fDAB 1 2 0 with imm := some 1 }, { fDAB 1 2 3 with imm := some 31 },
   { fDAB 1 2 0 with mod := some 0x00110780 }, { fDAB 1 2 3 with mod := some 0x00110780 }]

/-! ### Hypotheses that are met: classes S, V and Q -/
theorem test_hyp_ScalarArithmeticResults : allReach (st .s) plain (scalarRows.map (·.1)) = true := by decide +kernel
theorem test_hyp_ScalarPairResults : allReach (st .s) [fDAB 2 4 6] [.sadd64, .ssub64, .smad64] = true := by decide +kernel
theorem test_hyp_ScalarCompareResults : (st .s).team.warps ≤ 32 ∧ allReach (st .s) plain (scalarCmpRows.map (·.1)) = true := by decide +kernel
theorem test_hyp_ScalarSelectAndLaneReads :
    (st .s).team.warps ≤ 32 ∧ reaches (st .s) (.ssel { fDAB 1 2 3 with imm := some 31 }) = true ∧ reaches (st .s) (.rlane (fDAB 1 2 3)) = true ∧
    reaches (st .s) (.rfa (fDAB 1 2 3)) = true ∧ reaches (st .s) (.srd (fDAB 1 1 0)) = true := by decide +kernel
theorem test_hyp_ScalarSelectAndLaneReads_pair :
    reaches (stT .s sup) (.srd (fDAB 2 0x20 0)) = true ∧ reaches (stT .s sup) (.srd (fDAB 2 0x21 0)) = true := by decide +kernel
theorem test_hyp_ScalarSelectAndLaneReads_empty :
    lowestLane (stT .s (fun t => { t with mask := 0 })).team.lanes (stT .s (fun t => { t with mask := 0 })).team.mask = none ∧
    reaches (stT .s (fun t => { t with mask := 0 })) (.rfa (fDAB 1 2 3)) = true := by decide +kernel
theorem test_hyp_VectorIntegerResults : (st .v).team.warps ≤ 32 ∧ allReach (st .v) plain (vectorRows.map (·.1)) = true := by decide +kernel
theorem test_hyp_VectorPredicateResults : allReach (st .v) plain (predRows.map (·.1)) = true := by decide +kernel
theorem test_hyp_VectorFloatAndConversionResults :
    allReach (st .v) plain ((floatRows ++ packedRows ++ convRows).map (·.1)) = true := by decide +kernel
theorem test_hyp_UnpackWritesPair : reaches (st .v) (.unpk { fDAB 2 4 1 with mod := some 0x00100380 }) = true := by decide +kernel
theorem test_hyp_CrossLaneReads : (st .v).team.seg ≤ 6 ∧ allReach (st .v) plain (shuffleRows.map (·.1) ++ [.voteBal, .matchLanes]) = true := by
  decide +kernel
theorem test_hyp_ReductionsAndScans : allReach (st .v) plain (reduceRows.map (·.1)) = true := by decide +kernel
theorem test_hyp_TreeSum : reaches (st .v) (.vRedFadd (fDAB 1 2 3)) = true := by decide +kernel
theorem test_hyp_SegmentWidth :
    (∀ k ∈ [1, 6, 0, 7], reaches (st .v) (.seg { fDAB 0 127 0 with imm := some (BitVec.ofNat 32 k) }) = true) ∧
    (srcU (st .v).team 127 (immOf { fDAB 0 127 0 with imm := some 6 })).toNat = 6 ∧
    (srcU (st .v).team 127 (immOf { fDAB 0 127 0 with imm := some 7 })).toNat = 7 := by decide +kernel
/-- The same fields with HOLD. -/
def held (h : BitVec 2) : List Fields := plain.map (fun f => { f with hold := h })
theorem test_hyp_HoldFillsLatch :
    (st .v).team.latch.ptr < 3 ∧ (st .v).team.warps ≤ 32 ∧ (∀ h ∈ [0, 1, 3], allReach (st .v) (held h) (heldRows.map (·.1)) = true) ∧
    (∀ h ∈ [0, 1, 2], allReach (st .v) (held h) (heldCmpRows.map (·.1)) = true) ∧ allReach (st .v) (held 0) segmentRows = true ∧
    allReach (st .v) (held 3) segmentRows = true := by decide +kernel
theorem test_hyp_HoldFillsLatch_sources :
    (∀ i ∈ [Instr.iadd { fDAB 1 2 3 with hold := 2 }, .fadd { fDAB 1 2 3 with hold := 2 }], reaches (st .v) i = true) ∧
    allReach (st .v) (held 1) (reduceRows.map (fun r => r.1) ++ [.vRedFadd, .matchLanes]) = true ∧ ((fDAB 88 2 3).d.toNat < 88) = False ∧
    reaches (st .v) (.iadd { fDAB 120 2 3 with hold := 3 }) = true := by decide +kernel
theorem test_hyp_SpecialFunctionIssue :
    allReach (st .q) plain (sfuRows.map (·.1)) = true ∧ presentSet (st .q).team (modOf .q (fDAB 1 2 0)) ≠ 0 ∧
    ((st .q).partAt (st .q).team.partNo).sfuQ.length < 16 ∧
    presentSet (stT .q (fun t => { t with mask := 0 })).team (modOf .q (fDAB 1 2 0)) = 0 ∧
    allReach (stT .q (fun t => { t with mask := 0 })) plain (sfuRows.map (·.1)) = true := by decide +kernel
theorem test_hyp_SpecialFunctionIssue_full :
    let s := (st .q).setPart (st .q).team.partNo { (st .q).partAt (st .q).team.partNo with
      sfuQ := List.replicate 16 { id := 0, tid := 0, dst := some 5, vals := [(0, 7)], flag := some 2 } }
    allReach s plain (sfuRows.map (·.1)) = true ∧ 16 ≤ (s.partAt s.team.partNo).sfuQ.length := by decide +kernel

/-- The partition of team 0 with one class Q result pending. -/
def stQ : State := (stE 0 0 0 0).setPart (st .q).team.partNo
  { (st .q).partAt (st .q).team.partNo with sfuQ := [{ id := 0, tid := 0, dst := some 5, vals := [(0, 7)], flag := some 2 }] }
theorem test_hyp_SpecialFunctionResult :
    (stQ.teamAt stQ.ev.x).warps ≤ 32 ∧
    (stQ.partAt (stQ.teamAt stQ.ev.x).partNo).sfuQ = { id := 0, tid := 0, dst := some 5, vals := [(0, 7)], flag := some 2 } :: [] ∧
    (SfuOp.mk 0 0 (some 5) [(0, 7)] (some 2)).tid = stQ.ev.x ∧ heldByFenceq stQ stQ.ev.x 3 0 = false := by decide +kernel
theorem test_hyp_ResidentRoutine :
    reaches (st .q) (.ex2A (fDAB 1 2 0)) = true ∧ ((st .q).partAt (st .q).team.partNo).sfuQ = [] ∧
    presentSet (st .q).team (modOf .q (fDAB 1 2 0)) ≠ 0 ∧ heldByFenceq (st .q) (st .q).cur 3 (st .q).team.nextOp = false := by decide +kernel
theorem test_hyp_SpecialFunctionTable :
    0x7F800000 < (0x7F800001#32).toNat % 2 ^ 31 ∧ 0x7F800000 < (0xFFFFFFFF#32).toNat % 2 ^ 31 ∧
    0x80000000 < (0x80000001#32).toNat ∧ (0xFF7FFFFF#32).toNat < 0xFF800000 ∧
    ofF32 0xC0400000 = .fin true 12582912 (-22) ∧ isWhole 12582912 (-22) 3 ∧
    ofF32 0x4B800000 = .fin false 8388608 1 ∧ isWhole 8388608 1 16777216 ∧
    ofF32 0xC0200000 = .fin true 10485760 (-22) ∧ isWhole 10485760 (-22 + 1) (2 * 2 + 1) ∧
    0x43000000 ≤ (0x43000000#32).toNat ∧ (0x7F800000#32).toNat ≤ 0x7F800000 ∧
    0xC3160000 < (0xC3160001#32).toNat ∧ (0xFF800000#32).toNat ≤ 0xFF800000 := by decide +kernel
/-- The results of the table of R164 and of the special lines of R166-R168 at the zeros and the infinities. -/
theorem test_sfu_table :
    (∀ row ∈ sfuTable, qResult row.1 (ofF32 0) = row.2.1 ∧ qResult row.1 (ofF32 0x80000000) = row.2.2.1 ∧
      qResult row.1 (ofF32 0x7F800000) = row.2.2.2.1 ∧ qResult row.1 (ofF32 0xFF800000) = row.2.2.2.2) ∧
    qResult .sinp (ofF32 0xC0400000) = 0x80000000 ∧ qResult .cosp (ofF32 0xC0200000) = 0 ∧ qResult .ex2A (ofF32 0x43000000) = 0x7F800000 ∧
    qResult .ex2A (ofF32 0xC3160001) = 0 := by decide +kernel
theorem test_hyp_SubfieldsReadAndWrite : (1, 0, 16) ∈ subfields ∧ (19, 28, 4) ∈ subfields ∧ (31 : Nat) < 32 := by decide
theorem test_hyp_SaturationClamps : (3, 0, 8) ∈ subfields ∧ ¬(0 ≤ 8 ∧ 8 < 0 + 8) := by decide
theorem test_hyp_CodesSurviveRounding :
    (0x7F7FFFFF < 2 ^ fp32.bits ∧ 0x7F7FFFFF % 2 ^ (fp32.bits - 1) < 0x7F800000) ∧ 0x7F800000 % 2 ^ (fp32.bits - 1) ≤ 0x7F800000 ∧
    0x7F800000 < 0xFF800001 % 2 ^ (fp32.bits - 1) := by decide +kernel

/-! ### Hypotheses that are met: class X -/
theorem test_hyp_ClauseOpens :
    let s := stT .x (fun t => { t with clause := none })
    let busy := stT .x (fun t => { t with clause := none, flags := [(0, 1)] })
    s.team.clause = none ∧ (waitClear s.team 0x100001E0 = true ∧ hdrOk 0x100001E0 = true) ∧ (waitClear busy.team 0x100021E0 = false) ∧
    hdrOk 0 = false ∧ waitClear s.team 0 = true := by decide +kernel
theorem test_hyp_NopGoesOn : ∀ k ∈ [Cls.x, .s, .v, .q, .m, .c, .a, .y], reaches (stT k sup) (.nop k {}) = true := by decide +kernel

/-- A repeat prefix of two and the vector add it repeats, placed for team 0. -/
def stRep (r : BitVec 7) : State :=
  let s := placeWords State.reset .v [0xFE08C000, 0x02041030]
  s.setTeam { s.team with rep := r }
theorem test_hyp_RepeatStarts : ∀ r ∈ [0, 64, 65],
    (stRep r).team.clause = some { hdr := 0x1000, cls := .v, left := 15, setA := 15, setB := 15, yld := false } ∧
    (match fetchInstr (stRep r) (stRep r).cur ((stRep r).team.pc + 4).toNat with
     | .ok ws => (match decode .v ws with
       | .ok i _ => decide (repTrap (stRep r).team (repOf 0xFE08C000) i = none)
       | .bad _ => false)
     | _ => false) = true ∧ (repOf 0xFE08C000).cnt = 1 ∧ (stRep r).curStream = none := by decide +kernel
theorem test_hyp_RepeatStarts_stream : ({ stRep 0 with curStream := some .mat } : State).curStream = some .mat ∧ Cls.x ≠ .s ∧ Cls.x ≠ (if Eng.mat = .mat then .a else .c) := by
  decide +kernel

/-- A label branch: its label is +8. -/
def lab (a b : Nat) : Fields := { fDAB 0 a b with imm := some 8 }

/-- The team with one clause slot left. -/
def last (t : Team) : Team := { t with clause := t.clause.map (fun k => { k with left := 1 }) }

def none' (t : Team) : Team := { t with mask := 0 }
theorem test_hyp_LabelBranches_last :
    (∀ g ∈ [last, fun t => last (none' t)], reaches (stT .x g) (.bra (lab 0 0)) = true ∧ reaches (stT .x g) (.braAny (lab 31 0)) = true ∧
      reaches (stT .x g) (.braAll (lab 30 0)) = true ∧ reaches (stT .x g) (.braNone (lab 30 0)) = true) ∧
    (stT .x last).team.mask.getLsbD 0 = true ∧ ((stT .x last).team.pred 31).getLsbD 0 = true ∧ ((stT .x last).team.pred 30).getLsbD 0 = false := by
  decide +kernel
theorem test_hyp_RegisterBranchesAndCalls :
    (∀ g ∈ [last, fun t => last (none' t)], reaches (stT .x g) (.brx (fDAB 0 2 0)) = true) ∧
    reaches (stT .x last) (.call (lab 0 0)) = true ∧ reaches (stT .x last) (.callx (fDAB 0 2 0)) = true ∧ (stT .x last).team.mask ≠ 0 ∧
    (stT .x last).team.stack.length < 32 ∧ (srcS64 (stT .x last).team 2 0).toNat % 4 = 0 ∧
    (srcS64 (stT .x (fun t => { last t with sregs := [(2, 2)] })).team 2 0).toNat % 4 ≠ 0 ∧
    reaches (stT .x (fun t => { last t with sregs := [(2, 2)] })) (.brx (fDAB 0 2 0)) = true := by decide +kernel

theorem test_hyp_RegisterBranchesAndCalls_calls :
    let s := stT .x (fun t => last (none' t))
    let u := stT .x (fun t => { last t with sregs := [(2, 2)] })
    (∀ i ∈ [Instr.call (lab 0 0), .callx (fDAB 0 2 0)], reaches s i = true) ∧ s.team.mask = 0 ∧ reaches u (.callx (fDAB 0 2 0)) = true ∧
    u.team.mask ≠ 0 ∧ (srcS64 u.team 2 0).toNat % 4 ≠ 0 := by decide +kernel

/-- An entry of the mask stack. -/
def ent (k : EKind) : Entry := { kind := k, save := 0xFFFFFFFF, pend := 6, addr := 0x1000 }

def stS (g : Team → Team) (es : List Entry) : State := stT .x (fun t => { g t with stack := es })
theorem test_hyp_RegisterBranchesAndCalls_ret : reaches (stS last [ent .callK]) .ret = true ∧ (stS last [ent .callK]).team.stack = ent .callK :: [] := by
  decide +kernel
theorem test_hyp_StructuredControl :
    reaches (st .x) (.ifP (fDAB 0 3 1)) = true ∧ reaches (stT .x last) .loopP = true ∧ (st .x).team.stack.length < 32 ∧
    reaches (stS id [ent .ifK]) .elseP = true ∧ reaches (stS id [ent .elseK]) .endifP = true ∧ reaches (stS id [ent .ifK]) .endifP = true := by
  decide +kernel
theorem test_hyp_StructuredControl_loops :
    reaches (stS last [ent .loopK]) .endloopP = true ∧ ((stS last [ent .loopK]).team.mask ||| (ent .loopK).pend) &&& (stS last [ent .loopK]).team.live ≠ 0 ∧
    reaches (stS (fun t => { last t with live := 0 }) [ent .loopK]) .endloopP = true ∧
    ((stS (fun t => { last t with live := 0 }) [ent .loopK]).team.mask ||| (ent .loopK).pend) &&& (0 : LaneSet) = 0 ∧
    reaches (stS id [ent .ifK, ent .elseK, ent .loopK]) (.breakP (fDAB 0 3 0)) = true ∧
    reaches (stS id [ent .ifK, ent .elseK, ent .loopK]) (.contP (fDAB 0 3 0)) = true ∧
    (stS id [ent .ifK, ent .elseK, ent .loopK]).team.stack = [ent .ifK, ent .elseK] ++ ent .loopK :: [] := by decide +kernel
theorem test_hyp_MaskStackTraps :
    32 ≤ (stS id (List.replicate 32 (ent .ifK))).team.stack.length ∧
    (stS id (List.replicate 32 (ent .ifK))).team.stack = ent .ifK :: List.replicate 31 (ent .ifK) ∧
    reaches (stS id (List.replicate 32 (ent .ifK))) (.ifP (fDAB 0 3 1)) = true ∧ reaches (stS last (List.replicate 32 (ent .ifK))) .loopP = true ∧
    (st .x).team.stack = [] ∧ reaches (st .x) .elseP = true ∧ reaches (st .x) .endifP = true ∧ reaches (stT .x last) .endloopP = true ∧
    reaches (stT .x last) .ret = true := by decide +kernel
theorem test_hyp_MaskStackTraps_calls :
    let s := stS last (List.replicate 32 (ent .ifK))
    reaches s (.call (lab 0 0)) = true ∧ reaches s (.callx (fDAB 0 2 0)) = true ∧ s.team.mask ≠ 0 ∧ 32 ≤ s.team.stack.length ∧
    (srcS64 s.team 2 0).toNat % 4 = 0 := by decide +kernel
theorem test_hyp_MaskStackTraps_kinds :
    (∀ p ∈ topRows, reaches (stS id [ent .fnK]) p.1 = true ∨ reaches (stS last [ent .fnK]) p.1 = true) ∧
    (∀ g : Bool, (stS (if g then last else id) [ent .fnK]).team.stack = ent .fnK :: []) ∧ (∀ p ∈ topRows, (ent .fnK).kind ∉ p.2) := by decide +kernel
theorem test_hyp_MaskStackTraps_loops : ∀ es ∈ [[ent .ifK, ent .elseK, ent .callK, ent .loopK], [ent .ifK, ent .elseK]],
    let s := stS id es
    reaches s (.breakP (fDAB 0 3 0)) = true ∧ reaches s (.contP (fDAB 0 3 0)) = true ∧
    (∃ r ∈ [[ent .callK, ent .loopK], []], s.team.stack = [ent .ifK, ent .elseK] ++ r) := by decide +kernel

/-- Nothing is left to release: no queued operation, no buffered store, no watch entry, nothing struck. -/
def quietB (s : State) : Bool :=
  s.team.memQ = [] && (s.coreAt s.team.core).sbuf = [] && (s.coreAt s.team.core).watch.all (fun w => decide (w.tid ≠ s.cur)) && !s.team.struck

theorem quiet_of_quietB {s : State} (h : quietB s = true) : Safety.quiet s := by
  simpa [quietB, Safety.quiet, and_assoc] using h
theorem test_hyp_ExitLeavesLanes :
    reaches (st .x) (.exit {}) = true ∧ (st .x).team.status = .live ∧ quietB (st .x) = true ∧ presentSet (st .x).team (modOf .x {}) ≠ 0 ∧
    presentSet (stT .x none').team (modOf .x {}) = 0 ∧ reaches (stT .x none') (.exit {}) = true ∧
    (let s := stT .x (fun t => { t with matQ := [{ id := 0, kind := .zero, flag := none }] })
     reaches s (.exit {}) = true ∧ quietB s = true ∧ s.team.live &&& ~~~(presentSet s.team (modOf .x {})) = 0 ∧ s.team.matQ ≠ []) := by decide +kernel
theorem test_hyp_YieldAndSleep :
    reaches (stT .x last) (.yield {}) = true ∧ reaches (stT .x last) (.sleep (fDAB 0 2 0)) = true ∧ (srcS (st .x).team 2 0).toNat = 0 ∧
    reaches (stT .x last) (.sleep { fDAB 0 127 0 with imm := some 1048577 }) = true ∧
    0 < (srcS (st .x).team 127 (immOf { fDAB 0 127 0 with imm := some 1048577 })).toNat := by decide +kernel
theorem test_hyp_YieldAndSleep_expiry :
    let s := { stT .x (fun t => { t with wait := .sleep 7 }) with cc := 7 }
    (s.teamAt s.ev.x).wait = .sleep 7 ∧ 7 ≤ s.cc := by decide +kernel

/-- A stream of a sequencer. -/
def strm (e : Bool) : Stream := { pc := 0, clause := none, mask := 1, rep := 0, inRep := none, wait := .none, ended := e }
theorem test_hyp_ExitLeavesLanes_streams : ∀ b : Bool,
    let s := stT .x (fun t => { t with streamA := some (strm b) })
    reaches s (.exit {}) = true ∧ s.team.status = .live ∧ quietB s = true ∧ s.team.live &&& ~~~(presentSet s.team (modOf .x {})) = 0 ∧
    s.team.stream .mat = some (strm b) ∧ s.team.stream .copy = none ∧ (strm b).ended = b := by decide +kernel
theorem test_hyp_ForkAndJoin :
    reaches (st .x) (.fork (lab 0 0)) = true ∧ (st .x).team.stream (engOf (lab 0 0)) = none ∧
    reaches (stT .x (fun t => { t with streamA := some (strm false) })) (.fork (lab 0 0)) = true ∧
    (stT .x (fun t => { t with streamA := some (strm false) })).team.stream (engOf (lab 0 0)) = some (strm false) ∧
    reaches (stT .x last) (.rdv {}) = true ∧ (st .x).curStream = none ∧ (st .x).team.stream (engOf {}) = none := by decide +kernel
theorem test_hyp_ForkAndJoin_joins :
    (∀ b : Bool, reaches (stT .x (fun t => last { t with streamA := some (strm b) })) (.rdv {}) = true ∧ (strm b).ended = b ∧
      (stT .x (fun t => { t with streamA := some (strm b) })).team.stream (engOf {}) = some (strm b)) ∧
    reaches { stT .x (fun t => last { t with streamA := some (strm false) }) with curStream := some .mat } (.rdv {}) = true := by decide +kernel
theorem test_hyp_BarrierArrivals :
    (lvlNum .core = 0 ∨ lvlNum .core ≤ ((st .x).gridAt (st .x).team.grid).cohLvl) ∧ quietB (st .x) = true ∧ kGet (lvlNum .core) (st .x).team.arrivals = none ∧
    reaches (st .x) (.bara .core {}) = true ∧ reaches (stT .x last) (.bar .core {}) = true ∧ reaches (stT .x last) (.bare .core (fDAB 1 0 0)) = true ∧
    ((st .x).gridAt (st .x).team.grid).replay = false := by decide +kernel
theorem test_hyp_BarrierArrivals_waits :
    let s := stT .x (fun t => last { t with arrivals := [(0, 0)] })
    let s1 := s.setBarrier (barrierKey s s.team.block 0) { (barrierOf s .core) with gen := 1 }
    reaches s (.barw .core {}) = true ∧ kGet (lvlNum .core) s.team.arrivals = some 0 ∧ (barrierOf s .core).gen ≤ 0 ∧
    reaches s1 (.barw .core {}) = true ∧ kGet (lvlNum .core) s1.team.arrivals = some 0 ∧ 0 < (barrierOf s1 .core).gen := by decide +kernel
theorem test_hyp_BarrierTraps :
    ¬(lvlNum .quad = 0 ∨ lvlNum .quad ≤ ((st .x).gridAt (st .x).team.grid).cohLvl) ∧
    (∀ i ∈ [Instr.bara .quad {}, .barw .quad {}, .bar .quad {}, .bare .quad (fDAB 1 0 0)], reaches (stT .x last) i = true) ∧
    kGet (lvlNum .core) (stT .x (fun t => { t with arrivals := [(0, 0)] })).team.arrivals = some 0 ∧
    reaches (stT .x (fun t => { t with arrivals := [(0, 0)] })) (.bara .core {}) = true ∧ reaches (stT .x last) (.barw .core {}) = true := by
  decide +kernel

/-- Team 0, the only team of its block, has arrived at the core barrier. -/
def stB : State :=
  let s := { stT .x (fun t => { t with arrivals := [(0, 0)], wait := .barrier .core 0 none }) with
    ev := { (st .x).ev with x := 0, y := 0 } }
  s.setBarrier (barrierKey s 0 0) { s.barrierAt (barrierKey s 0 0) with arrived := [0] }
theorem test_hyp_BarrierGenerationCompletes :
    stB.ev.x ≤ 4 ∧ (stB.barrierAt (barrierKey stB stB.ev.y stB.ev.x)).arrived ≠ [] ∧ (stB.gridAt (stB.blockAt stB.ev.y).grid).det = false ∧
    (stB.gridAt (stB.blockAt stB.ev.y).grid).replay = false ∧
    (∀ k ∈ barrierBlocks stB stB.ev.y stB.ev.x, ∀ p ∈ stB.teams, p.2.block = k → p.2.status ≠ .ended →
      p.1 ∈ (stB.barrierAt (barrierKey stB stB.ev.y stB.ev.x)).arrived) ∧
    kGet 0 stB.teams = some (stB.teamAt 0) ∧ (stB.teamAt 0).wait = .barrier (lvlOf stB.ev.x) 0 none := by decide +kernel
theorem test_hyp_BarrierGenerationCompletes_open :
    let s0 := (stB.modGrid 0 (fun g => { g with det := true, cohLvl := 1, cohSize := 1, groups := [1] }))
    let s := { s0 with ev := { s0.ev with x := 1 } }
    let u := s.setBarrier (barrierKey s 0 1) { s.barrierAt (barrierKey s 0 1) with arrived := [0], phases := [(0, 0)] }
    (u.gridAt (u.blockAt u.ev.y).grid).det = true ∧ u.ev.x ≠ 0 ∧ 0 ∈ barrierBlocks u u.ev.y u.ev.x ∧
    kGet 0 (u.barrierAt (barrierKey u u.ev.y u.ev.x)).phases = some 0 ∧ (u.blockAt 0).relPhase ≤ 0 := by decide +kernel
theorem test_hyp_BarrierGenerationCompletes_det :
    let s0 := (stB.modGrid 0 (fun g => { g with det := true, cohLvl := 1, cohSize := 1, groups := [1] })).modBlock 0 (fun b => { b with relPhase := 1, phase := 1 })
    let s := { s0 with ev := { s0.ev with x := 1 } }
    let u := s.setBarrier (barrierKey s 0 1) { s.barrierAt (barrierKey s 0 1) with arrived := [0], phases := [(0, 0)], last := 1 }
    u.ev.x ≤ 4 ∧ (u.barrierAt (barrierKey u u.ev.y u.ev.x)).arrived ≠ [] ∧ (u.gridAt (u.blockAt u.ev.y).grid).det = true ∧
    (u.gridAt (u.blockAt u.ev.y).grid).replay = false ∧ barrierBlocks u u.ev.y u.ev.x = [0] ∧
    kGet 0 (u.barrierAt (barrierKey u u.ev.y u.ev.x)).phases = some 0 ∧ 0 < (u.blockAt 0).relPhase ∧ (u.teams.all (fun p => p.1 = 0)) = true := by decide +kernel
/-- A block that ended in its last phase, which is not released. -/
theorem test_hyp_BarrierGenerationCompletes_ended :
    let s0 := (stB.modGrid 0 (fun g => { g with det := true, cohLvl := 1, cohSize := 1, groups := [1] }))
    let u := { s0 with ev := { s0.ev with x := 1 } }
    0 ∈ barrierBlocks u u.ev.y u.ev.x ∧ kGet 0 (u.barrierAt (barrierKey u u.ev.y u.ev.x)).phases = none ∧ (u.blockAt 0).relPhase ≤ (u.blockAt 0).phase ∧
    barrierBlocks u u.ev.y u.ev.x = [0] := by decide +kernel
theorem test_hyp_BarrierArrivals_last :
    (∀ p ∈ (stT .x last).teams, p.1 ∈ [0]) ∧ (stT .x last).cur = 0 ∧
    (let s := (stT .x last).setTeamAt 7 (stT .x last).team
     (∃ k ∈ barrierBlocks s s.team.block 0, ∃ p ∈ s.teams, p.2.block = k ∧ p.2.status ≠ .ended ∧ p.1 ∉ (barrierOf s .core).arrived ++ [s.cur])) := by decide +kernel
theorem test_hyp_BarrierGenerationCompletes_bare :
    let s := stB.setTeamAt 0 { stB.teamAt 0 with wait := .barrier .core 0 (some 1) }
    (s.teamAt 0).wait = .barrier (lvlOf s.ev.x) (s.barrierAt (barrierKey s s.ev.y s.ev.x)).gen (some 1) ∧ (1 : Nat) ≠ 31 ∧ kSorted s.teams = true ∧
    kGet 0 s.teams = some (s.teamAt 0) ∧ (s.teamAt 0).block ∈ barrierBlocks s s.ev.y s.ev.x ∧
    barrierKey s (s.teamAt 0).block s.ev.x = barrierKey s s.ev.y s.ev.x := by decide +kernel
theorem test_hyp_SoftwareTrapAndWatchCheck :
    let s := stT .x (fun t => handler (last t))
    let k := stT .x (fun t => last { t with struck := true })
    reaches s (.trap { imm := some 7 }) = true ∧ s.team.trap.sup = false ∧ s.team.trap.tvec ≠ 0 ∧ (s.partAt s.team.partNo).sfuQ = [] ∧
    reaches s (.chkw (lab 0 0)) = true ∧ s.team.mask ≠ 0 ∧ releaseGate s s.cur = .clear ∧ reaches k (.chkw (lab 0 0)) = true ∧ k.team.mask ≠ 0 ∧
    releaseGate k k.cur = .struck := by decide +kernel
theorem test_hyp_SoftwareTrapAndWatchCheck_wait :
    let s := (stT .x last).modCore 0 (fun k => { k with watch := [{ id := 0, tid := 0, line := 0, wts := 0, ver := 0, fetched := 0, st := .pending }] })
    reaches s (.chkw (lab 0 0)) = true ∧ releaseGate s s.cur = .wait := by decide +kernel
theorem test_hyp_TailRecords :
    let s := stT .x (fun t => { t with sregs := [(2, 0x1040)] })
    reaches s (.tail (fDAB 0 2 0)) = true ∧ (srcS64 s.team 2 0).toNat % 64 = 0 ∧ (s.gridAt s.team.grid).tails.length < 256 ∧
    (s.gridAt s.team.grid).failed = false ∧ (checkGlobal s s.cur 0x1040 1 wantRead matches .ok none 0x1040 10 0) = true ∧ poisonIn s 0x1040 64 = false ∧
    quietB s = true ∧ (s.blockAt s.team.block).staged = [] ∧
    (match performRelease s s.cur (s.gridAt s.team.grid).lrec.cscope with
     | some r => (loadLine r s.team.core (0x1040 / 64) 10).isSome
     | none => false) = true := by decide +kernel
theorem test_hyp_TailRecords_traps :
    reaches (stT .x (fun t => { t with sregs := [(2, 0x1020)] })) (.tail (fDAB 0 2 0)) = true ∧
    (srcS64 (stT .x (fun t => { t with sregs := [(2, 0x1020)] })).team 2 0).toNat % 64 ≠ 0 ∧
    256 ≤ (((st .x).modGrid 0 (fun g => { g with tails := List.replicate 256 { block := 0, seq := 0, bytes := [] } })).gridAt 0).tails.length := by
  decide +kernel
theorem test_hyp_TrapEntry :
    let s := stT .x handler
    s.curStream = none ∧ s.team.trap.sup = false ∧ s.team.trap.tvec ≠ 0 ∧ (s.partAt s.team.partNo).sfuQ = [] ∧ s.team.warps ≤ 32 ∧
    s.team.latch.ptr < 4 ∧ s.team.latch.v0 < 4 ∧ s.team.latch.v1 < 4 ∧ s.team.latch.v2 < 4 := by decide +kernel
theorem test_hyp_TrapWithoutHandlerEndsTeam :
    (st .x).curStream = none ∧ (st .x).team.trap.tvec = 0 ∧ (stT .x sup).curStream = none ∧ (stT .x sup).team.trap.sup = true := by decide +kernel
theorem test_hyp_EncodingChecksComeFirst :
    let i := Instr.sadd (fDAB 1 2 64)
    let j := Instr.sadd (fDAB 64 2 3)
    let k := Instr.iadd (fDAB 1 124 3)
    (st .s).curStream = none ∧ (match encOf k with
      | some (f, x) => check3 k f x && placeOk (st .v).team k f x && latchBad (st .v).team (kindA f x) x.a.toNat
      | none => false) = true ∧
    (match encOf i with
      | some (f, x) => check3 i f x && placeOk (st .s).team i f x && !check4Static f x
      | none => false) = true ∧
    (match encOf j with
      | some (f, x) => check3 j f x && placeOk (st .s).team j f x && !check4Static f x
      | none => false) = true := by decide +kernel
theorem test_hyp_EncodingChecksComeFirst_illegal :
    (match encOf (.endifP) with
      | some _ => true
      | none => false) = true ∧
    (match encOf (.sadd { fDAB 1 2 3 with hold := 1 }) with
      | some (f, x) => !check3 (.sadd { fDAB 1 2 3 with hold := 1 }) f x
      | none => false) = true := by decide +kernel
theorem test_hyp_UniformGuardSkips :
    let x : Fields := { fDAB 1 2 3 with mod := some 0xF2000380 }
    (match encOf (.sadd x) with
      | some (f, x) => streamOk (st .s).curStream (.sadd x) f x && (encodingTrap (st .s).team (.sadd x) f x).isNone && decide (f.guard = .uniform) &&
          !uniformHolds (st .s).team (modOf f.cls x)
      | none => false) = true := by decide +kernel
theorem test_hyp_FullFlagHolds :
    let s := stT .q (fun t => { t with flags := [(0, 63)] })
    (match encOf (.rcp (fDAB 1 2 0)) with
      | some (f, x) => streamOk s.curStream (.rcp x) f x && (encodingTrap s.team (.rcp x) f x).isNone && counts s.team f (modOf f.cls x) &&
          decide (selFlag s.team (modOf f.cls x) = some 0) && decide (63 ≤ s.team.flag 0)
      | none => false) = true := by decide +kernel

/-! ### Hypotheses that are met: the system instructions -/
theorem test_hyp_SystemReads :
    let s := stT .y sup
    reaches s (.srr (fDAB 1 1 0)) = true ∧ reaches s (.srr (fDAB 2 0x20 0)) = true ∧ reaches s (.srr (fDAB 2 0x21 0)) = true ∧
    reaches s (.capr { fDAB 1 0 0 with imm := some 0xFFC }) = true ∧ reaches s (.capr { fDAB 1 0 0 with imm := some 0x1000 }) = true ∧
    reaches s (.capr { fDAB 1 0 0 with imm := some 2 }) = true ∧
    reaches s (.phase { fDAB 0 127 0 with imm := some 254 }) = true ∧ (srcS s.team 127 254).toNat ≤ 254 ∧
    reaches s (.phase { fDAB 0 127 0 with imm := some 255 }) = true ∧ 254 < (srcS s.team 127 255).toNat := by decide +kernel
theorem test_hyp_SpecialRegisterWrites :
    let s := stT .y sup
    (∀ d ∈ [0x0F, 0x10, 0x11, 0x15, 0x16, 0x17, 0x18, 0x20, 0x21], reaches s (.srw { fDAB d 127 0 with imm := some 4 }) = true) ∧
    reaches s (.srw { fDAB 0x15 127 0 with imm := some 0x00010921 }) = true ∧ nfValid 0x00010921 = true ∧
    (srcS s.team 127 (immOf { fDAB 0x10 127 0 with imm := some 4 })).toNat ≤ 4 ∧ (srcS s.team 127 4).toNat < 128 ∧ srcS s.team 120 4 = 0 ∧
    reaches s (.srw (fDAB 0x18 120 0)) = true ∧ (srcS64 s.team 127 4).toNat % 4 = 0 ∧ s.team.trap.sup = true ∧ s.team.inRep = none := by decide +kernel
theorem test_hyp_SpecialValues :
    (∀ row ∈ specialWords (st .y), reaches (st .y) (.srr (fDAB 1 row.1 0)) = true) ∧
    (∀ row ∈ specialWords (st .s), row.1 < 0x30 → reaches (st .s) (.srd (fDAB 1 row.1 0)) = true) ∧
    reaches (st .s) (.srd (fDAB 1 0x27 120)) = true ∧ (srcS (st .s).team 120 0).toNat < (st .s).team.warps ∧
    reaches (st .s) (.srd { fDAB 1 0x27 127 with imm := some 32 }) = true ∧ (st .s).team.warps ≤ (srcS (st .s).team 127 32).toNat := by decide +kernel
theorem test_hyp_SpecialValues_write :
    let s := stT .y sup
    ∀ row ∈ writableWords, let f : Fields := { fDAB row.1 127 0 with imm := some (if 0x15 ≤ row.1 then 0x00010921 else 4) }
      row.2 (srcS s.team f.a.toNat (immOf f)) = true ∧ reaches s (.srw f) = true ∧ s.team.trap.sup = true ∧ s.team.inRep = none ∧
      (match exec (.srw f) s with
       | .next t => reaches t (.srr (fDAB 1 row.1 0))
       | _ => false) = true := by decide +kernel
theorem test_hyp_PrivilegeTraps :
    (st .y).team.trap.sup = false ∧ reaches (stT .y last) (.halt {}) = true ∧ reaches (st .y) (.fmap (fDAB 1 2 0)) = true ∧
    reaches (st .y) (.tlbinv (fDAB 0 120 0)) = true ∧ reaches (stT .y last) .tret = true ∧
    ∀ d ∈ [0x0F, 0x20, 0x21], reaches (st .y) (.srw { fDAB d 127 0 with imm := some 4 }) = true := by decide +kernel
theorem test_hyp_TrapReturn :
    (∀ b : Bool, (stT .y (fun t => last { sup t with trap := { (sup t).trap with tpcWritten := b } })).team.trap.tpcWritten = b ∧
      reaches (stT .y (fun t => last { sup t with trap := { (sup t).trap with tpcWritten := b } })) .tret = true) ∧
    (stT .y (fun t => last (sup t))).team.trap.sup = true ∧ (stT .y sup).team.trap.savedWait = .none ∧
    leNat (stashRead (stT .y (fun t => last (sup t))) 0 (saveOff (stT .y sup) (stT .y sup).team + 0x2A) 2) = (stT .y sup).team.stack.length ∧
    leNat (stashRead (stT .y sup) 0 (saveOff (stT .y sup) (stT .y sup).team + 0x28) 1) / 4 % 2 = 0 ∧ (stT .y sup).team.warps ≤ 32 ∧
    leNat (stashRead (stT .y sup) 0 (saveOff (stT .y sup) (stT .y sup).team + 0x28) 1) % 4 ≤ 2 ∧
    (∀ e, e < 3 → leNat (stashRead (stT .y sup) 0 (saveOff (stT .y sup) (stT .y sup).team + 0x29) 1) / 4 ^ e % 4 ≤ 2) := by decide +kernel
theorem test_hyp_TrapReturn_continuation :
    let s0 := stT .y (fun t => last { sup t with trap := { (sup t).trap with savedWait := .contDone 0x3000 5 } })
    let s := s0.modBlock 0 (fun b => { b with stash := bWrite b.stash (saveOff s0 s0.team + 0x28) [4] })
    reaches s .tret = true ∧ s.team.trap.savedWait = .contDone 0x3000 5 ∧ s.team.trap.tpcWritten = false ∧ s.team.trap.savedClause = none ∧
    leNat (stashRead s 0 (saveOff s s.team + 0x28) 1) / 4 % 2 = 1 ∧ leNat (stashRead s 0 (saveOff s s.team + 0x2A) 2) = s.team.stack.length := by decide +kernel
theorem test_hyp_TrapReturn_boundary :
    let s0 := stT .y (fun t => last (sup t))
    let s := s0.modBlock 0 (fun b => { b with stash := bWrite b.stash (saveOff s0 s0.team + 0x28) [4] })
    reaches s .tret = true ∧ leNat (stashRead s 0 (saveOff s s.team + 0x28) 1) / 4 % 2 = 1 ∧ s.team.trap.savedWait = .none ∧
    reaches (stT .y (fun t => last { sup t with stack := [ent .ifK] })) .tret = true ∧
    leNat (stashRead s 0 (saveOff s s.team + 0x2A) 2) ≠ (stT .y (fun t => last { sup t with stack := [ent .ifK] })).team.stack.length := by
  decide +kernel
theorem test_hyp_SupervisorInstructions :
    let s := stT .y sup
    s.team.trap.sup = true ∧ reaches (stT .y (fun t => last (sup t))) (.halt {}) = true ∧ reaches s (.fmap (fDAB 1 2 0)) = true ∧ s.team.mask ≠ 0 ∧
    reaches (stT .y (fun t => none' (sup t))) (.fmap (fDAB 1 2 0)) = true ∧ reaches s (.tlbinv (fDAB 0 120 0)) = true ∧
    (∀ p ∈ s.teams, namedCore 0 s.team.core p.2.core = true → (s.gridAt p.2.grid).asid = (s.gridAt s.team.grid).asid →
      p.2.memQ.any translatedOp = false ∧ p.2.matQ.any translatedMat = false) ∧
    (∀ p ∈ s.blocks, namedCore 0 s.team.core p.2.core = true → (s.gridAt p.2.grid).asid = (s.gridAt s.team.grid).asid → p.2.staged = []) ∧
    (∀ p ∈ s.cores, namedCore 0 s.team.core p.1 = true → p.2.sbuf = []) := by decide +kernel

/-! ### Hypotheses that are met: class M -/

def acc (blk : Option Nat) (addr : Nat) : LaneAcc := { lane := 0, blk := blk, addr := addr, va := addr, data := 5, data2 := 0, lease := 10, mclass := 0 }

def mop (k : MKind) (as : List LaneAcc) : MemOp :=
  { id := 0, kind := k, dst := some 4, pdst := 3, accs := as, acq := false, rel := false, scope := 0, scls := 1, flag := some 0, phase := 0, performed := false }

/-- The accesses of present lanes whose checks pass. -/
def accsOf (s : State) (f : Fields) (n : Nat) (w : Want) : List LaneAcc :=
  (laneList s.team.lanes (presentSet s.team (modOf .m f))).filterMap (fun l =>
    match checkAccess s s.cur (mSpace (modOf .m f)) (laneEa s.team f l) n w with
    | .ok b a lease k => some { lane := l, blk := b, addr := a, va := laneEa s.team f l, data := 0, data2 := 0, lease := lease, mclass := k }
    | _ => none)

/-- Two lanes at work, s2 and s3 the base 0x1100. -/
def stM : State := stT .m (fun t => { t with mask := 3, sregs := [(2, 0x1100)] })

def fM : Fields := fDAB 4 90 120
/-- Team 0 in block 1 of a cohort of two blocks, the second one with a tile of one cell, and a halo of one, at offset 0. -/
def stPeer (q : BStatus) : State :=
  let t : Tile := { off := 0, rows := 1, cols := 1, elem := 4, h := 1, nbr := [] }
  let s := stM.modGrid 0 (fun g => { g with blocks := 2, cohLvl := 1, cohSize := 2, groups := [2] })
  { s with blocks := [(0, { s.blockAt 0 with stashBytes := 4096 }), (1, { s.blockAt 0 with stashBytes := 4096, idx := 1, status := q, tiles := [(0, t)] })] }
theorem test_hyp_StashChecks :
    let s := stM.modBlock 0 (fun b => { b with stashBytes := 4096 })
    let h := s.setTeam { s.team with trap := { s.team.trap with sup := true } }
    s.team.block = 0 ∧ s.team.trap.sup = false ∧ ownLimit s = 4096 ∧ 4096 < ownLimit h ∧ (s.blockAt 0).windows = [] ∧ (s.gridAt s.team.grid).cohLvl = 0 ∧
    checkAccess s s.cur 1 4092 4 wantWrite = .ok (some 0) 4092 10 0 ∧ checkAccess s s.cur 1 4096 4 wantWrite = stashRefused 4096 1 ∧
    checkAccess h s.cur 1 4096 4 wantWrite = .ok (some 0) 4096 10 0 ∧ checkAccess s s.cur 1 (2 ^ 32) 4 wantRead = stashRefused (2 ^ 32) 1 ∧
    checkAccess s s.cur 1 (2 ^ 22) 4 wantRead = stashRefused (2 ^ 22) 1 ∧ checkAccess s s.cur 1 2 4 wantRead = .bad 2 { cause := 0x11, i0 := 2 } ∧
    checkAccess s s.cur 2 0 4 wantRead = stashRefused 0 3 := by decide +kernel
theorem test_hyp_StashChecks_peer :
    let s := stPeer .resident
    (0, 2) = levelGroup (s.gridAt s.team.grid) 1 (s.blockAt s.team.block).idx ∧ (s.gridAt s.team.grid).cohLvl ≠ 0 ∧ kGet 1 s.blocks = some (s.blockAt 1) ∧
    (s.blockAt 1).grid = s.team.grid ∧ (s.blockAt 1).idx = 1 ∧ (s.blockAt 1).status ≠ .retired ∧ (s.blockAt 1).windows = [] ∧
    (∀ p ∈ s.blocks, p.2.grid = s.team.grid → p.2.idx = 1 → p.1 = 1) ∧ 2 ≤ 2 ^ 23 / 2 ^ 22 ∧
    (∀ p ∈ (stPeer .retired).blocks, p.2.grid = s.team.grid → p.2.idx = 1 → p.2.status = .retired) ∧
    checkAccess s s.cur 2 (2 ^ 22) 4 wantRead = .ok (some 1) 0 10 0 ∧ checkAccess s s.cur 2 (2 ^ 22) 4 wantWrite = .bad 8 { cause := 0x17, i0 := 2 ^ 22 } ∧
    checkAccess s s.cur 2 (2 ^ 22 + 16) 4 wantWrite = .ok (some 1) 16 10 0 ∧ checkAccess s s.cur 2 (2 ^ 22 + 4096) 4 wantRead = stashRefused (2 ^ 22 + 4096) 1 ∧
    checkAccess s s.cur 2 (2 ^ 23) 4 wantRead = stashRefused (2 ^ 23) 2 ∧ checkAccess (stPeer .retired) s.cur 2 (2 ^ 22) 4 wantRead = stashRefused (2 ^ 22) 7 := by
  decide +kernel
theorem test_hyp_StashChecks_halo : touchesHalo ((stPeer .resident).blockAt 1) 0 4 :=
  ⟨_, List.mem_singleton.mpr rfl, 0, 0, 0, by decide +kernel⟩
/-- The page of 0x1000 as the TLB of core 0 translates it, in a class, with a page record or without. -/
def stClass (mclass : Nat) (st : Option SealSt) : State :=
  let s := stM.modCore 0 (fun k => { k with tlb := k.tlb.map (fun e => { e with mclass := mclass, r := true, w := true, dirty := true }) })
  { s with pages := st.toList.map (fun q => (0x1000, { size := 4096, tail := 0, st := q, pending := 0, recalled := [] })) }
theorem test_hyp_GlobalChecks :
    let s := stClass 0 none
    s.team.core = 0 ∧ rfValid (regionOf s (dieOf s.team.core) (s.gridAt s.team.grid).asid 0x1100) = true ∧ s.team.walkFault = [] ∧ s.team.xlat = [] ∧
    (findTlb (s.coreAt s.team.core).tlb (s.gridAt s.team.grid).asid 0x1100).map (fun e => (permOk e 1, permOk e 2, e.dirty, backed s (e.ppage + (0x1100 - e.vpage)))) =
      some (true, true, true, true) ∧ extentGone s 0x1100 = false ∧ pageOf s 0x1100 = none ∧
    findTlb ([] : List TlbEntry) (s.gridAt s.team.grid).asid 0x1100 = none ∧ (0x1102 % 4 ≠ 0 ∧ 2 ^ 57 % 4 = 0) ∧
    checkAccess s s.cur 0 (2 ^ 64 + 0x1100) 4 wantWrite = .ok none 0x1100 10 0 ∧ checkAccess s s.cur 0 0x1102 4 wantRead = .bad 2 (globalFault 0x11 0x1102) ∧
    checkAccess s s.cur 0 0x1100 4 wantAppend = .bad 5 (globalFault 0x14 0x1100) ∧
    checkAccess s s.cur 0 (2 ^ 57) 4 wantRead = .bad 3 { globalFault 0x12 (2 ^ 57) with i2 := 0x10051, i3 := 2 } ∧
    checkAccess (stClass 1 none) s.cur 0 0x1100 4 wantWrite = .bad 7 (globalFault 0x16 0x1100) ∧
    checkAccess (stClass 1 (some .opened)) s.cur 0 0x1100 4 wantWrite = .bad 7 (globalFault 0x16 0x1100) ∧
    checkAccess (stClass 1 (some .sealed)) s.cur 0 0x1100 4 wantWrite = .bad 6 (globalFault 0x15 0x1100) ∧
    checkAccess (stClass 1 (some .sealing)) s.cur 0 0x1100 4 wantAppend = .ok none 0x1100 10 1 := by decide +kernel
theorem test_hyp_GlobalChecks_gone :
    let s := { stClass 3 none with plat := { (stClass 3 none).plat with extents := [{ base := 0x1000, len := 4096, port := 0, st := .lost }] } }
    extentGone s 0x1100 = true ∧ backed s 0x1100 = true ∧ wantWrite.bits ≠ 1 ∧ checkAccess s s.cur 0 0x1100 4 wantWrite = .bad 4 (globalFault 0x13 0x1100) := by decide +kernel
/-- Lanes 0 and 1 at 0x1102 and, by a register, lane 1 at 0x1104: the first is misaligned for four bytes. -/
def stLanes : State := stT .m (fun t => { t with mask := 3, sregs := [(2, 0x1102)] })
theorem test_hyp_LaneFaults :
    (∀ row ∈ laneRows, reaches stLanes (row.1 fM) = true) ∧ presentSet stLanes.team (modOf .m fM) ≠ 0 ∧
    laneOutcomes stLanes fM 4 wantWrite = [(0, 0x1102, .bad 2 (globalFault 0x11 0x1102)), (1, 0x1102, .bad 2 (globalFault 0x11 0x1102))] ∧
    (let s := stM.modCore 0 (fun k => { k with tlb := [] })
     (∀ row ∈ laneRows, reaches s (row.1 fM) = true) ∧ laneOutcomes s fM 4 wantWrite = [(0, 0x1100, .miss), (1, 0x1100, .miss)]) := by decide +kernel
theorem test_hyp_LaneFaults_first :
    firstFault [(0, 0x1102, .bad 2 (globalFault 0x11 0x1102)), (1, 0x1102, .bad 2 (globalFault 0x11 0x1102))] 2 (globalFault 0x11 0x1102) := by
  refine ⟨by decide, ⟨[], _, _, rfl, rfl, by simp⟩, by simp, by simp⟩
theorem test_hyp_LoadsEnterQueue :
    (∀ row ∈ loadRows, reaches stM (row.1 fM) = true) ∧ presentSet stM.team (modOf .m fM) ≠ 0 ∧ lanesPass stM fM 16 wantRead (accsOf stM fM 16 wantRead) := by
  unfold lanesPass; decide +kernel
theorem test_hyp_StoresAndAtomicsEnterQueue :
    (∀ row ∈ storeRows, reaches stM (row.1 fM) = true) ∧ (∀ row ∈ atomRows, reaches stM (row.1 fM) = true) ∧ mSem (modOf .m fM) < 2 ∧
    lanesPass stM fM 4 wantWrite (accsOf stM fM 4 wantWrite) ∧ lanesPass stM fM 4 wantAtom (accsOf stM fM 4 wantAtom) ∧
    (stM.gridAt stM.team.grid).replay = false ∧ (stM.gridAt stM.team.grid).det = false := by
  unfold lanesPass; decide +kernel
theorem test_hyp_StoresAndAtomicsEnterQueue_release :
    let f := { fM with mod := some 0x01A10000 }
    let s := stM.setTeam { stM.team with memQ := [mop (.load 4 false false) [acc none 0x1100]] }
    reaches s (.st32 f) = true ∧ 2 ≤ mSem (modOf .m f) ∧ watchesClear s ∧ s.team.memQ ≠ [] := by
  unfold watchesClear; decide +kernel

/-- A watch entry of team 0 in this state. -/
def withWatch (s : State) (st : WState) : State :=
  s.modCore 0 (fun k => { k with watch := [{ id := 0, tid := 0, line := 68, ver := 3, wts := 0, fetched := 0, st := st }] })
theorem test_hyp_ReleasesWait : ∀ w ∈ [WState.pending, .struck],
    let f := { fM with mod := some 0x01A10000 }
    let s := withWatch stM w
    (∀ row ∈ storeRows, reaches s (row.1 f) = true) ∧ (∀ row ∈ atomRows, reaches s (row.1 f) = true) ∧ reaches s (.fence { mod := some 0x01B10000 }) = true ∧
    presentSet s.team (modOf .m f) ≠ 0 ∧ presentSet s.team (modOf .m { mod := some 0x01B10000 }) ≠ 0 ∧ 2 ≤ mSem (modOf .m f) ∧ 2 ≤ mSem 0x01B10000 ∧
    (s.gridAt s.team.grid).det = false ∧ lanesPass s f 4 wantWrite (accsOf s f 4 wantWrite) ∧ lanesPass s f 4 wantAtom (accsOf s f 4 wantAtom) := by
  unfold lanesPass; decide +kernel
theorem test_hyp_ReleasesWait_watches :
    watchesOpen (withWatch stM .pending) ∧ watchesStruck (withWatch stM .struck) ∧ watchesClear (withWatch stM .confirmed) := by
  unfold watchesOpen watchesStruck watchesClear watchesOpen; decide +kernel
theorem test_hyp_ReleasesWait_classX :
    let s := stT .x (fun t => last { t with memQ := [mop (.load 4 false false) [acc none 0x1100]] })
    reaches s (.exit {}) = true ∧ presentSet s.team (modOf .x {}) ≠ 0 ∧ watchesClear s ∧ mustWait s ∧ (s.gridAt s.team.grid).replay = false ∧
    kGet (lvlNum .core) s.team.arrivals = none ∧ lvlNum .core = 0 ∧ reaches s (.bara .core {}) = true ∧ reaches s (.bar .core {}) = true ∧
    reaches s (.bare .core (fDAB 1 0 0)) = true ∧ watchesOpen (withWatch s .pending) ∧ watchesStruck (withWatch s .struck) ∧
    reaches (withWatch s .pending) (.exit {}) = true ∧ reaches (withWatch s .struck) (.bar .core {}) = true := by
  unfold watchesStruck watchesOpen watchesClear mustWait; decide +kernel
theorem test_hyp_FencesPrefetchesScalarLoad :
    let s := stT .s (fun t => { t with sregs := [(2, 0x1100)] })
    reaches s (.sld { fDAB 4 2 0 with imm := some 4 }) = true ∧
    (checkGlobal s s.cur (srcS64 s.team 2 0 + (4 : Word).signExtend 64).toNat 4 wantRead matches .ok none 0x1104 10 0) = true ∧
    reaches stM (.fence { mod := some 0x01B10000 }) = true ∧ watchesClear stM ∧ reaches stM (.fence { mod := some 0x01910000 }) = true ∧
    mSem 0x01910000 < 2 ∧ reaches stM (.fenceq { imm := some 31 }) = true ∧ reaches stM (.pref (fDAB 1 90 120)) = true := by
  unfold watchesClear; decide +kernel
theorem test_hyp_FencesPrefetchesScalarLoad_absent :
    let s := stT .m none'
    presentSet s.team (modOf .m fM) = 0 ∧ (∀ i ∈ loadRows.map (fun r => r.1 fM) ++ storeRows.map (fun r => r.1 fM) ++ atomRows.map (fun r => r.1 fM), reaches s i = true) ∧
    reaches s (.sflush {}) = true ∧ reaches s (.hpush (fDAB 1 0 0)) = true := by decide +kernel

/-- The same with the page of class append, and with a stash of 4,096 bytes. -/
def stApp : State := stM.modCore 0 (fun k => { k with tlb := [{ placedEntry with mclass := 1 }] })

def stStash : State := (stT .m (fun t => { t with mask := 3, sregs := [(2, 0x1100), (4, 0x40), (6, 0)] })).modBlock 0 (fun b => { b with stashBytes := 4096 })
theorem test_hyp_PagesWindowsAndTilesEnterQueue_append :
    let f := { fDAB 4 90 3 with imm := some 2 }
    reaches stApp (.append f) = true ∧ mSem (modOf .m f) < 2 ∧ presentSet stApp.team (modOf .m f) ≠ 0 ∧
    (checkGlobal stApp stApp.cur (srcBase stApp.team 90).toNat 1 wantAppend matches .ok none 0x1100 10 1) = true ∧
    reaches stApp (.sealPage (fDAB 0 90 0)) = true ∧ watchesClear stApp := by
  unfold watchesClear; decide +kernel
theorem test_hyp_PagesWindowsAndTilesEnterQueue_windows :
    let f := { fDAB 92 90 0 with imm := some 128 }
    let g := { fDAB 92 90 0 with imm := some 65 }
    reaches stStash (.smap f) = true ∧ presentSet stStash.team (modOf .m f) ≠ 0 ∧
    windowOk stStash stStash.team (srcU stStash.team 92 0).toNat (srcBase stStash.team 90).toNat 128 = true ∧
    (∀ p ∈ pagesOf stStash stStash.team (srcBase stStash.team 90).toNat 128, (checkGlobal stStash stStash.cur p.1 1 wantMap matches .ok none _ _ _) = true) ∧
    reaches stStash (.smap g) = true ∧ windowOk stStash stStash.team (srcU stStash.team 92 0).toNat (srcBase stStash.team 90).toNat 65 = false := by
  decide +kernel
theorem test_hyp_PagesWindowsAndTilesEnterQueue_unmap :
    let s := stStash.modBlock 0 (fun b => { b with windows := [{ off := 0x40, base := 0x1100, len := 128, leases := [10], maps := [(0, 0x1100, 128)], lines := [] }] })
    reaches s (.sunmap (fDAB 92 0 0)) = true ∧ (0x40, 128) ∈ windowsAhead s s.cur ∧ (srcU s.team 92 0).toNat = 0x40 ∧
    reaches stStash (.sunmap (fDAB 92 0 0)) = true ∧ windowsAhead stStash stStash.cur = [] ∧ reaches stStash (.sflush {}) = true ∧
    reaches stStash (.hpush (fDAB 3 0 0)) = true := by decide +kernel

/-- A tile descriptor of two rows and two columns of one byte, halo 1, no neighbours (R207). -/
def tileBytes (cols : Byte) : List Byte := [0, 2, 0, 0, 2, 0, cols, 0, 1, 1, 0, 0, 255, 255, 255, 255, 255, 255, 255, 255] ++ List.replicate 12 0
theorem test_hyp_PagesWindowsAndTilesEnterQueue_hdecl : ∀ p ∈ [((2 : Byte), true), (0, false)],
    let s := stStash.modBlock 0 (fun b => { b with stash := bWrite [] 0x40 (tileBytes p.1) })
    let f := { fDAB 1 92 0 with mod := some 0x00050000 }
    reaches s (.hdecl f) = true ∧ presentSet s.team (modOf .m f) ≠ 0 ∧
    (checkStash s s.cur 1 (exactEa (((srcBase s.team 92).toNat : Int) + (0 : Word).toInt)) 32 1 false matches .ok (some 0) 0x40 _ _) = true ∧ s.team.memQ = [] ∧
    fillBad s 0 0x40 32 = false ∧
    (match classLoad s (mSclsV (modOf .m f)) 0 0x40 32 with
     | some (q, bs) => decide (tileOk q s.team 1 (tileOf bs).1 (tileOf bs).2 = p.2)
     | none => false) = true := by decide +kernel

/-! ### Hypotheses that are met: operations performed, coherence -/
/-- Team 0 with one operation in its memory queue, which the event names. -/
def stO (o : MemOp) : State :=
  let s := stStash.setTeam { stStash.team with memQ := [o], flags := [(0, 1)] }
  { s with ev := { s.ev with x := 0, y := o.id } }

def kinds : List MKind := [.load 4 false false, .atom .add true, .append 4 0x1000 0x1000 true, .sload, .store 4]
theorem test_hyp_MemoryOperationsComplete : ∀ k ∈ kinds,
    let s := stO { mop k [acc none 0x1100] with performed := true }
    (s.teamAt s.ev.x).memQ.find? (fun p => p.id = s.ev.y) = some { mop k [acc none 0x1100] with performed := true } ∧ (s.teamAt s.ev.x).warps ≤ 32 ∧
    (∀ e ∈ (s.coreAt (s.teamAt s.ev.x).core).sbuf, e.tid ≠ s.ev.x) ∧ ([acc none 0x1100].map (fun a => a.lane)).Nodup ∧
    (acc none 0x1100).lane < (s.teamAt s.ev.x).lanes ∧ (acc none 0x1100).data < 2 ^ 32 := by decide +kernel

def cop : L1Copy := { data := 9, wts := 0, ver := 0, le := 10, fetched := 0, own := false, expired := false }

/-- The operation may be performed. -/
def mayB (s : State) (o : MemOp) : Bool :=
  decide ((s.teamAt s.ev.x).memQ.find? (fun p => p.id = s.ev.y) = some o) && !o.performed && opReady s s.ev.x o && !heldByFenceq s s.ev.x 0 o.id &&
  decide (lostAcc s s.ev.x o = none) && decide (queuedDivergence s s.ev.x o = none) && !opPoisoned s s.ev.x o

theorem mayPerform_of_mayB {s : State} {o : MemOp} (h : mayB s o = true) : mayPerform s o := by
  simpa [mayB, mayPerform, namesOp, and_assoc] using h
theorem test_hyp_MemoryOperationsPerform_load :
    let o := mop (.load 4 false false) [acc none 0x1100]
    let s := (stO o).modCore 0 (fun k => { k with l1 := [(68, cop)] })
    mayB s o = true ∧ o.acq = false ∧ o.rel = false ∧ (s.blockAt (s.teamAt s.ev.x).block).staged = [] ∧ sealedLine s 68 = false ∧
    winsOf s (s.teamAt s.ev.x).core 68 = [] ∧ l1At s (s.teamAt s.ev.x).core 68 = some cop ∧ copyValid s (s.teamAt s.ev.x).core cop = true := by decide +kernel
theorem test_hyp_MemoryOperationsPerform_rest :
    (∀ o ∈ [mop (.load 4 true false) [acc (some 0) 60], mop (.store 4) [acc none 0x1100], mop (.store 4) [acc (some 0) 60]], mayB (stO o) o = true) ∧
    ((stO (mop .fence [])).blockAt 0).windows = [] ∧ 60 % 64 + 4 ≤ 64 ∧ ((stO (mop .fence [])).gridAt 0).det = false := by decide +kernel
theorem test_hyp_FencePerforms :
    (∀ p ∈ [(false, 6), (true, 1), (true, 2)], mayB (stO { mop .fence [] with acq := p.1, scope := p.2 }) { mop .fence [] with acq := p.1, scope := p.2 } = true) ∧
    l1At ((stO { mop .fence [] with acq := true, scope := 2 }).modCore 0 (fun k => { k with l1 := [(68, cop)] })) 0 68 = some cop := by decide +kernel

def apage (st : SealSt) : APage := { size := 0x1000, tail := 5, st := st, pending := 0, recalled := [] }
theorem test_hyp_AppendAndSealAtHome : ∀ p ∈ [SealSt.opened, .sealing],
    let o := mop (.append 4 0x1000 0x1000 false) [acc none 0x1100]
    let s := { stO o with pages := [(0x1000, apage p)] }
    mayB s o = true ∧ o.rel = false ∧ isStagedAppend s s.ev.x o = false ∧ o.overflow = false ∧ 0x1000 ≤ 2 ^ 30 ∧ o.accs ≠ [] ∧ kGet 0x1000 s.pages = some (apage p) ∧
    (5 + 4 - 1) / 4 * 4 + 4 * 1 ≤ 0x1000 ∧ (s.gridAt (s.teamAt s.ev.x).grid).det = false ∧
    (let u := (s.modGrid 0 (fun g => { g with det := true })).modBlock 0 (fun b => { b with ticket := true, inPlace := true })
     mayB u o = true ∧ (u.gridAt (u.teamAt u.ev.x).grid).det = true ∧ isStagedAppend u u.ev.x o = false ∧ o.turn u u.ev.x = true) := by decide +kernel
theorem test_hyp_AppendAndSealAtHome_seal :
    let s := { stE 0 68 0 0 with pages := [(0x1000, apage .sealing)] }
    pageOf s (64 * s.ev.y) = some (0x1000, apage .sealing) ∧ (apage .sealing).pending = 0 ∧
    kGet ({ stE 0x1000 0 0 0 with pages := [(0x1000, apage .sealing)] } : State).ev.x [(0x1000, apage .sealing)] = some (apage .sealing) ∧
    (∀ d ∈ s.dies, ∀ e ∈ d.2.dir, 0x1000 ≤ 64 * e.1 → 64 * e.1 < 0x1000 + (apage .sealing).size → e.2.tr = none ∧ e.2.waiting = []) := by decide +kernel
theorem test_hyp_AppendAndSealAtHome_busy :
    let k : Trans := { kind := .bi, req := 1, waitInv := 0, waitFwd := none, data := none, answered := true }
    let s := (stE 0x1000 0 0 0).modDie 0 (fun d => { d with dir := [(68, { Dir.reset with tr := some k })] })
    (∃ d ∈ s.dies, ∃ e ∈ d.2.dir, s.ev.x ≤ 64 * e.1 ∧ 64 * e.1 < s.ev.x + 0x1000 ∧ e.2.tr ≠ none) := by decide +kernel

/-- Two blocks of a cohort with a tile each; team 0 of block 0 pushes its tile towards the south, team 1 stands in block 1. -/
def tile (n : Nat) : Tile := { off := 0x200, rows := 2, cols := 2, elem := 1, h := 1, nbr := [0xFFFF, n, 0xFFFF, 0xFFFF] }

def stHalo (z : Nat) : State :=
  let s := stO { mop (.hpush 1) [] with pdst := 0 }
  let s := { s with ev := { s.ev with x := 0, y := 1, z := z } }
  let s := s.modBlock 0 (fun b => { b with tiles := [(1, tile 1)] })
  let s := s.setBlock 1 { s.blockAt 0 with idx := 1, tiles := [(1, tile 0xFFFF)] }
  s.modGrid 0 (fun g => { g with blocks := 2, cohLvl := 1, cohSize := 2, groups := [2] })
theorem test_hyp_HaloPushCopiesStrip_discards : ∀ ts ∈ [[], [(1, { tile 0xFFFF with rows := 3 })]],
    let s := (stHalo 1).modBlock 1 (fun b => { b with tiles := ts })
    neighbour s s.ev.x (tile 1) s.ev.z = some (1, s.blockAt 1) ∧ ¬(∃ p ∈ (s.blockAt 1).tiles, p.1 = s.ev.y ∧ sameShape p.2 (tile 1)) ∧
    (tile 1).nbr.getD s.ev.z 0xFFFF ≠ 0xFFFF := by
  unfold sameShape; decide +kernel
theorem test_hyp_HaloPushCopiesStrip : ∀ z ∈ [0, 1],
    let s := stHalo z
    let o := { mop (.hpush 1) [] with pdst := 0 }
    s.teams.filter (fun p => p.2.block = s.ev.x && p.2.status = .live) = [(0, s.team)] ∧ s.team.memQ = o :: [] ∧ o.kind = .hpush s.ev.y ∧
    o.performed = false ∧ s.ev.z < 4 ∧ o.pdst.testBit s.ev.z = false ∧ opReady s 0 o = true ∧ kGet s.ev.y (s.blockAt s.ev.x).tiles = some (tile 1) ∧
    (z = 0 → (tile 1).nbr.getD s.ev.z 0xFFFF = 0xFFFF) ∧
    (z = 1 → (tile 1).nbr.getD s.ev.z 0xFFFF ≠ 0xFFFF ∧
      neighbour s s.ev.x (tile 1) s.ev.z = some (1, s.blockAt 1) ∧ 1 ≠ s.ev.x ∧ 1 ≤ (tile 1).elem ∧ 1 ≤ (tile 1).h ∧ 1 ≤ (tile 1).cols ∧
      kGet 1 s.blocks = some (s.blockAt 1) ∧ (s.blockAt 1).status ≠ .retired ∧ kGet s.ev.y (s.blockAt 1).tiles = some (tile 0xFFFF)) := by decide +kernel
theorem test_hyp_HaloPushCopiesStrip_shape : sameShape (tile 0xFFFF) (tile 1) := by
  unfold sameShape; decide +kernel

/-- Line 68 at its home, die 0, with this directory entry; the event names the die x and the line. -/
def stDir (x : Nat) (e : Dir) : State := (stE x 68 0 0).modDie 0 (fun d => { d with dir := [(68, e)] })

def dirE (st own : Nat) (shr : BitVec 8) : Dir := { ver := 3, shr := shr, own := own, st := st, tr := none, waiting := [] }

/-- The entry of a line is at rest. -/
def restB (s : State) (h line : Nat) : Bool :=
  decide (homeDie s line = some h) && !isTier line && decide ((dirAt s h line).tr = none) && decide ((dirAt s h line).waiting = []) && !sealingLine s line &&
  !extentGone s (64 * line)

theorem atRest_of_restB {s : State} {h line : Nat} (p : restB s h line = true) : atRest s h line := by
  simpa [restB, atRest, and_assoc] using p
theorem test_hyp_ReadSharedRequest : ∀ e ∈ [dirE 0 0 0, dirE 1 0 0x0F, dirE 2 3 0],
    let s := stDir 1 e
    s.ev.x < 8 ∧ restB s 0 s.ev.y = true ∧ l2At s s.ev.x s.ev.y = none ∧ s.ev.nums = [] ∧ appendLine s s.ev.y = false ∧ dirAt s 0 s.ev.y = e ∧
    ((dirAt s 0 s.ev.y).st < 2 ∨ (dirAt s 0 s.ev.y).own ≠ s.ev.x) ∧ sealedLine s s.ev.y = false ∧ hasRoom s s.ev.x := by
  unfold hasRoom; decide +kernel
theorem test_hyp_ReadSharedRequest_sealed :
    let s := { stDir 1 (dirE 0 0 0) with pages := [(0x1000, apage .sealed)] }
    restB s 0 s.ev.y = true ∧ sealedLine s s.ev.y = true ∧ l2At s s.ev.x s.ev.y = none ∧ appendLine s s.ev.y = false := by decide +kernel
theorem test_hyp_ReadSharedRequest_sharers : without (dirE 0 0 0).shr 1 = 0 ∧ without (dirE 1 0 0x0F).shr 1 ≠ 0 := by decide +kernel

def l2l (st : L2St) : L2Line := { st := st, data := 9, wts := 0, rts := 0, ver := 3, used := 0 }

def withL2 (s : State) (d : Nat) (st : L2St) : State := s.modDie d (fun k => { k with l2 := [(68, l2l st)] })
theorem test_hyp_WritePermissionRequests : ∀ e ∈ [dirE 0 0 2, dirE 1 0 0x0F, dirE 2 3 2],
    let s := stDir 1 e
    let u := withL2 s 1 .s
    s.ev.x < 8 ∧ restB s 0 s.ev.y = true ∧ restB u 0 u.ev.y = true ∧ s.ev.nums = [] ∧ appendLine s s.ev.y = false ∧ sealedLine s s.ev.y = false ∧
    l2At s s.ev.x s.ev.y = none ∧ hasRoom s s.ev.x ∧ l2At u u.ev.x u.ev.y = some (l2l .s) ∧ (l2l .s).st = .s ∧ dirAt u 0 u.ev.y = e := by
  unfold hasRoom; decide +kernel
theorem test_hyp_WritePermissionRequests_refused :
    appendLine { stDir 1 (dirE 0 0 0) with pages := [(0x1000, apage .opened)] } 68 = true ∧
    sealedLine { stDir 1 (dirE 0 0 0) with pages := [(0x1000, apage .sealed)] } 68 = true := by decide +kernel

def trn (k : TrKind) (inv : BitVec 8) (ans : Bool) (d : Option (Line × BitVec 16 × Bool)) : Trans :=
  { kind := k, req := 1, waitInv := inv, waitFwd := some 3, data := d, answered := ans }

/-- Line 68 with a transient state; the event names x and y. -/
def stTr (x y : Nat) (k : Trans) : State := (stE x y 0 0).modDie 0 (fun d => { d with dir := [(68, { dirE 2 3 0 with tr := some k })] })
theorem test_hyp_SnoopsAndCompletion_answers : ∀ p ∈ [(Instr.fwds, TrKind.bfs), (Instr.fwdx, TrKind.bfx)],
    let s := withL2 (stTr 68 0 (trn p.2 0 false none)) 3 .m
    homeDie s 68 = some 0 ∧ isTier 68 = false ∧ (dirAt s 0 68).tr = some (trn p.2 0 false none) ∧ s.ev.x = 68 ∧ l2At s 3 68 = some (l2l .m) ∧ (l2l .m).granted = false := by decide +kernel
theorem test_hyp_SnoopsAndCompletion_granted :
    let s0 := (stTr 68 0 (trn .bfx 0 false none)).modDie 3 (fun k => { k with l2 := [(68, { l2l .e with granted := true })] })
    let s := s0.modCore 144 (fun k => { k with sbuf := [{ tid := 0, line := 68, mask := 1, data := 0 }] })
    l2At s 3 68 = some { l2l .e with granted := true } ∧ storeWaits s 3 68 = true := by decide +kernel
theorem test_hyp_SnoopsAndCompletion_inv :
    (stTr 7 68 (trn .bi 0x80 true none)).ev.y = 68 ∧ (trn .bi 0x80 true none).waitInv.getLsbD (stTr 7 68 (trn .bi 0x80 true none)).ev.x = true ∧
    (dirAt (stTr 7 68 (trn .bi 0x80 true none)) 0 68).tr = some (trn .bi 0x80 true none) := by decide +kernel
theorem test_hyp_SnoopsAndCompletion_done : ∀ k ∈ [trn .bfs 0 true (some (5, 4, true)), trn .bfx 0 true (some (5, 4, true)), trn .bi 0 true none],
    let s := stTr 68 0 k
    (dirAt s 0 68).tr = some k ∧ s.ev.x = 68 ∧ k.waitInv = 0 ∧ k.answered = true ∧ (dirAt s 0 68).waiting = [] ∧ sealingLine s 68 = false ∧
    kGet 68 (s.dieAt 0).msc = none ∧ hasRoom s k.req ∧ appendLine s 68 = false := by
  unfold hasRoom; decide +kernel
theorem test_hyp_SnoopsAndCompletion_refused :
    let s := { stTr 68 0 (trn .bi 0 true none) with pages := [(0x1000, apage .opened)] }
    homeDie s 68 = some 0 ∧ (dirAt s 0 68).tr = some (trn .bi 0 true none) ∧ (dirAt s 0 68).waiting = [] ∧ sealingLine s 68 = false ∧ hasRoom s 1 ∧
    appendLine s 68 = true := by
  unfold hasRoom; decide +kernel
theorem test_hyp_EvictionsWriteBack :
    (∀ q ∈ [L2St.s, .e, .m, .o],
      let s := { withL2 (stDir 1 (dirE 2 1 0)) 1 q with ev := { (stE 1 68 0 0).ev with nums := [68] } }
      homeDie s 68 = some 0 ∧ s.ev.x < 8 ∧ s.ev.nums = [68] ∧ l2At s s.ev.x 68 = some (l2l q) ∧ restB s 0 68 = true ∧ 2 ≤ (dirAt s 0 68).st ∧
      (dirAt s 0 68).own = s.ev.x) ∧
    (let s0 := (stE 3 68 0 0).modDie 3 (fun k => { k with l2 := [(68, { l2l .e with granted := true })] })
     let s := { s0.modCore 144 (fun k => { k with sbuf := [{ tid := 0, line := 68, mask := 1, data := 0 }] }) with ev := { s0.ev with nums := [68] } }
     homeDie s 68 = some 0 ∧ s.ev.nums = [68] ∧ l2At s s.ev.x 68 = some { l2l .e with granted := true } ∧ storeWaits s s.ev.x 68 = true) ∧
    (let s := (stE 1 68 0 0).modDie 1 (fun d => { d with wbuf := [(68, { data := 1, ver := 2, acked := true })] })
     s.ev.y = 68 ∧ kGet 68 (s.dieAt s.ev.x).wbuf = some { data := 1, ver := 2, acked := true }) := by decide +kernel

/-- A dirty tier line in its home's memory-side cache. -/
def tierLine : Nat := 2 ^ 34
theorem test_hyp_EvictionsWriteBack_tier :
    let s0 := (stE 0 0 0 0).modDie 0 (fun d => { d with msc := [(tierLine, { data := 7, dirty := true, used := 0 })] })
    let s := { s0 with
      ev := { s0.ev with nums := [tierLine] }
      plat := { s0.plat with extents := [{ base := 2 ^ 40, len := 4096, port := 0, st := .present }] } }
    homeDie s tierLine = some 0 ∧ s.ev.x = 0 ∧ isTier tierLine = true ∧ kGet tierLine (s.dieAt 0).msc = some { data := 7, dirty := true, used := 0 } ∧
    (∀ p ∈ s.dies, kGet tierLine p.2.l2 = none ∧ kGet tierLine p.2.wbuf = none) ∧ (dirAt s 0 tierLine).tr = none ∧ (dirAt s 0 tierLine).waiting = [] := by
  decide +kernel

/-! ### Hypotheses that are met: logical time, residency, translation -/
theorem test_hyp_LogicalTimeEvents :
    let c0 : Core := { Core.reset with enabled := true, pts := 10, l1 := [(68, cop)] }
    let c1 : Core := { Core.reset with enabled := true, pts := 1035 }
    let s := { stE 0 68 0 0 with cores := [(0, c0), (1, c1)] }
    kSorted s.cores = true ∧ (s.dieAt s.ev.x).told ≠ spanOf s.cc ∧ leads s 1 c1 ∧ (s.coreAt s.ev.x).ticked ≠ spanOf s.cc ∧
    (((tickCore s 0).coreAt 0).ticked = spanOf s.cc ∧ ((tellPts s 0).dieAt 0).told = spanOf s.cc) ∧
    l1At s s.ev.x 68 = some cop ∧ s.ev.y = 68 ∧ l2At (withL2 s 0 .e) (withL2 s 0 .e).ev.x (withL2 s 0 .e).ev.y = some (l2l .e) := by
  unfold leads; decide +kernel
theorem test_hyp_StoresAtL2 :
    let s0 := withL2 (stE 0 0x1103 0 0) 0 .e
    let s := { s0 with ev := { s0.ev with nums := [255] } }
    l2At s (dieOf 0) 68 = some (l2l .e) ∧ (l2l .e).st = .e ∧ s.ev.nums = [255] ∧ backed s s.ev.y = true ∧ s.ev.y / 64 = 68 ∧
    extentGone s (64 * 68) = false := by decide +kernel
theorem test_hyp_AtomicsReadModifyWrite :
    let s := withL2 (stE 0 0 0 0) 0 .m
    l2At s (dieOf 0) 68 = some (l2l .m) ∧ winsOf s 0 68 = [] ∧ (∀ x ∈ (s.coreAt 0).sbuf, x.line ≠ 68) ∧
    (∀ p ∈ s.blocks, ∀ w ∈ p.2.staged, w.seen = false) ∧
    (∀ p ∈ [(0x1100, 0x1100), (0x1100, 0x113C)], (acc none p.1).addr / 64 = 68 ∧ (acc none p.2).addr / 64 = 68 ∧ (acc none p.1).addr % 4 = 0 ∧
      (acc none p.2).addr % 4 = 0) := by decide +kernel
theorem test_hyp_WatchesAndResidency :
    let w : Watch := { id := 0, tid := 0, line := 68, ver := 3, wts := 0, fetched := 0, st := .pending }
    let s := (stE 0 0 0 0).modCore 0 (fun k => { k with watch := [w], evictQ := [68] })
    let q := { s with ev := { s.ev with y := 68 } }
    w ∈ (s.coreAt s.ev.x).watch ∧ w.id = s.ev.y ∧ w.st = .pending ∧
    (∀ p ∈ (stE 1 0 0 0).grids, p.2.ended = true ∨ p.2.diesMask.testBit (stE 1 0 0 0).ev.x = false) ∧ (stE 1 0 0 0).ev.nums = [] ∧
    schedOk 64 = true ∧ schedOk 1 = false ∧ (∃ p ∈ (stE 0 0 0 0).grids, p.2.ended = false ∧ (p.2.diesMask ||| 1).testBit 0 = true) ∧
    q.ev.y ∈ (q.coreAt q.ev.x).evictQ ∧ (q.coreAt q.ev.x).sbuf = [] ∧ winsOf q q.ev.x q.ev.y = [] := by decide +kernel

/-- A table of 4 KiB pages in memory: five levels from 0x10000, whose leaf for 0x1000 maps it to 0x1000 for reading, A set. -/
def tables (s : State) : State :=
  let w (s : State) (a v : Nat) : State := memWrite s a (leBytes 8 v)
  w (w (w (w (w s 0x10000 0x11001) 0x11000 0x12001) 0x12000 0x13001) 0x13000 0x14001) 0x14008 0x104B

def region : BitVec 128 := BitVec.ofNat 128 (1 + 0x10 * 2 ^ 76)

/-- Team 0 waits for a walk of 0x1100. -/
def stWalk (acc : Nat) : State :=
  let s := tables (stT .m (fun t => { t with wait := .walk 0x1100 acc }))
  (s.modDie 0 (fun d => { d with rafs := [(0, [region])] })).modCore 0 (fun k => { k with tlb := [] })
theorem test_hyp_PageWalks :
    let s := stWalk 1
    (s.teamAt s.ev.x).wait = .walk 0x1100 1 ∧ rfValid (regionOf s (evDie s) (evAsid s) 0x1100) = true ∧ 0x1100 < 2 ^ 57 ∧
    rfPsz (regionOf s (evDie s) (evAsid s) 0x1100) = 0 ∧
    descend s 0 0x1100 5 (rfRoot (regionOf s (evDie s) (evAsid s) 0x1100)) = .leaf 0x14008 0x104B ∧
    permOk (entryOf region 0 0x1100 0x104B) 1 = true ∧ backed s (entryOf region 0 0x1100 0x104B).ppage = true ∧
    0x104B ||| 64 ||| (if isWriteAcc 1 then 128 else 0) = 0x104B ∧
    ((stWalk 2).teamAt 0).wait = .walk 0x1100 2 ∧ permOk (entryOf region 0 0x1100 0x104B) 2 = false := by decide +kernel
theorem test_hyp_PageWalks_bad :
    let s := memWrite (stWalk 1) 0x14008 (leBytes 8 0x1049)
    (s.teamAt s.ev.x).wait = .walk 0x1100 1 ∧ rfValid (regionOf s (evDie s) (evAsid s) 0x1100) = true ∧
    descend s 0 0x1100 5 (rfRoot (regionOf s (evDie s) (evAsid s) 0x1100)) = .bad 4 1 0x14008 := by decide +kernel
theorem test_hyp_WalkEntries :
    let s := stWalk 1
    (∀ p ∈ [(0x10000, 4), (0x14000, 0)], backed s (p.1 + 8 * walkIndex 0 (p.2 + 1) 0x1100) = true) ∧
    viewNat s (0x10000 + 8 * walkIndex 0 5 0x1100) 8 = 0x11001 ∧ viewNat s (0x14000 + 8 * walkIndex 0 1 0x1100) 8 = 0x104B ∧
    viewNat s (0x14000 + 8 * walkIndex 0 1 0x2100) 8 = 0 ∧ (0x11001 : Nat).testBit 0 = true ∧ (0x104B : Nat).testBit 0 = true ∧
    5 ≠ specLeaf 0 ∧ 0 + 1 = specLeaf 0 := by decide +kernel
theorem test_hyp_WalkEntries_bad :
    (∀ e ∈ [0x1049, 0x104F, 0x114B], badEntry 0 1 e) ∧ badEntry 0 5 0x11009 ∧ badEntry 1 1 0x104B ∧ (0x1049 : Nat).testBit 0 = true := by
  unfold badEntry
  refine ⟨fun e h => ?_, ?_, ?_, by decide⟩
  · simp only [List.mem_cons, List.not_mem_nil, or_false] at h
    rcases h with rfl | rfl | rfl
    · exact .inr (.inl (by decide))
    · exact .inl ⟨2, by decide, by decide⟩
    · exact .inl ⟨8, by decide, by decide⟩
  · exact .inr (.inr (.inl ⟨by decide, 3, by decide, by decide, by decide⟩))
  · exact .inr (.inr (.inr ⟨by decide, 12, by decide, by decide, by decide⟩))
theorem test_hyp_WalkEntries_good : ¬badEntry 0 1 0x104B ∧ ¬badEntry 0 5 0x11001 := by
  have big : ∀ {e i : Nat}, e < 2 ^ 17 → 52 ≤ i → e.testBit i = false := fun h hi =>
    Nat.testBit_lt_two_pow (lt_of_lt_of_le h (Nat.pow_le_pow_right (by decide) (by omega)))
  unfold badEntry
  constructor <;> rintro (⟨i, (rfl | ⟨h1, h2⟩ | ⟨h1, _⟩), h⟩ | h | ⟨h, i, h1, h2, h3⟩ | ⟨h, i, h1, h2, h3⟩)
  all_goals first
    | exact absurd h (by decide)
    | (rw [big (by decide) h1] at h; exact absurd h (by decide))
    | (exact absurd h3 (by revert i; decide))
    | (interval_cases i <;> revert h <;> decide)
theorem test_hyp_PageWalks_none :
    let s := stT .m (fun t => { t with wait := .walk (2 ^ 57) 1 })
    let u := (stT .m (fun t => { t with wait := .walk 0x1100 1 })).modDie 0 (fun d => { d with rafs := [] })
    (s.teamAt s.ev.x).wait = .walk (2 ^ 57) 1 ∧ 2 ^ 57 ≤ 2 ^ 57 ∧ (u.teamAt u.ev.x).wait = .walk 0x1100 1 ∧
    rfValid (regionOf u (evDie u) (evAsid u) 0x1100) = false := by decide +kernel

def merge (served : Bool) : Merge :=
  { asid := 0, page := 0x1000, size := 4096, claimant := 0, waiters := [0], acc := 1, level := 1, ft := false, served := served }
theorem test_hyp_FaultService : ∀ b : Bool,
    let s0 := (stT .m (fun t => { t with wait := .service 0 0 0x1000 })).modDie 0 (fun d => { d with stage := [merge b] })
    let s := { s0 with ev := { s0.ev with x := 0, y := 0, z := 0x1000 } }
    (s.teamAt s.ev.x).wait = .service 0 0 0x1000 ∧ merge b ∈ (s.dieAt 0).stage ∧ s.ev.x ∈ (merge b).waiters ∧ (s.dieAt s.ev.x).stage = [merge b] ∧
    (merge b).asid = s.ev.y ∧ (merge b).page = s.ev.z ∧ (merge b).served = b ∧ kGet 0 s.teams = some (s.teamAt 0) ∧
    (merge b).ft = false ∧ (merge b).engines = [] ∧ (merge b).waiters ≠ [] ∧ (merge b).waiters.Nodup := by decide +kernel
theorem test_hyp_FaultService_two :
    let s0 := (stT .m (fun t => { t with wait := .service 0 0 0x1000 })).modDie 0 (fun d => { d with stage := [{ merge false with waiters := [0, 1] }] })
    let s1 := s0.setTeamAt 1 (s0.teamAt 0)
    let s := { s1 with ev := { s1.ev with x := 0, y := 0, z := 0x1000 } }
    ([0, 1] : List Nat).Nodup ∧ (∀ k ∈ [0, 1], (s.teamAt k).wait = .service s.ev.x s.ev.y s.ev.z ∧ kGet k s.teams = some (s.teamAt k)) := by decide +kernel

/-! ### Hypotheses that are met: copies -/

/-- Class C with scalar registers: s2 and s3 the base 0x1100, s8 to s11 a quad. -/
def stC (q0 q1 q2 q3 : Word) : State :=
  (stT .c (fun t => { t with sregs := [(2, 0x1100), (8, q0), (9, q1), (10, q2), (11, q3)] })).modBlock 0 (fun b => { b with stashBytes := 4096 })

def fC : List Fields := [fDAB 92 90 96, fDAB 90 92 96, fDAB 90 90 96, fDAB 4 96 8, fDAB 0 96 8, fDAB 1 90 0]
theorem test_hyp_CopiesEnterQueue :
    allReach (stC 1 64 0 0) fC (copyRows.map (·.1)) = true ∧ presentSet (stC 1 64 0 0).team (modOf .c (fDAB 92 90 96)) ≠ 0 ∧
    allReach (stT .c none') fC (copyRows.map (·.1)) = true ∧ presentSet (stT .c none').team (modOf .c (fDAB 92 90 96)) = 0 := by decide +kernel
theorem test_hyp_CopiesEnterQueue_ranges :
    shapeFits (stC 65535 16777216 0 0).team (fDAB 92 90 96) ∧ ¬shapeFits (stC 65536 1 0 0).team (fDAB 92 90 96) ∧
    gatherFits (stC 0 0 0 64).team (fDAB 0 96 8) ∧ ¬gatherFits (stC 0 0 0 3).team (fDAB 0 96 8) ∧
    planeFits (stC 0 65536 256 24).team (fDAB 92 90 96) ∧ ¬planeFits (stC 0 65536 257 24).team (fDAB 92 90 96) ∧
    reaches (stC 65536 1 0 0) (.cpG2s (fDAB 92 90 96)) = true ∧ reaches (stC 0 65536 257 24) (.cpPlane (fDAB 92 90 96)) = true := by
  unfold shapeFits gatherFits planeFits; decide +kernel
theorem test_hyp_CopiesEnterQueue_label :
    let f := { fDAB 90 90 96 with mod := some 0x00028000, imm := some 8 }
    mCont (modOf .c f) = true ∧ reaches (stT .c (fun t => last (none' t))) (.cpG2g f) = true := by decide +kernel

def cpo (k : CKind) (dst : Nat) : CopyOp :=
  { id := 0, tid := 0, kind := k, src := 0x1100, dst := dst, space := 1, rows := 1, rowBytes := 64, strideS := 0, strideD := 0, pattern := 0x04030201
    offs := [], elem := 1, nl := 0, pbits := 1, orient := 0, scope := 1, scls := 2, flag := some 0, cont := false, strm := false, pos := 0, paused := false
    svc := none }

/-- The copy at the head of partition 0's queue. -/
def stCp (o : CopyOp) : State :=
  let s := (stC 1 64 0 0).setPart 0 { (stC 1 64 0 0).partAt 0 with copyQ := [o] }
  let s := s.modDie 0 (fun d => { d with l2 := [(68, l2l .e)] })
  { s with ev := { s.ev with x := 0 } }

def headB (s : State) (o : CopyOp) (r : List CopyOp) : Bool :=
  decide ((s.partAt s.ev.x).copyQ = o :: r) && !o.paused && decide (o.svc = none) && !heldByFenceq s o.tid 1 o.id

theorem headCopy_of_headB {s : State} {o : CopyOp} {r : List CopyOp} (h : headB s o r = true) : headCopy s o r := by
  simpa [headB, headCopy, and_assoc] using h
theorem test_hyp_CopySegmentsMove : ∀ o ∈ [cpo .fill 0xFC0, cpo .g2s 0, cpo .fill 4096],
    let s := stCp o
    headB s o [] = true ∧ o.pos = 0 ∧ o.rows = 1 ∧ 1 ≤ o.rowBytes ∧ (s.teamAt o.tid).trap.sup = false ∧ (s.blockAt 0).windows = [] ∧
    (s.blockAt 0).tiles = [] ∧ o.space = 1 ∧ o.dst < 2 ^ 32 ∧ (o.dst + o.rowBytes ≤ (s.blockAt 0).stashBytes ∨ (s.blockAt 0).stashBytes ≤ o.dst) ∧
    o.dst % 64 + o.rowBytes ≤ 64 ∧ findTlb (s.coreAt (s.teamAt o.tid).core).tlb (s.gridAt (s.teamAt o.tid).grid).asid o.src = some placedEntry ∧
    (0x1100 : Nat) = placedEntry.ppage + (o.src - placedEntry.vpage) ∧ 0x1100 % 64 + o.rowBytes ≤ 64 ∧ o.rowBytes ≤ pageLeft s o o.src ∧
    (∀ i, i < o.rowBytes → extentGone s (0x1100 + i) = false) ∧ poisonIn s 0x1100 o.rowBytes = false ∧ sealedLine s 68 = false ∧
    l2At s (dieOf (s.teamAt o.tid).core) 68 = some (l2l .e) ∧ (s.teamAt o.tid).live ≠ 0 ∧ placedEntry.r = true ∧ placedEntry.mclass = 0 ∧
    0x1100 % 64 = o.src % 64 ∧ o.src < 2 ^ 64 ∧ o.dst + o.rowBytes ≤ 2 ^ 22 := by decide +kernel

/-- A Tensor Layout Record of key slot 9 with these bits in its reserved field (R213). -/
def tlrBytes (x : Nat) : List Byte :=
  leBytes 8 0x10000 ++ List.replicate 40 0 ++ leBytes 8 0x1000 ++ [1, 4] ++ leBytes 2 x ++ leBytes 4 0x10009

/-- The copy at the head of partition 0's queue; the team's key grant holds key 9 alone. -/
def stTl (x : Nat) : State :=
  let s := stCp (cpo .tlr 2)
  let s := { s with plat := { s.plat with keys := kPut 9 { KeySlot.reset with loaded := true, gen := 1 } s.plat.keys } }
  (s.modDie 0 (fun d => { d with l2 := [(68, { l2l .m with data := lineData 0 (tlrBytes x) })] })).modGrid 0 (fun g => { g with lrec := { g.lrec with keys := 0x10009 } })

def wEntry : TlbEntry := { placedEntry with w := true, dirty := true }
def stCw (o : CopyOp) : State := (stCp o).modCore 0 (fun k => { k with tlb := [wEntry] })

theorem test_hyp_CopyKindsMove_rows :
    let o := { cpo .s2g 0x1100 with src := 0x40 }
    let g := { cpo .g2g 0x1100 with src := 0x1100, rowBytes := 32, dst := 0x1120 }
    headB (stCw o) o [] = true ∧ stashSideOk (stCw o) o o.src o.rowBytes ∧ writeSide (stCw o) o o.dst o.rowBytes 0x1100 wEntry (l2l .e) ∧
    headB (stCw g) g [] = true ∧ g.overlaps = false ∧ readSide (stCw g) g g.src g.rowBytes 0x1100 wEntry ∧
    writeSide (stCw g) g g.dst g.rowBytes 0x1120 wEntry (l2l .e) := by
  simp only [stashSideOk, writeSide, readSide, lineSide, mayWrite, ownedLine, ← Option.isSome_iff_exists]; decide +kernel
theorem test_hyp_CopyKindsMove_staged :
    let o := { cpo .s2g 0x1100 with src := 0x40 }
    let s := (stCw o).modGrid 0 (fun g => { g with det := true })
    headB s o [] = true ∧ stashSideOk s o o.src o.rowBytes ∧ lineSide s o o.dst o.rowBytes 0x1100 wEntry ∧ mayWrite s o 0x1100 wEntry ∧
    (s.gridAt (s.teamAt o.tid).grid).det = true ∧ (s.blockAt (s.teamAt o.tid).block).staged = [] := by
  simp only [stashSideOk, lineSide, mayWrite]; decide +kernel

/-- A page of an encrypted tensor, its binding, and the copy whose team's key grant holds key 9 alone, with that slot loaded or empty. -/
def cryptEntry : TlbEntry := { wEntry with mclass := 2 }
def bind9 : Tlr := { base := 0x1000, extent := 4096, key := 0x10009 }
def stCrypt (o : CopyOp) (bs : List (Nat × Tlr)) (loaded : Bool) : State :=
  let s := (stCp o).modCore 0 (fun k => { k with tlb := [cryptEntry] })
  let s := { s with plat := { s.plat with keys := kPut 9 { KeySlot.reset with loaded := loaded, gen := 1 } s.plat.keys } }
  let s := s.modGrid 0 (fun g => { g with lrec := { g.lrec with keys := 0x10009 } })
  s.setTeamAt 0 { s.teamAt 0 with binds := bs }
/-- The rows of the two directions, 60 bytes within the unit at 0x1100. -/
def cgs : CopyOp := { cpo .g2s 0 with src := 0x1104, rowBytes := 60 }
def csg : CopyOp := { cpo .s2g 0x1104 with src := 0x40, rowBytes := 60 }
theorem test_hyp_EncryptedCopiesMove : ∀ bs ∈ [[], [(0, bind9)]],
    headB (stCrypt cgs bs true) cgs [] = true ∧ cryptSide (stCrypt cgs bs true) cgs 0x1104 60 0x1100 cryptEntry ∧ cryptEntry.r = true ∧
    stashSideOk (stCrypt cgs bs true) cgs cgs.dst 60 ∧ cgs.dst % 64 + 60 ≤ 64 ∧ (l2At (stCrypt cgs bs true) (dieOf 0) 68).isSome = true := by
  simp only [cryptSide, stashSideOk]; decide +kernel
theorem test_hyp_EncryptedCopiesMove_writes : ∀ bs ∈ [[], [(0, bind9)]],
    headB (stCrypt csg bs true) csg [] = true ∧ cryptSide (stCrypt csg bs true) csg 0x1104 60 0x1100 cryptEntry ∧ mayWrite (stCrypt csg bs true) csg 0x1100 cryptEntry ∧
    stashSideOk (stCrypt csg bs true) csg csg.src 60 ∧ ownedLine (stCrypt csg bs true) csg 0x1100 (l2l .e) := by
  simp only [cryptSide, stashSideOk, mayWrite, ownedLine]; decide +kernel
theorem test_hyp_EncryptedCopiesMove_keys : ∀ b : Bool,
    let s := stCrypt cgs [(0, bind9)] b
    (s.teamAt 0).live ≠ 0 ∧ bindingOf (s.teamAt 0) 0x1100 = some bind9 ∧ keyGranted s (s.teamAt 0) bind9.key = b ∧
    bindingOf ((stCrypt cgs [] b).teamAt 0) 0x1100 = none ∧ headB s cgs [] = true := by decide +kernel
theorem test_hyp_HoldOfOtherClasses : ∀ h ∈ [0, 2],
    let f := { fM with b := 2, hold := h }
    let g := { fDAB 0 96 2 with hold := h }
    allReach (st .q) (held (h / 2)) (sfuRows.map (·.1)) = true ∧ ((st .q).partAt (st .q).team.partNo).sfuQ.length < 16 ∧
    (∀ row ∈ laneRows, reaches stM (row.1 f) = true) ∧ mSem (modOf .m f) < 2 ∧ lanesPass stM f 16 wantRead (accsOf stM f 16 wantRead) ∧
    lanesPass stM f 4 wantAtom (accsOf stM f 4 wantAtom) ∧ (∀ i ∈ [Instr.cpGath g, .cpScat g], reaches (stC 0 0 0 64) i = true) ∧
    gatherFits (stC 0 0 0 64).team g ∧ stM.team.latch.ptr < 3 ∧ stM.team.warps ≤ 32 := by
  simp only [lanesPass, gatherFits]; decide +kernel
theorem test_hyp_CopyKindsMove_lanes :
    let o := { cpo .gath 0 with offs := [(3, -16)], src := 0x1110, elem := 16 }
    let c := { cpo .scat 0x1110 with offs := [(3, -16)], src := 0x40, elem := 16 }
    headB (stCw o) o [] = true ∧ addrPlus o.src (-16) % o.elem = 0 ∧ readSide (stCw o) o (addrPlus o.src (-16)) o.elem 0x1100 wEntry ∧
    stashSideOk (stCw o) o (o.dst + o.elem * 3) o.elem ∧ headB (stCw c) c [] = true ∧ addrPlus c.dst (-16) % c.elem = 0 ∧ c.src % c.elem = 0 ∧
    stashSideOk (stCw c) c (c.src + c.elem * 3) c.elem ∧ writeSide (stCw c) c (addrPlus c.dst (-16)) c.elem 0x1100 wEntry (l2l .e) := by
  simp only [stashSideOk, writeSide, readSide, lineSide, mayWrite, ownedLine, ← Option.isSome_iff_exists]; decide +kernel
theorem test_hyp_CopyKindsMove_records :
    let o := cpo .tlr 2
    headB (stTl 0) o [] = true ∧ headB (stCp { o with orient := 1 }) { o with orient := 1 } [] = true ∧ o.src % 64 = 0 ∧
    readSide (stTl 0) o o.src 64 0x1100 placedEntry ∧ ((stTl 0).teamAt o.tid).live ≠ 0 ∧ (tlrOf (coreBs (stTl 0) o 0x1100 64)).2 = 0 ∧
    keyGranted (stTl 0) ((stTl 0).teamAt o.tid) (tlrOf (coreBs (stTl 0) o 0x1100 64)).1.key = true ∧
    readSide (stTl 1) o o.src 64 0x1100 placedEntry ∧ (tlrOf (coreBs (stTl 1) o 0x1100 64)).2 = 1 := by
  simp only [readSide, lineSide, ← Option.isSome_iff_exists]; decide +kernel
theorem test_hyp_CopyKindsMove_plane :
    let o := { cpo .plane 0 with rows := 32, nl := 256, pbits := 3, orient := 1, pos := 256 * (3 * 31 + 2) + 255 }
    headB (stCw o) o [] = true ∧ o.pos + 1 = o.total ∧ addrPlus o.src (31 * o.strideS + ((255 * specContainer 3 + 2) / 8 : Nat)) = 0x117F := by
  decide +kernel
theorem test_hyp_CopyKindsMove_bit :
    let o := { cpo .plane 0 with rows := 32, nl := 256, pbits := 3, orient := 1, pos := 256 * (3 * 31 + 2) + 255 }
    readSide ((stCw o).modDie 0 (fun d => { d with l2 := [(69, l2l .e)] })) o 0x117F 1 0x117F wEntry ∧
    stashSideOk (stCw o) o (o.dst + 32 * (o.pbits * 31 + 2) + 255 / 8) 1 := by
  simp only [stashSideOk, readSide, lineSide, ← Option.isSome_iff_exists]; decide +kernel
theorem test_hyp_AtomicValues :
    (1 : Word) = 1 ∧ (1 : Word) ≠ 2 ∧ (ofF32 0x7FC00000).isNaN = true ∧ (ofF32 0xFF800001).isNaN = true ∧ (ofF32 0x3F800000).isNaN = false ∧
    (ofF32 0x80000000).isNaN = false := by decide +kernel
theorem test_hyp_CopyCompletes :
    let o := { cpo .fill 0 with pos := 64 }
    let p := { o with cont := true, flag := none }
    headB (stCp o) o [] = true ∧ o.total ≤ o.pos ∧ o.scope ≤ 1 ∧ headB (stCp p) p [] = true ∧
    ((stCp p).setTeam { (stCp p).team with wait := .cont 0x1008 1 }).team.wait = .cont 0x1008 1 := by decide +kernel

/-! ### Hypotheses that are met: the matrix unit -/

/-- A team of 256 lanes with a stash of 65,536 bytes: s2 and s3 the base 0x40000000, s8 to s11 a drain quad, s12 a format block at 0x8000, s13 a group
table at 0x8040. -/
def stA (q2 q3 : Word) : State :=
  (stT .a (fun t => { t with
    nf0 := 0x00010921
    sregs := [(2, 0x40000000), (8, 0x1000), (9, 1024), (10, q2), (11, q3), (12, 0x8000), (13, 0x8040)] })).modBlock 0 (fun b => { b with
      stashBytes := 65536
      stash := bWrite (bWrite [] 0x8000 ([0, 0, 0, 0, 0, 0, 0, 0, 0, 0, 0, 0, 0, 0x20] ++ List.replicate 18 0)) 0x8040 [1, 0, 0, 0, 0, 0, 0, 0, 0, 1] })

def fA : List Fields := [{}, { fDAB 0 12 14 with imm := some 0 }, { fDAB 13 12 14 with imm := some 0 }, fDAB 0 8 0, fDAB 1 8 0, fDAB 0 2 0]
theorem test_hyp_MatrixHolder :
    allReach (stT .a (fun t => { t with warps := 7 })) fA matrixRows = true ∧ (stT .a (fun t => { t with warps := 7 })).team.lanes < 256 ∧
    allReach (stA 0 0) fA matrixRows = true ∧ 256 ≤ (stA 0 0).team.lanes ∧
    (((stA 0 0).setPart 0 { (stA 0 0).partAt 0 with holder := some 9 }).partAt 0).holder = some 9 ∧ 9 ≠ (stA 0 0).cur := by decide +kernel
theorem test_hyp_MatrixInstructionsEnterQueue :
    mayUseMatrix (stA 0 0) ∧ reaches (stA 0 0) (.mzero {}) = true ∧
    (∀ w ∈ [16, 17], reaches (stA 0 0) (.mstat { fDAB 1 127 0 with imm := some (BitVec.ofNat 32 w) }) = true) ∧ (srcS (stA 0 0).team 127 16).toNat ≤ 16 ∧
    16 < (srcS (stA 0 0).team 127 17).toNat ∧ modeAhead (matOf (stA 0 0) (stA 0 0).team) (stA 0 0).team.matQ = some (false, true) := by
  unfold mayUseMatrix; decide +kernel
theorem test_hyp_MatrixInstructionsEnterQueue_drain :
    let s := (stA 0 0).setTeam { (stA 0 0).team with regBytes := 2048 }
    (∀ w ∈ [0x3FC0, 0x3FC1, 0x4000], reaches s (.mdrainA { fDAB 64 127 3 with imm := some (BitVec.ofNat 32 w) }) = true) ∧
    0x3FC0 % 256 + (0x3FC0 / 256 % 64 + 1) ≤ 256 ∧ 256 < 0x3FC1 % 256 + (0x3FC1 / 256 % 64 + 1) ∧ 64 + (0x3FC0 / 256 % 64 + 1) ≤ 128 ∧
    regOk s.team .acc (64 + (0x3FC0 / 256 % 64 + 1) - 1) = true ∧ nfValid (s.team.nf 0) = true := by decide +kernel

/-- A page of 1 GiB at 0x40000000. -/
def bigEntry : TlbEntry := { placedEntry with vpage := 0x40000000, size := 2 ^ 30, ppage := 0x40000000 }
theorem test_hyp_MatrixInstructionsEnterQueue_area :
    let s := ((stA 0 0).modDie 0 (fun d => { d with rafs := [(0, [0xD])] })).modCore 0 (fun k => { k with tlb := [bigEntry] })
    mayUseMatrix s ∧ reaches s (.msave (fDAB 0 2 0)) = true ∧ reaches s (.mrest (fDAB 0 2 0)) = true ∧ (srcS64 s.team 2 0).toNat = 0x40000000 ∧
    0x40000000 % 256 = 0 ∧ (pagesOf s s.team 0x40000000 524544).length = [bigEntry].length ∧ bigEntry.mclass ≠ 2 ∧
    (∀ p ∈ (pagesOf s s.team 0x40000000 524544).zip [bigEntry], translate s s.cur (p.1.1 % 2 ^ 64) wantWrite.bits = .ok 0x40000000 p.2 ∧
      (checkGlobal s s.cur (p.1.1 % 2 ^ 64) 1 wantWrite matches .ok none _ _ _) = true ∧
      translate s s.cur (p.1.1 % 2 ^ 64) wantRead.bits = .ok 0x40000000 p.2 ∧ (checkGlobal s s.cur (p.1.1 % 2 ^ 64) 1 wantRead matches .ok none _ _ _) = true) ∧
    s.plat.extents = [] ∧
    reaches (stT .a (fun t => { t with sregs := [(2, 0x1080)] })) (.msave (fDAB 0 2 0)) = true ∧
    (srcS64 (stT .a (fun t => { t with sregs := [(2, 0x1080)] })).team 2 0).toNat % 256 ≠ 0 := by
  unfold mayUseMatrix; decide +kernel
theorem test_hyp_StashDrainsEnterQueue :
    (∀ p ∈ [(0x0F000F00, 0), (0x0F000F00, 1), (0x0F00FF01, 0), (0x0F000F00, 2)], reaches (stA (BitVec.ofNat 32 p.1) (BitVec.ofNat 32 p.2)) (.mdrainS (fDAB 0 8 0)) = true ∧
      modeAhead (matOf (stA 0 0) (stA 0 0).team) (stA 0 0).team.matQ = some (false, true)) ∧
    mayUseMatrix (stA 0x0F000F00 0) ∧ (0x0F000F00 : Nat) % 256 + (0x0F000F00 / 2 ^ 8 % 256 + 1) ≤ 256 ∧ (0x1000 : Nat) % drainedBytes 0 = 0 ∧
    (0x0F00FF01 : Nat) % 256 + (0x0F00FF01 / 2 ^ 8 % 256 + 1) > 256 ∧ (1024 : Nat) % drainedBytes 0 = 0 ∧ (stA 0 0).team.trap.sup = false ∧
    (∀ i, i < 16 → ∀ j, j < 16 → 0x1000 + (i * 1024 + j * 4) + 4 ≤ ((stA 0 0).blockAt 0).stashBytes ∧
      0x1000 + (j * 1024 + i * 4) + 4 ≤ ((stA 0 0).blockAt 0).stashBytes) := by
  unfold mayUseMatrix; decide +kernel
theorem test_hyp_LoopsEnterQueue :
    let s := stA 0 0
    let f : Fields := { fDAB 13 12 14 with imm := some 1 }
    let b := fblockOf (stashRead s 0 0x8000 32)
    mayUseMatrix s ∧ (srcS s.team 12 0).toNat = 0x8000 ∧ (immOf f).toNat % 4096 + 1 = 2 ∧ (s.blockAt s.team.block).windows = [] ∧
    heldByFenceq s s.cur 2 s.team.nextOp = false ∧
    modeAhead (matOf s s.team) s.team.matQ = some (false, true) ∧ reaches s (.mloop { f with d := 0 }) = true ∧ 0x8000 % 32 = 0 ∧
    rangeTrap s s.team 0x8000 32 = none ∧ blockTrap s.team 1 b 2 0 (false, true) = none ∧
    rangeTrap s s.team b.offA (1024 * elemBits (elemFmt s.team b.fa) * 2) = none ∧ rangeTrap s s.team b.offB (1024 * elemBits (elemFmt s.team b.fb) * 2) = none ∧
    keyTrap s s.team 0x8000 b = none ∧ reaches s (.mgrp f) = true ∧ b.flags < 2 ∧ (srcS s.team 13 0).toNat = 0x8040 ∧
    (match readTable s s.team 0x8040 256 with
     | some (_, gt) => decide (gt = { groups := [(256, 0)] })
     | _ => false) = true ∧
    (∀ g ∈ rowGroups (32 * 2 / (16 * 2 ^ (b.len / 4 % 4))) 0 0 [(256, 0)], g.count ≠ 0 →
      rangeTrap s s.team (b.offB + g.boff) (1024 * elemBits (elemFmt s.team b.fb) * 2) = none) := by
  unfold mayUseMatrix; decide +kernel
theorem test_hyp_LoopsEnterQueue_traps :
    let s := (stA 0 0).setTeam { (stA 0 0).team with sregs := [(12, 0x8004), (13, 0x8040)] }
    let u := (stA 0 0).modBlock 0 (fun b => { b with stash := bWrite b.stash 0x8040 [2, 0, 0, 0, 0, 0, 0, 0, 0, 1, 0, 0, 0, 0, 0, 0, 1, 0] })
    (srcS s.team 12 0).toNat % 32 ≠ 0 ∧ reaches s (.mloop { fDAB 0 12 14 with imm := some 1 }) = true ∧
    (match readTable u u.team 0x8040 256 with
     | some (_, gt) => decide (gt.tr.map (fun x => x.cause) = some 0x20)
     | _ => false) = true := by decide +kernel

/-- The head of a matrix queue of 256 lanes whose team holds the matrix state; the event names the team. -/
def stMat (k : MatKind) (m : Matrix) : State :=
  let s := (stA 0 0).setTeam { (stA 0 0).team with matQ := [{ id := 0, kind := k, flag := some 0 }] }
  s.setPart 0 { s.partAt 0 with holder := some 0, mat := m }

def mat0 (rm : Bool) : Matrix := { acc := [(0, 1)], rowFlag := 0, colFlag := 0, rm := rm, fresh := !rm, last := 0 }

def headMatB (s : State) (o : MatOp) (r : List MatOp) : Bool :=
  decide ((s.teamAt s.ev.x).matQ = o :: r) && decide ((s.partAt (s.teamAt s.ev.x).partNo).holder = some s.ev.x) &&
  decide ((s.teamAt s.ev.x).status ≠ .saved) && !heldByFenceq s s.ev.x 2 o.id

theorem headMat_of_headMatB {s : State} {o : MatOp} {r : List MatOp} (h : headMatB s o r = true) : headMat s o r := by
  simpa [headMatB, headMat, and_assoc] using h

def loopKind (red : Bool) (steps : Nat) : MatKind :=
  .loop { code := 4, nf := 0 } { code := 4, nf := 0 } 16 16 red 0 0x2000 steps 0 none none
    [{ first := 0, count := if red then 128 else 256, boff := 0, bsel := 0 }] 0x1000
theorem test_hyp_MatrixStepAccumulates : ∀ red : Bool, ∀ steps ∈ [1, 2],
    headMatB (stMat (loopKind red steps) (mat0 false)) { id := 0, kind := loopKind red steps, flag := some 0 } [] = true ∧
    ((stMat (loopKind red steps) (mat0 false)).blockAt 0).windows = [] ∧ 0x2000 < 2 ^ 32 := by decide +kernel
theorem test_hyp_MatrixQueuePerforms :
    (∀ k ∈ [MatKind.zero, .stat (some 1) 0, .stat (some 1) 16, .drainA 4 0 0 false 0 3 0 256, .drainS 0 0 0 false 0x1000 1024 0 1 0 16 false],
      headMatB (stMat k (mat0 false)) { id := 0, kind := k, flag := some 0 } [] = true) ∧
    (mat0 false).rm = false ∧ ((stMat .zero (mat0 false)).teamAt 0).warps ≤ 32 ∧ 0x1000 % drainedBytes 0 = 0 ∧ (mat0 true).rm = true ∧
    kGetD (256 * 0 + 0) 0 (mat0 true).acc ≠ kGetD (256 * (0 + 128) + 0) 0 (mat0 true).acc := by decide +kernel
theorem test_hyp_MatrixQueuePerforms_last :
    let s0 := stMat .zero (mat0 false)
    let s := s0.setTeamAt 0 { s0.teamAt 0 with live := 0, mask := 0 }
    headMatB s { id := 0, kind := .zero, flag := some 0 } [] = true ∧ (s.teamAt s.ev.x).live = 0 ∧ (s.teamAt s.ev.x).status = .live ∧
    (s.teamAt s.ev.x).streamA = none ∧ (s.teamAt s.ev.x).streamC = none ∧ ((stMat .zero (mat0 false)).teamAt 0).live ≠ 0 := by decide +kernel
theorem test_hyp_MatrixQueuePerforms_area :
    let s := stMat (.save 0x1000 []) (mat0 false)
    let u := stMat (.rest 0x1000 []) (mat0 false)
    headMatB s { id := 0, kind := .save 0x1000 [], flag := some 0 } [] = true ∧ (saveArea s { tid := s.ev.x, id := 0, phase := 0 } 0x1000 [] []).isSome = true ∧
    headMatB u { id := 0, kind := .rest 0x1000 [], flag := some 0 } [] = true ∧ restPoisoned u 0x1000 [] = false ∧
    (restArea u (u.teamAt u.ev.x) 0x1000 []).isSome = true ∧ areaLost s 0x1000 [] = none := by decide +kernel

/-- A page of 1 GiB in a closing extent. -/
def lostEntry : TlbEntry := { placedEntry with vpage := 0x40000000, size := 2 ^ 30, ppage := 2 ^ 40 }
theorem test_hyp_MatrixQueuePerforms_lost : ∀ k ∈ [MatKind.save 0x40000000 [lostEntry], .rest 0x40000000 [lostEntry]],
    let s0 := stMat k (mat0 false)
    let s := { s0 with plat := { s0.plat with extents := [{ base := 2 ^ 40, len := 2 ^ 30, port := 0, st := .closing }] } }
    headMatB s { id := 0, kind := k, flag := some 0 } [] = true ∧ areaLost s 0x40000000 [lostEntry] = some 0x40000000 ∧ (s.teamAt s.ev.x).live ≠ 0 ∧
    (s.teamAt s.ev.x).status = .live := by decide +kernel
theorem test_hyp_MatrixAreaRoundTrip : kCanon 0 (mat0 true).acc = true ∧ (∀ p ∈ (mat0 true).acc, p.1 < 65536) ∧ kCanon (0 : BitVec 40) [(65535, 1)] = true ∧
    65535 < 65536 := by decide +kernel

/-! ### Hypotheses that are met: the function store -/

/-- A descriptor of two inputs and one output, 64 records (R325). -/
def desc : FnDesc :=
  { d := 2, m := 1, staged := false, allot := 64, tpages := 1, tbase := 0x2000, w := [0x3F800000, 0x3F800000], r0 := 0x3F800000, tau := 0, g := 0x3F800000 }

/-- Class Y with slot 0 bound on core 0. -/
def stF (g : Team → Team) : State :=
  (stT .y g).modCore 0 (fun k => { k with fs := [(0, { FnSlot.bound (some desc) 1 with resident := [] })] })

def callCtx : CallCtx := { slot := 0, d := 1, a := 2, gen := 1, core := 0 }
theorem test_hyp_StoreInstructionsEnterQueue :
    let s := stF id
    ((s.gridAt s.team.grid).replay = false ∧ (s.gridAt s.team.grid).recording = false) ∧ reaches s (.fsload {}) = true ∧ descAhead s s.team 0 = some desc ∧
    desc.staged = false ∧ descAhead s s.team 15 = none ∧ reaches s (.fsload (fDAB 15 0 0)) = true ∧ reaches s (.fsdrop {}) = true ∧
    reaches s (.fsdrop (fDAB 15 0 0)) = true ∧ (∀ w ∈ [0, 6, 7], reaches s (.fsqry { fDAB 1 0 0 with imm := some (BitVec.ofNat 32 w) }) = true) ∧
    reaches s (.fsqry { fDAB 1 0 15 with imm := some 5 }) = true := by decide +kernel
theorem test_hyp_StoreInstructionsEnterQueue_call :
    let f : Fields := { fDAB 1 2 0 with imm := some 8 }
    reaches (stF last) (.fcall f) = true ∧ groupOk (stF last).team 1 1 = true ∧ groupOk (stF last).team 2 2 = true ∧ (stF last).team.call = none ∧
    (stF last).team.mask ≠ 0 ∧ (stF last).team.stack.length < 32 ∧ reaches (stF (fun t => last (none' t))) (.fcall f) = true ∧
    reaches (stF (fun t => last { t with call := some callCtx })) (.fcall f) = true ∧ reaches (stF last) (.fcall { f with b := 3 }) = true ∧
    descAhead (stF last) (stF last).team 3 = none ∧ reaches (stF (fun t => last { t with stack := List.replicate 32 (ent .loopK) })) (.fcall f) = true := by
  decide +kernel
theorem test_hyp_FretReturns :
    reaches (stF last) (.fret (fDAB 4 5 0)) = true ∧ (stF last).team.call = none ∧
    (let s := stF (fun t => last { t with call := some callCtx, stack := [ent .fnK] })
     reaches s (.fret (fDAB 4 5 0)) = true ∧ s.team.call = some callCtx ∧ s.team.stack = ent .fnK :: [] ∧ (ent .fnK).kind = .fnK ∧
     descAhead s s.team callCtx.slot = some desc ∧ groupOk s.team 4 1 = true ∧ groupOk s.team 5 2 = true ∧ s.team.warps ≤ 32) := by decide +kernel

/-- The bytes of the descriptor, with its byte 3 as given (R325). -/
def descBytes (x : Byte) : List Byte :=
  [2, 1, 0, x, 64, 0, 1, 0] ++ leBytes 8 0x2000 ++ leBytes 4 0x3F800000 ++ leBytes 4 0x3F800000 ++ List.replicate 16 0 ++ leBytes 4 0x3F800000 ++
  leBytes 4 0 ++ leBytes 4 0x3F800000 ++ List.replicate 12 0

/-- The descriptor in core 0's copy of line 68, and a region of this class. -/
def stDef (x : Byte) (cls : Nat) : State :=
  let s := stT .y (fun t => { t with sregs := [(2, 0x1100)] })
  let s := (s.modCore 0 (fun k => { k with l1 := [(68, { cop with data := BitVec.ofNat 512 (leNat (descBytes x)) })] })).modDie 0 (fun d => { d with
    rafs := [(0, [BitVec.ofNat 128 (1 + 16 * cls)])] })
  s.modGrid 0 (fun g => { g with descs := [desc] })
theorem test_hyp_FsdefBinds : ∀ p ∈ [(0, 1), (1, 1), (0, 0)],
    let s := stDef (BitVec.ofNat 8 p.1) p.2
    let x : L1Copy := { cop with data := BitVec.ofNat 512 (leNat (descBytes (BitVec.ofNat 8 p.1))) }
    reaches s (.fsdef (fDAB 0 2 0)) = true ∧ (srcS64 s.team 2 0).toNat = 0x1100 ∧ (checkGlobal s s.cur 0x1100 64 wantRead matches .ok none 0x1100 _ _) = true ∧
    s.team.memQ = [] ∧ sealedLine s 68 = false ∧ winsOf s s.team.core 68 = [] ∧ l1At s s.team.core 68 = some x ∧ copyValid s s.team.core x = true ∧
    descOf (lineBytes (overlay s s.team.core 68 x.data)) = (desc, decide (p.1 = 0)) ∧ tbaseClass s 0 0 desc = decide (p.2 = 1) ∧ tbaseOk s 0 0 desc = true ∧
    (s.gridAt 0).det = false ∧ descAhead s s.team 0 = none ∧ desc.allot ≤ slotLimit (s.gridAt 0) 0 ∧
    (let u := s.modGrid 0 (fun g => { g with det := true })
     reaches u (.fsdef (fDAB 0 2 0)) = true ∧ (u.gridAt u.team.grid).det = true) := by decide +kernel

/-- A record around the origin with value 1 and radius 1. -/
def frec : FnRec := { serial := 1, radius := 0x3F800000, super := 0, grown := false, c := [0, 0], y := [0x3F800000], j := [0, 0] }

/-- The head of core 0's store queue. -/
def stFs (k : FsKind) : State :=
  let s := (stF (fun t => { t with wait := .store })).modCore 0 (fun c => { c with
    fs := [(0, { FnSlot.bound (some desc) 1 with resident := [frec] })], fsQ := [{ id := 0, tid := 0, kind := k, flag := some 0 }] })
  { s with ev := { s.ev with x := 0 } }
theorem test_hyp_StoreQueuePerforms :
    (∀ k ∈ [FsKind.define 0 desc, .drop 0, .query 0 6 63, .search 0 1 2 1 0x1010 0x1008 3 [(0, [0, 0]), (31, [0x40000000, 0])],
        .search 0 1 2 1 0x1010 0x1008 1 [(0, [0, 0])], .insert { callCtx with gen := 0 } 2 1 [([0, 0], [0], [0, 0])], .insert callCtx 2 1 [([0, 0x7F800000], [0], [0, 0])]],
      (stFs k).ev.x = 0 ∧ ((stFs k).coreAt 0).fsQ = { id := 0, tid := 0, kind := k, flag := some 0 } :: [] ∧ heldByFenceq (stFs k) 0 4 0 = false ∧
      ((stFs k).gridAt ((stFs k).teamAt 0).grid).failed = false ∧ ((stFs k).teamAt 0).core = 0 ∧ (slotAt (stFs k) 0 0 0).desc = some desc ∧
      (slotAt (stFs k) 0 0 0).gen = 1) ∧
    (fnSearch [frec] desc.w [0, 0]).isSome = true ∧ fnSearch [frec] desc.w [0x40000000, 0] = none ∧ ((stFs (.drop 0)).teamAt 0).warps ≤ 32 ∧
    31 < ((stFs (.drop 0)).teamAt 0).lanes ∧ (ofF32 0x7F800000).isFinite = false := by decide +kernel
/-- The table's page at 0x2000, obtained and translated. -/
def tableEntry : TlbEntry := { placedEntry with vpage := 0x2000, ppage := 0x2000, w := true, dirty := true, mclass := 1 }
def tablePage (st : SealSt) : APage := { size := 4096, tail := 5, st := st, pending := 0, recalled := [] }
def stTab (k : FsKind) (page : Nat) (st : SealSt) : State :=
  let s := (stFs k).modDie 0 (fun d => { d with rafs := [(0, [BitVec.ofNat 128 (0x11 + 0x10 * 2 ^ 76)])] })
  let s := s.modCore 0 (fun c => { c with tlb := [tableEntry], fs := [(0, { FnSlot.bound (some desc) 1 with resident := [frec], page := page })] })
  { s with pages := [(0x2000, tablePage st)] }
theorem test_hyp_StoreQueuePerforms_inserts :
    let s := stTab (.insert callCtx 2 1 [([0x40000000, 0], [0], [0, 0])]) 0 .opened
    let v := slotAt s 0 0 0
    let z := newRecord desc [0x40000000, 0] [0] [0, 0] ((sortRecs v.resident).map (fun y => { r := y, staged := none }))
    let u := stTab (.insert callCtx 2 1 [([0x40000000, 0], [0], [0, 0])]) 1 .opened
    callCtx.core = 0 ∧ callCtx.gen = v.gen ∧ (desc.d = 2 ∧ desc.m = 1 ∧ desc.staged = false ∧ desc.tpages = 1 ∧ v.page = 0) ∧
    ([0x40000000, 0, 0, 0, 0] : List Word).all (fun w => (ofF32 w).isFinite) = true ∧
    pageSize (regionOf s (dieOf 0) (s.gridAt 0).asid desc.tbase) = 4096 ∧ pageGone s 0x2000 4096 = false ∧ kGet 0x2000 s.pages = some (tablePage .opened) ∧
    (coreXlat s 0 (s.gridAt 0).asid (desc.tbase + 0 * 4096) accW matches .ok _ _) = true ∧
    (appendWrite (setPageRec s 0x2000 { tablePage .opened with tail := 256 }) (0x2000 + 128) (recBytes 0 { z.1 with serial := 2 })).isSome = true ∧
    heldByFenceq s 0 4 0 = false ∧ desc.tpages ≤ (slotAt u 0 0 0).page := by decide +kernel
theorem test_hyp_StoreQueuePerforms_loads : ∀ q ∈ [SealSt.sealed, .opened],
    let s := stTab (.load 0) 0 q
    (slotAt s 0 0 0).desc = some desc ∧ desc.staged = false ∧ desc.tpages = 1 ∧ findTlb (s.coreAt 0).tlb (s.gridAt 0).asid desc.tbase = some tableEntry ∧
    permOk tableEntry accR = true ∧ pageGone s 0x2000 (pageSize (regionOf s (dieOf 0) (s.gridAt 0).asid desc.tbase)) = false ∧
    kGet 0x2000 s.pages = some (tablePage q) ∧ heldByFenceq s 0 4 0 = false := by decide +kernel
theorem test_hyp_RecordsGrow :
    let far : WRec := { r := { frec with serial := 1, c := [0x3F800000, 0] }, staged := none }
    let near : WRec := { r := { frec with serial := 2 }, staged := none }
    (growth desc [0, 0] [far, near]).map (fun q => q.r.serial) = some 2 ∧ agrees desc near.r [0, 0] [0x3F800000] = true ∧
    agrees desc near.r [0, 0] [0x40000000] = false ∧ (growth desc [0x41000000, 0] [far, near]).isNone = true := by decide +kernel
theorem test_hyp_SearchPicksNewest : ([frec, { frec with serial := 2 }].map (fun r => r.serial)).Nodup := by decide
theorem test_hyp_RecordRoundTrip :
    frec.c.length = 2 ∧ frec.y.length = 1 ∧ frec.j.length = 1 * 2 ∧ frec.serial < 2 ^ 32 ∧ frec.super < 2 ^ 32 ∧
    (frec.c ++ frec.y ++ frec.j).all (fun w => (ofF32 w).isFinite) = true ∧ (ofF32 frec.radius).isFinite = true ∧ XVal.lt (ofF32 0) (ofF32 frec.radius) = true := by
  decide +kernel
theorem test_hyp_ResidentSet :
    let rs := [frec, { frec with serial := 2 }]
    rs.length ≤ 2 ∧ (rs.map (fun q => q.serial)).Pairwise (· < ·) ∧ (∀ q ∈ rs, q.serial < 3) ∧ ((∃ q ∈ rs, q.serial = 1) ∧ 1 ≠ 0) ∧ ∀ q ∈ rs, q.serial ≠ 0 := by
  decide

/-! ### Hypotheses that are met: launches -/

/-- One page of 1 GiB from 0, for every access, A and D set, under the tables at 0x10000. -/
def bigTables (s : State) : State :=
  let w (s : State) (a v : Nat) : State := memWrite s a (leBytes 8 v)
  w (w (w s 0x10000 0x11001) 0x11000 0x12001) 0x12000 0xFB

def bigRegion : BitVec 128 := BitVec.ofNat 128 (0xD + 0x10 * 2 ^ 76)

/-- The same with pages of 4 KiB for appends at 0x2000. -/
def tables2 (s : State) : State := memWrite (tables s) 0x14010 (leBytes 8 0x20DB)

def appRegion : BitVec 128 := BitVec.ofNat 128 (0x11 + 0x10 * 2 ^ 76)

/-- A grid that has retired with one staged record. -/
def stStaged : State :=
  let s := (tables2 (stE 0 0 0 0)).modDie 0 (fun d => { d with rafs := [(0, [appRegion])] })
  { s with pages := [(0x2000, { size := 4096, tail := 0, st := .opened, pending := 0, recalled := [] })] }.modGrid 0 (fun g => { g with
    retired := 1, descs := [desc], staged := [{ block := 0, team := 0, seq := 0, slot := 0, frec := frec, superStaged := none }] })

def freshPage : APage := { size := 4096, tail := 128, st := .opened, pending := 0, recalled := [] }
theorem test_hyp_StagedRecordsAppended :
    let s := stStaged
    let g := s.gridAt s.ev.x
    g.staged.length = 1 ∧ g.failed = false ∧ g.ended = false ∧ g.blocks ≤ g.retired ∧ g.descs[0]? = some desc ∧ 1 ≤ desc.tpages ∧
    pageGone s 0x2000 4096 = false ∧ kGet 0x2000 s.pages = some { freshPage with tail := 0 } ∧ pageSize (regionOf s g.tailDie g.asid desc.tbase) = 4096 ∧ g.det = false ∧
    (let u := (s.modGrid 0 (fun g => { g with det := true })).modBlock 0 (fun b => { b with relPhase := 1 })
     (u.gridAt 0).det = true ∧ ∀ p ∈ u.blocks, p.2.phase < p.2.relPhase) ∧
    (match cpXlat s g.tailDie g.asid desc.tbase accW, appendWrite (setPageRec s 0x2000 freshPage) 0x2000 (recBytes 0 { frec with serial := 1 }) with
     | .ok q e, some w => decide (q = s) && decide (e.ppage = 0x2000) && decide (w.pages = kPut 0x2000 freshPage s.pages) &&
        w.dies.all (fun d => d.2.dir.all (fun l => l.2.waiting.isEmpty)) &&
        (match cpXlat w g.tailDie g.asid desc.tbase accW with
         | .ok v e2 => decide (v = w) && decide (e2.ppage = 0x2000)
         | _ => false)
     | _, _ => false) = true := by decide +kernel

/-- Two records staged in a slot whose table has two pages, the first sealed, the second open with a tail of 5. -/
def desc2 : FnDesc := { desc with tpages := 2 }
def srec (block seq : Nat) (sup : Option Nat) : StagedRec := { block := block, team := 0, seq := seq, slot := 0, frec := frec, superStaged := sup }
def page2 (tail : Nat) : APage := { size := 4096, tail := tail, st := .opened, pending := 0, recalled := [] }
def stStaged2 (l : List StagedRec) : State :=
  let s := (memWrite (tables2 (stE 0 0 0 0)) 0x14018 (leBytes 8 0x30DB)).modDie 0 (fun d => { d with rafs := [(0, [appRegion])] })
  { s with pages := [(0x2000, { page2 5 with st := .sealed }), (0x3000, page2 5)] }.modGrid 0 (fun g => { g with retired := 1, descs := [desc2], staged := l })
theorem test_hyp_StagedRecordsInOrder : ∀ l ∈ [[srec 1 0 none, srec 0 7 none], [srec 0 3 none, srec 0 3 (some 0)]],
    let s := stStaged2 l
    let g := s.gridAt s.ev.x
    g.staged = l ∧ g.failed = false ∧ g.ended = false ∧ g.blocks ≤ g.retired ∧ g.det = false ∧ g.descs[0]? = some desc2 ∧ 1 < desc2.tpages ∧
    pageSize (regionOf s g.tailDie g.asid desc2.tbase) = 4096 ∧ (page2 5).pending = 0 ∧ (5 + 127) / 128 * 128 + 256 ≤ 4096 ∧
    pageGone s 0x2000 4096 = false ∧ pageGone s 0x3000 4096 = false ∧ kGet 0x2000 s.pages = some { page2 5 with st := .sealed } ∧ kGet 0x3000 s.pages = some (page2 5) ∧
    (match cpXlat s g.tailDie g.asid desc2.tbase accW, cpXlat s g.tailDie g.asid (desc2.tbase + 1 * 4096) accW,
        appendWrite (setPageRec s 0x3000 (page2 256)) (0x3000 + 128) (recBytes 0 { frec with serial := 34 }) with
     | .ok q0 e0, .ok q e, some w => decide (q0 = s) && decide (e0.ppage = 0x2000) && decide (q = s) && decide (e.ppage = 0x3000) &&
        (match cpXlat w g.tailDie g.asid (desc2.tbase + 1 * 4096) accW, appendWrite (setPageRec w 0x3000 (page2 384)) (0x3000 + 256)
            (recBytes 0 { frec with super := if l = [srec 1 0 none, srec 0 7 none] then 0 else 34, serial := 35 }) with
         | .ok q1 e1, some w2 => decide (q1 = w) && decide (e1.ppage = 0x3000) && w2.dies.all (fun d => d.2.dir.all (fun x => x.2.waiting.isEmpty)) &&
            (match cpXlat w2 g.tailDie g.asid (desc2.tbase + 1 * 4096) accW with
             | .ok q2 e2 => decide (q2 = w2) && decide (e2.ppage = 0x3000)
             | _ => false)
         | _, _ => false)
     | _, _, _ => false) = true := by decide +kernel
theorem test_hyp_StagedRecordsInOrder_order :
    stagedFirst (srec 0 7 none) (srec 1 0 none) ∧ (srec 0 3 none).seq = (srec 0 3 (some 0)).seq ∧ (srec 0 3 none).superStaged = none := by
  unfold stagedFirst; decide +kernel

/-- Queue 0 with these fields, and an event word. -/
def stK (k : Queue) (w : Word) : State :=
  let s := (stE 0 0 0 0).setQueue 0 k
  { s with ev := { s.ev with w := w }, plat := { s.plat with bootPhase := 6, dispatch := true } }

def qk : Queue := { (State.reset.queueAt 0) with
  base := 0x30000, size := 4, dies := 1, en := true, tail := 1, raf := 0x20000, comp := 0x40000 }
theorem test_hyp_QueueCommands :
    (∀ w ∈ [17, 2 ^ 31 + 1], (qk.en = true ∧ BitVec.ofNat 32 w ≠ qk.tail)) ∧ ((16 : Word) - qk.tail).toNat < 2 ^ 31 ∧ ((16 : Word) - qk.head).toNat ≤ 2 ^ qk.size.toNat ∧
    2 ^ qk.size.toNat < ((17 : Word) - qk.head).toNat ∧ 2 ^ 31 ≤ ((BitVec.ofNat 32 (2 ^ 31 + 1)) - qk.tail).toNat ∧
    6 ≤ (stK { qk with en := false } 0x101).plat.bootPhase ∧ ({ qk with en := false } : Queue).running = none ∧ ({ qk with en := false } : Queue).children = [] ∧
    (stE 0 0 0 0).plat.bootPhase < 6 ∧ ({ qk with children := [([], 1)], startableAt := some 7 } : Queue).children ≠ [] := by decide +kernel
theorem test_hyp_QueueCommands_fits : enableFits { qk with dies := 1 } ∧ ¬enableFits { qk with dies := 0 } ∧ ¬enableFits { qk with size := 17 } := by
  unfold enableFits; decide +kernel
theorem test_hyp_RegisterWrites :
    (stE (0x1000 + 64 * 63 + 0x3C) 0 0 0).ev.x = 0x1000 + 64 * 63 + 0x3C ∧ ((stE 0 0 0 0).queueAt 63).en = false ∧ (stK qk 0).queueAt 0 = qk ∧ qk.en = true ∧
    (stE 0x3000 0 0 0).ev.x = 0x3000 ∧ (stE 2 0 0 0).ev.x % 4 ≠ 0 := by decide +kernel

/-- A launch record of one block with this grid width and key grant, and a code object header of 64-byte lanes, at 0x50000 (R253, R72). -/
def recordBytes (gx keys : Nat) : List Byte :=
  leBytes 8 0x50000 ++ leBytes 8 0 ++ leBytes 4 gx ++ leBytes 2 1 ++ leBytes 2 1 ++ leBytes 2 0 ++ leBytes 1 0 ++ leBytes 1 0 ++ leBytes 4 0 ++
  leBytes 2 0 ++ leBytes 4 0 ++ leBytes 2 0 ++ leBytes 2 7 ++ leBytes 1 6 ++ leBytes 1 0 ++ leBytes 4 keys ++ List.replicate 16 0

def headerBytes : List Byte :=
  leBytes 4 0x4F524B31 ++ leBytes 4 0x7C4E91B3 ++ leBytes 2 64 ++ leBytes 2 0 ++ leBytes 2 0 ++ leBytes 2 64 ++ leBytes 2 0 ++ leBytes 2 32 ++ leBytes 1 1 ++
  List.replicate 11 0 ++ List.replicate 16 0 ++ leBytes 4 0x50 ++ List.replicate 28 0

/-- A grid of blocks of one team on die 0. -/
def stPlaceGrid (n : Nat) : Grid := { (stE 0 0 0 0).gridAt 0 with blocks := 1, nextBlock := 0, teams := 1, lanes := 32, diesMask := 1, stash := n, prio := 1 }

/-- Queue 0 with one pending record in a context of one large page. -/
def stGrid (gx keys : Nat) : State :=
  let s := bigTables (stK qk 0)
  let s := memWrite s 0x20000 (leBytes 16 bigRegion.toNat)
  memWrite (memWrite s 0x30000 (recordBytes gx keys)) 0x50000 headerBytes

/-- The head of queue 0 as read, and whether it is the first startable one. -/
def headOf (s : State) : State × Option Head := readHead s 0

def cpOk {α : Type} (r : Cp α) : Bool :=
  match r with
  | .ok _ _ => true
  | _ => false
theorem test_hyp_GridStarts_invalid :
    let s := stGrid 0 0
    s.plat.dispatch = true ∧ (match headOf s with
      | (s1, some h) => !recordOk (recordOf h.bytes) &&
          cpOk (cpWrite (popHead s1 0 h) (cpDie (s1.queueAt 0).dies.toNat) (cpKey 0) ((s1.queueAt 0).comp.toNat + 4 * (recordOf h.bytes).cslot)
            (leBytes 4 (0x0B * 2 ^ 16 + (recordOf h.bytes).seq)))
      | _ => false) = true := by decide +kernel
theorem test_hyp_GridStarts_refused :
    let s := stGrid 1 0x20000001
    (match headOf s with
      | (s1, some h) => recordOk (recordOf h.bytes) && (match firstStartable s1 with
        | (s2, some x) => decide (x.q = 0) && !x.failed && !grantOk (recordOf x.head.bytes) &&
            cpOk (cpWrite (popHead s2 0 x.head) (cpDie (s2.queueAt 0).dies.toNat) (cpKey 0) ((s2.queueAt 0).comp.toNat + 4 * (recordOf x.head.bytes).cslot)
              (leBytes 4 (0x0F * 2 ^ 16 + (recordOf x.head.bytes).seq)))
        | _ => false)
      | _ => false) = true := by decide +kernel
theorem test_hyp_GridStarts :
    let s := stGrid 1 0
    (match headOf s with
      | (s1, some h) => recordOk (recordOf h.bytes) && (match firstStartable s1 with
        | (s2, some x) => decide (x.q = 0) && !x.failed && grantOk (recordOf x.head.bytes) &&
            (kGetD (cpKey 0) [] (s2.dieAt (cpDie (s2.queueAt 0).dies.toNat)).rafs).all rfOk &&
            (match readCode s2 (cpDie (s2.queueAt 0).dies.toNat) (cpKey 0) (recordOf x.head.bytes) with
             | .ok s3 hdr ds => (match snapshotOf s3 (cpDie (s2.queueAt 0).dies.toNat) (cpKey 0) (launchDescs (detOf (recordOf x.head.bytes) hdr) ds) with
                | some (s4, snap) => (match startLog s4 0 x.head hdr with
                  | some log => decide (fitStatus s4 s4.nextGid (newGrid s4 0 x.head hdr ds snap log) = none)
                  | none => false)
                | none => false)
             | _ => false)
        | _ => false)
      | _ => false) = true := by decide +kernel
/-- The head that starts first, once it is read, has this to say of its code object. -/
def codeOfHead (s : State) (p : State → Nat → LaunchRec → Code → Bool) : Bool :=
  match firstStartable (headOf s).1 with
  | (s2, some x) => let die := cpDie (s2.queueAt 0).dies.toNat
    p s2 die (recordOf x.head.bytes) (readCode s2 die (cpKey 0) (recordOf x.head.bytes))
  | _ => false
/-- The same launch with these bytes at the code object's offset. -/
def stCode (off : Nat) (bs : List Byte) : State := memWrite (stGrid 1 0) (0x50000 + off) bs
theorem test_hyp_GridStarts_code : ∀ p ∈ [(0, 0, 0x0D), (4, 0, 0x0E), (8, 65, 0x0D)],
    let s := stCode p.1 (leBytes 2 p.2.1)
    codeOfHead s (fun s2 die r c => cpOk (cpRead s2 die (cpKey 0) r.code 80) && (match c with
      | .bad k => decide (k = p.2.2) && (kGetD (cpKey 0) [] (s2.dieAt die).rafs).all rfOk
      | _ => false)) = true := by decide +kernel
theorem test_hyp_GridStarts_region :
    let s := memWrite (stGrid 1 0) 0x20000 (leBytes 16 (bigRegion.toNat + 2 ^ 127))
    codeOfHead s (fun s2 die _ _ => !(kGetD (cpKey 0) [] (s2.dieAt die).rafs).all rfOk) = true := by decide +kernel
theorem test_hyp_RefusalStatuses :
    let far := recordOf (leBytes 8 (2 ^ 57) ++ (recordBytes 1 0).drop 8)
    codeOfHead (stGrid 1 0) (fun s2 die r c =>
      cpOk (cpRead s2 die (cpKey 0) r.code 80) && (cpRead s2 die (cpKey 0) far.code 80 matches .bad _) && (c matches .ok _ _ _)) = true ∧
    headerBytes.take 4 = leBytes 4 0x4F524B31 ∧ (headerBytes.drop 4).take 4 = leBytes 4 0x7C4E91B3 ∧ (headerOf headerBytes).nfunc = 0 := by decide +kernel
/-- The header's fields. -/
def hdr0 : CodeHdr := ⟨0x4F524B31, 0x7C4E91B3, 64, 0, 0, 64, 0, 32, 1, 0, 0, 0, 0, 0, [0, 0, 0, 0], 80, 0, 0, false⟩
theorem test_header_fields : headerOf headerBytes = hdr0 := by decide +kernel
theorem test_hyp_RefusalStatuses_fits : headerFits (headerOf headerBytes) := by
  rw [test_header_fields]
  have nf : ∀ w ∈ hdr0.nf, w = 0 ∨ nfValid w = true := fun w h => .inl (by simpa [hdr0] using h)
  exact ⟨by decide, by decide, by decide, by decide, by decide, by decide, by decide, by decide, by decide, by decide, by decide, by decide, by decide, nf, by decide, by decide⟩
theorem test_hyp_RefusalStatuses_range : ¬ headerFits { headerOf headerBytes with regBytes := 65 } := fun h => absurd h.2.2.1 (by decide +kernel)
theorem test_hyp_RefusalStatuses_bytes :
    blockFits (recordOf (recordBytes 1 0)) (headerOf headerBytes) ∧ ¬ blockFits { recordOf (recordBytes 1 0) with stash := 0xFFFE } (headerOf headerBytes) := by
  unfold blockFits
  exact ⟨fun n h => h ▸ by decide +kernel, fun h => absurd (h _ rfl) (by decide +kernel)⟩
theorem test_hyp_RefusalStatuses_room :
    let g (lvl size n teams : Nat) : Grid := { (stPlaceGrid 0) with cohLvl := lvl, cohSize := size, stash := n, teams := teams }
    (let s := stE 0 0 0 0
     (∀ u ∈ unitCaps s 1 1 (idleCapacity 9 (g 1 1000 0 1) 64 Room.idle), u.2 < 1000) ∧ (∃ u ∈ unitCaps s 1 1 (idleCapacity 9 (g 1 1 0 1) 64 Room.idle), 1 ≤ u.2) ∧
     fitRoom Room.idle 9 (g 0 0 5000000 1) (freshMats (g 0 0 5000000 1)) = none ∧ fitRoom Room.idle 9 (g 0 0 0 1) (freshMats (g 0 0 0 1)) ≠ none ∧
     unitCores s 1 0 0 ≠ []) := by decide +kernel
theorem test_hyp_LaunchCompletes :
    let s := ((stGrid 1 0).modGrid 0 (fun g => { g with retired := 1, compVa := 0x40000, diesMask := 1 })).modBlock 0 (fun b => { b with status := .retired })
    let s := s.modDie 0 (fun d => { d with rafs := kPut 0 [bigRegion] d.rafs })
    let g := s.gridAt s.ev.x
    gridDone s s.ev.x = true ∧ g.recording = false ∧ g.logFull = false ∧ (∀ c, c < 384 → (s.coreAt c).sbuf = []) ∧
    cpOk (cpWrite s g.tailDie g.asid (g.compVa + 4 * g.lrec.cslot) (leBytes 4 (worseStatus g.status 0 * 2 ^ 16 + g.lrec.seq))) = true := by decide +kernel

/-! ### Hypotheses that are met: placement and pre-emption -/

/-- Grid 0 has one block to place, grid 1 has block 1 on core 0 with a stash of n bytes; each block of grid 0 asks for m. -/
def stPlace (m n : Nat) : State :=
  let s := stE 0 0 0 0
  let s := s.modGrid 0 (fun g => { g with blocks := 1, nextBlock := 0, teams := 1, lanes := 32, diesMask := 1, stash := m, prio := 1 })
  let s := s.modGrid 0 (fun g => { g with lrec := { g.lrec with bound := 5 } })
  let s := s.setGrid 1 { s.gridAt 0 with nextBlock := 1, stash := n, prio := 0 }
  let s := { s with blocks := [(1, { s.blockAt 0 with grid := 1, status := .resident, stashBytes := n })], teams := [(0, { s.teamAt 0 with grid := 1, block := 1, clause := none })] }
  { s with nextBid := 2, nextTid := 1, plat := { s.plat with dispatch := true } }

def seats0 (s : State) : Option (List Seat) := seatsFor s 0 (fun _ => List.replicate 1 false) (fun _ => true) 0
theorem test_hyp_PlacementChoices :
    let s := stPlace 0 0
    let g := s.gridAt 0
    (placeOne s 0 g [0] [false] 0 []).isSome = true ∧ 1 ≤ 1 ∧ [(Option3.save, 3), (Option3.flush, 0)] ≠ [] := by decide +kernel
theorem test_hyp_BlocksPlaced :
    let s := stPlace 0 0
    let u := stPlace 3000000 3000000
    canPlace s (s.gridAt s.ev.x) = true ∧ (s.gridAt 0).cohLvl = 0 ∧ (s.gridAt 0).descs = [] ∧ (s.gridAt 0).replay = false ∧ (s.gridAt 0).recording = false ∧
    (s.gridAt 0).teams = 1 ∧ (s.gridAt 0).nextBlock = 0 ∧
    (match seats0 s with
     | some [x] => decide (x.1 = 0) && decide (x.2.2.length ≤ 16)
     | _ => false) = true ∧ canPlace u (u.gridAt u.ev.x) = true ∧ seats0 u = none := by decide +kernel
theorem test_hyp_BlocksPlaced_marks :
    let u := stPlace 3000000 3000000
    let g := u.gridAt u.ev.x
    let v := u.modCore 0 (fun c => { c with relayout := some 7 })
    ((u.coreAt 0).enabled = true ∧ g.diesMask.testBit 0 = true ∧ (u.coreAt 0).relayout = none ∧ granulesFit (roomAbove u 0 g.prio) u.ev.x g = true) ∧
    g.diesMask.testBit (48 / 48) = false ∧ (v.coreAt 0).relayout = some 7 ∧ granulesFit (roomAbove u 0 0) u.ev.x g = false := by decide +kernel
theorem test_hyp_PreemptionBegins :
    let u := stPlace 3000000 3000000
    let g := u.gridAt u.ev.x
    canPlace u g = true ∧ g.lrec.bound ≠ 0 ∧ seats0 u = none ∧
    (match takeVictims u 0 g [] (victims u g) with
     | [v] => decide (v.bid = 1) && decide ((u.blockAt v.bid).status = .resident) && decide ((u.gridAt (u.blockAt v.bid).grid).cohLvl = 0)
     | _ => false) = true ∧
    (∀ p ∈ u.blocks, p.2.grid = (u.blockAt 1).grid → p.2.idx = (u.blockAt 1).idx → p.1 = 1) ∧ kGet 1 u.blocks = some (u.blockAt 1) ∧
    canPlace (u.modGrid 0 (fun g => { g with lrec := { g.lrec with bound := 0 } })) ((u.modGrid 0 (fun g => { g with lrec := { g.lrec with bound := 0 } })).gridAt 0) = true := by
  decide +kernel
theorem test_hyp_PreemptionBegins_drain :
    let s0 := (stPlace 0 0).modBlock 1 (fun b => { b with status := .draining 5 })
    let s := { s0 with ev := { s0.ev with x := 1 }, cc := 5 }
    (s.blockAt s.ev.x).status = .draining 5 ∧ (s.gridAt (s.blockAt s.ev.x).grid).cohLvl = 0 ∧ 0 < saveCost s s.ev.x ∧ kGet s.ev.x s.blocks = some (s.blockAt s.ev.x) ∧
    (∀ p ∈ s.blocks, p.2.grid = (s.blockAt s.ev.x).grid → p.2.idx = (s.blockAt s.ev.x).idx → p.1 = s.ev.x) ∧ 5 ≤ s.cc ∧ ({ s with cc := 4 } : State).cc < 5 := by
  decide +kernel

/-- Block 1 with a status, the event naming it; its team between clauses, or within one. -/
def stLeave (q : BStatus) (c : Option Clause) : State :=
  let s := (stPlace 0 0).modBlock 1 (fun b => { b with status := q })
  let s := s.setTeamAt 0 { s.teamAt 0 with clause := c }
  { s with ev := { s.ev with x := 1 } }
theorem test_hyp_BlocksLeave : ∀ b ∈ [BStatus.toSave, .toFlush],
    let s := stLeave b none
    let u := stLeave b (st .x).team.clause
    (s.blockAt s.ev.x).windows = [] ∧ (s.coreAt (s.blockAt s.ev.x).core).sbuf = [] ∧ (s.blockAt s.ev.x).status = b ∧ blockTeams s s.ev.x = [(0, s.teamAt 0)] ∧
    saveReady s (0, s.teamAt 0) = true ∧ (s.teamAt 0).matQ = [] ∧ (s.teamAt 0).core = (s.blockAt s.ev.x).core ∧ kGet 0 s.teams = some (s.teamAt 0) ∧
    (s.partAt (s.teamAt 0).partNo).sfuQ = [] ∧ (s.coreAt (s.teamAt 0).core).watch = [] ∧ (s.partAt (s.teamAt 0).partNo).holder ≠ some 0 ∧
    saveReady u (0, u.teamAt 0) = false ∧ blockTeams u u.ev.x = [(0, u.teamAt 0)] ∧
    s.blocks.filter (fun p => p.2.grid = (s.blockAt s.ev.x).grid && p.2.idx = (s.blockAt s.ev.x).idx) = [(s.ev.x, s.blockAt s.ev.x)] ∧
    (s.gridAt (s.blockAt s.ev.x).grid).cohLvl = 0 ∧ (s.gridAt (s.blockAt s.ev.x).grid).failed = false ∧
    ((s.modGrid (s.blockAt s.ev.x).grid (fun g => { g with failed := true })).gridAt (s.blockAt s.ev.x).grid).failed = true := by decide +kernel

/-- A cohort of two blocks, 1 and 2, on core 0, both to be saved; the team of block 2 within a clause, or between clauses. -/
def stCohort (c : Option Clause) : State :=
  let s := stLeave .toSave none
  let s := s.modGrid 1 (fun g => { g with blocks := 2, nextBlock := 2, cohLvl := 1, cohSize := 2, groups := [2] })
  let s := { s with blocks := s.blocks ++ [(2, { s.blockAt 1 with idx := 1 })] }
  { s with teams := s.teams ++ [(1, { s.teamAt 0 with block := 2, clause := c })] }
theorem test_hyp_BlocksLeave_cohort :
    let s := stCohort none
    let u := stCohort (st .x).team.clause
    (s.blockAt s.ev.x).windows = [] ∧ (s.blockAt s.ev.x).status = .toSave ∧ (s.gridAt (s.blockAt s.ev.x).grid).failed = false ∧ kSorted s.blocks = true ∧ kSorted s.teams = true ∧
    (cohortLeft s (s.blockAt s.ev.x)).map (fun q => q.1) = [1, 2] ∧
    (∀ q ∈ cohortLeft s (s.blockAt s.ev.x), q.2.status = .toSave ∧ q.2.windows = [] ∧ (s.coreAt q.2.core).sbuf = [] ∧ (blockTeams s q.1).length = 1 ∧
      ∀ p ∈ blockTeams s q.1, saveReady s p = true) ∧
    (2, u.blockAt 2) ∈ cohortLeft u (u.blockAt u.ev.x) ∧ saveReady u (1, u.teamAt 1) = false ∧ (1, u.teamAt 1) ∈ blockTeams u 2 := by decide +kernel
theorem test_hyp_BlocksReturn :
    let s := { stLeave .flushed none with teams := [] }
    let b := s.blockAt s.ev.x
    let g := s.gridAt b.grid
    g.cohLvl = 0 ∧ g.descs = [] ∧ g.replay = false ∧ g.recording = false ∧ b.windows = [] ∧ s.plat.dispatch = true ∧ g.ended = false ∧ g.failed = false ∧ b.status = .flushed ∧
    (match placeOne s b.grid g (unitCores s g.diesMask 0 0) (List.replicate g.teams false) b.idx [] with
     | some (_, x) => decide (x.1 = b.idx) && decide (x.2.2.length ≤ 16)
     | none => false) = true := by decide +kernel
theorem test_hyp_BlocksReturn_saved :
    let s0 := stLeave .saved none
    let s := s0.setTeamAt 0 { s0.teamAt 0 with status := .saved, slots := [] }
    let b := s.blockAt s.ev.x
    b.status = .saved ∧ blockBy s b.grid b.idx = some (s.ev.x, b) ∧ (∀ p ∈ s.blocks, p.2.grid = b.grid → p.2.idx = b.idx → p.1 = s.ev.x ∧ p.2 = b) ∧
    savedTeams s s.ev.x = [(0, s.teamAt 0)] ∧ kGet 0 s.teams = some (s.teamAt 0) ∧
    (match seatsFor s b.grid (fun i => match blockBy s b.grid i with
        | some p => (savedTeams s p.1).map (fun t => t.2.heldMat.isSome)
        | none => []) (fun i => (blockBy s b.grid i).any (fun p => p.2.status = .saved)) b.idx with
     | some [x] => decide (x.1 = b.idx) && decide (x.2.2.length = 1)
     | _ => false) = true := by decide +kernel
theorem test_hyp_SlotsReleased :
    let s := (stE 0 0 0 0).setTeamAt 0 { (stE 0 0 0 0).teamAt 0 with status := .ended, live := 0, mask := 0 }
    let q := s.setTeamAt 0 { s.teamAt 0 with memQ := [mop .fence []] }
    let r := s.setTeamAt 1 { s.teamAt 0 with status := .live }
    kGet s.ev.x s.teams = some (s.teamAt s.ev.x) ∧ kSorted s.teams = true ∧ endedQuiet s (s.ev.x, s.teamAt s.ev.x) = true ∧
    endedQuiet q (q.ev.x, q.teamAt q.ev.x) = false ∧ (s.blockAt (s.teamAt 0).block).windows = [] ∧ (s.coreAt 0).sbuf = [] ∧
    blockTeams s (s.teamAt 0).block = [(0, s.teamAt 0)] ∧ (1, r.teamAt 1) ∈ blockTeams r 0 ∧ (r.teamAt 1).status ≠ .ended ∧
    endedQuiet r (0, r.teamAt 0) = true ∧ kSorted r.teams = true := by decide +kernel
theorem test_hyp_TeamsAge :
    let s := placeWords State.reset .s [0x42180002, 0x10]
    let u := { s with cc := 1024 }
    teamReady u u.ev.x = true ∧ (u.teamAt u.ev.x).sched.readySince + 1024 ≤ u.cc ∧ s.cc < (s.teamAt s.ev.x).sched.readySince + 1024 := by decide +kernel

def pend : PendTrap := { cause := 0x10, i0 := 0, i1 := 0, i2 := 0, i3 := 1, strm := false }
theorem test_hyp_PendingTrapsTaken :
    (∀ w ∈ [Wait.none, .barrier .core 0 none, .rdv .mat, .watch, .sleep 5, .cont 0 1, .walk 0 1],
      ((stT .x (fun t => { t with wait := w, pendCopy := some pend })).teamAt 0).wait = w ∧
      ((stT .x (fun t => { t with wait := w, pendCopy := some pend })).teamAt 0).status = .live) ∧
    (stT .x sup).team.trap.sup = true ∧ (stT .x id).team.trap.sup = false ∧ (stT .x (fun t => { t with pendStream := [pend] })).team.pendStream = pend :: [] ∧
    (stT .x (fun t => { t with pendMat := [pend] })).team.pendStream = [] ∧ (stT .x (fun t => { t with pendMat := [pend] })).team.pendMat = pend :: [] ∧
    (stT .x (fun t => { t with pendMat := [pend] })).team.pendCopy = none := by
  decide +kernel

/-! ### Hypotheses that are met: deterministic launches -/

/-- Blocks 0 and 1 of a deterministic grid, the event naming block 1; block 0 stands in phase p. -/
def stDet (p r : Nat) : State :=
  let s := stE 1 0 0 0
  let s := s.modGrid 0 (fun g => { g with det := true, blocks := 2, nextBlock := 2 })
  let s := s.modBlock 0 (fun b => { b with phase := p, relPhase := r })
  s.setBlock 1 { s.blockAt 0 with idx := 1, phase := 0, relPhase := 0 }
theorem test_hyp_TicketsGranted :
    let s := stDet 1 1
    let b := s.blockAt s.ev.x
    (s.gridAt b.grid).det = true ∧ (s.gridAt b.grid).cohLvl = 0 ∧ (s.gridAt b.grid).failed = false ∧ (lowerBlocks s b).length = b.idx ∧
    (∀ q ∈ lowerBlocks s b, kGet q.1 s.blocks = some q.2 ∧ atomPending s q.1 b.phase = false ∧ b.phase < q.2.relPhase) ∧
    ((s.modBlock 1 (fun v => { v with status := .draining 9 })).blockAt 1).status = .draining 9 ∧
    (let u := (stDet 0 1).modBlock 0 (fun q => { q with status := .retired })
     lowerBlocks u (u.blockAt 1) = [(0, u.blockAt 0)] ∧ (u.blockAt 0).phase < (u.blockAt 0).relPhase ∧ (u.blockAt 0).status = .retired) ∧
    (lowerBlocks { s with blocks := [(1, b)] } b).length < b.idx ∧
    (∀ q ∈ lowerBlocks (stDet 0 0) ((stDet 0 0).blockAt 1), q.2.relPhase ≤ 0 ∧ q.2.relPhase ≤ q.2.phase) ∧
    (let u := (stDet 0 1).modBlock 1 (fun q => { q with phase := 1 })
     ∀ q ∈ lowerBlocks u (u.blockAt 1), q.2.relPhase ≤ (u.blockAt 1).phase ∧ q.2.status ≠ .retired ∧ liveTeams u q.1 ≠ []) ∧
    (let u := (stDet 0 1).modBlock 0 (fun q => { q with status := .flushed })
     (u.blockAt 0).status = .flushed) := by decide +kernel
theorem test_hyp_PhasesReleased :
    let s := (stDet 1 1).modBlock 1 (fun b => { b with phase := 1 })
    let b := s.blockAt s.ev.x
    (s.gridAt b.grid).det = true ∧ (s.gridAt b.grid).cohLvl = 0 ∧ (s.gridAt b.grid).failed = false ∧ b.relPhase < b.phase ∧
    (lowerBlocks s b).length = b.idx ∧ (lowerBlocks { s with blocks := [(1, b)] } b).length < b.idx ∧ (∀ v ∈ lowerBlocks s b, b.relPhase < v.2.relPhase) ∧
    blockPending s s.ev.x b.relPhase = false ∧
    (let u := s.setTeamAt 1 { s.teamAt 0 with block := 1, memQ := [mop (.store 4) [acc none 0x1100]] }
     blockPending u u.ev.x b.relPhase = true) ∧
    (match performStagedAll s b.core (b.staged.filter (fun w => w.phase ≤ b.relPhase)) with
     | some q => (performAppends q s.ev.x b.relPhase).isSome
     | none => false) = true ∧
    (let u := (stDet 0 0).modBlock 1 (fun b => { b with phase := 1 })
     ∀ v ∈ lowerBlocks u (u.blockAt 1), kGet v.1 u.blocks = some v.2 ∧ v.2.relPhase ≤ (u.blockAt 1).relPhase ∧ v.2.status ≠ .retired ∧ liveTeams u v.1 ≠ []) := by decide +kernel
theorem test_hyp_ReplayTriesAgain :
    (stT .x (fun t => { t with wait := .replay })).team.wait = .replay ∧ (st .x).team.wait ≠ .replay ∧ (st .x).team.memQ = [] := by decide +kernel

/-! ### Hypotheses that are met: the platform -/
def stP (x y z u : Nat) (g : Plat → Plat) : State := { stE x y z u with plat := g (stE x y z u).plat }

def ext (st : ExtSt) : Extent := { base := 2 ^ 40, len := 4096, port := 7, st := st }
theorem test_hyp_ExtentLifeCycle :
    let s := stP (2 ^ 40 + 4096) 4096 7 0 (fun p => { p with extents := [ext .present] })
    (2 ^ 40 ≤ s.ev.x ∧ s.ev.y ≠ 0 ∧ s.ev.x % 4096 = 0 ∧ s.ev.y % 4096 = 0 ∧ s.ev.x + s.ev.y ≤ 2 ^ 52 ∧ s.ev.z < 8 ∧
      (∀ e ∈ s.plat.extents, s.ev.x + s.ev.y ≤ e.base ∨ e.base + e.len ≤ s.ev.x) ∧ s.plat.extents.length < 200 ∧ tierUsed s.plat + s.ev.y ≤ 2 ^ 45) ∧
    2 ^ 45 < tierUsed (stP 0 1 0 0 (fun p => { p with extents := [{ ext .present with len := 2 ^ 45 }] })).plat + 1 ∧
    200 ≤ ((List.replicate 200 (ext .present)).filter (fun e => e.st ≠ .lost)).length ∧
    (∀ q ∈ [ExtSt.present, .closing], (stP (2 ^ 40) 0 0 0 (fun p => { p with extents := [ext q] })).plat.extents.find?
      (fun e => e.base = (stP (2 ^ 40) 0 0 0 (fun p => { p with extents := [ext q] })).ev.x) = some (ext q)) ∧
    (s.plat.xpend = false ∧ s.plat.xwait = []) ∧ heldLines (stP (2 ^ 40) 0 0 0 (fun p => { p with extents := [ext .closing] })) (2 ^ 40) 4096 = [] ∧
    (let u := (stP (2 ^ 40) 0 0 0 (fun p => { p with extents := [ext .closing] })).modDie 7 (fun d => { d with
       dir := [(tierLine, Dir.reset), (tierLine + 63, { Dir.reset with waiting := [{ kind := .rdx, die := 3 }] })] })
     heldLines u (2 ^ 40) 4096 = [] ∧ 64 * (tierLine + 63) < 2 ^ 40 + 4096 ∧ ∃ q ∈ (u.dieAt 7).dir, 2 ^ 40 ≤ 64 * q.1 ∧ 64 * q.1 < 2 ^ 40 + 4096 ∧ q.2.waiting ≠ []) ∧
    (stP 0 0 0 0 (fun p => { p with xpend := true, xforced := false })).plat.xpend = true := by decide +kernel
theorem test_hyp_ForcedReleases :
    let s := stP (2 ^ 40) 0 0 0 (fun p => { p with extents := [ext .present] })
    s.plat.extents.find? (fun e => e.base = s.ev.x) = some (ext .present) ∧ (ext .present).st ≠ .lost ∧ s.plat.xpend = false ∧ s.plat.xwait = [] ∧
    s.plat.xforced = false ∧ (stP 0 0 0 0 (fun p => { p with xpend := true, xforced := true })).plat.xforced = true := by decide +kernel
theorem test_hyp_FramesTakenAndFreed :
    let s := stE 0x2000 0x1000 0 0
    s.ev.y ≠ 0 ∧ s.ev.x % s.ev.y = 0 ∧ backed s s.ev.x = true ∧ backed s (s.ev.x + s.ev.y - 1) = true ∧ s.pages = [] ∧
    (∀ q ∈ [SealSt.sealed, .opened], kGet s.ev.x ({ s with pages := [(0x2000, apage q)] } : State).pages = some (apage q) ∧
      kSorted ({ s with pages := [(0x2000, apage q)] } : State).pages = true) := by decide +kernel
theorem test_hyp_FramesTakenAndFreed_leaf :
    let s := (tables2 (stE 0x2000 0x2000 0 0)).modDie 0 (fun d => { d with rafs := [(0, [appRegion])] })
    let s := { s with pages := [(0x2000, apage .sealed)] }
    kGet s.ev.x s.pages = some (apage .sealed) ∧ leafOf s s.ev.w.toNat s.ev.u s.ev.y s.ev.x = some 0x14010 ∧
    (match agentWrite s s.ev.w.toNat 0x14010 (leBytes 8 0) with
     | some u => kSorted u.pages
     | none => false) = true ∧ leafOf (stE 0x2000 0x2000 0 0) 0 0 0x2000 0x2000 = none := by decide +kernel
/-- Lane n of stack 15 is to be retrained below the threshold, with these repairs in flash. -/
def stLane (n : Nat) (rs : List Repair) : State := stP 15 n 0 0 (fun p => { p with eyeth := 0x2020, mgmt := true, repairs := rs })
theorem test_hyp_LanesRetrained :
    let s := stLane 2047 []
    let seen := stP 15 2047 0 0 (fun p => { p with eyeth := 0x2020, mgmt := true, lowSeen := [4096 * 15 + 2047] })
    let done := stP 15 2047 0 0 (fun p => { p with eyeth := 0x2020, mgmt := true, lanes := [(4096 * 15 + 2047, 0x40000000)] })
    let t := stLane 2047 [{ stack := 15, lane := 2046, spare := 2110 }]
    4096 * 15 + 2047 ∈ seen.plat.lowSeen ∧ (kGetD (4096 * 15 + 2047) 0 done.plat.lanes).getLsbD 30 = true ∧ 4096 * 15 + 2047 ∉ s.plat.lowSeen ∧
    s.ev.x < 16 ∧ s.ev.y < 2112 ∧ s.plat.mgmt = true ∧ laneLow s.plat 0 = true ∧ laneLow s.plat 0xC8C8 = false ∧ laneLow s.plat 0x0101 = true ∧
    laneLow (stP 15 2047 0 0 (fun p => { p with eyeth := 0 })).plat 0 = false ∧ (State.reset.plat).mgmt = false ∧ (2047 : Nat) < 2048 ∧
    (∀ r ∈ s.plat.repairs, r.stack = 15 → 2048 ≤ r.spare) ∧ spareFree s.plat 15 2110 ∧ 2110 = 2048 + 2 * (2047 / 64) ∧
    (∀ r ∈ t.plat.repairs, r.stack = 15 → 2048 ≤ r.spare) ∧ spareFree t.plat 15 2111 ∧ ¬spareFree t.plat 15 2110 := by
  unfold spareFree; decide +kernel
theorem test_hyp_LanesRetrained_spares :
    let s := stLane 2110 [{ stack := 15, lane := 2047, spare := 2110 }]
    let t := stLane 2047 [{ stack := 15, lane := 2046, spare := 2110 }, { stack := 15, lane := 2045, spare := 2111 }]
    laneLow s.plat 0 = true ∧ 2048 ≤ 2110 ∧ 2111 = 2048 + 2 * ((2110 - 2048) / 2) + (1 - 2110 % 2) ∧ spareFree s.plat 15 2111 ∧
    { stack := 15, lane := 2047, spare := 2110 } ∈ s.plat.repairs ∧ (∀ r ∈ s.plat.repairs, r.stack = 15 → r.spare = 2110 → r.lane = 2047) ∧
    ¬spareFree t.plat 15 (2048 + 2 * (2047 / 64)) ∧ ¬spareFree t.plat 15 (2049 + 2 * (2047 / 64)) := by
  unfold spareFree; decide +kernel

/-- Test case 15 of the GCM specification (AES-256, no additional data), as bytes of KBLOB: 64 bytes of ciphertext, the tag, the nonce, 4 zero bytes. -/
def gcmCase : List Byte :=
  leBytes 32 0xaad15525bda29875c9c0e5bfdc8c3a647d42842aa3377ff4077d5699f0c12d52 ++ leBytes 32 0xad15808962f6c9bc0a7aba93631ef6c538888256108bb0a73dbb0d59488eb08c ++
  leBytes 16 0x6ccce37022501aecbd7134d9c5da94b0 ++ leBytes 12 0x88f8cadeaddbcefabebafeca ++ leBytes 4 0

def gcmKey : BitVec 256 := 0x08833067948f6a6d1c73658692e9fffe08833067948f6a6d1c73658692e9fffe

/-- A key load of the last slot waits; the blob is the test case's. -/
def stKey (ses : Option (BitVec 256)) : State := stP 0 0 0 0 (fun p => { p with
  kbusy := true, vkeyreq := 0x40001FFF, session := ses, kblob := gcmCase.zipIdx.map (fun q => (q.2, q.1)) })
theorem test_hyp_KeyCommands :
    let s := stKey none
    s.plat.kbusy = true ∧ s.plat.vkeyreq.toNat / 2 ^ 30 = 1 ∧ s.plat.vkeyreq.toNat % 2 ^ 13 = 8191 ∧ s.plat.session.bind (openBlob s.plat) = none ∧
    (kGetD 8191 KeySlot.reset s.plat.keys).loaded = false ∧ (kGetD 8191 KeySlot.reset (kPut 8191 { KeySlot.reset with loaded := true } s.plat.keys)).loaded = true ∧
    (stP 0 0 0 0 (fun p => { p with kbusy := true, vkeyreq := 0x80000000 })).plat.vkeyreq.toNat / 2 ^ 30 = 2 ∧
    kGetD (92 + 3) 0 (stP 0 0 0 0 (fun p => { p with kblob := [(95, 1)] })).plat.kblob ≠ 0 := by decide +kernel
theorem test_hyp_KeyCommands_opens : (stKey (some gcmKey)).plat.session = some gcmKey ∧ (openBlob (stKey (some gcmKey)).plat gcmKey).isSome = true := by decide +kernel
theorem test_hyp_BootPhases :
    let b (n : Nat) (stop : Bool) (rs : List Repair) : State := stP 31 0 0 0 (fun p => { p with
      bootPhase := n, bootStop := stop, repairs := rs, flash := { p.flash with signed := true }, flashShell := { p.flashShell with signed := true } })
    (∀ n ∈ [0, 1, 2, 3, 4, 5], (b n false []).plat.bootPhase = n ∧ (b n false []).plat.bootStop = false ∧ (b n false []).plat.flash.signed = true ∧
      (b n false []).plat.flashShell.signed = true) ∧ ({ b 2 false [] with ev := { (b 2 false []).ev with ok := true } } : State).ev.ok = true ∧ (b 1 false []).ev.ok = false ∧
    (b 2 false [{ stack := 15, lane := 2047, spare := 2110 }]).plat.repairs.length = 1 ∧ (b 5 false []).ev.x < 32 ∧ (b 5 false []).plat.swst ≠ 2 ∧
    (b 1 true []).plat.bootStop = true ∧ (b 1 true []).plat.swaddr.toNat % 4096 = 0 ∧ (b 1 true []).plat.swlen.toNat ≤ 2 ^ 26 ∧ (b 1 true []).plat.swst = 0 ∧
    (stP 0 0 0 0 (fun p => { p with bootStop := true, swst := 1 })).plat.swst = 1 := by decide +kernel
theorem test_hyp_FirmwareSwaps :
    (∀ n ∈ [0, 1, 2, 3, 4, 6], (stP 0 0 0 0 (fun p => { p with swst := n, bootPhase := 6, staged := some p.flash })).plat.swst = n ∧
      (stP 0 0 0 0 (fun p => { p with swst := n, bootPhase := 6, staged := some p.flash })).plat.staged.isSome = true) ∧
    (stP 0 0 0 0 (fun p => { p with swaddr := 4095 })).plat.swaddr.toNat % 4096 ≠ 0 ∧ (stP 0 0 0 0 id).cc ≤ (stP 0 0 0 0 id).plat.swapAt + 35000000 ∧
    ({ stP 0 0 0 0 (fun p => { p with swst := 2 }) with cc := 35000001 } : State).plat.swapAt + 35000000 < 35000001 := by decide +kernel

/-- Long after reset, command-processor core 4 of die 1 stands on a rung. -/
def stW (x rung : Nat) (phase : Nat) (ok : Bool) : State :=
  let s := stP x 0 0 0 (fun p => { p with wdctl := 0xA3F, bootPhase := phase, rung4At := some 0, cps := [(4, { pet := 0, rung := rung, rungAt := 0, alive := false })] })
  { s with cc := 10000000000, ev := { s.ev with ok := ok } }
theorem test_hyp_WatchdogLadder :
    (stW 31 0 6 false).plat.swst = 0 ∧ 5 ≤ (stW 31 0 6 false).plat.bootPhase ∧ (stW 31 0 6 false).ev.x < 32 ∧ wouldFire (stW 4 0 6 false) 0 (trigCp (stW 4 0 6 false) 4) ∧
    wouldFire (stW 4 1 6 false) 1 (trigCp (stW 4 1 6 false) 4) ∧ wouldFire (stW 1 2 6 false) 2 (trigDie (stW 1 2 6 false) 1) ∧
    wouldFire (stW 1 2 6 true) 3 (trigDie (stW 1 2 6 true) 1) ∧ wouldFire (stW 1 2 6 true) 4 (trigPkg (stW 1 2 6 true)) ∧
    wouldFire (stW 1 2 5 false) 5 (trigPkg (stW 1 2 5 false)) ∧ (stW 1 2 5 false).plat.powerReq = false ∧ (stP 0 0 0 0 (fun p => { p with wdctl := 0xA00 })).plat.wdctl.toNat % 64 = 0 ∧
    (stP 0 0 0 0 (fun p => { p with powerReq := true })).plat.powerReq = true := by unfold wouldFire; decide +kernel
theorem test_hyp_WatchdogLadder_still :
    let s := stP 0 0 0 0 (fun p => { p with wdctl := 0xA3F })
    s.plat.swst = 0 ∧ ¬wouldFire s 0 (trigCp s s.ev.x) ∧ ¬wouldFire s 1 (trigCp s s.ev.x) ∧ ¬wouldFire s 2 (trigDie s s.ev.x) ∧ ¬wouldFire s 3 (trigDie s s.ev.x) ∧
    ¬wouldFire s 4 (trigPkg s) ∧ ¬wouldFire s 5 (trigPkg s) := by unfold wouldFire; decide +kernel
theorem test_hyp_AttestationAndLinks :
    (∀ n ∈ [2, 3, 4, 6], (stE n 0 0 0).ev.x = n) ∧ (stE 0 0 0 0).plat.staged = none ∧ (stE 7 0 0 0).ev.x > 6 ∧ (stE 0 0 0 0).plat.session = none ∧
    (stP 3 0 0 0 (fun p => { p with cert := some (Config.rootKey, Config.leafKey Config.identityKey) })).plat.cert.isSome = true ∧ (stE 3 0 0 0).plat.cert = none ∧
    (stP 0 0 0 0 (fun p => { p with session := some 1 })).plat.session = some 1 := by decide +kernel

def creq : ChanReq := { stack := 31, line := 7, cls := 3, stamp := 0, who := 2, wgt := 5 }

/-- One request waits at the channel that the event names. -/
def stChan (g : Plat → Plat) : State := stP 31 (Config.channelOf 7 % 32) 0 0 (fun p => g { p with chan := [creq] })
theorem test_hyp_ChannelsServe_next :
    (stChan id).plat.chan.filter (fun r => r.stack = (stChan id).ev.x && Config.channelOf r.line % 32 = (stChan id).ev.y) = [creq] ∧ (stChan id).ev.nums = [] ∧
    classReady (stChan id).plat [creq] 3 = true ∧ classReady (stChan id).plat [] 0 = false ∧
    nextClass (waitingWeight [creq]) (fun c => c = 3) (kGetD (32 * (stChan id).ev.x + (stChan id).ev.y) 0 (stChan id).plat.rrChan) = some (3, 3) ∧
    earliest ([creq].filter (fun r => r.cls = 3)) = some creq := by
  have h : (stChan id).plat.rowAct = [] := by decide +kernel
  refine ⟨?_, rfl, by simp [classReady, creq, earliest, bankHeld, h], rfl, ?_, by decide⟩
  · simp [stChan, stP, stE, creq]
  · show nextClass (waitingWeight [creq]) (fun c => c = 3) 0 = _
    decide +kernel
theorem test_hyp_ChannelsServe :
    let full := stP 31 5 0 0 (fun p => { p with rowAct := kPut (31 + 2 ^ 20 * 5) 16383 p.rowAct, mgmt := true })
    max 256 (full.plat.actth.toNat % 2 ^ 14) ≤ kGetD (31 + 16 * 0 + 2 ^ 20 * 5) 0 full.plat.rowAct ∧
    (stP 31 5 0 0 id).plat.rowAct = [] ∧ 0 < max 256 ((stP 31 5 0 0 id).plat.actth.toNat % 2 ^ 14) ∧ full.plat.mgmt = true ∧ (stP 31 5 0 0 id).plat.mgmt = false ∧
    nextClass (fun _ => 1) (fun c => c = 0) 0 = some (0, 0) ∧ (nextClass (fun _ => 1) (fun c => c = 3) 0).isSome = true ∧
    (∀ q ∈ [{ creq with stamp := 4095 }, { creq with stamp := 1 }], stampFrom 4094 q.stamp < 2048) ∧
    earliest [{ creq with stamp := 1 }, { creq with stamp := 4095 }] = some { creq with stamp := 4095 } ∧ (1 : Nat) ≠ 0 ∧ 64 * 7 < 2 ^ 40 := by
  decide +kernel

/-- A row of the request's bank with n activations; row 9 of the bank is open. -/
def bankRow (k n : Nat) (p : Plat) : Plat := { p with rowAct := [(k, n)], actth := 0, openRow := [(bankAt 15 7, 9)] }
theorem bankRow_mod (row : Nat) : (bankAt 15 7 + 2 ^ 20 * row) % 2 ^ 20 = bankAt 15 7 := by
  rw [Nat.add_mul_mod_self_left]; exact Nat.mod_eq_of_lt (by unfold bankAt; omega)
theorem bankRow_free (k n : Nat) (p : Plat) (hk : k % 2 ^ 20 = bankAt 15 7) : bankFree (bankRow k n p) 15 7 ↔ n < 256 := by
  have h : max 256 ((bankRow k n p).actth.toNat % 2 ^ 14) = 256 := by
    show max 256 ((0 : DWord).toNat % 2 ^ 14) = 256
    decide +kernel
  unfold bankFree
  rw [h]
  exact ⟨fun f => f (k, n) (by simp [bankRow]) hk, fun l r hr _ => by rw [show r = (k, n) by simpa [bankRow] using hr]; exact l⟩
theorem test_hyp_ChannelsServe_bank (p : Plat) :
    ∃ k, bankFree (bankRow k 255 p) 15 7 ∧ ¬bankFree (bankRow k 256 p) 15 7 ∧ kGet (bankAt 15 7) (bankRow k 255 p).openRow = some 9 := by
  obtain ⟨k, hk⟩ : ∃ k, k % 2 ^ 20 = bankAt 15 7 := ⟨_, bankRow_mod 9⟩
  exact ⟨k, (bankRow_free k 255 p hk).2 (by decide), fun h => absurd ((bankRow_free k 256 p hk).1 h) (by decide), by simp [bankRow, kGet]⟩
theorem test_hyp_ChannelsServe_none : bankFree { State.reset.plat with rowAct := [] } 15 7 := fun _ h => by cases h

/-- A `fenceq` of team 0 that names queue 3 stands before a class Q operation. -/
def stFence (s : State) : State := (s.setTeamAt 0 { s.teamAt 0 with memQ := [mop (.fenceq 8) []], nextOp := 8 })
theorem test_hyp_SpecialFunctionResult_held :
    let s := stFence stQ
    let s := s.setPart 0 { s.partAt 0 with sfuQ := [{ id := 8, tid := 0, dst := some 5, vals := [(0, 7)], flag := some 2 }] }
    (s.partAt (s.teamAt s.ev.x).partNo).sfuQ = [{ id := 8, tid := 0, dst := some 5, vals := [(0, 7)], flag := some 2 }] ∧ s.ev.x = 0 ∧
    heldByFenceq s s.ev.x 3 8 = true ∧ heldByFenceq (stFence (st .q)) (st .q).cur 3 (stFence (st .q)).team.nextOp = true ∧
    reaches (stFence (st .q)) (.ex2A (fDAB 1 2 0)) = true := by decide +kernel

/-! ### Hypotheses that are met: encodings, steps, reset -/
theorem test_hyp_DecodeEncode :
    classOf (.iadd { fDAB 127 127 127 with mod := some 0, imm := some 0 }) = some .v ∧
    (encode (.iadd { fDAB 127 127 127 with mod := some 0, imm := some 0 })).isSome = true ∧
    (decode .v [0xFE1D0000] matches .ok _ []) = true := by decide +kernel

/-- A team takes its turn. -/
def turnB (s : State) (tid : Nat) : Bool :=
  decide ((s.teamAt tid).status = .live) && decide ((s.teamAt tid).live ≠ 0) && !mustStop s tid && !heldToLeave s tid && decide ((s.teamAt tid).pendStream = []) &&
  decide ((s.teamAt tid).pendCopy = none) && decide ((s.teamAt tid).pendMat = []) && decide ((s.teamAt tid).wait = .none)

theorem takesTurn_of_turnB {s : State} {tid : Nat} (h : turnB s tid = true) : takesTurn s tid := by
  simpa [turnB, takesTurn, and_assoc] using h
theorem test_hyp_StepRunsDecoded :
    let s := placeWords State.reset .v [0x02041030]
    let s1 := { s with agenda := [], cur := 0, curStream := none }
    let late := { s with teams := [(0, { s.teamAt 0 with sched := { (s.teamAt 0).sched with stalled := 5 } })] }
    s.agenda = [.issue 0] ∧ turnOk { s with agenda := [] } 0 = true ∧ turnOk { late with agenda := [] } 0 = false ∧ turnB s1 0 = true ∧ s1.team.clause = (placedTeam .v).clause ∧ s1.team.inRep = none ∧
    (match fetchInstr s1 0 (selfPc s1.team).toNat with
     | .ok ws => (decode .v ws matches .ok _ _)
     | _ => false) = true ∧ (exec (.iadd (fDAB 1 2 3)) s1 matches .next _) = true := by decide +kernel
theorem test_hyp_TeamsAge_round :
    let s0 := placeWords State.reset .v [0x02041030]
    let q := (1, { s0.teamAt 0 with index := 1, slots := [1] })
    let s := (s0.setTeamAt 1 q.2).modPart 0 (fun k => { k with rr := [1, 0] })
    q ∈ teamsOn s (s.teamAt 0).partNo ∧ q.1 ≠ 0 ∧ q.2.sched.cls = (s.teamAt 0).sched.cls ∧ q.2.sched.yld = false ∧ q.2.sched.stalled ≤ s.cc ∧
    couldIssue s q = true ∧ roundPlace (s.partAt (s.teamAt 0).partNo).rr 1 < roundPlace (s.partAt (s.teamAt 0).partNo).rr 0 := by decide +kernel
theorem test_hyp_StepRunsDecoded_repeat :
    let s := stRep 64
    let s1 := { s with agenda := [], cur := 0, curStream := none }
    let s2 := s1.setTeam { s1.team with inRep := some (repOf 0xFE08C000) }
    turnB s2 0 = true ∧ s2.team.inRep = some (repOf 0xFE08C000) ∧
    (match fetchInstr s2 0 (selfPc s2.team).toNat with
     | .ok ws => (decode .v ws matches .ok _ _)
     | _ => false) = true := by decide +kernel
theorem test_hyp_StepRunsDecoded_header :
    let s := placeWords State.reset .v [0x140001E0]
    let s1 := { s with agenda := [], cur := 0, curStream := none }
    let s2 := s1.setTeam { s1.team with clause := none }
    turnB s2 0 = true ∧ s2.team.clause = none ∧ (match fetchWord s2 0 s2.team.pc.toNat with
      | .ok w => (exec (.clauseStart w) s2 matches .next _)
      | _ => false) = true ∧ isEvent .ptsTick = true ∧ (exec .ptsTick s2 matches .next _) = true := by decide +kernel
theorem test_hyp_StepKeepsMemoryForm :
    Memory.wf (placeWords State.reset .v [0x02041030]).mem = true ∧ (step (placeWords State.reset .v [0x02041030]) matches .next _) = true := by decide +kernel

theorem test_hyp_WalkIndexes : (0 : Nat) < 4 ∧ (3 : Nat) < 4 := by decide

/-! ### Ill-formed terms, one for each check of R75 that the words decide -/

/-- EXT that the form does not permit: `bra` without its label. -/
theorem test_wf_ext : wellFormed (.bra {}) = false ∧ wellFormed (.bra (lab 0 0)) = true := by decide +kernel
/-- A field without a use is not zero. -/
theorem test_wf_zero : wellFormed (.mov (fDAB 1 2 3)) = false ∧ wellFormed (.mov (fDAB 1 2 0)) = true := by decide +kernel
/-- HOLD where the form has none (R48). -/
theorem test_wf_hold : wellFormed (.sadd { fDAB 1 2 3 with hold := 1 }) = false ∧ wellFormed (.iadd { fDAB 1 2 3 with hold := 1 }) = true := by decide +kernel
/-- Modifier fields: PRED without PEN, a reserved RND code, a field the form does not use (R58). -/
theorem test_wf_modifier :
    wellFormed (.fadd { fDAB 1 2 3 with mod := some 0x18000380 }) = false ∧ wellFormed (.fadd { fDAB 1 2 3 with mod := some 0x00000280 }) = false ∧
    wellFormed (.sadd { fDAB 1 2 3 with mod := some 0x000003A0 }) = false ∧ wellFormed (.fadd { fDAB 1 2 3 with mod := some 0x1A000080 }) = true := by
  decide +kernel
/-- SAT of an integer form without DNAR, NFS without a narrow subfield (R136). -/
theorem test_wf_subfields :
    wellFormed (.iadd { fDAB 1 2 3 with mod := some 0x00000390 }) = false ∧ wellFormed (.iadd { fDAB 1 2 3 with mod := some 0x00000790 }) = true ∧
    wellFormed (.fadd { fDAB 1 2 3 with mod := some 0x000003A0 }) = false := by decide +kernel
/-- An immediate word that nothing selects (R61). -/
theorem test_wf_immediate :
    wellFormed (.iadd { fDAB 1 2 3 with imm := some 1 }) = false ∧ wellFormed (.iadd { fDAB 1 2 127 with imm := some 1 }) = true := by decide +kernel
/-- Rules of single forms: a label off its alignment (R115), `fenceq` of no queue (R197), `ld` with release semantics (R179). -/
theorem test_wf_own :
    wellFormed (.bra { imm := some 2 }) = false ∧ wellFormed (.fenceq { imm := some 0 }) = false ∧ wellFormed (.fenceq { imm := some 31 }) = true ∧
    wellFormed (.ld32 { fDAB 1 90 2 with mod := some 0x01210000 }) = false ∧ wellFormed (.ld32 { fDAB 1 90 2 with mod := some 0x01110000 }) = true := by
  decide +kernel
/-- Codes outside their kinds (R63): an odd pair, a reserved source code, code 127 without its word. -/
theorem test_wf_codes :
    wellFormed (.sadd64 (fDAB 1 2 4)) = false ∧ wellFormed (.iadd (fDAB 1 123 3)) = false ∧ wellFormed (.iadd (fDAB 1 127 3)) = false ∧
    wellFormed (.ld32 (fDAB 1 91 2)) = false ∧ wellFormed (.sadd64 (fDAB 2 4 6)) = true := by decide +kernel
/-- A reserved subfield (R64). -/
theorem test_wf_reserved_subfield :
    wellFormed (.iadd { fDAB 1 2 3 with mod := some 0x01400380 }) = false ∧ wellFormed (.iadd { fDAB 1 2 3 with mod := some 0x01300380 }) = true := by
  decide +kernel

/-! ### Words written out from the manual's encodings -/

/-- A clause header (R51), as 04_instruction_examples.md writes it. -/
theorem test_word_header :
    hdrOk 0x180003E0 = true ∧ (0x180003E0 : Word).extractLsb' 28 4 = 1 ∧ clsOf ((0x180003E0 : Word).extractLsb' 25 3).toNat = .m ∧
    hdrWait 0x24005FE0 = 2 ∧ hdrSetA 0x180003E0 = 1 ∧ hdrSetB 0x180003E0 = 15 := by decide +kernel
/-- 07_control.md: loops, and a guarded branch. -/
theorem test_word_control :
    decode .x [0x26000000] = .ok .loopP [] ∧ decode .x [0x2A001810] = .ok (.contP (fDAB 0 3 1)) [] ∧ decode .x [0x2C000000] = .ok .endloopP [] ∧
    decode .x [0x02000003, 0x2A000380, 0xFFFFFF80] = .ok (.bra { mod := some 0x2A000380, imm := some 0xFFFFFF80 }) [] ∧
    decode .x [0x84000002, 0x20] = .ok (.chkw { imm := some 0x20 }) [] := by decide +kernel
/-- 09_vector_scalar.md and 10_vector_notes.md. -/
theorem test_word_vector :
    decode .v [0x8A282021, 0x00003C40] = .ok (.cvtNf { fDAB 10 4 2 with mod := some 0x00003C40 }) [] ∧ decode .s [0x46302810] = .ok (.rfa (fDAB 12 5 1)) [] ∧
    decode .v [0xD003F802, 3] = .ok (.seg { fDAB 0 127 0 with imm := some 3 }) [] ∧
    decode .v [0x54203061, 0x00C6B800] = .ok (.fmul { fDAB 8 6 6 with mod := some 0x00C6B800 }) [] ∧ decode .v [0x128D0EA0] = .ok (.idivZ32 (fDAB 35 33 106)) [] ∧
    decode .v [0x501BE051, 0x00000080] = .ok (.fadd { fDAB 6 124 5 with mod := some 0x80 }) [] := by decide +kernel
/-- 11_memory.md, 15_program_leases.md and 17_program_sssp.md. -/
theorem test_word_memory :
    decode .m [0x322AF033, 0x01310000, 8] = .ok (.atomCas { fDAB 10 94 3 with mod := some 0x01310000, imm := some 8 }) [] ∧
    decode .m [0x60331052, 3] = .ok (.append { fDAB 12 98 5 with imm := some 3 }) [] ∧ decode .m [0x2292D220] = .ok (.atomMinI32 (fDAB 36 90 34)) [] ∧
    decode .m [0x4192E781, 0x12E10000] = .ok (.mRedAdd { fDAB 100 92 120 with mod := some 0x12E10000 }) [] ∧
    decode .m [0x1A12D011, 0x0A010000] = .ok (.ldw32 { fDAB 4 90 1 with mod := some 0x0A010000 }) [] ∧
    decode .m [0x14A71253, 0x52A10000, 0x40] = .ok (.st32 { fDAB 41 98 37 with mod := some 0x52A10000, imm := some 0x40 }) [] := by decide +kernel
/-- 20_function_store.md. -/
theorem test_word_store :
    decode .y [0x04282022, 0x40] = .ok (.fcall { fDAB 10 4 2 with imm := some 0x40 }) [] ∧ decode .y [0x06307000] = .ok (.fret (fDAB 12 14 0)) [] ∧
    decode .y [0x02083000] = .ok (.fsdef (fDAB 2 6 0)) [] ∧ decode .y [0x08080000] = .ok (.fsload (fDAB 2 0 0)) [] ∧
    decode .y [0x0A080000] = .ok (.fsdrop (fDAB 2 0 0)) [] := by decide +kernel
/-- A reserved OP, a word of a row without free fields that has other bits, reserved bits of `rep` (R57, R68, R77). -/
theorem test_word_refused :
    decode .x [0xFC000000] = .bad .reservedOp ∧ decode .x [0x26000010] = .bad .fixedWord ∧ decode .v [0xFE000001] = .bad .repReserved ∧
    decode .x [0x02000002] = .bad .truncated ∧ decode .x [] = .bad .noWord := by decide +kernel

/-! ### Single steps with the manual's own numbers -/

/-- What a check says of the next state. -/
def after (o : Out) (p : State → Bool) : Bool :=
  match o with
  | .next t => p t
  | _ => false
/-- Vector register n holds w in lane l. -/
def vreg (s : State) (n l : Nat) (w : Word) : Bool := decide (s.team.word n l = w)
/-- Class V with lane 0 alone at work and vector registers by number. -/
def stV (rs : List (Nat × Word)) : State := stT .v (fun t => { t with mask := 1, regs := rs.map (fun p => (1024 * p.1, p.2)) })

/-! ### Single steps -/

/-- 10_vector_notes.md: `iadd.sat v9.x2, v3.x0, v3.x1` puts 63 into bits [17:12] and keeps every other bit; without `.sat`, 6. -/
theorem test_iadd_saturates :
    after (exec (.iadd { fDAB 9 3 3 with mod := some 0x00742790 }) (stV [(3, 0x532), (9, 0xFFFFFFFF)])) (fun t => vreg t 9 0 0xFFFFFFFF) = true ∧
    after (exec (.iadd { fDAB 9 3 3 with mod := some 0x00742780 }) (stV [(3, 0x532), (9, 0xFFFFFFFF)])) (fun t => vreg t 9 0 0xFFFC6FFF) = true := by
  decide +kernel
/-- The same page: `fmul.rne.nf0 v8.n2, v6.n0, v6.n1` writes code 14 into bits [11:8]; under `.rdn`, code 15. -/
theorem test_fmul_narrow :
    after (exec (.fmul { fDAB 8 6 6 with mod := some 0x00C6B800 }) (stV [(6, 0xB5)])) (fun t => vreg t 8 0 0xE00) = true ∧
    after (exec (.fmul { fDAB 8 6 6 with mod := some 0x00C6B980 }) (stV [(6, 0xB5)])) (fun t => vreg t 8 0 0xF00) = true := by decide +kernel
/-- The same page: `(p2) red.min.i32 v6, v3, p4` in segments of eight lanes. -/
theorem test_red_min :
    after (exec (.vRedMinI32 { fDAB 6 3 4 with mod := some 0x12000380 })
        (stT .v (fun t => { t with mask := 0xFFFF, seg := 3, regs := [(3072 + 9, 0xFFFFFFFC), (3072 + 12, 7)], preds := [(2, 0x1200)] })))
      (fun t => vreg t 6 0 0x7FFFFFFF && vreg t 6 7 0x7FFFFFFF && vreg t 6 8 0xFFFFFFFC && vreg t 6 15 0xFFFFFFFC && vreg t 6 16 0 &&
        decide (t.team.pred 4 = 0xFF00)) = true := by decide +kernel
/-- R148: the corners of division. -/
theorem test_idiv_corners :
    after (exec (.idivZ32 (fDAB 9 1 2)) (stV [(1, 7)])) (fun t => vreg t 9 0 0xFFFFFFFF) = true ∧
    after (exec (.idivI32 (fDAB 9 1 2)) (stV [(1, 0x80000000), (2, 0xFFFFFFFF)])) (fun t => vreg t 9 0 0x80000000) = true := by decide +kernel
theorem test_irem_corners :
    after (exec (.iremZ32 (fDAB 9 1 2)) (stV [(1, 7)])) (fun t => vreg t 9 0 7) = true ∧
    after (exec (.iremI32 (fDAB 9 1 2)) (stV [(1, 0xFFFFFFF9), (2, 2)])) (fun t => vreg t 9 0 0xFFFFFFFF) = true := by decide +kernel
/-- R118: the branch of 07_control.md, from 0x200 to 0x180. -/
theorem test_bra_target :
    after (exec (.bra { mod := some 0x2A000380, imm := some 0xFFFFFF80 }) (stT .x (fun t => { t with
        pc := 0x200, preds := [(5, 1)], mask := 1, clause := t.clause.map (fun c => { c with left := 1 }) })))
      (fun t => decide (t.team.pc = 0x180)) = true := by decide +kernel
/-- 06_number_notes.md: narrowing in s1e2m1 (BIAS 1, SUB 1), each mode. -/
theorem test_narrow_s1e2m1 :
    [RMode.rne, .rtz, .rup, .rdn, .rna].map (fun m => narrow (nfFmtSpec 0x00010921 0) (.fin false 5 (-1)) m false) = [4, 4, 5, 4, 5] ∧
    [RMode.rne, .rtz, .rup, .rdn, .rna].map (fun m => narrow (nfFmtSpec 0x00010921 0) (.fin true 5 (-1)) m false) = [0xC, 0xC, 0xC, 0xD, 0xD] ∧
    narrow (nfFmtSpec 0x00010921 0) (.fin false 7 0) .rne false = 7 := by decide +kernel
/-- The same page: 248 and 300 in s1e4m3 (BIAS 7, SPEC 1), each mode. -/
theorem test_narrow_s1e4m3 :
    [RMode.rne, .rtz, .rup, .rdn, .rna].map (fun m => narrow (nfFmtSpec 0x00071B41 1) (.fin false 248 0) m false) = [0x78, 0x77, 0x78, 0x77, 0x78] ∧
    [RMode.rne, .rtz, .rup, .rdn, .rna].map (fun m => narrow (nfFmtSpec 0x00071B41 1) (.fin false 300 0) m false) = [0x78, 0x77, 0x78, 0x77, 0x78] ∧
    [RMode.rne, .rup].map (fun m => narrow (nfFmtSpec 0x00071B41 1) (.fin false 300 0) m true) = [0x77, 0x77] := by decide +kernel
/-- R165: entries of the recipe tables. -/
theorem test_recipe_tables :
    [tabRcp 0, tabRcp 32, tabEx2 0, tabEx2 32].map (fun x => toF32 x .rne false) = [0x3F7E03F8#32, 0x3F29C84A#32, 0x3F800000#32, 0x3FB504F3#32] := by
  decide +kernel
/-- R187 with the example after R190: tail 4,080, three lanes of eight bytes. -/
theorem test_append_offsets :
    let o := mop (.append 8 0x1000 0x1000 false) [acc (some 0) 0, acc (some 1) 0, acc (some 2) 0]
    let s := { stO o with pages := [(0x1000, { apage .opened with tail := 4080 })] }
    (reserveAppend s o 8 0x1000 0x1000).2.accs.map LaneAcc.addr = [0xFF0, 0xFF8, 0xFFFFFFFF] ∧
    (kGet 0x1000 (reserveAppend s o 8 0x1000 0x1000).1.pages).map APage.tail = some 4096 := by decide +kernel

end Sys2Proof.Tests
end

section
/-! The memory's canonical form is kept by every step. The model writes the memory by `memWrite` and `zeroFrame` alone, so there are two layers: what leaves the
memory as it is, and what keeps its form. -/

namespace Sys2Proof.Machine

set_option Elab.async false

open Sys2Proof Sys2Proof.Safety

/-! ### Operations that leave the memory alone -/

@[simp] theorem mem_ite (c : Prop) [Decidable c] (a b : State) : (if c then a else b).mem = if c then a.mem else b.mem := apply_ite _ _ _ _

theorem mem_foldl {α : Type} (g : State → α → State) (hg : ∀ s a, (g s a).mem = s.mem) (l : List α) (s : State) : (l.foldl g s).mem = s.mem := by
  induction l generalizing s with
  | nil => rfl
  | cons a l ih => exact (ih _).trans (hg s a)

@[simp] theorem State.setTeam_mem (s : State) (v : Team) : (State.setTeam s v).mem = s.mem := rfl
@[simp] theorem State.modTeam_mem (s : State) (t : Nat) (g : Team → Team) : (State.modTeam s t g).mem = s.mem := rfl
@[simp] theorem State.modBlock_mem (s : State) (b : Nat) (g : Block → Block) : (State.modBlock s b g).mem = s.mem := rfl
@[simp] theorem State.modGrid_mem (s : State) (g : Nat) (h : Grid → Grid) : (State.modGrid s g h).mem = s.mem := rfl
@[simp] theorem State.modPart_mem (s : State) (p : Nat) (g : Part → Part) : (State.modPart s p g).mem = s.mem := rfl
@[simp] theorem State.modCore_mem (s : State) (c : Nat) (g : Core → Core) : (State.modCore s c g).mem = s.mem := rfl
@[simp] theorem modDie_mem (s : State) (d : Nat) (g : Die → Die) : (s.modDie d g).mem = s.mem := rfl
@[simp] theorem logAt_mem (s : State) (d : Nat) (e : LogEntry) : (logAt s d e).mem = s.mem := rfl
@[simp] theorem stashWrite_mem (s : State) (b a : Nat) (bs : List Byte) : (stashWrite s b a bs).mem = s.mem := rfl
@[simp] theorem drainSfu_mem (s : State) (tid : Nat) : (drainSfu s tid).mem = s.mem := rfl
@[simp] theorem endService_mem (s : State) (d : Nat) (ended : Merge → Bool) : (endService s d ended).mem = s.mem := by simp [endService]
@[simp] theorem serveMerges_mem (s : State) (d tid : Nat) : (serveMerges s d tid).mem = s.mem := by simp [serveMerges]
@[simp] theorem leaveStage_mem (s : State) (d tid : Nat) : (leaveStage s d tid).mem = s.mem := by simp [leaveStage]
@[simp] theorem endTeamBad_mem (s : State) (tid status : Nat) : (endTeamBad s tid status).mem = s.mem := by simp [endTeamBad]

@[simp] theorem enterTrap_mem (s : State) (tid : Nat) (tr : Trap) (lanes : LaneSet) (tpc : DWord) (strm : Bool) :
    (enterTrap s tid tr lanes tpc strm).mem = s.mem := by
  simp [enterTrap]

@[simp] theorem returnTrap_mem (s : State) (tid : Nat) : (returnTrap s tid).mem = s.mem := by simp [returnTrap]
@[simp] theorem record_mem (s : State) (gid kind key team lane block : Nat) : (record s gid kind key team lane block).mem = s.mem := by simp [record]
@[simp] theorem takeEntry_mem (s : State) (gid kind key : Nat) : (takeEntry s gid kind key).mem = s.mem := rfl
@[simp] theorem setDir_mem (s : State) (h line : Nat) (e : Dir) : (setDir s h line e).mem = s.mem := rfl
@[simp] theorem setL2_mem (s : State) (d line : Nat) (e : L2Line) : (setL2 s d line e).mem = s.mem := rfl
@[simp] theorem dropL2_mem (s : State) (d line : Nat) : (dropL2 s d line).mem = s.mem := rfl

@[simp] theorem keepFor_mem (s : State) (die line : Nat) : (keepFor s die line).mem = s.mem := by
  unfold keepFor
  split <;> simp

@[simp] theorem answerFwd_mem (s : State) (line : Nat) (kind : TrKind) : (answerFwd s line kind).mem = s.mem := by
  simp only [answerFwd]
  (repeat' split) <;> simp

@[simp] theorem answerInv_mem (s : State) (die line : Nat) : (answerInv s die line).mem = s.mem := by
  simp only [answerInv]
  (repeat' split) <;> simp

@[simp] theorem mapWindows_mem (s : State) (c : Nat) (g : Window → Window) : (mapWindows s c g).mem = s.mem := mem_foldl _ (fun _ _ => by simp) _ _
@[simp] theorem setPts_mem (s : State) (c : Nat) (v : BitVec 16) : (setPts s c v).mem = s.mem := by simp [setPts]

@[simp] theorem l2Put_mem (s : State) (die line : Nat) (m : ByteMask) (d : Line) (ts : BitVec 16) : (l2Put s die line m d ts).mem = s.mem := by
  unfold l2Put
  split <;> simp

@[simp] theorem putWLine_mem (s : State) (b off i : Nat) (l : WLine) : (putWLine s b off i l).mem = s.mem := rfl
@[simp] theorem setL1_mem (s : State) (c line : Nat) (x4 : L1Copy) : (setL1 s c line x4).mem = s.mem := rfl
@[simp] theorem dropSeen_mem (s : State) (c line : Nat) (m : ByteMask) : (dropSeen s c line m).mem = s.mem := by simp [dropSeen]
@[simp] theorem chanRequest_mem (s : State) (cls who line : Nat) : (chanRequest s cls who line).mem = s.mem := by simp [chanRequest]
@[simp] theorem forgetFrame_mem (s : State) (f n : Nat) : (forgetFrame s f n).mem = s.mem := rfl

@[simp] theorem ownCopies_mem (s : State) (c line : Nat) (m : ByteMask) (older : Bool) (e : L2Line) : (ownCopies s c line m older e).mem = s.mem := by
  unfold ownCopies
  refine (mem_foldl _ (fun s p => ?_) _ _).trans ?_
  · split
    · rfl
    · simp only
      split
      · simp
      · split <;> simp
  · split
    · exact setL1_mem ..
    · rfl

@[simp] theorem pendTrap_mem (s : State) (tid : Nat) (tr : Trap) : (pendTrap s tid tr).mem = s.mem := rfl
@[simp] theorem pendLost_mem (s : State) (tid a : Nat) : (pendLost s tid a).mem = s.mem := rfl
@[simp] theorem lostStore_mem (s : State) (e : SBuf) : (lostStore s e).mem = s.mem := rfl
@[simp] theorem acquireAt_mem (s : State) (c scope : Nat) : (acquireAt s c scope).mem = s.mem := by simp [acquireAt]

@[simp] theorem noteFetches_mem (s : State) (core cls : Nat) (s' : State) : (noteFetches s core cls s').mem = s'.mem :=
  mem_foldl _ (fun _ _ => by simp) _ _

@[simp] theorem tlbPut_mem (s : State) (c : Nat) (e : TlbEntry) : (tlbPut s c e).mem = s.mem := rfl
@[simp] theorem wake_mem (s : State) (tid : Nat) (e : Option Eng) : (wake s tid e).mem = s.mem := rfl
@[simp] theorem wakeAll_mem (s : State) (tid : Nat) (p : Wait → Bool) : (wakeAll s tid p).mem = s.mem := by simp [wakeAll]

@[simp] theorem stageFault_mem (s : State) (tid : Nat) (who : Option Eng) (va acc level : Nat) : (stageFault s tid who va acc level).mem = s.mem := by
  simp [stageFault]

@[simp] theorem noteWalk_mem (s : State) (core asid va : Nat) (s' : State) : (noteWalk s core asid va s').mem = s'.mem :=
  mem_foldl _ (fun _ _ => by simp) _ _

@[simp] theorem stageWrite_mem (s : State) (bid : Nat) (w : StagedWrite) : (stageWrite s bid w).mem = s.mem := rfl
@[simp] theorem stageBack_mem (s : State) (bid line : Nat) (m : ByteMask) (d : Line) : (stageBack s bid line m d).mem = s.mem := rfl

@[simp] theorem shareBytes_mem (s : State) (c line : Nat) (own : Nat × Nat × Nat) (m : ByteMask) (d : Line) :
    (shareBytes s c line own m d).mem = s.mem :=
  by
  refine mem_foldl _ (fun s p => ?_) _ _
  split
  · rfl
  · simp

@[simp] theorem pushDir_mem (s : State) (bid tile dir : Nat) : (pushDir s bid tile dir).mem = s.mem := by
  unfold pushDir
  simp only
  split
  · rfl
  · simp only [mem_ite]
    split
    · rfl
    · split
      · simp
      · split
        · simp
        · split
          · simp
          · exact mem_foldl _ (fun _ _ => by simp) _ _

@[simp] theorem pushTile_mem (s : State) (bid tile skip : Nat) : (pushTile s bid tile skip).mem = s.mem := mem_foldl _ (fun _ _ => by simp) _ _

@[simp] theorem pushAll_mem (s : State) (bid : Nat) (sent : List (Nat × Nat)) : (pushAll s bid sent).mem = s.mem :=
  mem_foldl _ (fun _ _ => by simp) _ _

@[simp] theorem markReady_mem (s s' : State) : (markReady s s').mem = s'.mem := rfl

@[simp] theorem endArrivals_mem (s : State) (tid : Nat) : (endArrivals s tid).mem = s.mem := by
  unfold endArrivals
  simp only
  split
  · exact mem_foldl _ (fun _ _ => by simp) _ _
  · rfl

@[simp] theorem afterEnd_mem (s : State) (tid : Nat) : (afterEnd s tid).mem = s.mem := by simp [afterEnd]
@[simp] theorem endIfIdle_mem (s : State) (tid : Nat) : (endIfIdle s tid).mem = s.mem := by simp [endIfIdle]
@[simp] theorem arrive_mem (s : State) (tid lvl : Nat) : (arrive s tid lvl).mem = s.mem := by simp [arrive]
@[simp] theorem tellElection_mem (s : State) (tid lvl gen : Nat) : (tellElection s tid lvl gen).mem = s.mem := by simp [tellElection]

@[simp] theorem leaveBarrier_mem (s : State) (tid lvl gen : Nat) (elect : Option Nat) : (leaveBarrier s tid lvl gen elect).mem = s.mem := by
  simp [leaveBarrier]

@[simp] theorem stageDirty_mem (s : State) (tid line : Nat) (m : ByteMask) (w : StagedWrite) : (stageDirty s tid line m w).mem = s.mem := by
  unfold stageDirty
  simp only
  split
  · rfl
  · exact mem_foldl _ (fun _ _ => by simp) _ _

@[simp] theorem stageOne_mem (s : State) (tid seq phase n : Nat) (a : LaneAcc) (bytes : List Byte) (red : Option AOp) :
    (stageOne s tid seq phase n a bytes red).mem = s.mem := by
  simp [stageOne]

@[simp] theorem stageWrites_mem (s : State) (tid : Nat) (o : MemOp) (n : Nat) (red : Option AOp) : (stageWrites s tid o n red).mem = s.mem :=
  mem_foldl _ (fun _ _ => by simp) _ _

@[simp] theorem stageBytes_mem (s : State) (tid seq phase pa : Nat) (bs : List Byte) : (stageBytes s tid seq phase pa bs).mem = s.mem :=
  mem_foldl _ (fun _ _ => by simp) _ _

@[simp] theorem setPageRec_mem (s : State) (p : Nat) (v : APage) : (setPageRec s p v).mem = s.mem := rfl
@[simp] theorem forgetLines_mem (s : State) (c pa n : Nat) : (forgetLines s c pa n).mem = s.mem := rfl

@[simp] theorem settleWindow_mem (s : State) (bid : Nat) (w : Window) : (settleWindow s bid w).mem = s.mem := by
  unfold settleWindow
  split
  · rfl
  · exact mem_foldl _ (fun _ _ => by simp) _ _

@[simp] theorem putOp_mem (s : State) (tid : Nat) (o : MemOp) : (putOp s tid o).mem = s.mem := rfl
@[simp] theorem modHeadCopy_mem (s : State) (p : Nat) (g : CopyOp → CopyOp) : (modHeadCopy s p g).mem = s.mem := rfl
@[simp] theorem dropCopy_mem (s : State) (p : Nat) (o : CopyOp) : (dropCopy s p o).mem = s.mem := rfl
@[simp] theorem copyFault_mem (s : State) (p : Nat) (o : CopyOp) (tr : Trap) : (copyFault s p o tr).mem = s.mem := by simp [copyFault]
@[simp] theorem joinStage_mem (s : State) (die asid page tid acc : Nat) (ft : Bool) : (joinStage s die asid page tid acc ft).mem = s.mem := rfl

@[simp] theorem forwardPage_mem (s : State) (tid page : Nat) : (forwardPage s tid page).1.mem = s.mem := by
  unfold forwardPage
  simp only
  (repeat' split) <;> simp

@[simp] theorem copyXlatFault_mem (s : State) (p : Nat) (o : CopyOp) (va acc kind level : Nat) :
    (copyXlatFault s p o va acc kind level).mem = s.mem :=
  by
  unfold copyXlatFault
  simp only
  split
  · simp
  · split
    · split
      · simp
      · simp
    · split
      · simp
      · rfl

@[simp] theorem noteBadWalk_mem (s : State) (o : CopyOp) (va kind : Nat) (s' : State) : (noteBadWalk s o va kind s').mem = s'.mem := by
  simp [noteBadWalk]

@[simp] theorem continueAt_mem (s : State) (o : CopyOp) : (continueAt s o).mem = s.mem := by
  simp only [continueAt]
  (repeat' split) <;> simp

@[simp] theorem unreserve_mem (s : State) (o : MemOp) : (unreserve s o).mem = s.mem := by
  unfold unreserve
  split <;> simp

@[simp] theorem dropOp_mem (s : State) (tid : Nat) (o : MemOp) : (dropOp s tid o).mem = s.mem := by simp [dropOp]
@[simp] theorem dropLost_mem (s : State) (tid : Nat) (o : MemOp) (a : LaneAcc) : (dropLost s tid o a).mem = s.mem := by simp [dropLost]

@[simp] theorem recallSealed_mem (s : State) (die : Nat) (lines : Nat → Bool) : (recallSealed s die lines).mem = s.mem :=
  mem_foldl _ (fun _ _ => by simp) _ _

@[simp] theorem setSlot_mem (s : State) (c gid k : Nat) (v : FnSlot) : (setSlot s c gid k v).mem = s.mem := rfl

@[simp] theorem performSearch_mem (s : State) (tid k dst a m : Nat) (target after : DWord) (mask : LaneSet) (args : List (Nat × List Word)) :
    (performSearch s tid k dst a m target after mask args).mem = s.mem :=
  rfl

@[simp] theorem dropStaged_mem (s : State) (gid : Nat) : (dropStaged s gid).mem = s.mem := by simp [dropStaged]
@[simp] theorem acquireMat_mem (s : State) (t : Team) : (acquireMat s t).mem = s.mem := by simp [acquireMat]
@[simp] theorem headDone_mem (s : State) (tid : Nat) (m : Matrix) (g : Team → Team) : (headDone s tid m g).mem = s.mem := rfl
@[simp] theorem mismatchDone_mem (s : State) (tid : Nat) (m : Matrix) (p : Nat × Nat) : (mismatchDone s tid m p).mem = s.mem := rfl
@[simp] theorem dropTaken_mem (s : State) (c before : Nat) : (dropTaken s c before).mem = s.mem := by simp [dropTaken]
@[simp] theorem dropSlots_mem (s : State) (c gid : Nat) : (dropSlots s c gid).mem = s.mem := by simp [dropSlots]
@[simp] theorem decidePlace_mem (s : State) (gid idx c : Nat) : (decidePlace s gid idx c).mem = s.mem := by simp [decidePlace]

@[simp] theorem divergePlaced_mem (s : State) (gid idx bid c : Nat) : (divergePlaced s gid idx bid c).mem = s.mem := by
  unfold divergePlaced
  simp only
  split
  · rfl
  · exact mem_foldl _ (fun _ _ => by simp) _ _

@[simp] theorem startTeams_mem (s : State) (gid bid core : Nat) (seats : List (Nat × List Nat)) : (startTeams s gid bid core seats).mem = s.mem := by
  unfold startTeams
  refine mem_foldl _ (fun s p => ?_) _ _
  rfl

@[simp] theorem unmark_mem (s : State) (gid : Nat) : (unmark s gid).mem = s.mem := rfl
@[simp] theorem markCores_mem (s : State) (gid : Nat) : (markCores s gid).mem = s.mem := rfl

@[simp] theorem beginOption_mem (s : State) (bid : Nat) (o : Option3) (cost : Nat) : (beginOption s bid o cost).mem = s.mem := by
  unfold beginOption
  split <;> simp

@[simp] theorem freeWatches_mem (s : State) (tid : Nat) : (freeWatches s tid).mem = s.mem := rfl
@[simp] theorem carryMatrix_mem (s : State) (tid : Nat) : (carryMatrix s tid).mem = s.mem := by simp [carryMatrix]
@[simp] theorem saveTeam_mem (s : State) (tid : Nat) : (saveTeam s tid).mem = s.mem := by simp [saveTeam]
@[simp] theorem rung2Done_mem (s : State) (bid : Nat) : (rung2Done s bid).mem = s.mem := by simp [rung2Done]

@[simp] theorem resumeTeam_mem (s : State) (tid core : Nat) (seat : Nat × List Nat) : (resumeTeam s tid core seat).mem = s.mem := by
  simp only [resumeTeam]
  split <;> simp

@[simp] theorem stopTeam_mem (s : State) (tid : Nat) : (stopTeam s tid).mem = s.mem := by simp [stopTeam]
@[simp] theorem cpContext_mem (s : State) (q : Nat) : (cpContext s q).mem = s.mem := rfl
@[simp] theorem haltQueue_mem (s : State) (q : Nat) : (haltQueue s q).mem = s.mem := rfl
@[simp] theorem failQueue_mem (s : State) (q va : Nat) (k : FailKind) : (failQueue s q va k).mem = s.mem := rfl
@[simp] theorem writeQctl_mem (s : State) (q : Nat) (v : Word) : (writeQctl s q v).mem = s.mem := by simp [writeQctl]
@[simp] theorem writeQtail_mem (s : State) (q : Nat) (v : Word) : (writeQtail s q v).mem = s.mem := by simp [writeQtail]
@[simp] theorem popHead_mem (s : State) (q : Nat) (h : Head) : (popHead s q h).mem = s.mem := rfl

@[simp] theorem loadContext_mem (s : State) (dies asid : Nat) (file : List (BitVec 128)) : (loadContext s dies asid file).mem = s.mem :=
  mem_foldl _ (fun _ _ => by simp) _ _

@[simp] theorem firstPhase_mem (s : State) (dies : Nat) : (firstPhase s dies).mem = s.mem := mem_foldl _ (fun _ _ => by simp) _ _
@[simp] theorem startAcquire_mem (s : State) (dies scope : Nat) : (startAcquire s dies scope).mem = s.mem := mem_foldl _ (fun _ _ => by simp) _ _
@[simp] theorem tickCore_mem (s : State) (c : Nat) : (tickCore s c).mem = s.mem := by simp [tickCore]

@[simp] theorem tellPts_mem (s : State) (die : Nat) : (tellPts s die).mem = s.mem := by
  unfold tellPts
  split
  · rfl
  · exact mem_foldl _ (fun _ _ => by simp) _ _

@[simp] theorem lateTicks_mem (s : State) (a b : Nat) : (lateTicks s a b).mem = s.mem := mem_foldl _ (fun _ _ => by simp) _ _
@[simp] theorem lateBroadcasts_mem (s : State) (a b : Nat) : (lateBroadcasts s a b).mem = s.mem := mem_foldl _ (fun _ _ => by simp) _ _
@[simp] theorem visitAll_mem (s : State) : (visitAll s).mem = s.mem := rfl

@[simp] theorem passSpans_mem (n a b : Nat) (s : State) : (passSpans n a b s).mem = s.mem := by
  induction n generalizing a s with
  | zero => rfl
  | succ n ih => unfold passSpans; split <;> simp [ih]

@[simp] theorem passTime_mem (s : State) (cc : Nat) : (passTime s cc).mem = s.mem := by simp [passTime]
@[simp] theorem retryCopies_mem (s : State) (tid : Nat) : (retryCopies s tid).mem = s.mem := by simp [retryCopies]
@[simp] theorem advancePhase_mem (s : State) (die a : Nat) : (advancePhase s die a).mem = s.mem := rfl
@[simp] theorem modPlat_mem (s : State) (f : Plat → Plat) : (modPlat s f).mem = s.mem := rfl
@[simp] theorem acceptExtent_mem (s : State) : (acceptExtent s).mem = s.mem := by simp [acceptExtent]
@[simp] theorem declineExtent_mem (s : State) : (declineExtent s).mem = s.mem := by simp [declineExtent]
@[simp] theorem dropLines_mem (s : State) (b n : Nat) : (dropLines s b n).mem = s.mem := rfl
@[simp] theorem doneExtent_mem (s : State) : (doneExtent s).mem = s.mem := by simp [doneExtent]

@[simp] theorem otherRequests_mem (s : State) (l : List Nat) : (otherRequests s l).mem = s.mem := by
  fun_induction otherRequests s l with
  | case1 s l c w r ih => rw [ih]; split <;> simp
  | case2 => rfl

@[simp] theorem writeKcmd_mem (s : State) (v : Word) : (writeKcmd s v).mem = s.mem := by simp [writeKcmd]
@[simp] theorem enableCores_mem (s : State) (m : BitVec 384) : (enableCores s m).mem = s.mem := by simp [enableCores]
@[simp] theorem bootFails_mem (s : State) (ph : Nat) : (bootFails s ph).mem = s.mem := rfl
@[simp] theorem applyManifest_mem (s : State) (m : Manifest) : (applyManifest s m).mem = s.mem := by simp [applyManifest]
@[simp] theorem recoveryWrite_mem (s : State) : (recoveryWrite s).mem = s.mem := by simp [recoveryWrite]
@[simp] theorem startSwap_mem (s : State) : (startSwap s).mem = s.mem := by simp [startSwap]
@[simp] theorem verifySwap_mem (s : State) : (verifySwap s).mem = s.mem := by simp [verifySwap]
@[simp] theorem aliveCore_mem (s : State) (cp : Nat) : (aliveCore s cp).mem = s.mem := rfl
@[simp] theorem countRung_mem (s : State) (n die : Nat) : (countRung s n die).mem = s.mem := rfl
@[simp] theorem reportRung_mem (s : State) (n die unit lost : Nat) : (reportRung s n die unit lost).mem = s.mem := rfl
@[simp] theorem rungAtCp_mem (s : State) (n cp : Nat) : (rungAtCp s n cp).mem = s.mem := rfl
@[simp] theorem endTrial_mem (s : State) (n : Nat) : (endTrial s n).mem = s.mem := rfl
@[simp] theorem petCore_mem (s : State) (cp : Nat) : (petCore s cp).mem = s.mem := rfl
@[simp] theorem rungAtDie_mem (s : State) (n die : Nat) : (rungAtDie s n die).mem = s.mem := mem_foldl _ (fun _ _ => by simp) _ _
@[simp] theorem failGrid_mem (s : State) (gid status : Nat) : (failGrid s gid status).mem = s.mem := rfl
@[simp] theorem loseBlocks_mem (s : State) (die : Nat) : (loseBlocks s die).mem = s.mem := rfl

@[simp] theorem writeQueue_mem (s : State) (q r : Nat) (v : Word) : (writeQueue s q r v).mem = s.mem := by
  simp only [writeQueue]
  split <;> simp

@[simp] theorem writeXctl_mem (s : State) (v : Word) : (writeXctl s v).mem = s.mem := by
  unfold writeXctl
  split <;> simp

@[simp] theorem writeSwcmd_mem (s : State) (v : Word) : (writeSwcmd s v).mem = s.mem := by
  unfold writeSwcmd
  split <;> simp

@[simp] theorem writeBlob_mem (s : State) (o : Nat) (v : Word) : (writeBlob s o v).mem = s.mem := rfl

@[simp] theorem writePage_mem (s : State) (off : Nat) (v : Word) : (writePage s off v).mem = s.mem := by
  unfold writePage
  (repeat' split) <;> simp

@[simp] theorem csrWrite_mem (s : State) (cp num : Nat) (v : DWord) : (csrWrite s cp num v).mem = s.mem := by
  unfold csrWrite
  split <;> simp

@[simp] theorem csrAccess_mem (s : State) (cp mode num : Nat) (w : Option DWord) : (csrAccess s cp mode num w).mem = s.mem := by
  unfold csrAccess
  (repeat' split) <;> simp

@[simp] theorem settleGens_mem (p : Plat) (s : State) : (settleGens p s).mem = s.mem := rfl
@[simp] theorem noteIssue_mem (s : State) (tid : Nat) : (noteIssue s tid).mem = s.mem := rfl

/-! ### The form, and operations that may have to wait -/

/-- The memory is in its canonical form; `Inv`, written so that `simp` sees the equation. -/
@[simp] abbrev MemOk (s : State) : Prop := Memory.wf s.mem = true

theorem inv_iff_memOk (s : State) : Inv s ↔ MemOk s := Iff.rfl

/-- The state that an operation hands on with a result has its memory in the form. -/
@[simp] abbrev FstOk {β : Type} (p : State × β) : Prop := MemOk p.1

/-- What an operation answers, if it does not have to wait, meets `P`. -/
def Yields {α : Type} (P : α → Prop) (o : Option α) : Prop := ∀ a, o = some a → P a

section
variable {α β : Type} {P : α → Prop} {Q : β → Prop} {o : Option α}

theorem Yields.none : Yields P none := nofun

theorem Yields.some {a : α} (h : P a) : Yields P (some a) := by rintro _ ⟨⟩; exact h

theorem Yields.bind {g : α → Option β} (h : Yields P o) (hg : ∀ a, P a → Yields Q (g a)) : Yields Q (o.bind g) := by
  cases o with
  | none => exact .none
  | some a => exact hg a (h a rfl)

theorem Yields.map {g : α → β} (h : Yields P o) (hg : ∀ a, P a → Q (g a)) : Yields Q (o.map g) := by
  cases o with
  | none => exact .none
  | some a => exact .some (hg a (h a rfl))

/-- A list worked through in order, each entry once the one before has been done. -/
theorem Yields.foldl {g : α → β → Option α} (hg : ∀ a b, P a → Yields P (g a b)) (l : List β) (h : Yields P o) :
    Yields P (l.foldl (fun o b => o.bind (fun a => g a b)) o) := by
  induction l generalizing o with
  | nil => exact h
  | cons b l ih => exact ih (h.bind (fun a => hg a b))

/-- What holds before a list is worked through, and is kept by each entry, holds after it. -/
theorem foldl_keeps {g : α → β → α} (hg : ∀ a b, P a → P (g a b)) (l : List β) {a : α} (h : P a) : P (l.foldl g a) := by
  induction l generalizing a with
  | nil => exact h
  | cons b l ih => exact ih (hg a b h)

end

/-! ### Homes and directories -/

section
variable {s : State} (h : MemOk s)
include h

@[simp] theorem memWrite_ok (pa : Nat) (bs : List Byte) : MemOk (memWrite s pa bs) := memWrite_wf s pa bs h
@[simp] theorem zeroFrame_ok (f n : Nat) : MemOk (zeroFrame s f n) := zeroFrame_wf s f n h
@[simp] theorem recallLine_ok (d line : Nat) : MemOk (recallLine s d line) := recallLine_wf s d line h
@[simp] theorem evictMsc_ok (d line : Nat) : MemOk (evictMsc s d line) := evictMsc_wf s d line h
@[simp] theorem mscRoom_ok (d line : Nat) : MemOk (mscRoom s d line) := mscRoom_wf s d line h
@[simp] theorem homeWrite_ok (d line : Nat) (v : Line) : MemOk (homeWrite s d line v) := homeWrite_wf s d line v h

@[simp] theorem enterMsc_ok (d line : Nat) : MemOk (enterMsc s d line) := by
  unfold enterMsc
  split
  · exact h
  · split <;> simp [h]

@[simp] theorem recallRange_ok (b n : Nat) : MemOk (recallRange s b n) :=
  foldl_keeps (P := MemOk) (fun s l h => by split <;> simp [h]) _ h

@[simp] theorem takeWb_ok (d die line : Nat) : MemOk (takeWb s d die line) := by
  unfold takeWb
  split
  · exact h
  · dsimp only
    split <;> simp [h]

@[simp] theorem sendWb_ok (die line : Nat) : MemOk (sendWb s die line) := by
  unfold sendWb
  split
  · exact h
  · dsimp only
    split <;> simp [h]

@[simp] theorem evictLine_ok (die line : Nat) : MemOk (evictLine s die line) := by
  unfold evictLine
  split
  · exact h
  · dsimp only
    split <;> simp [h]

@[simp] theorem makeRoom_ok (die : Nat) (l : List Nat) : MemOk (makeRoom s die l) := by
  unfold makeRoom
  dsimp only
  split <;> simp [h]

@[simp] theorem l2Room_ok (die : Nat) : MemOk (l2Room s die) := by
  unfold l2Room
  dsimp only
  split <;> simp [h]

@[simp] theorem grantLine_ok (die line : Nat) (st : L2St) (d : Line) (ver : BitVec 16) : MemOk (grantLine s die line st d ver) := by
  unfold grantLine
  dsimp only
  split <;> simp [h]

@[simp] theorem grantExclusive_ok (d die line : Nat) : MemOk (grantExclusive s d die line) := by
  unfold grantExclusive
  dsimp only
  split <;> simp [h]

@[simp] theorem grantShared_ok (d die line : Nat) : MemOk (grantShared s d die line) := by
  unfold grantShared
  dsimp only
  split <;> simp [h]

@[simp] theorem takeReq_ok (d line : Nat) (r : Req) : MemOk (takeReq s d line r) := by
  unfold takeReq
  dsimp only
  split
  · exact h
  · split
    · simp [h]
    · split <;> simp [h]
    · split
      · simp [h]
      · split <;> simp [h]

omit h in
@[simp] theorem serveLine_ok (d line n : Nat) {s : State} (h : MemOk s) : MemOk (serveLine d line n s) := by
  induction n generalizing s with
  | zero => exact h
  | succ n ih =>
    unfold serveLine
    dsimp only
    split
    · exact h
    · split
      · exact h
      · exact ih (by simp [h])

@[simp] theorem sendReq_ok (line : Nat) (r : Req) : MemOk (sendReq s line r) := by
  unfold sendReq
  split <;> simp [h]

@[simp] theorem refuseReq_ok (d line : Nat) (t : Trans) : MemOk (refuseReq s d line t) := by
  unfold refuseReq
  dsimp only
  split <;> simp [h]

@[simp] theorem completeReq_ok (d line : Nat) (t : Trans) : MemOk (completeReq s d line t) := by
  unfold completeReq
  dsimp only
  split
  · simp [h]
  · split
    · split <;> simp [h]
    all_goals simp [h]

@[simp] theorem snoopDone_ok (line : Nat) : MemOk (snoopDone s line) := by
  unfold snoopDone
  split
  · exact h
  · dsimp only
    split
    · exact h
    · split <;> simp [h]

@[simp] theorem settleLine_ok (line : Nat) : MemOk (settleLine s line) :=
  snoopDone_ok (foldl_keeps (P := MemOk) (fun s d h => by simp [h]) _ (by simp [h])) _

theorem gainLine_ok {die line : Nat} {excl : Bool} : Yields MemOk (gainLine s die line excl) := by
  unfold gainLine
  split
  · split
    · exact .some (by simp [h])
    · split
      · exact .some (by simp [h])
      · exact .none
  · split
    · exact .some (by simp [h])
    · exact .none

theorem agentLineWrite_ok {die line : Nat} {m : ByteMask} {d : Line} : Yields MemOk (agentLineWrite s die line m d) := by
  unfold agentLineWrite
  split
  · exact .some (by simp [h])
  · split
    · exact .none
    · next s' e =>
      have h' := gainLine_ok h _ e
      split
      · exact .none
      · exact .some (by simp [h'])

theorem agentWrite_ok {die pa : Nat} {bs : List Byte} : Yields MemOk (agentWrite s die pa bs) :=
  .foldl (fun _ _ h => agentLineWrite_ok h) _ (.some h)

end

/-! ### The memory of a core -/

section
variable {s : State} (h : MemOk s)
include h

theorem decide1_ok {tid : Nat} {keys : List (Nat × Nat)} {kind : Nat} : Yields MemOk (decide1 s tid keys kind) := by
  refine .foldl (fun s k h => ?_) _ (.some h)
  dsimp only
  split
  · split
    · exact .some (by simp [h])
    · exact .none
  · exact .some (by simp [h])

theorem l2Serve_ok {c line lease : Nat} : Yields FstOk (l2Serve s c line lease) := by
  unfold l2Serve
  dsimp only
  split
  · exact .none
  · next s' e =>
    have h' := gainLine_ok h _ e
    split
    · exact .none
    · exact .some (by simp [h'])

theorem fetchCopy_ok {c line lease : Nat} : Yields FstOk (fetchCopy s c line lease) := by
  unfold fetchCopy
  dsimp only
  split
  · exact .none
  · next s' e le eq =>
    have h' : MemOk s' := l2Serve_ok h _ eq
    exact .some (by simp [h'])

theorem fillWindow_ok {c b : Nat} {w : Window} {i line : Nat} : Yields MemOk (fillWindow s c b w i line) := by
  unfold fillWindow
  dsimp only
  split
  · exact .some (by simp [h])
  · split
    · exact .some (by simp [h])
    · exact .map (l2Serve_ok h) (fun r h => by simpa using h)

theorem loadLine_ok {c line lease : Nat} : Yields FstOk (loadLine s c line lease) := by
  unfold loadLine
  split
  · exact .some h
  · refine .map (P := FstOk) ?_ (fun p h => h)
    split
    · split
      · exact .some h
      · exact .map (fillWindow_ok h) (fun s h => h)
    · split
      · split
        · exact .some h
        · exact fetchCopy_ok h
      · exact fetchCopy_ok h

theorem coreWriteAs_ok {older : Bool} {c line : Nat} {m : ByteMask} {d : Line} : Yields MemOk (coreWriteAs older s c line m d) := by
  unfold coreWriteAs
  dsimp only
  split
  · exact .none
  · next s' e =>
    have h' := gainLine_ok h _ e
    split
    · exact .none
    · split
      · exact .none
      · refine .some ?_
        split <;> simp [h']

theorem coreWrite_ok {c line : Nat} {m : ByteMask} {d : Line} : Yields MemOk (coreWrite s c line m d) := coreWriteAs_ok h

theorem performSbuf_ok {c : Nat} {e : SBuf} : Yields MemOk (performSbuf s c e) :=
  .map (coreWrite_ok h) (fun s h => by split <;> simp [h])

omit h in
theorem drainN_ok {c n : Nat} {s : State} (h : MemOk s) : Yields MemOk (drainN c n s) := by
  induction n generalizing s with
  | zero => exact .some h
  | succ n ih =>
    unfold drainN
    split
    · exact .some h
    · dsimp only
      split
      · exact ih (by simp [h])
      · split
        · exact .none
        · next s' e => exact ih (performSbuf_ok (by simp [h]) _ e)

theorem drainAll_ok {c : Nat} : Yields MemOk (drainAll s c) := drainN_ok h

theorem drainTo_ok {c : Nat} {p : SBuf → Bool} : Yields MemOk (drainTo s c p) := drainN_ok h

theorem coreWriteBytes_ok {c pa : Nat} {bs : List Byte} : Yields MemOk (coreWriteBytes s c pa bs) :=
  .foldl (fun _ _ h => .bind (drainTo_ok h) (fun _ h => coreWrite_ok h)) _ (.some h)

/-! ### Translation -/

@[simp] theorem obtainFrame_ok (e : TlbEntry) : MemOk (obtainFrame s e) := by
  unfold obtainFrame
  split
  · exact recallRange_ok h _ _
  · exact h

theorem walkIn_ok {host : Bool} {die asid va acc : Nat} {t : State} {e : TlbEntry} (he : walkIn host s die asid va acc = .ok t e) : MemOk t := by
  unfold walkIn at he
  dsimp only at he
  generalize (if isWriteAcc acc = true then 128 else 0) = d at he
  split at he
  · cases he
  · split at he
    · cases he
    · cases he
    · split at he
      · cases he
      · split at he
        · cases he
        · split at he
          · cases he
            exact obtainFrame_ok h _
          · split at he
            · cases he
            · next s' eq =>
              cases he
              exact obtainFrame_ok (agentWrite_ok h _ eq) _

/-! ### The stash and its windows -/

theorem stashTouch_ok {bid a : Nat} : Yields MemOk (stashTouch s bid a) := by
  unfold stashTouch
  dsimp only
  split
  · exact .some h
  · split
    · exact .some h
    · split
      · exact .some h
      · exact fillWindow_ok h

theorem writeBackLine_ok {c b off i : Nat} {l : WLine} : Yields MemOk (writeBackLine s c b off i l) := by
  unfold writeBackLine
  dsimp only
  split
  · exact .some h
  · split
    · exact .some (by simp [h])
    · split
      · exact .some (by simp [h])
      · exact .map (coreWrite_ok h) (fun s h => by simp [h])

theorem writeBackWindow_ok {c b : Nat} {w : Window} : Yields MemOk (writeBackWindow s c b w) :=
  .foldl (fun _ _ h => writeBackLine_ok h) _ (.some h)

theorem writeBackBlock_ok {b : Nat} : Yields MemOk (writeBackBlock s b) :=
  .foldl (fun _ _ h => writeBackWindow_ok h) _ (.some h)

theorem stashLoad_ok {bid a n : Nat} : Yields FstOk (stashLoad s bid a n) := by
  unfold stashLoad
  split
  · exact .none
  · next s' e =>
    have h' := Yields.foldl (fun _ _ h => stashTouch_ok h) _ (.some h) _ e
    exact .some h'

theorem classLoad_ok {cls bid a n : Nat} : Yields FstOk (classLoad s cls bid a n) :=
  .map (stashLoad_ok h) (fun r h => by simpa using h)

theorem winDirty_ok {bid : Nat} {w : Window} {o : Nat} : Yields MemOk (winDirty s bid w o) := by
  unfold winDirty
  dsimp only
  split
  · next e =>
    have h' := walkIn_ok h e
    refine .some ?_
    split <;> simp [h']
  · exact .none
  · exact .some h

theorem stashStorePiece_ok {bid a : Nat} {bs : List Byte} : Yields MemOk (stashStorePiece s bid a bs) := by
  unfold stashStorePiece
  dsimp only
  split
  · exact .some (by simp [h])
  · split
    · exact .some (by simp [h])
    · split
      · exact .none
      · next s' e =>
        have h' := ((winDirty_ok h).bind (fun _ h => stashTouch_ok h)).bind (fun _ h => drainTo_ok h) _ e
        exact .some (by simp [h'])

theorem stashStore_ok {bid a : Nat} {bs : List Byte} : Yields MemOk (stashStore s bid a bs) :=
  .foldl (fun _ _ h => stashStorePiece_ok h) _ (.some h)

/-! ### Staged writes and releases -/

theorem performStaged_ok {c : Nat} {w : StagedWrite} : Yields MemOk (performStaged s c w) := by
  unfold performStaged
  dsimp only
  split
  · exact .some (by simp [h])
  · split
    · exact coreWriteAs_ok h
    · split
      · exact .none
      · next e => exact coreWriteAs_ok (gainLine_ok h _ e)

theorem performStagedAll_ok {c : Nat} {l : List StagedWrite} : Yields MemOk (performStagedAll s c l) :=
  .foldl (fun _ _ h => performStaged_ok h) _ (.some h)

theorem goInPlace_ok {tid : Nat} {o : MemOp} : Yields MemOk (goInPlace s tid o) :=
  .map (performStagedAll_ok h) (fun s h => by simp [h])

theorem performRelease_ok {tid scope : Nat} {sent : List (Nat × Nat)} : Yields MemOk (performRelease s tid scope sent) := by
  unfold performRelease
  dsimp only
  split
  · exact .some (by simp [h])
  · exact .map (drainAll_ok (by simp [h])) (fun s h => by simp [h])

theorem releaseOp_ok {tid : Nat} {o : MemOp} : Yields FstOk (releaseOp s tid o) := by
  unfold releaseOp
  split
  · exact .some h
  · exact .map (performRelease_ok h) (fun s h => h)

theorem watchLine_ok {tid line : Nat} : Yields FstOk (watchLine s tid line) := by
  unfold watchLine
  dsimp only
  split
  · exact .none
  · split
    · exact .none
    · exact .some (by simp [h])

end

/-! ### Performing the operations of a memory queue -/

section
variable {s : State} (h : MemOk s)
include h

theorem bringLines_ok {tid : Nat} {watched : Bool} {ls : KMap Nat} : Yields FstOk (bringLines s tid watched ls) := by
  refine .foldl (fun r p h => ?_) _ (.some h)
  split
  · next s' d e =>
    split at e
    · exact .some (watchLine_ok h _ e)
    · cases e
  · exact .map (loadLine_ok h) (fun q h => h)

theorem bindLoads_ok {tid n : Nat} {watched : Bool} {accs : List LaneAcc} : Yields FstOk (bindLoads s tid n watched accs) := by
  unfold bindLoads
  split
  · exact .none
  · next s' ls e =>
    have h' : MemOk s' := bringLines_ok h _ e
    refine .foldl (fun r a h => ?_) _ (.some h')
    split
    · exact .some h
    · exact .map (stashLoad_ok h) (fun q h => h)

theorem treated_ok {tid bytes : Nat} {o : MemOp} {stage : State → State} {go : State → Option State} (hs : ∀ s, MemOk s → MemOk (stage s))
    (hg : ∀ s, MemOk s → Yields MemOk (go s)) : Yields MemOk (treated s tid o bytes stage go) := by
  unfold treated
  split
  · exact hg s h
  · exact .some (hs s h)
  · split
    · exact .bind (goInPlace_ok h) hg
    · exact .none

theorem stashStores_ok {n : Nat} {accs : List LaneAcc} : Yields MemOk (stashStores s n accs) := by
  refine .foldl (fun s a h => ?_) _ (.some h)
  split
  · exact .some h
  · exact stashStore_ok h

theorem performStore_ok {tid n : Nat} {o : MemOp} : Yields MemOk (performStore s tid o n) := by
  unfold performStore
  dsimp only
  split
  · exact .none
  · next s' e =>
    have h' := stashStores_ok h _ e
    split
    · exact .some h'
    · exact treated_ok h' (fun s h => by simp [h]) (fun s h => .some (by simp [h]))

theorem atomGlobal_ok {c line : Nat} {op : AOp} {accs : List LaneAcc} : Yields FstOk (atomGlobal s c op line accs) := by
  unfold atomGlobal
  split
  · exact .none
  · next s' e =>
    have h' := (drainTo_ok h).bind (fun _ h => gainLine_ok h) _ e
    exact .map (coreWrite_ok h') (fun s h => h)

theorem atomStash_ok {op : AOp} {b : Nat} {a : LaneAcc} : Yields FstOk (atomStash s op b a) := by
  unfold atomStash
  split
  · exact .none
  · next s' bs e =>
    have h' : MemOk s' := stashLoad_ok h _ e
    exact .map (stashStore_ok h') (fun s h => h)

theorem unstage_ok {tid : Nat} {o : MemOp} : Yields MemOk (unstage s tid o) :=
  .foldl (fun s a h => .map (performStagedAll_ok h) (fun s h => by simp [h])) _ (.some h)

theorem atomLineStep_ok {tid line : Nat} {op : AOp} {o : MemOp} : Yields FstOk (atomLineStep s tid op o line) :=
  .map (P := FstOk) (.bind (.bind (decide1_ok h) (fun _ h => unstage_ok h)) (fun _ h => atomGlobal_ok h)) (fun _ h => h)

theorem atomStashes_ok {tid : Nat} {op : AOp} {o : MemOp} : Yields FstOk (atomStashes s tid op o) := by
  refine .bind (decide1_ok h) (fun s h => .map (P := FstOk) (.foldl (fun q a h => ?_) _ (.some h)) (fun q h => h))
  split
  · exact .some h
  · exact .map (atomStash_ok h) (fun z h => h)

theorem atomAll_ok {tid : Nat} {op : AOp} {o : MemOp} : Yields FstOk (atomAll s tid op o) := by
  have hr : FstOk ((linesLeft o).foldl (fun r l => (atomLineStep r.1 tid op r.2 l).getD r) (s, o)) := by
    refine foldl_keeps (P := FstOk) (fun r l h => ?_) _ h
    cases e : atomLineStep r.1 tid op r.2 l with
    | none => exact h
    | some q => exact atomLineStep_ok h _ e
  have hm : ∀ c : Prop, [Decidable c] → Yields FstOk (if c then none
      else some ((linesLeft o).foldl (fun r l => (atomLineStep r.1 tid op r.2 l).getD r) (s, o))) := by
    intro c _
    split
    · exact .none
    · exact .some hr
  unfold atomAll
  dsimp only
  split
  · exact hm _
  · split
    · next q e => exact .some (atomStashes_ok hr _ e)
    · exact hm _

theorem performAtom_ok {tid : Nat} {o : MemOp} {op : AOp} {ret : Bool} : Yields FstOk (performAtom s tid o op ret) := by
  unfold performAtom
  split
  · split
    · exact .none
    · exact atomAll_ok h
  · split
    · exact atomAll_ok h
    · exact .map (atomStashes_ok h) (fun r h => by simpa using h)
    · split
      · exact .bind (goInPlace_ok h) (fun _ h => atomAll_ok h)
      · exact .none

/-! ### Appends, windows, prefetches and page tables -/

@[simp] theorem reserveAppend_ok (o : MemOp) (e p size : Nat) : MemOk (reserveAppend s o e p size).1 := by
  unfold reserveAppend
  dsimp only
  split <;> simp [h]

theorem appendPiece_ok {line : Nat} {m : ByteMask} {d : Line} : Yields MemOk (appendPiece s line m d) := by
  unfold appendPiece
  split
  · exact .some h
  · split
    · exact .none
    · exact .some (by simp [h])

theorem appendWrite_ok {pa : Nat} {bs : List Byte} : Yields MemOk (appendWrite s pa bs) :=
  .foldl (fun _ _ h => appendPiece_ok h) _ (.some h)

theorem writeAppend_ok {o : MemOp} {e p size : Nat} : Yields MemOk (writeAppend s o e p size) :=
  .map (.foldl (fun _ _ h => appendWrite_ok h) _ (.some h)) (fun s h => by dsimp only; split <;> simp [h])

theorem finishAppend_ok {tid : Nat} {o : MemOp} {e p size : Nat} : Yields MemOk (finishAppend s tid o e p size) :=
  .map (writeAppend_ok h) (fun s h => foldl_keeps (P := MemOk) (fun s l h => by simp [h]) _ h)

theorem performSunmap_ok {tid off : Nat} : Yields MemOk (performSunmap s tid off) := by
  unfold performSunmap
  dsimp only
  split
  · split
    · exact .none
    · exact .some h
  · exact .map (.bind (drainAll_ok h) (fun _ h => writeBackWindow_ok h)) (fun s h => by simp [h])

theorem prefLane_ok {tid va : Nat} {l2 : Bool} : Yields MemOk (prefLane s tid l2 va) := by
  unfold prefLane
  dsimp only
  split
  · exact .none
  · exact .some h
  · exact .some h
  · next s' x e =>
    have h' : MemOk s' := by
      split at e
      · split at e
        · cases e
          exact h
        · cases e
      · split at e
        · next ew =>
          cases e
          simp [walkIn_ok h ew]
        · exact walkIn_ok h e
    split
    · exact .some (by simp [h'])
    · split
      · split
        · exact .some (by simp [h'])
        · exact gainLine_ok (by simp [h'])
      · exact .map (loadLine_ok (by simp [h'])) (fun r h => h)

omit h in
theorem installLeaf_ok {psz va leaf die n base : Nat} {s : State} {pool : List (Nat × Nat)} {t : State} {q : List (Nat × Nat)} (h : MemOk s)
    (e : installLeaf psz va leaf die n base s pool = .ok t q) : MemOk t := by
  induction n generalizing base s pool with
  | zero => cases e
  | succ n ih =>
    unfold installLeaf at e
    dsimp only at e
    split at e
    · split at e
      · cases e
      · next ew =>
        cases e
        exact agentWrite_ok h _ ew
    · split at e
      · exact ih h e
      · split at e
        · cases e
        · split at e
          · cases e
          · next ew => exact ih (agentWrite_ok (zeroFrame_ok h _ _) _ ew) e

theorem fmapStep_ok {tid va : Nat} : Yields FstOk (fmapStep s tid va) := by
  unfold fmapStep
  dsimp only
  split
  · exact .some h
  · split
    · exact .some h
    · exact .some h
    · split
      · exact .some h
      · split
        · exact .none
        · exact .some h
        · next e =>
          have h' := installLeaf_ok (zeroFrame_ok h _ _) e
          refine .some ?_
          split
          · simpa using h'
          · exact h'
    · exact .some h

/-- What marks an operation performed, with its acquire. -/
theorem acquired_ok (o : MemOp) (core : Nat) : MemOk (if o.acq then acquireAt s core o.scope else s) := by
  split <;> simp [h]

theorem performOp_ok {tid : Nat} {o : MemOp} : Yields FstOk (performOp s tid o) := by
  unfold performOp
  dsimp only
  split
  · exact .none
  · next s₁ o₁ e =>
    have h₁ : MemOk s₁ := releaseOp_ok h _ e
    split
    · exact .map (bindLoads_ok h₁) (fun r h => acquired_ok h _ _)
    · exact .map (bindLoads_ok h₁) (fun r h => acquired_ok h _ _)
    · exact .map (performStore_ok h₁) (fun s h => acquired_ok h _ _)
    · refine .map (performAtom_ok h₁) (fun r h => ?_)
      split
      · exact acquired_ok h _ _
      · exact h
    · split
      · exact .none
      · split
        · exact .map (goInPlace_ok h₁) (fun s h => h)
        · refine .map (finishAppend_ok ?_) (fun s h => acquired_ok h _ _)
          split <;> simp [h₁]
    · split
      · exact .some (by simp [h₁])
      · exact .none
      · exact .some (acquired_ok h₁ _ _)
    · exact .map (.foldl (fun s a h => prefLane_ok h) _ (.some h₁)) (fun s h => acquired_ok h _ _)
    · exact .some (acquired_ok (by simp [h₁]) _ _)
    · exact .map (performSunmap_ok h₁) (fun s h => acquired_ok h _ _)
    · exact .map (.bind (drainAll_ok h₁) (fun s h => writeBackBlock_ok h)) (fun s h => acquired_ok h _ _)
    · exact .some (acquired_ok (by simp [h₁]) _ _)
    · split
      · exact .none
      · split
        · exact .none
        · next e => exact .some (acquired_ok (fmapStep_ok h₁ _ e) _ _)
        · next e =>
          have h₂ := fmapStep_ok h₁ _ e
          split
          · exact .some (by simpa using h₂)
          · exact .none
    · exact .some (acquired_ok h₁ _ _)

theorem completeOp_ok {tid : Nat} {o : MemOp} : Yields MemOk (completeOp s tid o) := by
  refine .map (P := MemOk) ?_ (fun s h => by simp [h])
  split
  · exact drainTo_ok h
  · exact .some h

end

/-! ### Copies -/

section
variable {s : State} (h : MemOk s)
include h

theorem coreXlat_ok {c asid va acc : Nat} {t : State} {x : TlbEntry} (e : coreXlat s c asid va acc = .ok t x) : MemOk t := by
  unfold coreXlat at e
  dsimp only at e
  split at e
  · split at e
    · cases e
      exact h
    · split at e
      · next ew =>
        cases e
        simp [walkIn_ok h ew]
      all_goals cases e
  · split at e
    · next ew =>
      cases e
      simp [walkIn_ok h ew]
    all_goals cases e

theorem cpXlat_ok {die asid va acc : Nat} {t : State} {x : TlbEntry} (e : cpXlat s die asid va acc = .ok t x) : MemOk t := by
  unfold cpXlat at e
  split at e
  · next ew =>
    cases e
    exact walkIn_ok h ew
  all_goals cases e

theorem engineRead_ok {t : Team} {pa n : Nat} : Yields FstOk (engineRead s t pa n) := by
  refine .map (P := MemOk) (.foldl (fun s l h => ?_) _ (.some h)) (fun s h => h)
  split
  · exact .some h
  · exact gainLine_ok h

theorem engineWrite_ok {w : Writer} {pa : Nat} {bs : List Byte} : Yields MemOk (engineWrite s w pa bs) := by
  unfold engineWrite
  dsimp only
  split
  · exact .some (by simp [h])
  · exact coreWriteBytes_ok h

theorem readGlobal_ok {t : Team} {e : TlbEntry} {va n : Nat} {raw : Bool} : Yields FstOk (readGlobal s t e va n raw) := by
  unfold readGlobal
  dsimp only
  split
  · exact engineRead_ok h
  · refine .foldl (fun r u h => ?_) _ (.some h)
    exact .map (engineRead_ok h) (fun q h => h)

theorem writeGlobal_ok {w : Writer} {e : TlbEntry} {va : Nat} {bs : List Byte} : Yields MemOk (writeGlobal s w e va bs) := by
  unfold writeGlobal
  dsimp only
  split
  · exact engineWrite_ok h
  · refine .foldl (fun s u h => ?_) _ (.some h)
    split
    · exact .none
    · next e => exact engineWrite_ok (engineRead_ok h _ e)

theorem readElem_ok {o : CopyOp} {e : Elem} {xs : Option TlbEntry} : Yields FstOk (readElem s o e xs) := by
  unfold readElem
  split
  · exact .some h
  · split
    · split
      · exact readGlobal_ok h
      · exact .none
    · exact stashLoad_ok h

theorem moveElem_ok {o : CopyOp} {e : Elem} {xs xd : Option TlbEntry} : Yields MemOk (moveElem s o e xs xd) := by
  unfold moveElem
  split
  · exact .none
  · next s' bs eq =>
    have h' : MemOk s' := readElem_ok h _ eq
    split
    · exact .some (by simp [h'])
    · split
      · dsimp only
        split
        · exact .none
        · next eq => exact stashStore_ok (stashLoad_ok h' _ eq)
      · split
        · split
          · exact writeGlobal_ok h'
          · exact .none
        · exact stashStore_ok h'

theorem moveOverlap_ok {o : CopyOp} {e : Elem} {xs xd : TlbEntry} {held : List (Nat × Byte)} : Yields FstOk (moveOverlap s o e xs xd held) := by
  unfold moveOverlap
  dsimp only
  split
  · exact .none
  · next s' bs eq =>
    have h' : MemOk s' := readGlobal_ok h _ eq
    split
    · exact .none
    · next eq => exact .map (writeGlobal_ok (readGlobal_ok h' _ eq)) (fun s h => h)

theorem moveNext_ok {o : CopyOp} {e : Elem} {xs xd : Option TlbEntry} {held : List (Nat × Byte)} : Yields FstOk (moveNext s o e xs xd held) := by
  unfold moveNext
  split
  · split
    · exact moveOverlap_ok h
    · exact .none
  · exact .map (moveElem_ok h) (fun s h => h)

@[simp] theorem runSegment_ok (p : Nat) (o : CopyOp) (es : List Elem) (xs xd : Option TlbEntry) : MemOk (runSegment s p o es xs xd) := by
  unfold runSegment
  split
  · simp [h]
  · split
    · simp [h]
    · dsimp only
      split
      · simp [h]
      · split
        · exact h
        · next eq => simpa using Yields.foldl (fun q e h => moveNext_ok h) _ (.some h) _ eq

/-! ### Sealing a page -/

@[simp] theorem sealNow_ok (p : Nat) (g : APage) : MemOk (sealNow s p g) := by
  unfold sealNow
  dsimp only
  refine foldl_keeps (P := MemOk) (fun s d h => foldl_keeps (P := MemOk) (fun s e h => serveLine_ok _ _ _ h) _ h) _ ?_
  simp only [MemOk, setPageRec_mem]
  exact foldl_keeps (P := MemOk) (fun s d h => by simp [h]) _ h

/-! ### The function store -/

omit h in
@[simp] theorem takeRecords_ok (die : Nat) (d : FnDesc) (pa tail first n : Nat) (r : State × List FnRec) (h : FstOk r) :
    FstOk (takeRecords s die d pa tail first n r) := by
  induction n generalizing r with
  | zero => exact h
  | succ n ih =>
    unfold takeRecords
    split
    · exact h
    · refine ih _ ?_
      split
      · split <;> simpa using h
      · split <;> exact h

omit h in
theorem loadTable_ok {xl : State → Nat → EngX} {isSealed : State → Nat → Nat → Bool} {die size n : Nat} {d : FnDesc} {taken : List FnRec} {s : State}
    (hx : ∀ {s va t x}, MemOk s → xl s va = .ok t x → MemOk t) (h : MemOk s) : Yields FstOk (loadTable xl isSealed die size d n s taken) := by
  induction n generalizing s taken with
  | zero => exact .some h
  | succ n ih =>
    unfold loadTable
    dsimp only
    split
    · exact .some h
    · split
      · exact .none
      · next e =>
        have h' := hx h e
        split
        · exact ih (by simp [h'])
        · split
          · exact ih (takeRecords_ok _ _ _ _ _ _ _ h')
          · exact ih h'
      · exact ih (by simp [h])

theorem loadSlot_ok {c gid k : Nat} : Yields MemOk (loadSlot s c gid k) := by
  unfold loadSlot
  dsimp only
  split
  · exact .some h
  · exact .map (loadTable_ok (fun h e => coreXlat_ok h e) h) (fun r h => by simpa using h)

omit h in
theorem tableAppend_ok {own : Option Nat} {xl : State → Nat → EngX} {die size k n page : Nat} {d : FnDesc} {r : FnRec} {s : State}
    (hx : ∀ {s va t x}, MemOk s → xl s va = .ok t x → MemOk t) (h : MemOk s) : Yields FstOk (tableAppend own xl die size k d r n s page) := by
  induction n generalizing s page with
  | zero => exact .some h
  | succ n ih =>
    unfold tableAppend
    dsimp only
    split
    · exact .some h
    · split
      · exact .none
      · next e =>
        have h' := hx h e
        split
        · exact ih (by simp [h'])
        · split
          · exact ih h'
          · split
            · exact ih (by simp [h'])
            · refine .map (appendWrite_ok (by simp [h'])) (fun s h => ?_)
              cases own <;> simp [h]
      · exact ih (by simp [h])

omit h in
theorem insertLane_ok {tid k seq : Nat} {d : FnDesc} {p : List Word × List Word × List Word} {st : State × List WRec} (h : FstOk st) :
    Yields FstOk (insertLane tid k seq d p st) := by
  unfold insertLane
  dsimp only
  split
  · exact .some (by simpa using h)
  · split
    · split
      · exact .some (by simpa using h)
      · refine .some ?_
        split <;> simpa using h
    · refine .map (tableAppend_ok (fun h e => coreXlat_ok h e) h) (fun r h => ?_)
      split <;> simpa using h

theorem performFs_ok {o : FsOp} : Yields MemOk (performFs s o) := by
  unfold performFs
  dsimp only
  split
  · exact .some (by simp [h])
  · exact .some (by simp [h])
  · split
    · exact .some h
    · split
      · exact .some (by simp [h])
      · exact .map (.foldl (fun st p h => insertLane_ok h) _ (.some h)) (fun st h => h)
  · exact loadSlot_ok (by simp [h])
  · exact .some (by simp [h])
  · exact .some (by simp [h])

omit h in
theorem appendStaged_ok {gid die : Nat} {a : AppendSt} {r : StagedRec} (h : MemOk a.s) : Yields (fun a => MemOk a.s) (appendStaged gid die a r) := by
  unfold appendStaged
  dsimp only
  split
  · exact .some h
  · exact .map (tableAppend_ok (fun h e => cpXlat_ok h e) h) (fun q h => h)

/-! ### Matrix operations -/

theorem writeBack_ok {t : Team} {f : Nat} {b : FBlock} {inc ctl : Word} : Yields MemOk (writeBack s t f b inc ctl) :=
  .bind (stashStore_ok h) (fun _ h => stashStore_ok h)

theorem readTable_ok {t : Team} {at_ cap : Nat} : Yields FstOk (readTable s t at_ cap) := by
  unfold readTable
  split
  · exact .some h
  · split
    · exact .some h
    · split
      · exact .some h
      · refine .bind (classLoad_ok h) (fun r h => ?_)
        dsimp only
        split
        · exact .some h
        · split
          · exact .some h
          · split
            · exact .some h
            · refine .map (classLoad_ok h) (fun q h => ?_)
              split
              · exact h
              · split <;> exact h

theorem planesAt_ok {bid a p : Nat} : Yields FstOk (planesAt s bid a p) := .map (classLoad_ok h) (fun _ h => h)

theorem saveArea_ok {w : Writer} {va : Nat} {bs : List Byte} {xs : List TlbEntry} : Yields MemOk (saveArea s w va bs xs) :=
  .foldl (fun _ _ h => writeGlobal_ok h) _ (.some h)

theorem restArea_ok {t : Team} {va : Nat} {xs : List TlbEntry} : Yields FstOk (restArea s t va xs) := by
  refine .foldl (fun q e h => ?_) _ (.some h)
  exact .map (readGlobal_ok h) (fun z h => h)

theorem performMat_ok {tid : Nat} {t : Team} {m : Matrix} {o : MatOp} : Yields MemOk (performMat s tid t m o) := by
  unfold performMat
  dsimp only
  split
  · exact .some (by simp [h])
  · split
    · exact .some (by simp [h])
    · split
      · exact .some (by simp [h])
      · split
        · exact .some (by simp [h])
        · exact .map (.foldl (fun s p h => stashStore_ok h) _ (.some h)) (fun s h => by simp [h])
  · split <;> exact .some (by simp [h])
  · split
    · exact .some (by simp [h])
    · exact .map (saveArea_ok h) (fun s h => by simp [h])
  · split
    · exact .some (by simp [h])
    · split
      · exact .some (by simp [h])
      · exact .map (restArea_ok h) (fun q h => by simpa using h)
  · exact .some (by simp [h])
  · exact .some h

/-! ### Blocks -/

theorem bindSlots_ok {c gid : Nat} : Yields MemOk (bindSlots s c gid) := by
  unfold bindSlots
  split
  · exact .some h
  · exact .foldl (fun s k h => loadSlot_ok (by simp [h])) _ (.some h)

theorem startBlock_ok {gid : Nat} {seat : Seat} : Yields MemOk (startBlock s gid seat) :=
  .map (bindSlots_ok h) (fun s h => by simpa using h)

theorem saveBlock_ok {bid : Nat} : Yields MemOk (saveBlock s bid) := by
  refine .map (.bind (drainAll_ok h) (fun s h => writeBackBlock_ok h)) (fun s h => ?_)
  have hf := foldl_keeps (P := MemOk) (g := fun s (p : Nat × Team) => saveTeam s p.1) (fun s p h => by simp [h])
    ((blockTeams s bid).filter (fun p => p.2.status = .live)) h
  simpa using hf

theorem resumeBlock_ok {gid : Nat} {seat : Seat} : Yields MemOk (resumeBlock s gid seat) := by
  unfold resumeBlock
  split
  · exact .some h
  · refine .map (bindSlots_ok h) (fun s h => ?_)
    simp only [MemOk, decidePlace_mem, divergePlaced_mem, acquireAt_mem]
    exact foldl_keeps (P := MemOk) (fun s p h => by simp [h]) _ (by simp [h])

theorem retireBlock_ok {bid : Nat} : Yields MemOk (retireBlock s bid) := by
  refine .map (P := MemOk) ?_ (fun s h => by simp [h])
  split
  · exact .some h
  · exact .bind (drainAll_ok h) (fun s h => writeBackBlock_ok h)

theorem takePending_ok {tid : Nat} : Yields MemOk (takePending s tid) := by
  unfold takePending
  dsimp only
  split
  · exact .none
  · refine fun t e => ?_
    obtain ⟨p, -, rfl⟩ := Option.map_eq_some_iff.mp e
    simp [h]

end

/-! ### The command processors -/

/-- What an access of a command processor hands on, if it succeeds, has its memory in the form. -/
def CpOk {α : Type} (c : Cp α) : Prop := ∀ s v, c = .ok s v → MemOk s

theorem CpOk.ok {α : Type} {s : State} {v : α} (h : MemOk s) : CpOk (.ok s v) := by rintro _ _ ⟨⟩; exact h
theorem CpOk.bad {α : Type} {k : FailKind} : CpOk (.bad k : Cp α) := fun _ _ e => by cases e
theorem CpOk.busy {α : Type} : CpOk (.busy : Cp α) := fun _ _ e => by cases e

section
variable {s : State} (h : MemOk s)
include h

theorem cpStore_ok {die pa : Nat} {bs : List Byte} : Yields MemOk (cpStore s die pa bs) := by
  unfold cpStore
  split
  · exact agentWrite_ok h
  · exact .some (by simp [h])

theorem cpRead_ok {die key va n : Nat} : CpOk (cpRead s die key va n) := by
  refine foldl_keeps (P := CpOk) (fun o p ho => ?_) _ (.ok h)
  split
  · split
    · next e =>
      dsimp only
      split
      · exact .bad
      · exact .ok (cpXlat_ok (ho _ _ rfl) e)
    · exact .busy
    · exact .bad
  · exact ho

theorem cpWrite_ok {die key va : Nat} {bs : List Byte} : CpOk (cpWrite s die key va bs) := by
  refine foldl_keeps (P := CpOk) (fun o p ho => ?_) _ (.ok h)
  split
  · split
    · next e =>
      dsimp only
      split
      · exact .bad
      · split
        · exact .bad
        · split
          · next ew => exact .ok (cpStore_ok (cpXlat_ok (ho _ _ rfl) e) _ ew)
          · exact .busy
    · exact .busy
    · exact .bad
  · exact ho

theorem readDescs_ok {die key va n : Nat} : CpOk (readDescs s die key va n) := by
  induction n with
  | zero => exact .ok h
  | succ n ih =>
    unfold readDescs
    split
    · next e =>
      split
      · next er =>
        dsimp only
        split
        · exact .ok (cpRead_ok (ih _ _ e) _ _ er)
        · exact .bad
      · exact .bad
      · exact .busy
    · exact ih

theorem readCode_ok {die key : Nat} {r : LaunchRec} {t : State} {hdr : CodeHdr} {ds : List FnDesc} (e : readCode s die key r = .ok t hdr ds) : MemOk t := by
  unfold readCode at e
  split at e
  · cases e
  · cases e
  · next er =>
    have h' := cpRead_ok h _ _ er
    dsimp only at e
    split at e
    · cases e
    · split at e
      · cases e
      · split at e
        · cases e
        · split at e
          · cases e
          · cases e
          · next ed =>
            split at e
            · cases e
              exact readDescs_ok h' _ _ ed
            · cases e

theorem completeRecord_ok {q die key compVa : Nat} {child : Bool} {r : LaunchRec} {status : Nat} :
    Yields MemOk (completeRecord s q die key compVa child r status) := by
  unfold completeRecord
  dsimp only
  split
  · exact .none
  · refine .some ?_
    split <;> simp [h]
  · next e =>
    have h' := cpWrite_ok h _ _ e
    refine .some ?_
    split <;> simp [h']

@[simp] theorem readHead_ok (q : Nat) : MemOk (readHead s q).1 := by
  unfold readHead
  dsimp only
  split
  · exact h
  · split
    · simp [h]
    · split
      · exact h
      · split
        · next e => exact cpRead_ok (by simp [h]) _ _ e
        · simp [h]
        · simp [h]

@[simp] theorem depsMet_ok (q : Nat) (r : LaunchRec) : MemOk (depsMet s q r).1 := by
  refine foldl_keeps (P := FstOk) (fun o d h => ?_) _ h
  split
  · exact h
  · exact h
  · dsimp only
    split
    · next e =>
      split <;> exact cpRead_ok h _ _ e
    · simpa using h
    · exact h

@[simp] theorem lookAt_ok (q : Nat) : MemOk (lookAt s q).1 := by
  unfold lookAt
  dsimp only
  split
  · simp [h]
  · next hd _ =>
    split
    · simp [h]
    · have hm := depsMet_ok (readHead_ok h q) q (recordOf hd.bytes)
      split
      all_goals
        next e =>
        rw [e] at hm
        simpa using hm

@[simp] theorem noteHead_ok (q : Nat) : MemOk (noteHead s q) := by
  unfold noteHead
  split <;> simp [h]

@[simp] theorem noteHeads_ok : MemOk (noteHeads s) := foldl_keeps (P := MemOk) (fun _ _ h => noteHead_ok h _) _ h

@[simp] theorem firstStartable_ok : MemOk (firstStartable s).1 := by
  refine foldl_keeps (P := FstOk) (fun a q h => ?_) _ h
  exact lookAt_ok h _

theorem refuse_ok {q status : Nat} {hd : Head} : Yields MemOk (refuse s q hd status) := completeRecord_ok (by simp [h])

theorem snapshotOf_ok {die key : Nat} {ds : List FnDesc} : Yields FstOk (snapshotOf s die key ds) := by
  refine .foldl (fun r p h => ?_) _ (.some h)
  split
  · exact .none
  · next e =>
    split <;> exact .some (cpXlat_ok h e)
  · exact .some h

theorem startHead_ok {x : Startable} : Yields MemOk (startHead s x) := by
  unfold startHead
  dsimp only
  split
  · exact refuse_ok h
  · split
    · exact refuse_ok h
    · split
      · exact refuse_ok h
      · split
        · exact .none
        · exact refuse_ok h
        · next e =>
          have h' := readCode_ok h e
          split
          · exact .none
          · next e =>
            have h'' := snapshotOf_ok h' _ e
            split
            · exact .none
            · split
              · exact refuse_ok h''
              · exact .some (by simpa using h'')

theorem writeLog_ok {g : Grid} : Yields MemOk (writeLog s g) := by
  unfold writeLog
  split
  · exact .some h
  · split
    · next e => exact .some (cpWrite_ok h _ _ e)
    · exact .some (by simp [h])
    · exact .none

/-! ### The appends of a phase -/

theorem performAppend_ok {tid : Nat} {o : MemOp} : Yields MemOk (performAppend s tid o) := by
  unfold performAppend
  split
  · exact .some (by simp [h])
  · refine .bind (releaseOp_ok h) (fun r h => ?_)
    dsimp only
    split
    · refine .map (finishAppend_ok ?_) (fun s h => by simp [h])
      split
      · exact h
      · exact reserveAppend_ok h _ _ _ _
    · refine .some ?_
      split <;> simpa using h
    · exact .some h

theorem performAppends_ok {bid p : Nat} : Yields MemOk (performAppends s bid p) := by
  refine .foldl (fun s i h => ?_) _ (.some h)
  split
  · exact .some h
  · exact .foldl (fun s a h => performAppend_ok h) _ (.some h)

/-! ### Resets of a die -/

@[simp] theorem loseLine_ok (die line : Nat) : MemOk (loseLine s die line) := by
  unfold loseLine
  split
  · exact h
  · split <;> simp [h]

@[simp] theorem resetDie_ok (die : Nat) : MemOk (resetDie s die) :=
  foldl_keeps (P := MemOk) (fun _ _ h => loseLine_ok h _ _) _ h

end

/-- The cycle that follows a choice keeps what the choice left. -/
theorem tick_ok {s t : State} (h : MemOk t) : MemOk (tick s t) := by
  have hn := noteHeads_ok (s := markReady s (passTime { t with cc := s.cc } (t.cc + 1))) (by simpa using h)
  simpa [tick] using hn

/-! ### How instructions end -/

/-- The next state of an outcome, if it has one, has its memory in the form. -/
def NextOk (o : Out) : Prop := ∀ t, o = .next t → MemOk t

@[simp] theorem nextOk_next (s : State) : NextOk (.next s) ↔ MemOk s := ⟨fun h => h s rfl, by rintro h _ ⟨⟩; exact h⟩
@[simp] theorem nextOk_fault (f : Fault) : NextOk (.fault f) := fun _ e => by cases e


section
variable {s : State} (h : MemOk s)
include h

@[simp] theorem finish_ok (t : Team) (x : Fields) : NextOk (finish s t x) := by simp [finish, h]
@[simp] theorem transfer_ok (t : Team) (a : DWord) : NextOk (transfer s t a) := by simp [transfer, h]
@[simp] theorem finishHold_ok (t : Team) (x : Fields) (row : Option (KMap Word)) : NextOk (finishHold s t x row) := by simp [finishHold, h]

@[simp] theorem trapLanes_ok (tr : Trap) (m : LaneSet) : NextOk (trapLanes s tr m) := by
  unfold trapLanes
  dsimp only
  split <;> simp [h]

@[simp] theorem trapAll_ok (tr : Trap) : NextOk (trapAll s tr) := trapLanes_ok h tr _

theorem issue_ok {i : Instr} {body : Team → Form → Fields → Out} (hb : ∀ t f x, NextOk (body t f x)) : NextOk (issue i s body) := by
  unfold issue
  split
  · simp [h]
  · dsimp only
    split
    · simp [h]
    · split
      · simp [h]
      · split
        · simp [h]
        · exact hb _ _ _

theorem withGather_ok {bits : Nat} {g : Gather} {lanes : LaneSet → LaneSet} {k : List LaneAcc → Out} (hk : ∀ a, NextOk (k a)) :
    NextOk (withGather s bits g lanes k) := by
  unfold withGather
  split
  · exact hk _
  all_goals simp [h]

theorem withOne_ok {set : LaneSet} {va : Nat} {w : Want} {c : Chk} {k : LaneAcc → Out} (hk : ∀ a, NextOk (k a)) :
    NextOk (withOne s set va w c k) :=
  withGather_ok h (fun l => match l with
    | a :: _ => hk a
    | [] => by simp [h])

theorem withGate_ok {rel : Bool} {k : Out} (hk : NextOk k) : NextOk (withGate s rel k) := by
  unfold withGate
  split
  · exact hk
  · split
    · simp [h]
    · simp [h]
    · exact hk

theorem withReplay_ok {kind : Nat} {keys : List (Nat × Nat)} {k : Out} (hk : NextOk k) : NextOk (withReplay s kind keys k) := by
  unfold withReplay
  split
  · exact hk
  · split
    · exact hk
    all_goals simp [h]

theorem withFetch_ok {α : Type} {f : Fetch α} {k : α → Out} (hk : ∀ v, NextOk (k v)) : NextOk (withFetch s f k) := by
  unfold withFetch
  split
  · exact hk _
  all_goals simp [h]

theorem withLevel_ok {t : Team} {lvl : Nat} {k : Out} (hk : NextOk k) : NextOk (withLevel s t lvl k) := by
  unfold withLevel
  split
  · simp [h]
  · exact hk

theorem withPush_ok {t : Team} {e : Entry} {k : Team → Out} (hk : ∀ t, NextOk (k t)) : NextOk (withPush s t e k) := by
  unfold withPush
  split
  · simp [h]
  · exact hk _

theorem withRelease_ok {scope : Nat} {k : State → Out} (hk : ∀ s, MemOk s → NextOk (k s)) : NextOk (withRelease s scope k) := by
  refine withGate_ok h ?_
  split
  · simp [h]
  · split
    · simp [h]
    · next e => exact hk _ (performRelease_ok h _ e)

theorem withGroups_ok {i : Instr} {ok : Team → Fields → Bool} {k : Out} (hk : NextOk k) : NextOk (withGroups i s ok k) := by
  unfold withGroups
  split
  · exact hk
  · split
    · simp [h]
    · exact hk

theorem supervised_ok {k : Out} (hk : NextOk k) : NextOk (supervised s k) := by
  unfold supervised
  split
  · exact hk
  · simp [h]

omit h in
theorem noteOut_ok {core cls : Nat} {o : Out} (ho : NextOk o) : NextOk (noteOut s core cls o) := by
  unfold noteOut
  split
  · simpa using ho
  · exact ho

@[simp] theorem stackTrap_ok (t : Team) : NextOk (stackTrap s t) := trapAll_ok h _

/-! ### Families of instructions -/

theorem scalarOp_ok {i : Instr} {sg : Bool} {fn : Word → Word → Word → Word} : NextOk (scalarOp i s sg fn) :=
  issue_ok h (fun _ _ _ => finish_ok h _ _)
theorem scalarOp64_ok {i : Instr} {fn : DWord → DWord → DWord} : NextOk (scalarOp64 i s fn) := issue_ok h (fun _ _ _ => finish_ok h _ _)
theorem scalarCmp_ok {i : Instr} {sg : Bool} {c : Cmp} : NextOk (scalarCmp i s sg c) := issue_ok h (fun _ _ _ => finish_ok h _ _)

@[simp] theorem vecWrite_ok (t : Team) (x : Fields) (a b res : Nat → Word) : NextOk (vecWrite s t x a b res) := finishHold_ok h _ _ _
@[simp] theorem predWrite_ok (t : Team) (x : Fields) (a b : Nat → Word) (res : LaneSet) : NextOk (predWrite s t x a b res) := finishHold_ok h _ _ _
@[simp] theorem crossWrite_ok (t t0 : Team) (x : Fields) (set : LaneSet) (a b res : Nat → Word) : NextOk (crossWrite s t t0 x set a b res) :=
  finishHold_ok h _ _ _

theorem vecOp_ok {i : Instr} {sg : Bool} {fn : Word → Word → Word → Word} : NextOk (vecOp i s sg fn) := issue_ok h (fun _ _ _ => vecWrite_ok h _ _ _ _ _)
theorem vecCmp_ok {i : Instr} {sg : Bool} {c : Cmp} : NextOk (vecCmp i s sg c) := issue_ok h (fun _ _ _ => predWrite_ok h _ _ _ _ _)
theorem floatOp_ok {i : Instr} {fn : RMode → XVal → XVal → XVal → XVal} : NextOk (floatOp i s fn) := issue_ok h (fun _ _ _ => vecWrite_ok h _ _ _ _ _)
theorem floatCmp_ok {i : Instr} {c : FCmp} : NextOk (floatCmp i s c) := issue_ok h (fun _ _ _ => predWrite_ok h _ _ _ _ _)
theorem packedOp_ok {i : Instr} {f : Fmt} {fn : RMode → XVal → XVal → XVal → XVal} : NextOk (packedOp i s f fn) :=
  issue_ok h (fun _ _ _ => vecWrite_ok h _ _ _ _ _)
theorem cvtIntOp_ok {i : Instr} {sg : Bool} : NextOk (cvtIntOp i s sg) := issue_ok h (fun _ _ _ => vecWrite_ok h _ _ _ _ _)
theorem cvtFloatOp_ok {i : Instr} : NextOk (cvtFloatOp i s) := issue_ok h (fun _ _ _ => vecWrite_ok h _ _ _ _ _)
theorem shuffle_ok {i : Instr} {pos : Nat → Nat → Option Nat} : NextOk (shuffle i s pos) := issue_ok h (fun _ _ _ => crossWrite_ok h _ _ _ _ _ _ _)
theorem vote_ok {i : Instr} {d : List Bool → Bool} : NextOk (vote i s d) := issue_ok h (fun _ _ _ => predWrite_ok h _ _ _ _ _)
theorem segmentOp_ok {i : Instr} {res : RMode → Nat → List (Option Word) → Word} : NextOk (segmentOp i s res) :=
  issue_ok h (fun _ _ _ => crossWrite_ok h _ _ _ _ _ _ _)
theorem reduce_ok {i : Instr} {fn : Word → Word → Word} {ident : Word} : NextOk (reduce i s fn ident) := segmentOp_ok h
theorem scan_ok {i : Instr} {fn : Word → Word → Word} {ident : Word} : NextOk (scan i s fn ident) := segmentOp_ok h

theorem branchOp_ok {i : Instr} {taken : Team → Fields → Bool} : NextOk (branchOp i s taken) :=
  issue_ok h (fun _ _ _ => by split <;> simp [h])

theorem leaveOp_ok {i : Instr} {keep : Bool} : NextOk (leaveOp i s keep) :=
  issue_ok h (fun _ _ _ => by dsimp only; split <;> simp [h])

@[simp] theorem awaitBarrier_ok (x : Fields) (lvl gen : Nat) (e : Option Nat) : NextOk (awaitBarrier s x lvl gen e) := by
  unfold awaitBarrier
  dsimp only
  split <;> simp [h]

@[simp] theorem enqueueCopy_ok (t : Team) (x : Fields) (o : CopyOp) (row : Option (KMap Word)) : NextOk (enqueueCopy s t x o row) :=
  finishHold_ok (by simp [h]) _ _ _

@[simp] theorem skipCopy_ok (t : Team) (x : Fields) (cont : Bool) (row : Option (KMap Word)) : NextOk (skipCopy s t x cont row) := by
  unfold skipCopy
  split <;> simp [h]

theorem copyOp_ok {i : Instr} {ok : Team → Fields → Bool} {mk : Team → Fields → CopyOp → LaneSet → CopyOp} {k : CKind} :
    NextOk (copyOp i s ok mk k) := by
  refine issue_ok h (fun t _ x => ?_)
  dsimp only
  split
  · simp [h]
  · split <;> simp [h]

@[simp] theorem enqueueOp_ok (t : Team) (x : Fields) (o : MemOp) (row : Option (KMap Word)) : NextOk (enqueueOp s t x o row) := finishHold_ok h _ _ _

theorem perLane_ok {i : Instr} {n : Nat} {w : Want} {k : Team → Fields → List LaneAcc → Out} (hk : ∀ t x a, NextOk (k t x a)) :
    NextOk (perLane i s n w k) := by
  refine issue_ok h (fun t _ x => ?_)
  dsimp only
  split
  · simp [h]
  · exact withGather_ok h (hk t x)

theorem teamWide_ok {i : Instr} {k : Team → Fields → LaneSet → Out} (hk : ∀ t x m, NextOk (k t x m)) : NextOk (teamWide i s k) := by
  refine issue_ok h (fun t _ x => ?_)
  dsimp only
  split
  · simp [h]
  · exact hk _ _ _

theorem loadOp_ok {i : Instr} {n : Nat} {sg watched : Bool} : NextOk (loadOp i s n sg watched) := perLane_ok h (fun _ _ _ => enqueueOp_ok h _ _ _ _)

theorem storeOp_ok {i : Instr} {n : Nat} : NextOk (storeOp i s n) := perLane_ok h (fun _ _ _ => withGate_ok h (enqueueOp_ok h _ _ _ _))

theorem atomOp_ok {i : Instr} {op : AOp} {ret : Bool} : NextOk (atomOp i s op ret) := by
  refine perLane_ok h (fun t x accs => ?_)
  dsimp only
  split
  · simp [h]
  · exact withGate_ok h (withReplay_ok h (enqueueOp_ok h _ _ _ _))

theorem reachStore_ok {t : Team} {k : Nat} {kind : FsKind} {flag : Option Nat} {go : State → Team → Out} (hg : ∀ s t, MemOk s → NextOk (go s t)) :
    NextOk (reachStore s t k kind flag go) := by
  refine withReplay_ok h ?_
  split
  · simp [h]
  · next s' e =>
    have h' := decide1_ok h _ e
    exact hg _ _ (by simp [h'])

theorem matrixIssue_ok {i : Instr} {k : Team → Fields → Out} (hk : ∀ t x, NextOk (k t x)) : NextOk (matrixIssue i s k) := by
  refine issue_ok h (fun t _ x => ?_)
  split
  · simp [h]
  · split
    · split
      · exact hk _ _
      · simp [h]
    · exact hk _ _

@[simp] theorem enqueueMat_ok (t : Team) (x : Fields) (k : MatKind) : NextOk (enqueueMat s t x k) := finish_ok (by simp [h]) _ _

theorem areaOp_ok {i : Instr} {w : Want} {k : Nat → List TlbEntry → MatKind} : NextOk (areaOp i s w k) := by
  refine matrixIssue_ok h (fun t x => ?_)
  dsimp only
  split
  · simp [h]
  · refine withGather_ok h (fun _ => ?_)
    split <;> simp [h]

theorem issueQ_ok {i : Instr} {k : Team → Fields → Out} (hk : ∀ t x, NextOk (k t x)) : NextOk (issueQ i s k) := by
  refine issue_ok h (fun t _ x => ?_)
  split
  · simp [h]
  · exact hk _ _

theorem qOp_ok {i : Instr} {op : QOp} : NextOk (qOp i s op) := by
  refine issueQ_ok h (fun t x => ?_)
  dsimp only
  split <;> simp [h]

theorem startLoop_ok {t : Team} {x : Fields} {f : Nat} {b : FBlock} {inc ctl : Word} {groups : List MGroup} : NextOk (startLoop s t x f b inc ctl groups) := by
  unfold startLoop
  dsimp only
  split
  · simp [h]
  · next e => exact enqueueMat_ok (writeBack_ok h _ e) _ _ _

theorem withBlock_ok {t : Team} {f : Nat} {k : State → FBlock → Bool × Bool → Out} (hk : ∀ s b m, MemOk s → NextOk (k s b m)) :
    NextOk (withBlock s t f k) := by
  unfold withBlock
  split
  · simp [h]
  · split
    · simp [h]
    · split
      · simp [h]
      · split
        · simp [h]
        · split
          · simp [h]
          · split
            · next e => exact hk _ _ _ (classLoad_ok h _ e)
            · simp [h]

theorem stepOp_ok {tid : Nat} {o : MemOp} : NextOk (stepOp s tid o) := by
  refine noteOut_ok ?_
  split
  · cases e : completeOp s tid o with
    | none => simp [h]
    | some t => simpa using completeOp_ok h _ e
  · split
    · simp [h]
    · split
      · simp [h]
      · split
        · simp [h]
        · split
          · simp [h]
          · split
            · simp [h]
            · next e => simpa using performOp_ok h _ e

end

section
variable {s : State} (h : MemOk s)
include h

/-! ### Instructions and events -/

theorem execPageWalk_ok : NextOk (execPageWalk s) := by
  unfold execPageWalk
  dsimp only
  split
  · simp [h]
  · split
    · split
      · simp [h]
      · simp
      · next e => simp [walkIn_ok h e]
      · simp [h]
      · simp [h]
    · simp [h]

theorem execFaultWaiterReplay_ok : NextOk (execFaultWaiterReplay s) := by
  unfold execFaultWaiterReplay
  dsimp only
  (repeat' split) <;> simp [h]

theorem execHostFaultAcknowledge_ok : NextOk (execHostFaultAcknowledge s) := by
  unfold execHostFaultAcknowledge
  rw [nextOk_next]
  dsimp only [MemOk]
  split
  · exact h
  · split
    · simp [h]
    · refine foldl_keeps (P := MemOk) (fun s tid h => ?_) _ (foldl_keeps (P := MemOk) (fun s tid h => ?_) _ (by simp [h]))
      · split
        · split <;> simp [h]
        · exact h
      · split <;> simp [h]

theorem execClauseStart_ok {w : Word} : NextOk (execClauseStart w s) := by
  unfold execClauseStart
  dsimp only
  (repeat' split) <;> simp [h]

theorem execRep_ok {cls : Cls} {p : RepWord} : NextOk (execRep cls p s) := by
  unfold execRep
  extract_lets t last
  split
  · simp [h]
  · refine withFetch_ok h (fun ws => ?_)
    split
    · simp [h]
    · split
      · simp [h]
      · split <;> simp [h]

theorem execCall_ok {f : Fields} : NextOk (execCall f s) := by
  refine issue_ok h (fun t _ x => ?_)
  split
  · simp [h]
  · exact withPush_ok h (fun _ => transfer_ok h _ _)

theorem execCallx_ok {f : Fields} : NextOk (execCallx f s) := by
  refine issue_ok h (fun t _ x => ?_)
  dsimp only
  split
  · simp [h]
  · split
    · simp [h]
    · exact withPush_ok h (fun _ => transfer_ok h _ _)

theorem execExit_ok {f : Fields} : NextOk (execExit f s) := by
  refine issue_ok h (fun t _ x => ?_)
  dsimp only
  split
  · simp [h]
  · refine withRelease_ok h (fun s h => ?_)
    simp [finish, h]

theorem execSleepExpiry_ok : NextOk (execSleepExpiry s) := by
  unfold execSleepExpiry
  dsimp only
  (repeat' split) <;> simp [h]

theorem execBara_ok {l : Lvl} {f : Fields} : NextOk (execBara l f s) := by
  refine issue_ok h (fun t _ x => withLevel_ok h ?_)
  split
  · simp [h]
  · exact withRelease_ok h (fun s h => finish_ok (by simp [h]) _ _)

theorem execBarw_ok {l : Lvl} {f : Fields} : NextOk (execBarw l f s) := by
  refine issue_ok h (fun t _ x => withLevel_ok h ?_)
  split <;> simp [h]

theorem execBar_ok {l : Lvl} {f : Fields} : NextOk (execBar l f s) := by
  refine issue_ok h (fun t _ x => withLevel_ok h ?_)
  split
  · simp [h]
  · exact withRelease_ok h (fun s h => awaitBarrier_ok (by simp [h]) _ _ _ _)

theorem execBare_ok {l : Lvl} {f : Fields} : NextOk (execBare l f s) := by
  refine issue_ok h (fun t _ x => withLevel_ok h ?_)
  dsimp only
  split
  · simp [h]
  · refine withGate_ok h ?_
    split
    · simp [h]
    · exact withRelease_ok h (fun s h => awaitBarrier_ok (by simp [h]) _ _ _ _)

@[simp] theorem electLogged_ok (bid lvl : Nat) (b : Barrier) : MemOk (electLogged s bid lvl b).2 := by
  unfold electLogged
  dsimp only
  split
  · exact h
  · split <;> simp [h]

theorem execBarrierGenerationComplete_ok : NextOk (execBarrierGenerationComplete s) := by
  unfold execBarrierGenerationComplete
  rw [nextOk_next]
  refine foldl_keeps (P := MemOk) (fun s p h => by simp [h]) _ ?_
  split
  · exact electLogged_ok h _ _ _
  · exact h

theorem execTail_ok {f : Fields} : NextOk (execTail f s) := by
  refine issue_ok h (fun t _ x => ?_)
  dsimp only
  split
  · simp [h]
  · split
    · simp [h]
    · refine withGather_ok h (fun accs => ?_)
      split
      · simp [h]
      · split
        · simp [h]
        · refine withRelease_ok h (fun r hr => ?_)
          split
          · simp [h]
          · next s' _ e =>
            have h' : MemOk s' := loadLine_ok hr _ e
            exact finish_ok (by simp [h']) _ _

theorem sideXlat_ok {o : CopyOp} {global : Bool} {a : Option Nat} {acc : Nat} {t : State} {x : TlbEntry} (e : sideXlat s o global a acc = some (.ok t x)) :
    MemOk t := by
  unfold sideXlat at e
  split at e
  · obtain ⟨_, _, e⟩ := Option.map_eq_some_iff.mp e
    exact coreXlat_ok h e
  · cases e

theorem execCopySegment_ok : NextOk (execCopySegment s) := by
  unfold execCopySegment
  dsimp only
  split
  · simp [h]
  · next o _ _ =>
    refine noteOut_ok ?_
    split
    · simp [h]
    · split
      · simp [h]
      · split
        · simp [h]
        · split
          · simp [h]
          · simp
          · simp [h]
          · next e =>
            have h₁ := sideXlat_ok h e
            split
            · simp [h]
            · simp
            · simp [h]
            · next e => simp [sideXlat_ok h₁ e]
            · simp [h₁]
          · split
            · simp [h]
            · simp
            · simp [h]
            · next e => simp [sideXlat_ok h e]
            · simp [h]

theorem execCopyCompletion_ok : NextOk (execCopyCompletion s) := by
  unfold execCopyCompletion
  dsimp only
  split
  · simp [h]
  · refine noteOut_ok ?_
    split
    · simp [h]
    · split
      · simp [h]
      · next s' e =>
        have h' : MemOk s' := by
          split at e
          · cases e
            exact h
          · exact drainAll_ok h _ e
        split <;> simp [h']

theorem execAppend_ok {f : Fields} : NextOk (execAppend f s) := teamWide_ok h (fun _ _ _ => withOne_ok h (fun _ => withGate_ok h (enqueueOp_ok h _ _ _ _)))

theorem execSealPage_ok {f : Fields} : NextOk (execSealPage f s) := teamWide_ok h (fun _ _ _ => withOne_ok h (fun _ => withGate_ok h (enqueueOp_ok h _ _ _ _)))

theorem execSmap_ok {f : Fields} : NextOk (execSmap f s) := by
  refine teamWide_ok h (fun t x m => ?_)
  dsimp only
  split
  · simp [h]
  · exact withGather_ok h (fun _ => enqueueOp_ok h _ _ _ _)

theorem execHdecl_ok {f : Fields} : NextOk (execHdecl f s) := by
  refine teamWide_ok h (fun t x m => withOne_ok h (fun a => ?_))
  dsimp only
  split
  · simp [h]
  · split
    · simp [h]
    · split
      · simp [h]
      · next s' _ e =>
        have h' : MemOk s' := classLoad_ok h _ e
        split
        · simp [h']
        · exact enqueueOp_ok (by simp [h']) _ _ _ _

theorem execVariableLatencyCompletion_ok : NextOk (execVariableLatencyCompletion s) := by
  unfold execVariableLatencyCompletion
  split
  · simp [h]
  · split
    · next e => simpa using stepOp_ok h _ e
    · exact stepOp_ok h

theorem execAppendHomeReservation_ok : NextOk (execAppendHomeReservation s) := by
  unfold execAppendHomeReservation
  split
  · simp [h]
  · split
    · dsimp only
      split
      · simp [h]
      · split
        · simp [h]
        · next e => simpa using reserveAppend_ok (releaseOp_ok h _ e) _ _ _ _
    · simp [h]

theorem execSealRecall_ok : NextOk (execSealRecall s) := by
  unfold execSealRecall
  dsimp only
  (repeat' split) <;> simp [h]

theorem execSealCompletion_ok : NextOk (execSealCompletion s) := by
  unfold execSealCompletion
  dsimp only
  (repeat' split) <;> simp [h]

theorem execHaloPush_ok : NextOk (execHaloPush s) := by
  unfold execHaloPush
  dsimp only
  (repeat' split) <;> simp [h]

theorem execWatchValidation_ok : NextOk (execWatchValidation s) := by
  unfold execWatchValidation
  dsimp only
  split <;> simp [h]

theorem execFsdef_ok {f : Fields} : NextOk (execFsdef f s) := by
  refine issue_ok h (fun t _ x => ?_)
  dsimp only
  split
  · simp [h]
  · refine withGather_ok h (fun accs => ?_)
    split
    · simp [h]
    · split
      · simp [h]
      · split
        · simp [h]
        · split
          · simp [h]
          · next s' _ e =>
            have h' : MemOk s' := loadLine_ok h _ e
            split
            · simp [h']
            · split
              · simp [h']
              · exact reachStore_ok h' (fun _ _ h => finish_ok h _ _)

theorem execFcall_ok {f : Fields} : NextOk (execFcall f s) := by
  refine withGroups_ok h (issue_ok h (fun t _ x => ?_))
  dsimp only
  split
  · simp [h]
  · split
    · simp [h]
    · split
      · simp [h]
      · split
        · simp [h]
        · exact reachStore_ok h (fun _ _ h => finish_ok h _ _)

theorem execFret_ok {f : Fields} : NextOk (execFret f s) := by
  refine withGroups_ok h (issue_ok h (fun t _ x => ?_))
  split
  · simp [h]
  · simp [h]
  · split
    · simp [h]
    · exact reachStore_ok h (fun _ _ h => transfer_ok h _ _)

theorem execFsload_ok {f : Fields} : NextOk (execFsload f s) := by
  refine issue_ok h (fun t _ x => ?_)
  dsimp only
  split
  · simp [h]
  · split
    · simp [h]
    · exact reachStore_ok h (fun _ _ h => finish_ok h _ _)

theorem execFsdrop_ok {f : Fields} : NextOk (execFsdrop f s) := by
  refine issue_ok h (fun t _ x => ?_)
  dsimp only
  split
  · simp [h]
  · split
    · simp [h]
    · exact reachStore_ok h (fun _ _ h => finish_ok h _ _)

theorem execFsqry_ok {f : Fields} : NextOk (execFsqry f s) := by
  refine issue_ok h (fun t _ x => ?_)
  dsimp only
  split
  · simp [h]
  · exact reachStore_ok h (fun _ _ h => finish_ok h _ _)

theorem execFsQueuePerform_ok : NextOk (execFsQueuePerform s) := by
  unfold execFsQueuePerform
  dsimp only
  split
  · simp [h]
  · split
    · simp [h]
    · split
      · simp [h]
      · split
        · simp [h]
        · next e => simpa using performFs_ok h _ e

theorem execStagedRecordAppend_ok : NextOk (execStagedRecordAppend s) := by
  unfold execStagedRecordAppend
  dsimp only
  split
  · simp [h]
  · split
    · simp [h]
    · next a e =>
      have ha : MemOk a.s := Yields.foldl (P := fun a : AppendSt => MemOk a.s) (fun a r h => appendStaged_ok h) _ (.some h) _ e
      split
      · simp [h]
      · rw [nextOk_next]
        exact foldl_keeps (P := MemOk) (fun s p h => sealNow_ok h _ _) _ ha

theorem execMloop_ok {f : Fields} : NextOk (execMloop f s) := by
  refine matrixIssue_ok h (fun t x => withBlock_ok h (fun s b m h => ?_))
  split
  · simp [h]
  · exact startLoop_ok h

theorem execMgrp_ok {f : Fields} : NextOk (execMgrp f s) := by
  refine matrixIssue_ok h (fun t x => withBlock_ok h (fun s b m h => ?_))
  split
  · simp [h]
  · next s' _ e =>
    have h' : MemOk s' := readTable_ok h _ e
    dsimp only
    split
    · simp [h']
    · split
      · simp [h']
      · exact startLoop_ok h'

theorem execMatrixStep_ok : NextOk (execMatrixStep s) := by
  unfold execMatrixStep
  dsimp only
  split
  · simp [h]
  · split
    · split
      · simp [h]
      · split
        · simp [h]
        · split
          · simp [h]
          · split
            · simp [h]
            · next s₁ _ e =>
              have h₁ : MemOk s₁ := planesAt_ok h _ e
              split
              · simp [h]
              · next s₂ _ e =>
                have h₂ : MemOk s₂ := by
                  refine Yields.foldl (P := FstOk) (fun q g h => ?_) _ (.some h₁) _ e
                  exact .map (planesAt_ok h) (fun z h => h)
                split <;> simp [h₂]
    · simp [h]

theorem execMatrixQueuePerform_ok : NextOk (execMatrixQueuePerform s) := by
  unfold execMatrixQueuePerform
  dsimp only
  split
  · simp [h]
  · split
    · simp [h]
    · split
      · simp [h]
      · next e => simpa using performMat_ok h _ e

theorem execBlockPlacement_ok : NextOk (execBlockPlacement s) := by
  unfold execBlockPlacement
  dsimp only
  split
  · simp [h]
  · split
    · simp [h]
    · split
      · simp [h]
      · next e => simpa using Yields.foldl (fun s p h => startBlock_ok h) _ (.some h) _ e

theorem execPreemptionDecision_ok : NextOk (execPreemptionDecision s) := by
  unfold execPreemptionDecision
  dsimp only
  split
  · simp [h]
  · rw [nextOk_next]
    exact foldl_keeps (P := MemOk) (fun s v h => by simp [h]) _ h

theorem execDrainTimeout_ok : NextOk (execDrainTimeout s) := by
  unfold execDrainTimeout
  dsimp only
  (repeat' split) <;> simp [h]

theorem execBlockSave_ok : NextOk (execBlockSave s) := by
  unfold execBlockSave
  dsimp only
  split
  · simp [h]
  · split
    · simp [h]
    · next e =>
      rw [nextOk_next]
      exact foldl_keeps (P := MemOk) (fun s p h => by simp [h]) _ (Yields.foldl (fun s p h => saveBlock_ok h) _ (.some h) _ e)

theorem execBlockFlush_ok : NextOk (execBlockFlush s) := by
  unfold execBlockFlush
  dsimp only
  split
  · simp [h]
  · split
    · simp [h]
    · next e =>
      have h' := drainAll_ok h _ e
      simp only [nextOk_next, MemOk, rung2Done_mem, dropSlots_mem, State.setBlock_mem, State.modGrid_mem]
      exact foldl_keeps (P := MemOk) (fun s p h => by simp [h]) _ h'

theorem execBlockRestart_ok : NextOk (execBlockRestart s) := by
  unfold execBlockRestart
  dsimp only
  split
  · simp [h]
  · split
    · simp [h]
    · split
      · simp [h]
      · next e => simpa using bindSlots_ok h _ e

theorem execBlockResume_ok : NextOk (execBlockResume s) := by
  unfold execBlockResume
  dsimp only
  split
  · simp [h]
  · split
    · simp [h]
    · split
      · simp [h]
      · next e => simpa using Yields.foldl (fun s p h => resumeBlock_ok h) _ (.some h) _ e

theorem execWarpSlotRelease_ok : NextOk (execWarpSlotRelease s) := by
  unfold execWarpSlotRelease
  refine noteOut_ok ?_
  split
  · simp [h]
  · extract_lets p s₁ s₂
    have h₁ : MemOk s₁ := by
      unfold s₁
      split <;> simp [h]
    have h₂ : MemOk s₂ := by simpa [s₂] using h₁
    split
    · split
      · simp [h]
      · next e => simpa using retireBlock_ok h₂ _ e
    · simpa using h₂

theorem execPriorityAging_ok : NextOk (execPriorityAging s) := by
  unfold execPriorityAging
  dsimp only
  split <;> simp [h]

theorem execPendingTrapTaken_ok : NextOk (execPendingTrapTaken s) := by
  unfold execPendingTrapTaken
  cases e : takePending s s.ev.x with
  | none => simp [h]
  | some t => simpa using takePending_ok h _ e

theorem execQueueEnable_ok : NextOk (execQueueEnable s) := by simp [execQueueEnable, h]

theorem execQueueDisable_ok : NextOk (execQueueDisable s) := by simp [execQueueDisable, h]

theorem execQueueErrClear_ok : NextOk (execQueueErrClear s) := by simp [execQueueErrClear, h]

theorem execQtailWrite_ok : NextOk (execQtailWrite s) := by simp [execQtailWrite, h]

theorem execGridStart_ok : NextOk (execGridStart s) := by
  have hr := readHead_ok h s.ev.x
  have hf := firstStartable_ok hr
  unfold execGridStart
  dsimp only
  split
  · simp [h]
  · split
    · simpa using hr
    · split
      · rw [nextOk_next]
        cases e : refuse (readHead s s.ev.x).1 s.ev.x _ 0x0B with
        | none => exact hr
        | some t => exact refuse_ok hr _ e
      · split
        · simpa using hf
        · split
          · rw [nextOk_next]
            cases e : startHead (firstStartable (readHead s s.ev.x).1).1 _ with
            | none => exact hf
            | some t => exact startHead_ok hf _ e
          · simpa using hf

theorem execLaunchCompletion_ok : NextOk (execLaunchCompletion s) := by
  unfold execLaunchCompletion
  dsimp only
  split
  · simp [h]
  · split
    · simp [h]
    · next s' e =>
      have h' : MemOk s' := by
        refine Yields.bind (Yields.bind (P := MemOk) ?_ (fun _ h => writeLog_ok h)) (fun _ h => completeRecord_ok h) _ e
        exact .foldl (fun s c h => drainAll_ok h) _ (.some h)
      simp [h']

theorem execTicketGrant_ok : NextOk (execTicketGrant s) := by
  unfold execTicketGrant
  dsimp only
  split <;> simp [h]

theorem execTicketPhaseRelease_ok : NextOk (execTicketPhaseRelease s) := by
  unfold execTicketPhaseRelease
  dsimp only
  split
  · simp [h]
  · split
    · simp [h]
    · next e => simpa using (performStagedAll_ok h).bind (fun _ h => performAppends_ok h) _ e

theorem execReplayDecision_ok : NextOk (execReplayDecision s) := by
  unfold execReplayDecision
  dsimp only
  split
  · simp [h]
  · split
    · simp [h]
    · exact stepOp_ok h

theorem execPtsTick_ok : NextOk (execPtsTick s) := by
  unfold execPtsTick
  split <;> simp [h]

theorem execPtsBroadcast_ok : NextOk (execPtsBroadcast s) := by
  unfold execPtsBroadcast
  split <;> simp [h]

theorem execLeaseExpiry_ok : NextOk (execLeaseExpiry s) := by
  unfold execLeaseExpiry
  split <;> simp [h]

theorem execL1LeaseSweep_ok : NextOk (execL1LeaseSweep s) := by simp [execL1LeaseSweep, h]

theorem execL2LineSweep_ok : NextOk (execL2LineSweep s) := by
  unfold execL2LineSweep
  dsimp only
  split <;> simp [h]

theorem execExternalAgentWrite_ok : NextOk (execExternalAgentWrite s) := by
  unfold execExternalAgentWrite
  dsimp only
  split
  · rw [nextOk_next]
    cases e : agentWrite s s.ev.x s.ev.y (s.ev.nums.map (BitVec.ofNat 8)) with
    | none => exact h
    | some t => exact agentWrite_ok h _ e
  · split <;> simp [h]

theorem execResidencyScheduleLoad_ok : NextOk (execResidencyScheduleLoad s) := by
  unfold execResidencyScheduleLoad
  dsimp only
  split <;> simp [h]

theorem execResidencyEviction_ok : NextOk (execResidencyEviction s) := by
  unfold execResidencyEviction
  refine noteOut_ok ?_
  split
  · simp [h]
  · dsimp only
    split
    · simp [h]
    · next s' e =>
      have h' : MemOk s' := by
        refine Yields.foldl (fun s p h => ?_) _ (drainTo_ok h) _ e
        split
        · exact writeBackLine_ok h
        · exact .some h
      simp [h']

theorem execRds_ok : NextOk (execRds s) := by
  unfold execRds
  dsimp only
  split <;> simp [h]

theorem execRdx_ok : NextOk (execRdx s) := by
  unfold execRdx
  dsimp only
  (repeat' split) <;> simp [h]

theorem execUpg_ok : NextOk (execUpg s) := by
  unfold execUpg
  dsimp only
  (repeat' split) <;> simp [h]

theorem execWb_ok : NextOk (execWb s) := by simp [execWb, h]

theorem execFwds_ok : NextOk (execFwds s) := by simp [execFwds, h]

theorem execFwdx_ok : NextOk (execFwdx s) := by simp [execFwdx, h]

theorem execInvSnoop_ok : NextOk (execInvSnoop s) := by simp [execInvSnoop, h]

theorem execSnoopResponse_ok : NextOk (execSnoopResponse s) := by simp [execSnoopResponse, h]

theorem execWbAcknowledge_ok : NextOk (execWbAcknowledge s) := by
  unfold execWbAcknowledge
  (repeat' split) <;> simp [h]

theorem execMscEviction_ok : NextOk (execMscEviction s) := by
  unfold execMscEviction
  dsimp only
  split <;> simp [h]

theorem execSrw_ok {f : Fields} : NextOk (execSrw f s) := by
  refine issue_ok h (fun t _ x => ?_)
  extract_lets code v go
  have hg : NextOk go := by
    unfold go
    split <;> simp [h]
  split
  · exact supervised_ok h hg
  · exact hg

theorem execTlbinv_ok {f : Fields} : NextOk (execTlbinv f s) := by
  refine issue_ok h (fun t _ x => supervised_ok h ?_)
  dsimp only
  split
  · simp [h]
  · split
    · simp [h]
    · next s' e =>
      have h' : MemOk s' := Yields.foldl (fun s p h => drainAll_ok h) _ (.some h) _ e
      exact finish_ok (by simpa using h') _ _

theorem execExtentAdd_ok : NextOk (execExtentAdd s) := by
  unfold execExtentAdd
  split <;> simp [h]

theorem execExtentReleaseRequest_ok : NextOk (execExtentReleaseRequest s) := by
  unfold execExtentReleaseRequest
  (repeat' split) <;> simp [h]

theorem execExtentAccept_ok : NextOk (execExtentAccept s) := by simp [execExtentAccept, h]

theorem execExtentDecline_ok : NextOk (execExtentDecline s) := by simp [execExtentDecline, h]

theorem execExtentCloseComplete_ok : NextOk (execExtentCloseComplete s) := by
  unfold execExtentCloseComplete
  split
  · simp [h]
  · dsimp only
    split
    · simp [h]
    · simp only [nextOk_next, MemOk, modPlat_mem, modDie_mem]
      exact foldl_keeps (P := MemOk) (fun s l h => evictMsc_ok h _ _) _ h

theorem execForcedExtentRelease_ok : NextOk (execForcedExtentRelease s) := by
  unfold execForcedExtentRelease
  (repeat' split) <;> simp [h]

theorem execExtentDone_ok : NextOk (execExtentDone s) := by simp [execExtentDone, h]

theorem execAppendFrameAlloc_ok : NextOk (execAppendFrameAlloc s) := by
  unfold execAppendFrameAlloc
  dsimp only
  split <;> simp [h]

theorem execPageFree_ok : NextOk (execPageFree s) := by
  unfold execPageFree
  dsimp only
  split
  · simp [h]
  · simp [h]
  · split
    · simp [h]
    · split
      · simp [h]
      · next e =>
        have h' := agentWrite_ok h _ e
        rw [nextOk_next]
        dsimp only [MemOk]
        exact foldl_keeps (P := MemOk) (fun s d h => by simp [h]) _ h'

theorem execChannelService_ok : NextOk (execChannelService s) := by
  unfold execChannelService
  dsimp only
  (repeat' split) <;> simp [h]

theorem execRowActivationAlert_ok : NextOk (execRowActivationAlert s) := by
  unfold execRowActivationAlert
  dsimp only
  split <;> simp [h]

theorem execTelemetryCopy_ok : NextOk (execTelemetryCopy s) := by
  unfold execTelemetryCopy
  split <;> simp [h]

theorem execLaneRetrain_ok : NextOk (execLaneRetrain s) := by
  unfold execLaneRetrain
  dsimp only
  (repeat' split) <;> simp [h]

theorem execKeyLoad_ok : NextOk (execKeyLoad s) := by
  unfold execKeyLoad
  dsimp only
  (repeat' split) <;> simp [h]

theorem execKeyRevoke_ok : NextOk (execKeyRevoke s) := by
  unfold execKeyRevoke
  dsimp only
  split <;> simp [h]

theorem execKstatBusyClear_ok : NextOk (execKstatBusyClear s) := by
  unfold execKstatBusyClear
  split <;> simp [h]

theorem execBoot_ok : NextOk (execBoot s) := by
  unfold execBoot
  dsimp only
  (repeat' split) <;> simp [h]

theorem execRecoveryWrite_ok : NextOk (execRecoveryWrite s) := by simp [execRecoveryWrite, h]

theorem execFirmwareSwap_ok : NextOk (execFirmwareSwap s) := by simp [execFirmwareSwap, h]

theorem execSwapPoint_ok : NextOk (execSwapPoint s) := by
  unfold execSwapPoint
  split <;> simp [h]

theorem execAliveReport_ok : NextOk (execAliveReport s) := by
  unfold execAliveReport
  split <;> simp [h]

theorem execSwapAliveTimeout_ok : NextOk (execSwapAliveTimeout s) := by
  unfold execSwapAliveTimeout
  split <;> simp [h]

theorem execSwapCommit_ok : NextOk (execSwapCommit s) := by
  unfold execSwapCommit
  split <;> simp [h]

theorem execWatchdogPet_ok : NextOk (execWatchdogPet s) := by
  unfold execWatchdogPet
  split <;> simp [h]

theorem execWatchdogRung0_ok : NextOk (execWatchdogRung0 s) := by
  unfold execWatchdogRung0
  dsimp only
  split <;> simp [h]

theorem execWatchdogRung1_ok : NextOk (execWatchdogRung1 s) := by
  unfold execWatchdogRung1
  dsimp only
  split <;> simp [h]

theorem execWatchdogRung2_ok : NextOk (execWatchdogRung2 s) := by
  unfold execWatchdogRung2
  dsimp only
  split
  · simp [h]
  · simp only [nextOk_next, MemOk, endTrial_mem, modPlat_mem]
    exact foldl_keeps (P := MemOk) (fun s p h => by simp [h]) _ (by simp [h])

theorem execWatchdogRung3_ok : NextOk (execWatchdogRung3 s) := by
  unfold execWatchdogRung3
  dsimp only
  split
  · simp [h]
  · simp only [nextOk_next, MemOk, modPlat_mem, rungAtDie_mem, reportRung_mem]
    refine resetDie_ok ?_ _
    simp only [MemOk, loseBlocks_mem]
    exact foldl_keeps (P := MemOk) (fun s g h => by simp [h]) _ (by simp [h])

theorem execWatchdogRung4_ok : NextOk (execWatchdogRung4 s) := by
  unfold execWatchdogRung4
  dsimp only
  split
  · simp [h]
  · rw [nextOk_next]
    dsimp only [MemOk]
    exact foldl_keeps (P := MemOk) (fun s w h => by simp [h]) _ (by simp [h])

theorem execWatchdogRung5_ok : NextOk (execWatchdogRung5 s) := by
  unfold execWatchdogRung5
  split <;> simp [h]

theorem execGetMeasurements_ok : NextOk (execGetMeasurements s) := by simp [execGetMeasurements, h]

theorem execKeyExchange_ok : NextOk (execKeyExchange s) := by simp [execKeyExchange, h]

theorem execIdeKeyProgramming_ok : NextOk (execIdeKeyProgramming s) := by
  unfold execIdeKeyProgramming
  split <;> simp [h]

theorem execLinkUpMaskChange_ok : NextOk (execLinkUpMaskChange s) := by simp [execLinkUpMaskChange, h]

theorem execRegisterWrite_ok : NextOk (execRegisterWrite s) := by
  unfold execRegisterWrite
  split <;> simp [h]

theorem execQResultWrite_ok : NextOk (execQResultWrite s) := by
  unfold execQResultWrite
  dsimp only
  (repeat' split) <;> simp [h]

/-- Every arm of the dispatch keeps the form. -/
theorem exec_ok (i : Instr) : NextOk (exec i s) :=
  match i with
  | .clauseStart _ => execClauseStart_ok h
  | .nop _ _ | .sleep _ | .trap _ | .smad64 _ | .ssel _ | .srd _ | .rfa _ | .rlane _ | .sel _ | .fclass _ | .pack _ | .unpk _ | .voteBal _ | .matchLanes _ |
    .pand _ | .por _ | .pxor _ | .pnot _ | .pmov _ | .srr _ => by
    rw [exec]
    exact issue_ok h (fun _ _ _ => by simp [h])
  | .rep _ _ => execRep_ok h
  | .bra _ | .braAny _ | .braAll _ | .braNone _ => by
    rw [exec]
    exact branchOp_ok h
  | .brx _ | .rdv _ | .endloopP => by
    rw [exec]
    exact issue_ok h (fun _ _ _ => by dsimp only; (repeat' split) <;> simp [h])
  | .call _ => execCall_ok h
  | .callx _ => execCallx_ok h
  | .ifP _ | .loopP => by
    rw [exec]
    exact issue_ok h (fun _ _ _ => withPush_ok h (fun _ => finish_ok h _ _))
  | .breakP _ | .contP _ => by
    rw [exec]
    exact leaveOp_ok h
  | .exit _ => execExit_ok h
  | .yield _ => by
    rw [exec]
    exact issue_ok h (fun _ _ _ => by split <;> simp [h])
  | .fork _ | .seg _ | .pref _ | .capr _ | .phase _ => by
    rw [exec]
    exact issue_ok h (fun _ _ _ => by dsimp only; split <;> simp [h])
  | .bar _ _ => execBar_ok h
  | .bara _ _ => execBara_ok h
  | .barw _ _ => execBarw_ok h
  | .bare _ _ => execBare_ok h
  | .tail _ => execTail_ok h
  | .chkw _ | .ret | .elseP | .endifP => by
    rw [exec]
    exact issue_ok h (fun _ _ _ => by (repeat' split) <;> simp [h])
  | .smov _ | .sadd _ | .ssub _ | .smul _ | .smulhiI32 _ | .smulhiZ32 _ | .smad _ | .sshl _ | .sshr _ | .ssra _ | .sand _ | .sor _ | .sxor _ | .snot _ | .sminI32 _
    | .sminZ32 _ | .smaxI32 _ | .smaxZ32 _ | .spopc _ | .sclz _ | .sbfeZ32 _ | .sbfeI32 _ => by
    rw [exec]
    exact scalarOp_ok h
  | .sadd64 _ | .ssub64 _ => by
    rw [exec]
    exact scalarOp64_ok h
  | .scmpEq _ | .scmpNe _ | .scmpLtI32 _ | .scmpLeI32 _ | .scmpLtZ32 _ | .scmpLeZ32 _ => by
    rw [exec]
    exact scalarCmp_ok h
  | .sld _ => by
    rw [exec]
    exact issue_ok h (fun _ _ _ => withOne_ok h (fun _ => enqueueOp_ok h _ _ _ _))
  | .mov _ | .iadd _ | .isub _ | .imul _ | .imulhiI32 _ | .imulhiZ32 _ | .imad _ | .idivI32 _ | .idivZ32 _ | .iremI32 _ | .iremZ32 _ | .iminI32 _ | .iminZ32 _ |
    .imaxI32 _ | .imaxZ32 _ | .iabs _ | .shl _ | .shr _ | .sra _ | .and _ | .or _ | .xor _ | .not _ | .bfeZ32 _ | .bfeI32 _ | .bfi _ | .popc _ | .clz _ | .brev _ => by
    rw [exec]
    exact vecOp_ok h
  | .icmpEq _ | .icmpNe _ | .icmpLtI32 _ | .icmpLeI32 _ | .icmpLtZ32 _ | .icmpLeZ32 _ => by
    rw [exec]
    exact vecCmp_ok h
  | .fadd _ | .fsub _ | .fmul _ | .ffma _ | .fmin _ | .fmax _ => by
    rw [exec]
    exact floatOp_ok h
  | .fcmpEq _ | .fcmpLt _ | .fcmpLe _ | .fcmpUn _ | .fcmpNe _ => by
    rw [exec]
    exact floatCmp_ok h
  | .hadd2 _ | .hmul2 _ | .hfma2 _ | .hmin2 _ | .hmax2 _ | .badd2 _ | .bmul2 _ | .bfma2 _ => by
    rw [exec]
    exact packedOp_ok h
  | .cvtI32 _ | .cvtZ32 _ => by
    rw [exec]
    exact cvtIntOp_ok h
  | .cvtF32 _ | .cvtF16 _ | .cvtBf16 _ | .cvtNf _ => by
    rw [exec]
    exact cvtFloatOp_ok h
  | .shflIdx _ | .shflUp _ | .shflDown _ | .shflXor _ => by
    rw [exec]
    exact shuffle_ok h
  | .voteAny _ | .voteAll _ => by
    rw [exec]
    exact vote_ok h
  | .vRedAdd _ | .vRedMinI32 _ | .vRedMinZ32 _ | .vRedMaxI32 _ | .vRedMaxZ32 _ | .vRedAnd _ | .vRedOr _ | .vRedXor _ => by
    rw [exec]
    exact reduce_ok h
  | .vRedFadd _ => by
    rw [exec]
    exact segmentOp_ok h
  | .scanAdd _ | .scanMaxI32 _ | .scanMaxZ32 _ => by
    rw [exec]
    exact scan_ok h
  | .rcp _ | .rsq _ | .sqrt _ | .ex2 _ | .lg2 _ | .sinp _ | .cosp _ | .tanh _ | .rcpA _ | .rsqA _ => by
    rw [exec]
    exact qOp_ok h
  | .ex2A _ => by
    rw [exec]
    exact issueQ_ok h (fun _ _ => by dsimp only; (repeat' split) <;> simp [h])
  | .ld8I _ | .ld8Z _ | .ld16I _ | .ld16Z _ | .ld32 _ | .ld64 _ | .ld128 _ | .ldw32 _ | .ldw64 _ | .ldw128 _ => by
    rw [exec]
    exact loadOp_ok h
  | .st8 _ | .st16 _ | .st32 _ | .st64 _ | .st128 _ => by
    rw [exec]
    exact storeOp_ok h
  | .atomAdd _ | .atomMinI32 _ | .atomMinZ32 _ | .atomMaxI32 _ | .atomMaxZ32 _ | .atomAnd _ | .atomOr _ | .atomXor _ | .atomXchg _ | .atomCas _ | .atomFadd _ |
    .atomFmin _ | .atomFmax _ | .mRedAdd _ | .mRedMinI32 _ | .mRedMinZ32 _ | .mRedMaxI32 _ | .mRedMaxZ32 _ | .mRedAnd _ | .mRedOr _ | .mRedXor _ | .mRedFadd _ |
    .mRedFmin _ | .mRedFmax _ => by
    rw [exec]
    exact atomOp_ok h
  | .append _ => execAppend_ok h
  | .sealPage _ => execSealPage_ok h
  | .fence _ => by
    rw [exec]
    exact teamWide_ok h (fun _ _ _ => withGate_ok h (enqueueOp_ok h _ _ _ _))
  | .fenceq _ | .sflush _ | .hpush _ => by
    rw [exec]
    exact teamWide_ok h (fun _ _ _ => by simp [h])
  | .smap _ => execSmap_ok h
  | .sunmap _ => by
    rw [exec]
    exact teamWide_ok h (fun _ _ _ => by dsimp only; split <;> simp [h])
  | .hdecl _ => execHdecl_ok h
  | .cpG2s _ | .cpS2g _ | .cpG2g _ | .cpGath _ | .cpScat _ | .cpFill _ | .cpPlane _ | .cpTlr _ => by
    rw [exec]
    exact copyOp_ok h
  | .mzero _ => by
    rw [exec]
    exact matrixIssue_ok h (fun _ _ => by simp [h])
  | .mloop _ => execMloop_ok h
  | .mgrp _ => execMgrp_ok h
  | .mdrainS _ | .mdrainA _ => by
    rw [exec]
    exact matrixIssue_ok h (fun _ _ => by dsimp only; (repeat' split) <;> simp [h])
  | .msave _ | .mrest _ => by
    rw [exec]
    exact areaOp_ok h
  | .mstat _ => by
    rw [exec]
    exact matrixIssue_ok h (fun _ _ => by dsimp only; split <;> simp [h])
  | .fsdef _ => execFsdef_ok h
  | .fcall _ => execFcall_ok h
  | .fret _ => execFret_ok h
  | .fsload _ => execFsload_ok h
  | .fsdrop _ => execFsdrop_ok h
  | .fsqry _ => execFsqry_ok h
  | .srw _ => execSrw_ok h
  | .fmap _ => by
    rw [exec]
    exact issue_ok h (fun _ _ _ => supervised_ok h (by split <;> simp [h]))
  | .tlbinv _ => execTlbinv_ok h
  | .halt _ | .tret => by
    rw [exec]
    exact issue_ok h (fun _ _ _ => supervised_ok h (by simp [h]))
  | .qResultWrite => execQResultWrite_ok h
  | .appendHomeReservation => execAppendHomeReservation_ok h
  | .sealCompletion => execSealCompletion_ok h
  | .haloPush => execHaloPush_ok h
  | .copySegment => execCopySegment_ok h
  | .copyCompletion => execCopyCompletion_ok h
  | .matrixStep => execMatrixStep_ok h
  | .matrixQueuePerform => execMatrixQueuePerform_ok h
  | .fsQueuePerform => execFsQueuePerform_ok h
  | .variableLatencyCompletion => execVariableLatencyCompletion_ok h
  | .priorityAging => execPriorityAging_ok h
  | .sleepExpiry => execSleepExpiry_ok h
  | .barrierGenerationComplete => execBarrierGenerationComplete_ok h
  | .warpSlotRelease => execWarpSlotRelease_ok h
  | .watchValidation => execWatchValidation_ok h
  | .residencyScheduleLoad => execResidencyScheduleLoad_ok h
  | .residencyEviction => execResidencyEviction_ok h
  | .ptsTick => execPtsTick_ok h
  | .ptsBroadcast => execPtsBroadcast_ok h
  | .leaseExpiry => execLeaseExpiry_ok h
  | .l1LeaseSweep => execL1LeaseSweep_ok h
  | .l2LineSweep => execL2LineSweep_ok h
  | .externalAgentWrite => execExternalAgentWrite_ok h
  | .qtailWrite => execQtailWrite_ok h
  | .queueEnable => execQueueEnable_ok h
  | .queueDisable => execQueueDisable_ok h
  | .queueErrClear => execQueueErrClear_ok h
  | .registerWrite => execRegisterWrite_ok h
  | .gridStart => execGridStart_ok h
  | .launchCompletion => execLaunchCompletion_ok h
  | .blockPlacement => execBlockPlacement_ok h
  | .preemptionDecision => execPreemptionDecision_ok h
  | .drainTimeout => execDrainTimeout_ok h
  | .blockSave => execBlockSave_ok h
  | .blockFlush => execBlockFlush_ok h
  | .blockRestart => execBlockRestart_ok h
  | .blockResume => execBlockResume_ok h
  | .pendingTrapTaken => execPendingTrapTaken_ok h
  | .pageWalk => execPageWalk_ok h
  | .hostFaultAcknowledge => execHostFaultAcknowledge_ok h
  | .faultWaiterReplay => execFaultWaiterReplay_ok h
  | .stagedRecordAppend => execStagedRecordAppend_ok h
  | .ticketGrant => execTicketGrant_ok h
  | .ticketPhaseRelease => execTicketPhaseRelease_ok h
  | .replayDecision => execReplayDecision_ok h
  | .rds => execRds_ok h
  | .rdx => execRdx_ok h
  | .upg => execUpg_ok h
  | .wb => execWb_ok h
  | .fwds => execFwds_ok h
  | .fwdx => execFwdx_ok h
  | .invSnoop => execInvSnoop_ok h
  | .snoopResponse => execSnoopResponse_ok h
  | .wbAcknowledge => execWbAcknowledge_ok h
  | .sealRecall => execSealRecall_ok h
  | .mscEviction => execMscEviction_ok h
  | .extentAdd => execExtentAdd_ok h
  | .extentReleaseRequest => execExtentReleaseRequest_ok h
  | .forcedExtentRelease => execForcedExtentRelease_ok h
  | .extentAccept => execExtentAccept_ok h
  | .extentDecline => execExtentDecline_ok h
  | .extentCloseComplete => execExtentCloseComplete_ok h
  | .extentDone => execExtentDone_ok h
  | .appendFrameAlloc => execAppendFrameAlloc_ok h
  | .pageFree => execPageFree_ok h
  | .channelService => execChannelService_ok h
  | .telemetryCopy => execTelemetryCopy_ok h
  | .rowActivationAlert => execRowActivationAlert_ok h
  | .laneRetrain => execLaneRetrain_ok h
  | .keyLoad => execKeyLoad_ok h
  | .keyRevoke => execKeyRevoke_ok h
  | .boot => execBoot_ok h
  | .recoveryWrite => execRecoveryWrite_ok h
  | .firmwareSwap => execFirmwareSwap_ok h
  | .swapPoint => execSwapPoint_ok h
  | .aliveReport => execAliveReport_ok h
  | .swapAliveTimeout => execSwapAliveTimeout_ok h
  | .swapCommit => execSwapCommit_ok h
  | .watchdogPet => execWatchdogPet_ok h
  | .watchdogRung0 => execWatchdogRung0_ok h
  | .watchdogRung1 => execWatchdogRung1_ok h
  | .watchdogRung2 => execWatchdogRung2_ok h
  | .watchdogRung3 => execWatchdogRung3_ok h
  | .watchdogRung4 => execWatchdogRung4_ok h
  | .watchdogRung5 => execWatchdogRung5_ok h
  | .getMeasurements => execGetMeasurements_ok h
  | .keyExchange => execKeyExchange_ok h
  | .linkUpMaskChange => execLinkUpMaskChange_ok h
  | .kstatBusyClear => execKstatBusyClear_ok h
  | .ideKeyProgramming => execIdeKeyProgramming_ok h

end

/-! ### The form is kept: turns, choices, steps -/

theorem tickOut_ok {o : Out} (s : State) (ho : NextOk o) : NextOk (tickOut s o) := by
  unfold tickOut
  split
  · simpa using tick_ok ((nextOk_next _).1 ho)
  · exact ho

section
variable {s : State} (h : MemOk s)
include h

theorem nextOk_of_memOk : NextOk (.next s) := (nextOk_next s).2 h

theorem runHeader_ok : NextOk (runHeader s) := withFetch_ok h (fun _ => exec_ok h _)

theorem runWords_ok (c : Clause) : NextOk (runWords s c) := by
  refine withFetch_ok h (fun ws => ?_)
  split
  · simp [h]
  · split <;> exact exec_ok h _

theorem runTeam_ok : NextOk (runTeam s) := by
  unfold runTeam
  split
  · exact runHeader_ok h
  · exact runWords_ok h _

theorem runIssue_ok (tid : Nat) : NextOk (runIssue s tid) := by
  unfold runIssue
  split
  · next e =>
    have ht := runTeam_ok h _ e
    split <;> simp [ht]
  · exact runTeam_ok h

/-- A team's turn: it stands still, stops, takes a pending trap, or issues. -/
theorem issueTeam_ok (tid : Nat) : NextOk (issueTeam s tid) := by
  have hc : MemOk { s with cur := tid, curStream := none } := h
  unfold issueTeam
  dsimp only
  split
  · exact nextOk_of_memOk hc
  split
  · simp [h]
  split
  · exact nextOk_of_memOk hc
  split
  · next e => exact nextOk_of_memOk (takePending_ok hc _ e)
  split
  · exact runIssue_ok hc tid
  split
  · split
    · next e => exact nextOk_of_memOk (takePending_ok (by simpa using h) _ e)
    · exact runIssue_ok (by simpa using h) tid
  · exact nextOk_of_memOk hc

theorem issueStream_ok (tid : Nat) (e : Eng) : NextOk (issueStream s tid e) := by
  have hc : MemOk { s with cur := tid, curStream := some e } := h
  unfold issueStream
  dsimp only
  split
  · exact nextOk_of_memOk hc
  split
  · exact nextOk_of_memOk hc
  split
  · exact nextOk_of_memOk hc
  split
  · next eq =>
    have ht := runTeam_ok (by simpa using h) _ eq
    simp [ht]
  · exact runTeam_ok (by simpa using h)

theorem runChoice_ok (k : Choice) : NextOk (runChoice s k) := by
  have hs := nextOk_of_memOk h
  cases k with
  | issue tid =>
    dsimp only [runChoice]
    split
    · exact issueTeam_ok h tid
    · exact hs
  | both p q =>
    dsimp only [runChoice]
    split
    · split
      · next e => exact issueTeam_ok (issueTeam_ok h p _ e) q
      · exact issueTeam_ok h p
    · exact hs
  | stall tid n => simp [runChoice, h]
  | stream tid e => exact issueStream_ok h tid e
  | event i a =>
    dsimp only [runChoice]
    split
    · exact exec_ok (s := { s with ev := a }) h i
    · exact hs
  | csr cp mode num w => simp [runChoice, h]
  | elapse n => exact nextOk_of_memOk (s := { s with cc := s.cc + n }) h

theorem step_ok : NextOk (step s) := by
  have hn : MemOk (nextChoice s).2 := by
    unfold nextChoice
    split <;> exact h
  exact tickOut_ok s (runChoice_ok hn _)

end

/-- Settles O20: the memory is written by `memWrite` and `zeroFrame` alone, which keep its canonical form, so what is chosen keeps it (`runChoice_ok`), and so
does the cycle after it (`tick_ok`). -/
theorem stepKeepsMemoryForm : Obligations.StepKeepsMemoryForm := by
  intro s t hs e
  rw [inv_iff_memOk] at *
  exact step_ok hs t e

end Sys2Proof.Machine
end

section
/-! Launch queues and host registers: what a write does. -/

namespace Sys2Proof.Machine

open Sys2Proof Sys2Proof.Claims

/-! ### Queue commands (R249, R250) -/

theorem enableOk_iff (k : Queue) : enableOk k = true ↔ enableFits k := by
  simp [enableOk, enableFits, and_assoc]

/-- Setting EN in a word leaves QDIES and the bit that clears ERR. -/
theorem qctl_setEn (w : Word) : (w ||| 1).extractLsb' 8 8 = w.extractLsb' 8 8 ∧ (w ||| 1).getLsbD 2 = w.getLsbD 2 ∧ (w ||| 1).getLsbD 0 = true := by
  refine ⟨?_, by simp, by simp⟩
  ext i hi
  simp

/-- So does clearing it. -/
theorem qctl_clearEn (w : Word) :
    (w &&& ~~~1).extractLsb' 8 8 = w.extractLsb' 8 8 ∧ (w &&& ~~~1).getLsbD 2 = w.getLsbD 2 ∧ (w &&& ~~~1).getLsbD 0 = false := by
  refine ⟨?_, by simp, by simp⟩
  have hm : (~~~1 : Word).extractLsb' 8 8 = BitVec.allOnes 8 := by decide
  rw [BitVec.extractLsb'_and, hm, BitVec.and_allOnes]

section
variable {s : State} {q : Nat} {w : Word}

theorem writeQtail_ignored (h : (s.queueAt q).en = false ∨ w = (s.queueAt q).tail) : writeQtail s q w = s :=
  if_pos (by simpa using h)

/-- The write of QTAIL that counts advances it by less than 2^31 and leaves no more records pending than the ring holds. -/
theorem writeQtail_enabled (hen : (s.queueAt q).en = true) (hne : w ≠ (s.queueAt q).tail) :
    writeQtail s q w =
      if 2 ^ 31 ≤ (w - (s.queueAt q).tail).toNat ∨ 2 ^ (s.queueAt q).size.toNat < (w - (s.queueAt q).head).toNat then haltQueue s q
      else s.setQueue q { s.queueAt q with tail := w } := by
  simp [writeQtail, hen, hne, -BitVec.toNat_sub]

theorem writeQctl_beforeBoot (hb : s.plat.bootPhase < 6) (hw : w.getLsbD 0 = true) :
    writeQctl s q w = s.setQueue q { s.queueAt q with dies := w.extractLsb' 8 8, err := true } := by
  simp only [writeQctl, hb, hw, if_true]

theorem writeQctl_enable (hb : 6 ≤ s.plat.bootPhase) (hw : w.getLsbD 0 = true) (hen : (s.queueAt q).en = false)
    (hi : queueIdle (s.queueAt q) = true) (e : Queue)
    (he : e = { s.queueAt q with dies := w.extractLsb' 8 8, err := (s.queueAt q).err && !w.getLsbD 2, en := true, halt := false, head := 0, tail := 0, startableAt := none }) :
    writeQctl s q w = s.setQueue q (if enableOk e then e else { e with halt := true, err := true }) := by
  subst he
  simp [writeQctl, hb.not_gt, hw, hen, hi]

theorem writeQctl_disable (hw : w.getLsbD 0 = false) :
    writeQctl s q w = s.setQueue q { s.queueAt q with
      dies := w.extractLsb' 8 8, err := (s.queueAt q).err && !w.getLsbD 2, en := false, startableAt := if (s.queueAt q).children = [] then none else (s.queueAt q).startableAt } := by
  simp only [writeQctl, hw, Bool.false_eq_true, if_false]

end

theorem queueCommands : QueueCommands := by
  rintro s k w rfl rfl
  obtain ⟨hd, he, hz⟩ := qctl_setEn s.ev.w
  obtain ⟨hd', he', hz'⟩ := qctl_clearEn s.ev.w
  refine ⟨fun hen hne ht hs => ?_, fun hen hne hbad => ?_, fun h => ?_, fun hb hen hr hc => ?_, fun hb => ?_, ?_, rfl⟩
  · rw [exec, execQtailWrite, writeQtail_enabled hen hne, if_neg (by omega)]
  · rw [exec, execQtailWrite, writeQtail_enabled hen hne, if_pos hbad, haltQueue]
  · rw [exec, execQtailWrite, writeQtail_ignored h]
  · have hi : queueIdle (s.queueAt s.ev.x) = true := by simp [queueIdle, hen, hr, hc]
    refine ⟨_, rfl, fun hf => ?_, fun hf => ?_⟩ <;> rw [exec, execQueueEnable, writeQctl_enable hb hz hen hi _ rfl, hd, he]
    · rw [if_pos ((enableOk_iff _).2 hf)]
    · rw [if_neg (mt (enableOk_iff _).1 hf)]
  · rw [exec, execQueueEnable, writeQctl_beforeBoot hb hz, hd]
  · rw [exec, execQueueDisable, writeQctl_disable hz', hd', he']

/-! ### Register writes (R4, R248) -/

section
variable (s : State) (v : Word)

/-- A queue's registers take 64 bytes of the page, from 0x1000 on. -/
theorem writePage_queue {q r : Nat} (hq : q < 64) (hr : r < 64) : writePage s (0x1000 + 64 * q + r) v = writeQueue s q r v := by
  have hin : 0x1000 ≤ 0x1000 + 64 * q + r ∧ 0x1000 + 64 * q + r < 0x2000 := by omega
  have hdiv : (0x1000 + 64 * q + r - 0x1000) / 64 = q := by omega
  have hmod : (0x1000 + 64 * q + r) % 64 = r := by omega
  unfold writePage
  rw [if_pos (by simpa using hin), hdiv, hmod]

theorem queueRegs_offset : ∀ row ∈ queueRegs, row.1 < 64 ∧ row.1 % 4 = 0 := by decide

theorem pageRegs_offset : ∀ row ∈ pageRegs, row.1 % 4 = 0 := by decide

theorem writeQueue_of_mem (q : Nat) :
    ∀ row ∈ queueRegs, writeQueue s q row.1 v = if (s.queueAt q).en then s else s.setQueue q (row.2 (s.queueAt q) v) := by
  simp [queueRegs, writeQueue, putHalf]

theorem writePage_of_mem : ∀ row ∈ pageRegs, writePage s row.1 v = s.setPlat (row.2 s.plat v) := by
  simp [pageRegs, writePage, putHalf, modPlat]

end

theorem execRegisterWrite_aligned {s : State} (h : s.ev.x % 4 = 0) : execRegisterWrite s = .next (writePage s s.ev.x s.ev.w) := if_pos h

theorem registerWrites : RegisterWrites := by
  refine ⟨fun row hrow s q hq hx => ?_, fun row hrow s hx => ?_, fun s h => if_neg h⟩
  · obtain ⟨hlt, hal⟩ := queueRegs_offset row hrow
    have hw : exec .registerWrite s = .next (if (s.queueAt q).en then s else s.setQueue q (row.2 (s.queueAt q) s.ev.w)) := by
      rw [exec, execRegisterWrite_aligned (by omega), hx, writePage_queue _ _ hq hlt, writeQueue_of_mem _ _ _ row hrow]
    exact ⟨fun hen => by simp [hw, hen], fun hen => by simp [hw, hen]⟩
  · have hal := pageRegs_offset row hrow
    rw [exec, execRegisterWrite_aligned (hx ▸ hal), hx, writePage_of_mem _ _ row hrow]

/-- Settles O51. -/
theorem queueCommandsAndRegisters : Obligations.QueueCommandsAndRegisters := ⟨queueCommands, registerWrites⟩

end Sys2Proof.Machine
end

section
/-! The reset state. -/

namespace Sys2Proof.Machine

open Sys2Proof

/-- Settles O19: the reset state's tables are empty, so each entry reads as its reset value. -/
theorem resetState : Obligations.ResetState := by
  have hq : queueIdle Queue.reset = true := by decide
  have hk : KeySlot.reset.loaded = false ∧ KeySlot.reset.gen ≠ 0 := by decide
  exact ⟨fun _ => ⟨rfl, rfl, rfl, rfl, rfl, rfl, rfl, rfl, rfl, rfl, rfl, rfl, rfl, rfl, hq⟩, fun _ => ⟨rfl, rfl, rfl⟩, fun _ => hk, rfl, rfl, rfl, rfl⟩

end Sys2Proof.Machine
end

section
/-! Traps that no handler takes (R33, R272, R276). -/

namespace Sys2Proof.Machine

open Sys2Proof Sys2Proof.Safety

theorem kPut_kPut_same {α : Type} (k : Nat) (v w : α) (m : KMap α) : kPut k v (kPut k w m) = kPut k v m := by
  induction m with
  | nil => simp [kPut]
  | cons p r ih =>
    obtain ⟨j, x⟩ := p
    by_cases h : k < j
    · simp [kPut, h]
    · by_cases e : k = j
      · simp [kPut, e]
      · simp [kPut, h, e, ih]

/-! ### What ending a team by fault leaves -/

section
variable (s : State)

theorem modDie_modDie (d : Nat) (f g : Die → Die) : (s.modDie d f).modDie d g = s.modDie d (fun x => g (f x)) := by
  simp only [State.modDie, State.dieAt_setDie_same]
  simp only [State.setDie, kPut_kPut_same]

/-- The end of a service changes the die's fault stage and the waits of copies alone. -/
theorem endService_eq (d : Nat) (ended : Merge → Bool) : ∃ st ps, endService s d ended = { s.modDie d (fun x => { x with stage := st }) with parts := ps } := by
  unfold endService
  dsimp only
  split <;> exact ⟨_, _, rfl⟩

theorem leaveStage_eq (d tid : Nat) : ∃ st ps, leaveStage s d tid = { s.modDie d (fun x => { x with stage := st }) with parts := ps } := by
  obtain ⟨st, ps, h⟩ := endService_eq (s.modDie d (fun x => { x with stage := x.stage.map (fun m => { m with waiters := m.waiters.filter (fun k => k != tid) }) })) d
    (fun m => m.claimant = tid && m.ft)
  rw [modDie_modDie] at h
  exact ⟨st, ps, h⟩

theorem leaveStage_dieAt (d tid k : Nat) : ∃ st, (leaveStage s d tid).dieAt k = { s.dieAt k with stage := st } := by
  obtain ⟨st, ps, h⟩ := leaveStage_eq s d tid
  have hd : (leaveStage s d tid).dieAt k = (s.modDie d (fun x => { x with stage := st })).dieAt k := by rw [h]; rfl
  by_cases e : k = d
  · subst e; exact ⟨st, by rw [hd, State.modDie, State.dieAt_setDie_same]⟩
  · exact ⟨(s.dieAt k).stage, by rw [hd, State.modDie, State.dieAt_setDie_other _ _ _ _ e]⟩

theorem leaveStage_grids (d tid : Nat) : (leaveStage s d tid).grids = s.grids := by
  obtain ⟨_, _, h⟩ := leaveStage_eq s d tid
  rw [h]; rfl

theorem leaveStage_teams (d tid : Nat) : (leaveStage s d tid).teams = s.teams := by
  obtain ⟨_, _, h⟩ := leaveStage_eq s d tid
  rw [h]; rfl

/-- Results written late change register space and completion flags alone (R170). -/
theorem foldl_writeSfu_eq (l : List SfuOp) (t : Team) : ∃ r f, l.foldl writeSfu t = { t with regs := r, flags := f } := by
  induction l generalizing t with
  | nil => exact ⟨_, _, rfl⟩
  | cons o l ih =>
    obtain ⟨r, f, h⟩ := ih (writeSfu t o)
    refine ⟨r, f, ?_⟩
    rw [List.foldl_cons, h]
    unfold writeSfu Team.flagDown
    dsimp only
    split <;> split <;> rfl

theorem drainSfu_team (tid : Nat) : ∃ r f, (drainSfu s tid).teamAt tid = { s.teamAt tid with regs := r, flags := f } := by
  obtain ⟨r, f, h⟩ := foldl_writeSfu_eq (((s.partAt (s.teamAt tid).partNo).sfuQ).filter (fun o => o.tid = tid)) (s.teamAt tid)
  exact ⟨r, f, by rw [drainSfu]; simp [h]⟩

end

section
variable (s : State) (tid status : Nat)

/-- The team has no lanes left, and keeps its place and its trap registers. -/
theorem endTeamBad_team : ∃ r f, (endTeamBad s tid status).teamAt tid = { s.teamAt tid with
    regs := r, flags := f, status := .ended, live := 0, mask := 0, wait := .none, matQ := [], streamA := none, streamC := none, pendStream := [], pendCopy := none, pendMat := []
    clause := none, inRep := none } := by
  unfold endTeamBad
  extract_lets t g d entry s1 s2 s3 s4 s5
  have h4 : s4.teamAt tid = s.teamAt tid := by
    have h1 : s1.teams = s.teams := rfl
    have h2 : s2.teams = s1.teams := by unfold s2; split <;> rfl
    have h3 : s3.teams = s2.teams := rfl
    simp only [State.teamAt, s4, leaveStage_teams, h3, h2, h1]
  obtain ⟨r, f, h⟩ := drainSfu_team s4 tid
  refine ⟨r, f, ?_⟩
  simp [State.modTeam, State.modCore, s5, h, h4, t]

theorem endTeamBad_grids : (endTeamBad s tid status).grids = kPut (s.teamAt tid).grid { s.gridAt (s.teamAt tid).grid with
    failed := true, status := worseStatus (s.gridAt (s.teamAt tid).grid).status status, tails := [], staged := [] } s.grids := by
  have hd : ∀ (u : State), (drainSfu u tid).grids = u.grids := fun _ => rfl
  simp only [endTeamBad, State.modTeam, State.modCore, State.setTeamAt_grids, State.setCore_grids, hd, leaveStage_grids, State.modGrid]
  split <;> rfl

theorem leaveStage_log (d k : Nat) : ((leaveStage s d tid).dieAt k).log = (s.dieAt k).log := by
  obtain ⟨st, h⟩ := leaveStage_dieAt s d tid k
  rw [h]

/-- The die's error log gains the record of the fault. -/
theorem endTeamBad_log (h : status ≠ 2) :
    .teamFault (s.teamAt tid).grid (s.blockAt (s.teamAt tid).block).idx (s.teamAt tid).index (s.teamAt tid).trap.tcause (s.teamAt tid).trap.tpc ∈
      ((endTeamBad s tid status).dieAt (dieOf (s.teamAt tid).core)).log := by
  have hd : ∀ (u : State) (d : Nat), (drainSfu u tid).dieAt d = u.dieAt d := fun _ _ => rfl
  simp only [endTeamBad, State.modTeam, State.modCore, State.dieAt_setTeamAt, State.dieAt_setCore, hd, leaveStage_log, State.modGrid, State.dieAt_setGrid, if_neg h]
  split <;> simp [logAt, State.modDie]

end

theorem endTeamBad_cur (s : State) (tid status : Nat) : (endTeamBad s tid status).cur = s.cur := by
  have hd : ∀ (u : State), (drainSfu u tid).cur = u.cur := fun _ => rfl
  have hl : ∀ (u : State) d, (leaveStage u d tid).cur = u.cur := fun u d => by
    obtain ⟨_, _, h⟩ := leaveStage_eq u d tid
    rw [h]; rfl
  simp only [endTeamBad, State.modTeam, State.modCore, State.setTeamAt_cur, State.setCore_cur, hd, hl, State.modGrid]
  split <;> rfl

/-- R272, R276: without a handler the trap is recorded in the team's registers, and the team ends. -/
theorem enterTrap_unhandled (s : State) (tid : Nat) (tr : Trap) (lanes : LaneSet) (tpc : DWord) (strm : Bool) (t : State) (code : Word)
    (h : (s.teamAt tid).trap.sup = true ∨ (s.teamAt tid).trap.tvec = 0) (ht : enterTrap s tid tr lanes tpc strm = t) (hc : code = BitVec.ofNat 32 (tr.cause + (if strm then 2 ^ 31 else 0))) :
    sameMem s t ∧ t.cur = s.cur ∧ (t.teamAt tid).status = .ended ∧ (t.teamAt tid).live = 0 ∧ (t.teamAt tid).trap.tcause = code ∧ (t.teamAt tid).trap.tpc = tpc ∧
      (t.gridAt (s.teamAt tid).grid).failed = true ∧ (t.gridAt (s.teamAt tid).grid).tails = [] ∧
      .teamFault (s.teamAt tid).grid (s.blockAt (s.teamAt tid).block).idx (s.teamAt tid).index code tpc ∈ (t.dieAt (dieOf (s.teamAt tid).core)).log := by
  obtain ⟨u, hu⟩ : ∃ u : Team, u = { s.teamAt tid with trap := { (s.teamAt tid).trap with tcause := code, tpc := tpc } } := ⟨_, rfl⟩
  have he : enterTrap s tid tr lanes tpc strm = endTeamBad (s.setTeamAt tid u) tid 1 := by
    subst hc hu
    exact if_pos (by simpa using h)
  rw [he] at ht
  subst ht
  obtain ⟨r, f, hteam⟩ := endTeamBad_team (s.setTeamAt tid u) tid 1
  have hgrids := endTeamBad_grids (s.setTeamAt tid u) tid 1
  have hlog := endTeamBad_log (s.setTeamAt tid u) tid 1 (by decide)
  simp only [State.teamAt_setTeamAt_same, State.blockAt_setTeamAt] at hteam hgrids hlog
  refine ⟨fun a => by rw [endTeamBad_mem, State.setTeamAt_mem], by rw [endTeamBad_cur, State.setTeamAt_cur], ?_⟩
  rw [hteam, State.gridAt, hgrids]
  subst hu
  simpa [kGetD] using hlog

theorem trapLanes_outside_stream {s : State} (h : s.curStream = none) (tr : Trap) (lanes : LaneSet) :
    trapLanes s tr lanes = .next (enterTrap s s.cur tr lanes s.team.pc false) := by
  simp only [trapLanes, h]

/-- Settles O4: a trap of the instruction at hand, and a pending one, are both entered by `enterTrap`. -/
theorem trapWithoutHandlerEndsTeam : Obligations.TrapWithoutHandlerEndsTeam := by
  refine ⟨fun s tr lanes hst h => ⟨_, trapLanes_outside_stream hst tr lanes, ?_⟩, fun s tid tr lanes tpc strm h => ⟨_, rfl, ?_⟩⟩
  · obtain ⟨hmem, hcur, hrest⟩ := enterTrap_unhandled s s.cur tr lanes s.team.pc false _ (BitVec.ofNat 32 tr.cause) h rfl rfl
    exact ⟨hmem, by rw [State.team, hcur]; exact hrest⟩
  · obtain ⟨hmem, -, hstatus, hlive, -, htpc, hfailed, htails, -⟩ := enterTrap_unhandled s tid tr lanes tpc strm _ _ h rfl rfl
    exact ⟨hmem, hstatus, hlive, htpc, hfailed, htails⟩

end Sys2Proof.Machine
end

section
/-! Key commands, attestation and links. -/

namespace Sys2Proof.Machine

open Sys2Proof Sys2Proof.Safety Sys2Proof.Claims

@[simp] theorem kGetD_kPut_same {α : Type} (k : Nat) (d v : α) (m : KMap α) : kGetD k d (kPut k v m) = v := by simp [kGetD]

theorem kGetD_kPut_other {α : Type} (k j : Nat) (d v : α) (m : KMap α) (h : j ≠ k) : kGetD j d (kPut k v m) = kGetD j d m := by
  simp [kGetD, kGet_kPut_other _ _ _ _ h]

theorem bumpGen_eq (g : Nat) : bumpGen g = begun g := by
  unfold bumpGen begun
  split <;> omega

/-! ### Key commands (R387) -/

theorem keyCommand_fields (w : Word) : (w.extractLsb' 0 13).toNat = w.toNat % 2 ^ 13 ∧ (w.extractLsb' 30 2).toNat = w.toNat / 2 ^ 30 := by
  have := w.isLt
  simp only [BitVec.extractLsb'_toNat, Nat.shiftRight_eq_div_pow]
  omega

/-- A blob with a nonzero reserved byte is rejected. -/
theorem openBlob_reserved (p : Plat) (key : BitVec 256) {i : Nat} (hi : i < 4) (h : kGetD (92 + i) 0 p.kblob ≠ 0) : openBlob p key = none := by
  have hne : (kGetD (92 + i) 0 p.kblob).toNat ≠ 0 := fun e => h (BitVec.eq_of_toNat_eq e)
  have hsum : bytesNat (blobAt p 92 4) ≠ 0 := by
    have hlist : blobAt p 92 4 = [(kGetD 92 0 p.kblob).toNat, (kGetD 93 0 p.kblob).toNat, (kGetD 94 0 p.kblob).toNat, (kGetD 95 0 p.kblob).toNat] := rfl
    rw [hlist]
    interval_cases i <;> simp only [Nat.reduceAdd, bytesNat, List.foldr] at hne ⊢ <;> omega
  exact if_pos hsum

theorem keyCommands : KeyCommands := by
  rintro s slot k gen hslot rfl rfl hb
  obtain ⟨hfield, hop⟩ := keyCommand_fields s.plat.vkeyreq
  rw [← hslot] at hfield
  refine ⟨fun h1 => ?_, fun i key hi h => openBlob_reserved _ _ hi h, fun h2 => ?_, fun h0 => ?_, fun h0 => ?_⟩
  · have hop := hop.trans h1
    refine ⟨fun hl => ?_, fun hl hbad => ?_, fun key b hl hs ho => ?_⟩
    · simp [exec, execKeyLoad, hb, hop, hfield, hl, keyDone]
    · simp [exec, execKeyLoad, hb, hop, hfield, hl, keyDone, hbad]
    · simp [exec, execKeyLoad, hb, hop, hfield, hl, keyDone, hs, ho, nextGen]
  · simp [exec, execKeyRevoke, hb, hop.trans h2, hfield, keyDone, nextGen]
  · simp [exec, execKstatBusyClear, hb, h0, modPlat]
  · exact if_neg (by simpa using fun _ => h0)

/-! ### Attestation and links (R14, R15, R394) -/

/-- The indices that name content of the device: the digest of each. -/
theorem measured_of_content (p : Plat) {n : Nat} {d : BitVec 256}
    (h : (n, d) ∈ [(2, p.shell.digest), (4, p.running.digest)] ∨ (n = 6 ∧ ((∃ i, p.staged = some i ∧ d = i.digest) ∨ (p.staged = none ∧ d = 0))) ∨
      (n = 3 ∧ d = Config.manifestDigest p.manifest.enable p.manifest.mscUnits p.manifest.trims (p.repairs.map (fun r => (r.stack, r.lane, r.spare))))) :
    measured p n = some d := by
  rcases h with h | ⟨rfl, ⟨i, hi, rfl⟩ | ⟨hi, rfl⟩⟩ | ⟨rfl, rfl⟩
  · rcases List.mem_pair.1 h with h | h <;> cases h <;> rfl
  · simp [measured, hi]
  · simp [measured, hi]
  · rfl

theorem measured_outside (p : Plat) {n : Nat} (h : n = 0 ∨ 6 < n) : measured p n = none := by
  rcases h with rfl | h
  · rfl
  · unfold measured
    split
    case h_5 => exact if_neg (by simp; omega)
    all_goals omega

theorem execGetMeasurements_eq (s : State) : execGetMeasurements s = .next (s.setPlat { s.plat with
    spdmResp := (measured s.plat s.ev.x).bind (fun d => s.plat.cert.map (fun c => (s.ev.x, d, Config.responseSignature c.2 s.ev.x d))) }) := rfl

theorem attestationAndLinks : AttestationAndLinks := by
  refine fun s => ⟨fun n d hd hx => ?_, fun hx => ?_, rfl, fun h => ?_, fun k h => ?_, ?_⟩
  · have hm := measured_of_content s.plat hd
    subst hx
    refine ⟨fun root leaf hc => ?_, fun hc => ?_⟩ <;> rw [exec, execGetMeasurements_eq, hm, hc] <;> rfl
  · rw [exec, execGetMeasurements_eq, measured_outside _ hx]
    rfl
  · simp [exec, execIdeKeyProgramming, h]
  · simp [exec, execIdeKeyProgramming, h, modPlat]
  · simp only [exec, execLinkUpMaskChange, bumpGen_eq, modPlat]

/-- Settles O59: key commands, then measurements, sessions and links. -/
theorem keysAttestationLinks : Obligations.KeysAttestationLinks := ⟨keyCommands, attestationAndLinks⟩

end Sys2Proof.Machine
end

section
/-! Boot and live firmware swaps. -/

namespace Sys2Proof.Machine

open Sys2Proof Sys2Proof.Safety Sys2Proof.Claims

/-! ### Tables -/

theorem kGet_map {α β : Type} (f : α → β) (m : KMap α) (k : Nat) : kGet k (m.map (fun p => (p.1, f p.2))) = (kGet k m).map f := by
  induction m with
  | nil => rfl
  | cons p r ih =>
    obtain ⟨j, v⟩ := p
    by_cases h : k = j <;> simp [kGet, h, ih]

/-- A table made of a function of the keys below a bound. -/
theorem kGet_rangeMap {α : Type} (f : Nat → α) (n k : Nat) : kGet k ((List.range n).map (fun i => (i, f i))) = if k < n then some (f k) else none := by
  induction n with
  | zero => rfl
  | succ n ih =>
    rw [List.range_succ, List.map_append, kGet_append, ih]
    by_cases h : k < n
    · simp [h, Nat.lt_succ_of_lt h]
    · by_cases e : k = n
      · simp [e, kGet]
      · have : ¬ k < n + 1 := by omega
        simp [h, this, e, kGet]

/-- Puts at the keys below a bound, each of a function of what stood there. -/
theorem kGetD_foldl_kPut {α : Type} (d : α) (g : Nat → α → α) (n : Nat) (m : KMap α) (k : Nat) :
    kGetD k d ((List.range n).foldl (fun a c => kPut c (g c (kGetD c d a)) a) m) = if k < n then g k (kGetD k d m) else kGetD k d m := by
  induction n with
  | zero => rfl
  | succ n ih =>
    rw [List.range_succ, List.foldl_append, List.foldl_cons, List.foldl_nil]
    by_cases e : k = n
    · subst e; simp [ih]
    · rw [kGetD_kPut_other _ _ _ _ _ e, ih]
      by_cases h : k < n
      · simp [h, Nat.lt_succ_of_lt h]
      · have : ¬ k < n + 1 := by omega
        simp [h, this]

/-! ### Boot (R388, R389) -/

theorem coreAt_congr {s t : State} (h : s.cores = t.cores) (c : Nat) : s.coreAt c = t.coreAt c := congrArg (kGetD c Core.reset) h

theorem enableCores_coreAt (s : State) (m : BitVec 384) {c : Nat} (h : c < 384) : (enableCores s m).coreAt c = { s.coreAt c with enabled := m.getLsbD c } := by
  have := kGetD_foldl_kPut Core.reset (fun c k => { k with enabled := m.getLsbD c }) Config.cores s.cores c
  rw [if_pos (show c < Config.cores from h)] at this
  simpa only [enableCores, State.coreAt] using this

/-- Every entry that has a bit set has it set in another table. -/
def keepsBit (b : Nat) (l l' : KMap Word) : Prop := ∀ k, (kGetD k 0 l).getLsbD b = true → (kGetD k 0 l').getLsbD b = true

theorem keepsBit_kPut {b a : Nat} {w : Word} {l : KMap Word} (h : (kGetD a 0 l).getLsbD b = true → w.getLsbD b = true) : keepsBit b l (kPut a w l) := by
  intro k hk
  by_cases e : k = a
  · subst e; rw [kGetD_kPut_same]; exact h hk
  · rwa [kGetD_kPut_other _ _ _ _ _ e]

/-- The words of a repair keep bits 30 and 31 of what stood there (R385). -/
theorem laneMark_bits (w x : Word) {b : Nat} (hb : b = 30 ∨ b = 31) : ((w &&& 0xFF00FFFF) ||| x).getLsbD b = (w.getLsbD b || x.getLsbD b) := by
  rcases hb with rfl | rfl <;> simp

theorem spareInUse_bit (i : Nat) (h : i < 32768) : (BitVec.ofNat 32 (2 ^ 31 + 65536 * i)).getLsbD 31 = true := by
  rw [BitVec.getLsbD_ofNat, Nat.testBit_two_pow_add_eq, Nat.testBit_lt_two_pow (by omega)]
  rfl

theorem laneIndex_lt (n : Nat) : laneIndex n < 66 := by
  unfold laneIndex
  split <;> omega

/-- A repair changes the lanes' words alone: it marks the spare as in use and the lane as repaired, and takes no mark away. -/
theorem showRepair_lanes (p : Plat) (n : Nat) (r : Repair) : ∃ l, showRepair p n r = { p with lanes := l } ∧ keepsBit 30 p.lanes l ∧ keepsBit 31 p.lanes l ∧
    (kGetD (laneKey r.stack r.spare) 0 l).getLsbD 31 = true ∧ (kGetD (laneKey r.stack n) 0 l).getLsbD 30 = true := by
  obtain ⟨m, hm⟩ : ∃ m, m = kPut (laneKey r.stack r.spare) ((laneAt p r.stack r.spare &&& 0xFF00FFFF) ||| BitVec.ofNat 32 (2 ^ 31 + 65536 * laneIndex r.lane)) p.lanes := ⟨_, rfl⟩
  have hsp : (kGetD (laneKey r.stack r.spare) 0 m).getLsbD 31 = true := by
    have hi := laneIndex_lt r.lane
    rw [hm, kGetD_kPut_same, laneMark_bits _ _ (.inr rfl), spareInUse_bit _ (by omega), Bool.or_true]
  have h1 : ∀ b, b = 30 ∨ b = 31 → keepsBit b p.lanes m := fun b hb => by
    subst hm
    exact keepsBit_kPut (fun h => by rw [laneMark_bits _ _ hb, laneAt, h]; rfl)
  have h2 : ∀ b, b = 30 ∨ b = 31 → keepsBit b m (kPut (laneKey r.stack n) ((kGetD (laneKey r.stack n) 0 m &&& 0xFF00FFFF) ||| 0x40000000) m) := fun b hb =>
    keepsBit_kPut (fun h => by rw [laneMark_bits _ _ hb, h]; rfl)
  refine ⟨kPut (laneKey r.stack n) ((kGetD (laneKey r.stack n) 0 m &&& 0xFF00FFFF) ||| 0x40000000) m, by subst hm; rfl,
    fun k hk => h2 30 (.inl rfl) k (h1 30 (.inl rfl) k hk), fun k hk => h2 31 (.inr rfl) k (h1 31 (.inr rfl) k hk), h2 31 (.inr rfl) _ hsp, ?_⟩
  rw [kGetD_kPut_same, laneMark_bits _ _ (.inl rfl)]
  simp

theorem applyRepairs_lanes (p : Plat) (rs : List Repair) : ∃ l, rs.foldl (fun p r => showRepair p r.lane r) p = { p with lanes := l } ∧ keepsBit 30 p.lanes l ∧ keepsBit 31 p.lanes l ∧
    ∀ r ∈ rs, (kGetD (laneKey r.stack r.spare) 0 l).getLsbD 31 = true ∧ (kGetD (laneKey r.stack r.lane) 0 l).getLsbD 30 = true := by
  induction rs generalizing p with
  | nil => exact ⟨p.lanes, rfl, fun _ h => h, fun _ h => h, by simp⟩
  | cons r rs ih =>
    obtain ⟨l, hl, h30, h31, hsp, hln⟩ := showRepair_lanes p r.lane r
    obtain ⟨l', hl', h30', h31', hall⟩ := ih { p with lanes := l }
    refine ⟨l', by rw [List.foldl_cons, hl, hl'], fun k h => h30' k (h30 k h), fun k h => h31' k (h31 k h), fun q hq => ?_⟩
    rcases List.mem_cons.1 hq with rfl | hq
    · exact ⟨h31' _ hsp, h30' _ hln⟩
    · exact hall q hq


/-- Applying a manifest sets it, the cache's size, the lanes' words of the repairs, and the cores' enables. -/
theorem applyManifest_eq (s : State) (e : BitVec 384) (n : Nat) (tr : List Nat) : ∃ l cs, applyManifest s { enable := e, mscUnits := n, trims := tr } = { s.setPlat { s.plat with
      manifest := { enable := e, mscUnits := n, trims := tr }, mscBytes := 2 ^ 25 * min n 8, genInv := begun s.plat.genInv, lanes := l } with cores := cs } ∧ cs = (enableCores s e).cores ∧
    (∀ r ∈ s.plat.repairs, (kGetD (laneKey r.stack r.spare) 0 l).getLsbD 31 = true ∧ (kGetD (laneKey r.stack r.lane) 0 l).getLsbD 30 = true) ∧
    (s.plat.repairs = [] → l = s.plat.lanes) := by
  rw [← bumpGen_eq, show (2 ^ 25 : Nat) = 33554432 by norm_num]
  obtain ⟨l, hl, -, -, hall⟩ := applyRepairs_lanes { s.plat with manifest := { enable := e, mscUnits := n, trims := tr }, mscBytes := 33554432 * min n 8, genInv := bumpGen s.plat.genInv } s.plat.repairs
  refine ⟨l, _, congrArg (fun p => { s.setPlat p with cores := (enableCores s e).cores }) hl, rfl, hall, fun h => ?_⟩
  rw [h] at hl
  exact (congrArg Plat.lanes hl).symm

section
variable {s : State} (h : s.plat.bootStop = false)
include h

theorem execBoot_rootKey (hp : s.plat.bootPhase = 0) : execBoot s = .next (s.setPlat { s.plat with
    bootPhase := 1, identity := some Config.identityKey, cert := some (Config.rootKey, Config.leafKey Config.identityKey) }) := by
  simp [execBoot, h, hp, modPlat, State.setPlat]

theorem execBoot_shell (hp : s.plat.bootPhase = 1) : execBoot s = .next (if s.ev.ok && s.plat.flashShell.signed then
    s.setPlat { s.plat with bootPhase := 2, shell := s.plat.flashShell } else bootFails s 2) := by
  simp [execBoot, h, hp, modPlat, State.setPlat]

theorem execBoot_manifest (hp : s.plat.bootPhase = 2) : execBoot s = .next (if s.ev.ok then
    applyManifest (s.setPlat { s.plat with bootPhase := 3 }) { enable := s.ev.bits, mscUnits := s.ev.x, trims := s.ev.nums } else bootFails s 3) := by
  simp [execBoot, h, hp, modPlat]

theorem execBoot_carcass (hp : s.plat.bootPhase = 3) : execBoot s = .next (if s.ev.ok && s.plat.flash.signed then
    s.setPlat (setPmp { s.plat with bootPhase := 4, running := s.plat.flash, routines := true }) else bootFails s 4) := by
  simp [execBoot, h, hp, modPlat, State.setPlat]

theorem execBoot_release (hp : s.plat.bootPhase = 4) : execBoot s = .next (s.setPlat { s.plat with bootPhase := 5, cps := cpsReleased s, mgmt := true }) := by
  simp [execBoot, h, hp, modPlat, State.setPlat]

end

theorem execBoot_stopped {s : State} (h : s.plat.bootStop = true) : execBoot s = .next s := by simp [execBoot, h]

theorem bootFails_eq (s : State) (ph : Nat) : bootFails s ph = s.setPlat { s.plat with bootPhase := ph, bootStop := true, bootFail := (Config.bootCode ph).toNat } := rfl

theorem execBoot_unverified {s : State} {n : Nat} (h : s.plat.bootStop = false) (h1 : 1 ≤ n) (h3 : n ≤ 3) (hp : s.plat.bootPhase = n)
    (hbad : s.ev.ok = false ∨ (n = 1 ∧ s.plat.flashShell.signed = false) ∨ (n = 3 ∧ s.plat.flash.signed = false)) : execBoot s = .next (bootFails s (n + 1)) := by
  interval_cases n
  · rw [execBoot_shell h hp, if_neg]
    rcases hbad with e | ⟨-, e⟩ | ⟨e, -⟩
    · simp [e]
    · simp [e]
    · omega
  · rw [execBoot_manifest h hp, if_neg]
    rcases hbad with e | ⟨e, -⟩ | ⟨e, -⟩
    · simp [e]
    · omega
    · omega
  · rw [execBoot_carcass h hp, if_neg]
    rcases hbad with e | ⟨e, -⟩ | ⟨-, e⟩
    · simp [e]
    · omega
    · simp [e]

theorem cpsReleased_get (s : State) {i : Nat} (hi : i < 32) : kGet i (cpsReleased s) = some { cpCore s i with pet := s.cc, mode := 1 } := by
  have := kGet_rangeMap (fun i => { kGetD i CpCore.reset s.plat.cps with pet := s.cc, mode := 1 }) 32 i
  rw [if_pos hi] at this
  exact this

theorem setPmp_get (p : Plat) {i : Nat} (hi : i < 32) : kGet i (setPmp p).cps = some { kGetD i CpCore.reset p.cps with pmp := Config.pmpEntries i } := by
  have := kGet_rangeMap (fun i => { kGetD i CpCore.reset p.cps with pmp := Config.pmpEntries i }) 32 i
  rw [if_pos hi] at this
  exact this

theorem recoveryWrite_eq (s : State) : recoveryWrite s =
    if s.plat.bootStop = true ∧ ¬(1 ≤ s.plat.swst ∧ s.plat.swst ≤ 3) ∧ imagePlaced s = true ∧ (imageIn s).signed = true then
      s.setPlat { s.plat with flash := imageIn s, flashShell := shellIn s, bootPhase := 1, bootStop := false, bootFail := 0 }
    else s := by
  exact if_congr (by simp [and_assoc, imp_iff_not_or]) rfl rfl

theorem imagePlaced_iff (s : State) : imagePlaced s = true ↔ s.plat.swaddr.toNat % 4096 = 0 ∧ s.plat.swlen.toNat ≤ 2 ^ 26 := by
  simp [imagePlaced]


theorem rung2Now_told (cp : Nat) (r : KMap Rung2) : rung2Now r (fun r => { r with down := r.down.filter (fun i => i ≠ cp) }) = rungsTold cp r := by
  simp [rung2Now, rungsTold]

theorem cpAlive_eq (s : State) (p : Plat) (cp : Nat) : cpAlive s p cp = { p with
    rung2 := rungsTold cp p.rung2, cps := kPut cp { kGetD cp CpCore.reset p.cps with alive := true, rung := 0, pet := s.cc, sip := false } p.cps } := by
  rw [cpAlive, rung2Now_told]

/-- The first report of a core ends boot (R388). -/
theorem aliveCore_ends_boot {s : State} (cp : Nat) (hp : s.plat.bootPhase = 5) (hsw : s.plat.swst ≠ 2) : aliveCore s cp = s.setPlat { s.plat with
    bootPhase := 6, rung4At := none, rung2 := rungsTold cp s.plat.rung2
    cps := kPut cp { cpCore s cp with alive := true, rung := 0, pet := s.cc, sip := false } s.plat.cps } := by
  simp [aliveCore, modPlat, cpAlive_eq, hp, hsw, cpCore]

/-- A report within 50 ms of the handover starts the new image on trial (R391). -/
theorem aliveCore_ends_handover {s : State} (cp : Nat) {k : Image} (hp : s.plat.bootPhase = 6) (h2 : s.plat.swst = 2) (hk : s.plat.staged = some k)
    (hcc : s.cc ≤ s.plat.swapAt + 35000000) : aliveCore s cp = s.setPlat { s.plat with
    swst := 3, vswap := 3, dispatch := true, running := k, swapAt := s.cc, staged := none, rung2 := rungsTold cp (rungsHeld s)
    cps := kPut cp { kGetD cp CpCore.reset (resumeTimers s s.plat).cps with alive := true, rung := 0, pet := s.cc, sip := false } (resumeTimers s s.plat).cps } := by
  have hdone : (s.plat.swst = 2 && s.cc ≤ s.plat.swapAt + 50 * msCycles) = true := by simp [h2, msCycles, hcc]
  have hph : (resumeTimers s s.plat).bootPhase ≠ 5 := by rw [show (resumeTimers s s.plat).bootPhase = s.plat.bootPhase from rfl, hp]; decide
  have hst : (resumeTimers s s.plat).staged = some k := hk
  simp only [aliveCore, modPlat, hdone, if_true, cpAlive_eq, if_neg hph, setSwap, hst]
  rfl

theorem execAliveReport_eq {s : State} (hp : 5 ≤ s.plat.bootPhase) (hx : s.ev.x < 32) : execAliveReport s = .next (aliveCore s s.ev.x) :=
  if_neg (by rw [Bool.or_eq_true, decide_eq_true_eq, decide_eq_true_eq, Config.dies]; omega)

theorem bootPhases : BootPhases := by
  intro s
  rw [exec_boot, exec_recoveryWrite, exec_aliveReport, execRecoveryWrite, recoveryWrite_eq]
  refine ⟨fun h hp => execBoot_rootKey h hp, fun h hp hok hsig => ?_, fun h hp hok => ?_, fun h hp hok hsig => ?_, fun h hp => ?_,
    fun n h h1 h3 hp hbad => (execBoot_unverified h h1 h3 hp hbad).trans (by rw [bootFails_eq]), fun h => execBoot_stopped h, ?_, ?_, ?_, ?_⟩
  · rw [execBoot_shell h hp, hok, hsig]
    rfl
  · obtain ⟨l, cs, hl, hcs, hall, hnone⟩ := applyManifest_eq (s.setPlat { s.plat with bootPhase := 3 }) s.ev.bits s.ev.x s.ev.nums
    have ht := execBoot_manifest h hp
    rw [if_pos hok, hl] at ht
    refine ⟨_, ht, rfl, hall, hnone, fun c hc => ?_⟩
    rw [coreAt_congr hcs]
    exact enableCores_coreAt _ _ hc
  · have ht := execBoot_carcass h hp
    rw [hok, hsig] at ht
    exact ⟨_, ht, rfl, fun i hi => setPmp_get _ hi⟩
  · exact ⟨_, execBoot_release h hp, rfl, fun i hi => cpsReleased_get s hi⟩
  · rintro i rfl hal hlen hstop hsw
    have hplaced : imagePlaced s = true := (imagePlaced_iff s).2 ⟨hal, hlen⟩
    have hidle : ¬(1 ≤ s.plat.swst ∧ s.plat.swst ≤ 3) := by omega
    exact congrArg _ (if_congr (by simp only [hplaced, hstop, hidle, not_false_eq_true, true_and]) rfl rfl)
  · intro hno
    rw [if_neg]
    rintro ⟨hstop, hsw, -⟩
    rcases hno with e | e
    · simp [e] at hstop
    · exact hsw e
  · intro hp hsw hx
    rw [execAliveReport_eq (by omega) hx, aliveCore_ends_boot s.ev.x hp hsw]
  · intro hp
    exact if_pos (by simp [hp])

/-! ### Firmware swaps (R390, R391) -/

theorem kGet_resumeTimers (s : State) {c : Nat} {v : CpCore} (h : kGet c s.plat.cps = some v) :
    kGet c (resumeTimers s s.plat).cps = some { v with pet := heldTime s v.pet, rungAt := heldTime s v.rungAt } := by
  have := kGet_map (fun v : CpCore => { v with pet := heldStart s s.plat v.pet, rungAt := heldStart s s.plat v.rungAt }) s.plat.cps c
  rw [h] at this
  exact this

theorem startSwap_eq {s : State} (h : s.plat.swst = 0 ∨ 4 ≤ s.plat.swst) : startSwap s = s.setPlat { s.plat with swst := 1, vswap := 1, staged := none } :=
  if_neg (by simp; omega)

theorem imageIn_startSwap (s : State) : imageIn (s.setPlat { s.plat with swst := 1, vswap := 1, staged := none }) = imageIn s := rfl

theorem verifySwap_started (s : State) : verifySwap (s.setPlat { s.plat with swst := 1, vswap := 1, staged := none }) =
    if s.plat.swaddr.toNat % 4096 = 0 ∧ s.plat.swlen.toNat ≤ 2 ^ 26 ∧ (imageIn s).signed = true then
      s.setPlat { s.plat with swst := 1, vswap := 1, staged := some (imageIn s) }
    else { s.setPlat { s.plat with swst := 6, vswap := 6, staged := none, swreason := (Config.swapReason s.freeCtr).toNat } with freeCtr := s.freeCtr + 1 } := by
  have hplaced : imagePlaced (s.setPlat { s.plat with swst := 1, vswap := 1, staged := none }) = imagePlaced s := rfl
  have hiff : (imagePlaced s && (imageIn s).signed) = true ↔ s.plat.swaddr.toNat % 4096 = 0 ∧ s.plat.swlen.toNat ≤ 2 ^ 26 ∧ (imageIn s).signed = true := by
    rw [Bool.and_eq_true, imagePlaced_iff, and_assoc]
  rw [verifySwap, imageIn_startSwap, hplaced, if_neg (by simp)]
  exact if_congr hiff rfl rfl

theorem firmwareSwaps : FirmwareSwaps := by
  rintro s i rfl
  refine ⟨fun hst => ?_, fun k h1 hk => ?_, fun k hp h2 hk hcc hx => ?_, fun h2 hcc => ?_, fun h3 hcc => ?_, fun h => ?_, fun h => ?_, fun h => ?_⟩
  · rw [exec, execFirmwareSwap, startSwap_eq hst, verifySwap_started]
  · simp [exec, execSwapPoint, h1, hk, modPlat, setSwap]
  · refine ⟨_, (execAliveReport_eq (by omega) hx).trans (by rw [aliveCore_ends_handover _ hp h2 hk hcc]), rfl, ?_, fun c hc v hv => ?_⟩
    · exact congrArg CpCore.pet (kGetD_kPut_same _ _ _ _)
    · exact (kGet_kPut_other _ _ _ _ hc).trans (kGet_resumeTimers s hv)
  · have hst : (resumeTimers s s.plat).swst ≠ 1 := by rw [show (resumeTimers s s.plat).swst = s.plat.swst from rfl, h2]; decide
    refine ⟨_, if_pos (by simp [h2, msCycles, hcc]), ?_, fun c v hv => kGet_resumeTimers s hv⟩
    rw [modPlat, rollBack, if_neg hst]
    rfl
  · simp [exec, execSwapCommit, h3, msCycles, hcc, modPlat, setSwap]
  · simp [exec, execSwapPoint, h]
  · simp [exec, execSwapAliveTimeout, h]
  · simp [exec, execSwapCommit, h]

/-- Settles O60: the phases of boot, then those of a swap. -/
theorem bootAndFirmware : Obligations.BootAndFirmware := ⟨bootPhases, firmwareSwaps⟩

end Sys2Proof.Machine
end

section
/-! Tier extents: their life cycle and their forced release. -/

namespace Sys2Proof.Machine

open Sys2Proof Sys2Proof.Safety Sys2Proof.Claims

theorem mem_insertExtent (e x : Extent) (l : List Extent) : x ∈ insertExtent e l ↔ x ∈ l ∨ x = e := by
  induction l with
  | nil => simp [insertExtent]
  | cons f r ih =>
    unfold insertExtent
    split
    · simp [or_comm]
    · simp [ih, or_assoc]

theorem extentFits_iff (s : State) (b n port : Nat) : extentFits s b n port = true ↔
    2 ^ 40 ≤ b ∧ n ≠ 0 ∧ b % 4096 = 0 ∧ n % 4096 = 0 ∧ b + n ≤ 2 ^ 52 ∧ port < 8 ∧ (∀ e ∈ s.plat.extents, b + n ≤ e.base ∨ e.base + e.len ≤ b) ∧
      (s.plat.extents.filter (fun e => e.st ≠ .lost)).length < 200 ∧ tierUsed s.plat + n ≤ 2 ^ 45 := by
  simp only [extentFits, Bool.and_eq_true, decide_eq_true_eq, bne_iff_ne, List.all_eq_true, Bool.or_eq_true, and_assoc]
  exact Iff.rfl

theorem execExtentAdd_fits {s : State} (h : extentFits s s.ev.x s.ev.y s.ev.z = true) : execExtentAdd s = .next (s.setPlat { s.plat with
    extents := insertExtent { base := s.ev.x, len := s.ev.y, port := s.ev.z, st := .present } s.plat.extents, genExt := begun s.plat.genExt }) := by
  simp only [execExtentAdd, h, bumpGen_eq, modPlat, Bool.not_true, Bool.false_eq_true, if_false]

theorem execExtentAdd_declined {s : State} (h : ¬ extentFits s s.ev.x s.ev.y s.ev.z = true) : execExtentAdd s = .next s := if_pos (by simpa using h)

theorem settleGen_even (g : Nat) : settleGen g g % 2 = 0 := by
  unfold settleGen
  split
  · next h =>
    have : g % 2 = 1 := by simpa using h
    omega
  · next h =>
    have : g % 2 = 0 := by simpa using h
    exact this

/-! ### The mailbox (R365) -/

theorem freeMailbox_eq (p : Plat) : freeMailbox p = nextMail p := by
  unfold freeMailbox presentNext nextMail
  cases p.xwait <;> rfl

theorem presentNext_busy {p : Plat} (h : p.xpend = true) : presentNext p = p := if_pos h

/-- A free mailbox presents the request that comes first. -/
theorem presentNext_first {p : Plat} (b : Nat) (forced : Bool) (hp : p.xpend = false) (hw : p.xwait = [(b, forced)]) : presentNext p = { p with
    xbase := BitVec.ofNat 64 b, xlen := BitVec.ofNat 64 (((p.extents.find? (fun e => e.base = b)).map (fun e => e.len)).getD 0), xpend := true, xforced := forced, xwait := [], intr := true } := by
  simp [presentNext, hp, hw]

theorem extentNamed_base {s : State} {b : Nat} {e : Extent} (h : s.plat.extents.find? (fun e => e.base = b) = some e) : e.base = b := by
  simpa using List.find?_some h

/-- The model's test that a line is out of a range. -/
theorem outside_eq (b n : Nat) (l : Nat) : (!(decide (b ≤ 64 * l) && decide (64 * l < b + n))) = decide (¬ (b ≤ 64 * l ∧ 64 * l < b + n)) := by
  rw [← Bool.decide_and, ← decide_not]

section
variable {s : State} {e : Extent} (h : s.plat.extents.find? (fun e => e.base = s.ev.x) = some e)
include h

theorem execExtentReleaseRequest_present (hst : e.st = .present) :
    execExtentReleaseRequest s = .next (s.setPlat (presentNext { s.plat with xwait := s.plat.xwait ++ [(e.base, false)] })) := by
  simp [execExtentReleaseRequest, extentNamed, h, hst, modPlat]

/-- While a closing extent has a request under way, or once the extent is not closing, closing does not complete. -/
theorem execExtentCloseComplete_waits (hw : e.st ≠ .closing ∨ ∃ q ∈ (s.dieAt e.port).dir, e.base ≤ 64 * q.1 ∧ 64 * q.1 < e.base + e.len ∧ (q.2.tr ≠ none ∨ q.2.waiting ≠ [])) :
    execExtentCloseComplete s = .next s := by
  have hwait : (decide (e.st ≠ .closing) || (s.dieAt e.port).dir.any (fun q => (e.base ≤ 64 * q.1 && 64 * q.1 < e.base + e.len) && (q.2.tr.isSome || q.2.waiting != []))) = true := by
    simpa [Option.isSome_iff_ne_none, and_assoc] using hw
  simp only [execExtentCloseComplete, extentNamed, h, hwait, if_true]

theorem execExtentCloseComplete_closes (hst : e.st = .closing) (hheld : heldLines s e.base e.len = [])
    (hq : ∀ q ∈ (s.dieAt e.port).dir, e.base ≤ 64 * q.1 → 64 * q.1 < e.base + e.len → q.2.tr = none ∧ q.2.waiting = []) :
    execExtentCloseComplete s = .next ((s.modDie e.port (fun d => { d with dir := d.dir.filter (fun q => ¬ (e.base ≤ 64 * q.1 ∧ 64 * q.1 < e.base + e.len)) })).setPlat
        { s.plat with extents := s.plat.extents.filter (fun x => x.base ≠ e.base), genExt := begun s.plat.genExt }) := by
  have hgo : (decide (e.st ≠ .closing) || (s.dieAt e.port).dir.any (fun q => (e.base ≤ 64 * q.1 && 64 * q.1 < e.base + e.len) && (q.2.tr.isSome || q.2.waiting != []))) = false := by
    simpa [hst] using hq
  simp only [execExtentCloseComplete, extentNamed, h, hgo, Bool.false_eq_true, if_false, hheld, List.foldl_nil, removeExtent, bumpGen_eq, modPlat,
    outside_eq]
  rfl

end

theorem declineExtent_free (h : s.plat.xpend = false) : declineExtent s = s := by
  simp [declineExtent, h]

theorem acceptExtent_free (h : s.plat.xpend = false) : acceptExtent s = s := by
  simp [acceptExtent, h]

theorem extentLifeCycle : ExtentLifeCycle := by
  intro s
  refine ⟨fun h1 h2 h3 h4 h5 h6 h7 h8 h9 => ⟨_, execExtentAdd_fits ((extentFits_iff _ _ _ _).2 ⟨h1, h2, h3, h4, h5, h6, h7, h8, h9⟩), rfl, fun e => mem_insertExtent _ _ _⟩,
    fun h => execExtentAdd_declined (fun hf => ?_), ⟨settleGen_even _, settleGen_even _, settleGen_even _⟩, fun e h hst hp hw => ?_, fun e h hst hp => ?_, fun hp hf => ⟨?_, ?_⟩, fun hp => ⟨?_, ?_⟩,
    fun e h hst hheld hq => execExtentCloseComplete_closes h hst hheld hq, fun e q h hq h1 h2 h3 => execExtentCloseComplete_waits h (.inr ⟨q, hq, h1, h2, h3⟩),
    fun e h hst => execExtentCloseComplete_waits h (.inl hst)⟩
  · obtain ⟨-, -, -, -, -, -, -, h8, h9⟩ := (extentFits_iff _ _ _ _).1 hf
    omega
  · have hlen : s.plat.extents.find? (fun x => x.base = e.base) = some e := by rw [extentNamed_base h, h]
    rw [exec, execExtentReleaseRequest_present h hst, presentNext_first e.base false]
    · simp only [hlen, Option.map_some, Option.getD_some]
      rw [hw]
    · exact hp
    · simp [hw]
  · rw [exec, execExtentReleaseRequest_present h hst, presentNext_busy]
    exact hp
  · simp only [exec, execExtentDecline, declineExtent, hp, hf, freeMailbox_eq, modPlat, Bool.not_true, Bool.or_self, Bool.false_eq_true, if_false]
  · simp only [exec, execExtentAccept, acceptExtent, hp, hf, freeMailbox_eq, modPlat, setExtentSt, bumpGen_eq, Bool.not_true, Bool.or_self, Bool.false_eq_true, if_false]
  · rw [exec, execExtentDecline, declineExtent_free hp]
  · rw [exec, execExtentAccept, acceptExtent_free hp]

/-! ### Forced release (R367) -/

/-- No copy and no directory entry of the range. -/
def DieFree (b n : Nat) (d : Die) : Prop :=
  ∀ l, l ∈ d.msc.map (fun q => q.1) ++ d.l2.map (fun q => q.1) ++ d.wbuf.map (fun q => q.1) ++ d.dir.map (fun q => q.1) → ¬ (b ≤ 64 * l ∧ 64 * l < b + n)

theorem heldLines_eq_nil {s : State} {b n : Nat} (h : ∀ p ∈ s.dies, DieFree b n p.2) : heldLines s b n = [] := by
  unfold heldLines
  generalize s.dies = ds at h
  induction ds with
  | nil => rfl
  | cons p r ih =>
    obtain ⟨hp, hr⟩ := List.forall_mem_cons.1 h
    have hnone : ∀ ls : List Nat, (∀ l ∈ ls, ¬ (b ≤ 64 * l ∧ 64 * l < b + n)) →
        ls.foldl (fun a l => if (decide (b ≤ 64 * l) && decide (64 * l < b + n)) && !a.contains l then a ++ [l] else a) [] = [] := by
      intro ls hls
      induction ls with
      | nil => rfl
      | cons l ls ih =>
        obtain ⟨hl, hls⟩ := List.forall_mem_cons.1 hls
        have hl' : (decide (b ≤ 64 * l) && decide (64 * l < b + n)) = false := by simpa using hl
        rw [List.foldl_cons, hl']
        exact ih hls
    rw [List.foldl_cons, hnone]
    · exact ih hr
    · intro l hl
      refine hp l ?_
      simp only [List.mem_append, List.mem_map, List.mem_filter] at hl ⊢
      rcases hl with hl | ⟨q, ⟨hq, -⟩, rfl⟩
      · exact .inl hl
      · exact .inr ⟨q, hq, rfl⟩

theorem dieFree_setDie {s : State} {b n k : Nat} {v : Die} (hv : DieFree b n v) (h : ∀ p ∈ s.dies, DieFree b n p.2) : ∀ p ∈ (s.setDie k v).dies, DieFree b n p.2 := by
  intro p hp
  rcases mem_kPut hp with rfl | hp
  · exact hv
  · exact h p hp

/-- A die once every copy and every directory entry of a range is dropped. -/
def dropRange (b n : Nat) (d : Die) : Die := { d with
  l2 := d.l2.filter (fun q => decide (¬ (b ≤ 64 * q.1 ∧ 64 * q.1 < b + n))), wbuf := d.wbuf.filter (fun q => decide (¬ (b ≤ 64 * q.1 ∧ 64 * q.1 < b + n)))
  msc := d.msc.filter (fun q => decide (¬ (b ≤ 64 * q.1 ∧ 64 * q.1 < b + n))), dir := d.dir.filter (fun q => decide (¬ (b ≤ 64 * q.1 ∧ 64 * q.1 < b + n))) }

theorem dropLines_eq (s : State) (b n : Nat) : dropLines s b n = { s with dies := s.dies.map (fun p => (p.1, dropRange b n p.2)) } := by
  simp only [dropLines, outside_eq]
  rfl

theorem dieFree_dropRange (b n : Nat) (d : Die) : DieFree b n (dropRange b n d) := by
  intro l hl
  simp only [dropRange, List.mem_append, List.mem_map, List.mem_filter, decide_eq_true_eq] at hl
  rcases hl with ((⟨q, ⟨-, hq⟩, rfl⟩ | ⟨q, ⟨-, hq⟩, rfl⟩) | ⟨q, ⟨-, hq⟩, rfl⟩) | ⟨q, ⟨-, hq⟩, rfl⟩ <;> exact hq

theorem dropLines_dieAt (s : State) (b n d : Nat) : (dropLines s b n).dieAt d = dropRange b n (s.dieAt d) := by
  rw [dropLines_eq]
  simp only [State.dieAt, kGetD, kGet_map]
  cases kGet d s.dies <;> rfl

theorem find?_setSt_base (b : Nat) (st : ExtSt) (l : List Extent) :
    (l.map (fun x => if x.base = b then { x with st := st } else x)).find? (fun x => x.base = b) = (l.find? (fun x => x.base = b)).map (fun x => { x with st := st }) := by
  induction l with
  | nil => rfl
  | cons x r ih =>
    by_cases hx : x.base = b
    · simp [hx]
    · simpa [hx] using ih

theorem execForcedExtentRelease_takes {s : State} {e : Extent} (h : s.plat.extents.find? (fun e => e.base = s.ev.x) = some e) (hst : e.st ≠ .lost)
    (hp : s.plat.xpend = false) (hw : s.plat.xwait = []) :
    execForcedExtentRelease s = .next (((dropLines s e.base e.len).modDie e.port (fun d => { d with
        log := d.log ++ [.forcedRelease e.base e.len (dirtyLines s e.base e.len)], poison := d.poison ++ [(e.base, e.len)] })).setPlat { s.plat with
      extents := s.plat.extents.map (fun x => if x.base = e.base then { x with st := .lost } else x), genExt := begun s.plat.genExt
      xbase := BitVec.ofNat 64 e.base, xlen := BitVec.ofNat 64 e.len, xpend := true, xforced := true, xwait := [], intr := true }) := by
  have hlen : (s.plat.extents.map (fun x => if x.base = e.base then { x with st := .lost } else x)).find? (fun x => x.base = e.base) = some { e with st := .lost } := by
    rw [find?_setSt_base]
    have hfind : s.plat.extents.find? (fun x => x.base = e.base) = some e := by rw [extentNamed_base h, h]
    rw [hfind, Option.map_some]
  have hplat : ∀ g : Die → Die, ((dropLines s e.base e.len).modDie e.port g).plat = s.plat := fun _ => rfl
  simp only [execForcedExtentRelease, extentNamed, h, if_neg hst, logAt, modDie_modDie, modPlat, hplat, setExtentSt, bumpGen_eq, hp, hw, Bool.false_and, Bool.false_eq_true, if_false, List.filter_nil, List.nil_append]
  rw [presentNext_first e.base true]
  · simp only [hlen, Option.map_some, Option.getD_some]
  · rfl
  · rfl

/-- A forced release leaves every other line of a die's L2. -/
theorem kGet_dropRange_l2 {b n line : Nat} (d : Die) (h : 64 * line < b ∨ b + n ≤ 64 * line) : kGet line (dropRange b n d).l2 = kGet line d.l2 := by
  have hout : ¬ (b ≤ 64 * line ∧ 64 * line < b + n) := by omega
  exact (kGet_filter (fun l => decide (¬ (b ≤ 64 * l ∧ 64 * l < b + n))) d.l2 line).trans (if_pos (decide_eq_true hout))

/-- A die once the poison of the range at b is over. -/
def dropPoison (b : Nat) (d : Die) : Die := { d with poison := d.poison.filter (fun r => r.1 ≠ b) }

theorem execExtentDone_forced (hp : s.plat.xpend = true) (hf : s.plat.xforced = true) : execExtentDone s = .next
    { s with
      dies := s.dies.map (fun d => (d.1, dropPoison s.plat.xbase.toNat d.2))
      plat := nextMail { s.plat with extents := s.plat.extents.filter (fun x => x.base ≠ s.plat.xbase.toNat), genExt := begun s.plat.genExt } } := by
  simp only [dropPoison, execExtentDone, doneExtent, hp, hf, Bool.not_true, Bool.or_self, Bool.false_eq_true, if_false, freeMailbox_eq, removeExtent, bumpGen_eq, modPlat]
  rfl

theorem forcedReleases : ForcedReleases := by
  intro s e
  refine ⟨fun h hst hp hw => ⟨_, execForcedExtentRelease_takes h hst hp hw, fun a => rfl, rfl, ?_, ?_, ?_, rfl, rfl, rfl, rfl, rfl, rfl, fun d line _ hline => ?_⟩,
    fun hp hf => ⟨_, execExtentDone_forced hp hf, fun a => rfl, rfl, rfl, fun d => ?_⟩, fun hf => ?_⟩
  · refine heldLines_eq_nil (dieFree_setDie ?_ fun p hp => ?_)
    · rw [dropLines_dieAt]
      exact dieFree_dropRange e.base e.len (s.dieAt e.port)
    · rw [dropLines_eq] at hp
      obtain ⟨q, -, rfl⟩ := List.mem_map.1 hp
      exact dieFree_dropRange _ _ _
  · simp only [State.dieAt_setPlat, State.modDie, State.dieAt_setDie_same, dropLines_dieAt, dropRange]
  · simp only [State.dieAt_setPlat, State.modDie, State.dieAt_setDie_same, dropLines_dieAt, dropRange]
  · simp only [l2At, State.dieAt_setPlat, State.modDie]
    by_cases hd : d = e.port
    · subst hd
      rw [State.dieAt_setDie_same, dropLines_dieAt]
      exact kGet_dropRange_l2 _ hline
    · rw [State.dieAt_setDie_other _ _ _ _ hd, dropLines_dieAt]
      exact kGet_dropRange_l2 _ hline
  · simp only [State.dieAt, kGetD, kGet_map]
    cases kGet d s.dies <;> rfl
  · simp [exec, execExtentDone, doneExtent, hf]

/-- Settles O57: the life cycle of an extent under the mailbox's rules, and its forced release. -/
theorem extents : Obligations.Extents := ⟨extentLifeCycle, forcedReleases⟩

end Sys2Proof.Machine
end

section
/-! The start of preemption, and the aging and the round of teams. -/

namespace Sys2Proof.Machine

open Sys2Proof Sys2Proof.Safety Sys2Proof.Claims

/-! ### Preemption (R262-R266) -/

theorem mem_of_kGet {α : Type} {k : Nat} {v : α} {m : KMap α} (h : kGet k m = some v) : (k, v) ∈ m := by
  induction m with
  | nil => simp [kGet] at h
  | cons p r ih =>
    obtain ⟨j, w⟩ := p
    by_cases hk : k = j
    · simp_all [kGet]
    · exact List.mem_cons_of_mem _ (ih (by simpa [kGet, hk] using h))

/-- The entry of a key after a change of the entries that keeps their keys. -/
theorem kGet_mapEntries {α : Type} (f : Nat → α → α) (m : KMap α) (k : Nat) : kGet k (m.map (fun p => (p.1, f p.1 p.2))) = (kGet k m).map (f k) := by
  induction m with
  | nil => rfl
  | cons p r ih =>
    obtain ⟨j, w⟩ := p
    by_cases hk : k = j
    · simp [kGet, hk]
    · simp [kGet, hk, ih]

section
variable {s : State} {bid : Nat}

theorem beginOption_drain (h : (s.blockAt bid).status ≠ .toSave) (c : Nat) :
    beginOption s bid .drain c = s.setBlock bid { s.blockAt bid with status := .draining (s.cc + c + 4096) } := if_neg h

theorem beginOption_flush (h : (s.blockAt bid).status ≠ .toSave) (c : Nat) : beginOption s bid .flush c = s.setBlock bid { s.blockAt bid with status := .toFlush } := if_neg h

/-- A block of a grid without cohorts is the only one that a save of it takes. -/
theorem inCohort_alone (hc : (s.gridAt (s.blockAt bid).grid).cohLvl = 0) (p : Nat × Block) :
    inCohort s bid p = true ↔ p.2.grid = (s.blockAt bid).grid ∧ p.2.idx = (s.blockAt bid).idx := by
  simp only [inCohort, cohortOf, if_pos hc, Bool.and_eq_true, decide_eq_true_eq]
  omega

/-- The status that blocks have which a save may still take (R265, R266). -/
def saveTakes (st : BStatus) : Prop := st = .resident ∨ ∃ till, st = .draining till

/-- A block once a save of a block begins, which takes those of its cohort. -/
def takenBySave (s : State) (bid k : Nat) (b : Block) : Block :=
  if inCohort s bid (k, b) && (b.status = .resident || (match b.status with
    | .draining _ => true
    | _ => false)) then { b with status := .toSave } else b

theorem beginOption_save (hc : (s.gridAt (s.blockAt bid).grid).cohLvl = 0) (hst : saveTakes (s.blockAt bid).status)
    (hone : ∀ k b, (k, b) ∈ s.blocks → b.grid = (s.blockAt bid).grid → b.idx = (s.blockAt bid).idx → k = bid) (hb : ∃ b, kGet bid s.blocks = some b) (c : Nat) :
    ∃ bs, beginOption s bid .save c = { s with blocks := bs } ∧ kGetD bid Block.blank bs = { s.blockAt bid with status := .toSave } ∧
      ∀ b, b ≠ bid → kGetD b Block.blank bs = s.blockAt b := by
  refine ⟨s.blocks.map (fun p => (p.1, takenBySave s bid p.1 p.2)), ?_, ?_, fun b hne => ?_⟩
  · simp only [beginOption]
    congr 2
    funext p
    exact (apply_ite (fun b => (p.1, b)) _ _ _).symm
  · obtain ⟨v, hv⟩ := hb
    have hv' : s.blockAt bid = v := by simp [State.blockAt, kGetD, hv]
    rw [kGetD, kGet_mapEntries, hv, Option.map_some, Option.getD_some, takenBySave, hv']
    rw [if_pos]
    have hin : inCohort s bid (bid, v) = true := (inCohort_alone hc _).2 (by simp [hv'])
    rw [hin, ← hv']
    rcases hst with h | ⟨till, h⟩ <;> simp [h]
  · rw [State.blockAt, kGetD, kGetD, kGet_mapEntries]
    cases hv : kGet b s.blocks with
    | none => rfl
    | some v =>
      have hout : inCohort s bid (b, v) = false := by
        rw [Bool.eq_false_iff]
        intro hin
        obtain ⟨hg, hi⟩ := (inCohort_alone hc _).1 hin
        exact hne (hone b v (mem_of_kGet hv) hg hi)
      rw [Option.map_some, Option.getD_some, Option.getD_some, takenBySave, hout]
      rfl

/-- A block that begins an option is changed alone. -/
theorem beginOption_alone (hc : (s.gridAt (s.blockAt bid).grid).cohLvl = 0) (hst : saveTakes (s.blockAt bid).status)
    (hone : ∀ k b, (k, b) ∈ s.blocks → b.grid = (s.blockAt bid).grid → b.idx = (s.blockAt bid).idx → k = bid) (hb : ∃ b, kGet bid s.blocks = some b) (o : Option3) (c : Nat) :
    ∃ bs, beginOption s bid o c = { s with blocks := bs } ∧ kGetD bid Block.blank bs = { s.blockAt bid with status := beginsAs s o c } ∧
      ∀ b, b ≠ bid → kGetD b Block.blank bs = s.blockAt b := by
  have hne : (s.blockAt bid).status ≠ .toSave := by
    rcases hst with h | ⟨till, h⟩ <;> simp [h]
  cases o with
  | drain => exact ⟨_, beginOption_drain hne c, kGetD_kPut_same _ _ _ _, fun b hb => kGetD_kPut_other _ _ _ _ _ hb⟩
  | save => exact beginOption_save hc hst hone hb c
  | flush => exact ⟨_, beginOption_flush hne c, kGetD_kPut_same _ _ _ _, fun b hb => kGetD_kPut_other _ _ _ _ _ hb⟩

/-- A drain that has overrun goes on as a flush where that is free, else as a save (R265). -/
theorem cheapest_notDrain (hcost : 0 < saveCost s bid) : (cheapest ((optionsOf s bid).filter (fun p => p.1 ≠ .drain))).getD (.save, 0) =
    if canFlush s bid then (.flush, 0) else (.save, saveCost s bid) := by
  unfold optionsOf
  cases drainCost s bid <;> by_cases hf : canFlush s bid <;> simp [hf, cheapest, hcost]

end

theorem preemptionBegins : PreemptionBegins := by
  refine ⟨fun s g hg hcan => ⟨fun hb => ?_, fun v hb hseats hv hres hc hone hblk => ?_⟩, fun s till hst hc hcost hone hblk => ⟨fun hlt => ?_, fun hle => ?_⟩⟩
  · rw [exec, execPreemptionDecision, ← hg]
    exact if_pos (by simp [hb])
  · obtain ⟨bs, hbs, hthis, hother⟩ := beginOption_alone hc (.inl hres) hone hblk v.opt v.cost
    have hgo : (!canPlace s g || decide (g.lrec.bound = 0) || (seatsFor s s.ev.x (fun _ => freshMats g) (fun _ => true) g.nextBlock).isSome) = false := by
      simp [hcan, hb, show seatsFor s s.ev.x (fun _ => freshMats g) (fun _ => true) g.nextBlock = none from hseats]
    refine ⟨{ s with blocks := bs }, ?_, rfl, hthis, hother⟩
    simp only [exec, execPreemptionDecision, ← hg, hgo, hv, Bool.false_eq_true, if_false, List.foldl_cons, List.foldl_nil, hbs]
  · simp only [exec, execDrainTimeout, hst, if_neg (Nat.not_le.2 hlt)]
  · obtain ⟨bs, hbs, hthis, hother⟩ := beginOption_alone hc (.inr ⟨till, hst⟩) hone hblk (if canFlush s s.ev.x then .flush else .save) (if canFlush s s.ev.x then 0 else saveCost s s.ev.x)
    refine ⟨{ s with blocks := bs }, ?_, rfl, hother, hthis.trans ?_⟩
    · simp only [exec, execDrainTimeout, hst, if_pos hle, cheapest_notDrain hcost, ← hbs]
      split <;> rfl
    · split <;> rfl

/-! ### The round (R35) -/

theorem roundPlace_cons (x : Nat) (l : List Nat) (k : Nat) : roundPlace (x :: l) k = if x = k then 1 else if roundPlace l k = 0 then 0 else roundPlace l k + 1 := by
  unfold roundPlace
  by_cases h : x = k
  · simp [List.idxOf?_cons, h]
  · cases hl : l.idxOf? k <;> simp [List.idxOf?_cons, h, hl]

theorem roundPlace_last (l : List Nat) {tid k : Nat} (ht : tid ∉ l) (hk : k ≠ tid) : roundPlace (l ++ [tid]) k < roundPlace (l ++ [tid]) tid := by
  induction l with
  | nil => simp [Ne.symm hk, roundPlace]
  | cons x r ih =>
    obtain ⟨hx, hr⟩ : tid ≠ x ∧ tid ∉ r := by simpa using ht
    have hlt := ih hr
    rw [List.cons_append, roundPlace_cons, roundPlace_cons, if_neg (Ne.symm hx), if_neg (Nat.ne_of_gt (Nat.zero_lt_of_lt hlt))]
    split_ifs <;> omega

/-- A team of the same class that gave no hint and stands before another in the round ranks before it. -/
theorem schedKey_before {rr : List Nat} {p q : Nat × Team} (hcls : q.2.sched.cls = p.2.sched.cls) (hy : q.2.sched.yld = false) (hr : roundPlace rr q.1 < roundPlace rr p.1) :
    listLt (schedKey rr q) (schedKey rr p) = true := by
  cases hp : p.2.sched.yld <;> simp [schedKey, listLt, hcls, hy, hr, hp]

theorem noteIssue_rr (s : State) (tid : Nat) : ∃ l, tid ∉ l ∧ ((noteIssue s tid).partAt (s.teamAt tid).partNo).rr = l ++ [tid] := by
  refine ⟨_, ?_, by rw [noteIssue, State.modPart, State.partAt_setPart_same]⟩
  simp

theorem turnOk_after {s : State} {tid : Nat} {q : Nat × Team} (hq : q ∈ teamsOn s (s.teamAt tid).partNo) (hne : q.1 ≠ tid)
    (hlt : listLt (schedKey (s.partAt (s.teamAt tid).partNo).rr q) (schedKey (s.partAt (s.teamAt tid).partNo).rr (tid, s.teamAt tid)) = true)
    (hst : q.2.sched.stalled ≤ s.cc) (hc : couldIssue s q = true) : turnOk s tid = false := by
  rw [turnOk, Bool.and_eq_false_iff]
  right
  rw [List.all_eq_false]
  exact ⟨q, hq, by simp [hne, hlt, hc, hst]⟩

theorem teamsAge : TeamsAge := by
  refine ⟨fun s tid k hk => ?_, fun s tid q hq hne hcls hy hst hc hr => turnOk_after hq hne (schedKey_before hcls hy hr) hst hc, fun s u hu => ⟨fun hready hage => ?_, fun hyoung => ?_⟩⟩
  · obtain ⟨l, hl, hrr⟩ := noteIssue_rr s tid
    rw [hrr]
    exact roundPlace_last l hl hk
  · rw [exec, execPriorityAging, ← hu]
    exact if_pos (by simp [hready, hage])
  · rw [exec, execPriorityAging, ← hu]
    exact if_neg (by simp [Nat.not_le.2 hyoung])

/-- Settles O54: what begins on a victim, then aging and the round. -/
theorem preemptionAndAging : Obligations.PreemptionAndAging := ⟨preemptionBegins, teamsAge⟩

end Sys2Proof.Machine
end

section
/-! Placement: the choices of R19, R260 and R264, the blocks placed and the cores marked. -/

namespace Sys2Proof.Machine

open Sys2Proof Sys2Proof.Safety Sys2Proof.Claims

/-! ### Choices (R19, R260, R264) -/

/-- What `cheapest` has found among some options. -/
def CheapestOf (l : List (Option3 × Nat)) : Option (Option3 × Nat) → Prop
  | none => l = []
  | some p => p ∈ l ∧ ∀ q ∈ l, p.2 ≤ q.2

theorem cheapest_spec (l : List (Option3 × Nat)) : CheapestOf l (cheapest l) := by
  induction l using List.reverseRecOn with
  | nil => rfl
  | append_singleton l p ih =>
    have hstep : cheapest (l ++ [p]) = match cheapest l with
        | some q => if p.2 < q.2 then some p else some q
        | none => some p := by
      rw [cheapest, List.foldl_append, List.foldl_cons, List.foldl_nil, ← cheapest]
      cases cheapest l <;> rfl
    rw [hstep]
    cases h : cheapest l with
    | none =>
      rw [h] at ih
      obtain rfl : l = [] := ih
      simp [CheapestOf]
    | some q =>
      rw [h] at ih
      obtain ⟨hq, hmin⟩ := ih
      dsimp only
      split
      · next hlt => exact ⟨by simp, fun r hr => (List.mem_append.1 hr).elim (fun hr => (Nat.le_of_lt hlt).trans (hmin r hr)) (fun hr => by simp [List.mem_singleton.1 hr])⟩
      · next hlt => exact ⟨by simp [hq], fun r hr => (List.mem_append.1 hr).elim (hmin r) (fun hr => by simpa [List.mem_singleton.1 hr] using hlt)⟩

theorem chooseOption_spec (l : List (Option3 × Nat)) (bound : Nat) (hl : l ≠ []) : chooseOption l bound ∈ l ∧
    ((∃ p ∈ l, p.2 ≤ bound) → (chooseOption l bound).2 ≤ bound) ∧ ∀ p ∈ l, (p.2 ≤ bound ∨ ∀ q ∈ l, bound < q.2) → (chooseOption l bound).2 ≤ p.2 := by
  have hin := cheapest_spec (l.filter (fun p => p.2 ≤ bound))
  rw [chooseOption]
  cases h : cheapest (l.filter (fun p => p.2 ≤ bound)) with
  | some p =>
    rw [h] at hin
    obtain ⟨hp, hmin⟩ := hin
    obtain ⟨hpl, hpb⟩ : p ∈ l ∧ p.2 ≤ bound := by simpa using hp
    refine ⟨hpl, fun _ => hpb, fun q hq hqb => ?_⟩
    rcases hqb with hqb | hall
    · exact hmin q (by simp [hq, hqb])
    · exact absurd (hall p hpl) (Nat.not_lt.2 hpb)
  | none =>
    rw [h] at hin
    have hall : ∀ q ∈ l, bound < q.2 := by simpa [CheapestOf] using hin
    have hout := cheapest_spec l
    cases h2 : cheapest l with
    | none =>
      rw [h2] at hout
      exact absurd hout hl
    | some p =>
      rw [h2] at hout
      obtain ⟨hp, hmin⟩ := hout
      exact ⟨hp, fun ⟨q, hq, hqb⟩ => absurd (hall q hq) (Nat.not_lt.2 hqb), fun q hq _ => hmin q hq⟩

/-- The step of `bestPart`: a partition that can take the team and has more free slots than the best one so far is the best. -/
def betterPart (w : Nat) (mat : Bool) (b : Option (Nat × Nat)) (p : (Nat × List Nat × Bool) × Nat) : Option (Nat × Nat) :=
  if p.1.1 < Config.teamsPerPart && w ≤ Config.slotsPerPart - p.1.2.1.length && (!mat || !p.1.2.2) && (match b with
    | some q => q.2 < Config.slotsPerPart - p.1.2.1.length
    | none => true) then some (p.2, Config.slotsPerPart - p.1.2.1.length) else b

/-- What the search for a partition has found: the place and the free slots of the best one. -/
def BestOf (w : Nat) (mat : Bool) (ps : List (Nat × List Nat × Bool)) : Option (Nat × Nat) → Prop
  | none => ∀ q ∈ ps, ¬ partTakes w mat q
  | some b => ∃ p, ps[b.1]? = some p ∧ partTakes w mat p ∧ b.2 = 64 - p.2.1.length ∧
      ∀ j q, ps[j]? = some q → partTakes w mat q → p.2.1.length ≤ q.2.1.length ∧ (p.2.1.length = q.2.1.length → b.1 ≤ j)

theorem partTakes_iff {w : Nat} (mat : Bool) (p : Nat × List Nat × Bool) (hw : 1 ≤ w) :
    (p.1 < Config.teamsPerPart && w ≤ Config.slotsPerPart - p.2.1.length && (!mat || !p.2.2)) = true ↔ partTakes w mat p := by
  have hroom : w ≤ Config.slotsPerPart - p.2.1.length ↔ p.2.1.length + w ≤ 64 := by
    simp only [Config.slotsPerPart]
    omega
  simp only [partTakes, Bool.and_eq_true, decide_eq_true_eq, hroom, and_assoc]
  refine and_congr Iff.rfl (and_congr Iff.rfl ?_)
  cases mat <;> simp

theorem getElem?_concat {α : Type} {l : List α} {a x : α} {j : Nat} (h : (l ++ [a])[j]? = some x) : l[j]? = some x ∨ (j = l.length ∧ x = a) := by
  rw [List.getElem?_append] at h
  split at h
  · exact .inl h
  · next hj =>
    obtain ⟨hlt, hx⟩ := List.getElem?_eq_some_iff.1 h
    have hlt : j - l.length < 1 := hlt
    exact .inr ⟨by omega, by simpa using hx.symm⟩

theorem bestOf_betterPart {w : Nat} {mat : Bool} {ps : List (Nat × List Nat × Bool)} (hw : 1 ≤ w) (p : Nat × List Nat × Bool) {b : Option (Nat × Nat)} (h : BestOf w mat ps b) :
    BestOf w mat (ps ++ [p]) (betterPart w mat b (p, ps.length)) := by
  by_cases hp : partTakes w mat p
  · have hlast : (ps ++ [p])[ps.length]? = some p := by simp
    cases b with
    | none =>
      have hb : betterPart w mat none (p, ps.length) = some (ps.length, 64 - p.2.1.length) := by
        rw [betterPart, (partTakes_iff mat p hw).2 hp]
        rfl
      rw [hb]
      refine ⟨p, hlast, hp, rfl, fun j q hq hqt => ?_⟩
      rcases getElem?_concat hq with hq | ⟨rfl, rfl⟩
      · exact absurd hqt (h q (List.mem_of_getElem? hq))
      · exact ⟨le_rfl, fun _ => le_rfl⟩
    | some b =>
      obtain ⟨r, hr, hrt, hfree, hmax⟩ := h
      have hb : betterPart w mat (some b) (p, ps.length) = if b.2 < 64 - p.2.1.length then some (ps.length, 64 - p.2.1.length) else some b := by
        rw [betterPart, (partTakes_iff mat p hw).2 hp]
        simp only [Bool.true_and, decide_eq_true_eq]
        rfl
      obtain ⟨-, hpw, -⟩ := id hp
      obtain ⟨-, hrw, -⟩ := id hrt
      have hlt : b.1 < ps.length := (List.getElem?_eq_some_iff.1 hr).1
      rw [hb]
      split
      · next hmore =>
        refine ⟨p, hlast, hp, rfl, fun j q hq hqt => ?_⟩
        rcases getElem?_concat hq with hq | ⟨rfl, rfl⟩
        · obtain ⟨hle, -⟩ := hmax j q hq hqt
          constructor <;> omega
        · exact ⟨le_rfl, fun _ => le_rfl⟩
      · next hless =>
        refine ⟨r, by rw [List.getElem?_append_left hlt, hr], hrt, hfree, fun j q hq hqt => ?_⟩
        rcases getElem?_concat hq with hq | ⟨rfl, rfl⟩
        · exact hmax j q hq hqt
        · constructor <;> omega
  · have hb : betterPart w mat b (p, ps.length) = b := by
      unfold betterPart
      rw [Bool.eq_false_iff.2 (mt (partTakes_iff mat p hw).1 hp)]
      rfl
    rw [hb]
    cases b with
    | none =>
      intro q hq
      rcases List.mem_append.1 hq with hq | hq
      · exact h q hq
      · rwa [List.mem_singleton.1 hq]
    | some b =>
      obtain ⟨r, hr, hrt, hfree, hmax⟩ := h
      refine ⟨r, by rw [List.getElem?_append_left (List.getElem?_eq_some_iff.1 hr).1, hr], hrt, hfree, fun j q hq hqt => ?_⟩
      rcases getElem?_concat hq with hq | ⟨rfl, rfl⟩
      · exact hmax j q hq hqt
      · exact absurd hqt hp

theorem bestPart_spec {w : Nat} (mat : Bool) (ps : List (Nat × List Nat × Bool)) (hw : 1 ≤ w) : BestOf w mat ps (ps.zipIdx.foldl (betterPart w mat) none) := by
  induction ps using List.reverseRecOn with
  | nil => intro q hq; cases hq
  | append_singleton ps p ih =>
    have hfold : (ps ++ [p]).zipIdx.foldl (betterPart w mat) none = betterPart w mat (ps.zipIdx.foldl (betterPart w mat) none) (p, ps.length) := by
      rw [List.zipIdx_append, List.foldl_append, List.zipIdx_singleton, List.foldl_cons, List.foldl_nil, Nat.zero_add]
    rw [hfold]
    exact bestOf_betterPart hw p ih

theorem bestPart_iff (w : Nat) (mat : Bool) (ps : List (Nat × List Nat × Bool)) (k : Nat) (hw : 1 ≤ w) : bestPart w mat ps = some k ↔
    ∃ p, ps[k]? = some p ∧ partTakes w mat p ∧ ∀ j q, ps[j]? = some q → partTakes w mat q → p.2.1.length ≤ q.2.1.length ∧ (p.2.1.length = q.2.1.length → k ≤ j) := by
  have hbest := bestPart_spec mat ps hw
  have hfold : bestPart w mat ps = (ps.zipIdx.foldl (betterPart w mat) none).map (fun b => b.1) := rfl
  rw [hfold]
  cases h : ps.zipIdx.foldl (betterPart w mat) none with
  | none =>
    rw [h] at hbest
    constructor
    · intro hk; cases hk
    · rintro ⟨p, hp, htakes, -⟩
      exact absurd htakes (hbest p (List.mem_of_getElem? hp))
  | some b =>
    rw [h] at hbest
    obtain ⟨p, hp, htakes, -, hmax⟩ := hbest
    constructor
    · intro hk
      obtain rfl : b.1 = k := by simpa using hk
      exact ⟨p, hp, htakes, hmax⟩
    · rintro ⟨q, hq, hqtakes, hqmax⟩
      obtain ⟨h1, h2⟩ := hmax k q hq hqtakes
      obtain ⟨h3, h4⟩ := hqmax b.1 p hp htakes
      have : b.1 = k := by omega
      simp [this]

/-- What the search for a core has found among some cores: an open one of the most free granules among those with room. -/
def CoreOf (s : State) (gid : Nat) (g : Grid) (mats : List Bool) (idx : Nat) (cs : List Nat) : Option (Nat × Nat × Room × List (Nat × List Nat)) → Prop
  | none => ∀ c ∈ cs, coreOpen s gid g idx c = true → fitRoom (roomOf s c) gid g mats = none
  | some b => b.1 ∈ cs ∧ coreOpen s gid g idx b.1 = true ∧ b.2.1 = (roomOf s b.1).free ∧
      ∀ c ∈ cs, coreOpen s gid g idx c = true → (fitRoom (roomOf s c) gid g mats).isSome = true → (roomOf s c).free ≤ b.2.1

/-- The step of `placeOne` where no core has a room of its own yet. -/
def betterCore (s : State) (gid : Nat) (g : Grid) (mats : List Bool) (idx : Nat) (b : Option (Nat × Nat × Room × List (Nat × List Nat))) (c : Nat) :
    Option (Nat × Nat × Room × List (Nat × List Nat)) :=
  if !coreOpen s gid g idx c then b
  else match fitRoom (roomOf s c) gid g mats with
    | none => b
    | some q => if b.all (fun k => k.2.1 < (roomOf s c).free) then some (c, (roomOf s c).free, q.1, q.2) else b

theorem placeOne_fresh (s : State) (gid : Nat) (g : Grid) (cs : List Nat) (mats : List Bool) (idx : Nat) : placeOne s gid g cs mats idx [] =
    (cs.foldl (betterCore s gid g mats idx) none).map (fun b => (kPut b.1 b.2.2.1 [], (idx, b.1, b.2.2.2))) := rfl

theorem coreOf_skip {s : State} {gid : Nat} {g : Grid} {mats : List Bool} {idx : Nat} {cs : List Nat} {b : Option (Nat × Nat × Room × List (Nat × List Nat))} {c : Nat}
    (h : CoreOf s gid g mats idx cs b) (hc : coreOpen s gid g idx c = true → fitRoom (roomOf s c) gid g mats = none) : CoreOf s gid g mats idx (cs ++ [c]) b := by
  cases b with
  | none =>
    intro k hk ho
    rcases List.mem_append.1 hk with hk | hk
    · exact h k hk ho
    · rw [List.mem_singleton.1 hk] at ho ⊢
      exact hc ho
  | some b =>
    obtain ⟨hmem, hopen, hfree, hmax⟩ := h
    refine ⟨List.mem_append_left _ hmem, hopen, hfree, fun k hk ho hf => ?_⟩
    rcases List.mem_append.1 hk with hk | hk
    · exact hmax k hk ho hf
    · rw [List.mem_singleton.1 hk] at ho hf
      simp [hc ho] at hf

theorem coreOf_betterCore {s : State} {gid : Nat} {g : Grid} {mats : List Bool} {idx : Nat} {cs : List Nat} {b : Option (Nat × Nat × Room × List (Nat × List Nat))} (c : Nat)
    (h : CoreOf s gid g mats idx cs b) : CoreOf s gid g mats idx (cs ++ [c]) (betterCore s gid g mats idx b c) := by
  rw [betterCore]
  cases ho : coreOpen s gid g idx c with
  | false => exact coreOf_skip h (fun hc => by simp [ho] at hc)
  | true =>
    cases hf : fitRoom (roomOf s c) gid g mats with
    | none => exact coreOf_skip h (fun _ => hf)
    | some q =>
      rw [Bool.not_true, if_neg Bool.false_ne_true]
      dsimp only
      split
      · next hbetter =>
        refine ⟨by simp, ho, rfl, fun k hk hok hfk => ?_⟩
        rcases List.mem_append.1 hk with hk | hk
        · cases b with
          | none => simp [h k hk hok] at hfk
          | some b =>
            obtain ⟨-, -, -, hmax⟩ := h
            have hlt : b.2.1 < (roomOf s c).free := by simpa using hbetter
            exact (hmax k hk hok hfk).trans hlt.le
        · rw [List.mem_singleton.1 hk]
      · next hworse =>
        cases b with
        | none => exact absurd rfl hworse
        | some b =>
          obtain ⟨hmem, hopen, hfree, hmax⟩ := h
          have hle : (roomOf s c).free ≤ b.2.1 := by simpa using hworse
          refine ⟨List.mem_append_left _ hmem, hopen, hfree, fun k hk hok hfk => ?_⟩
          rcases List.mem_append.1 hk with hk | hk
          · exact hmax k hk hok hfk
          · rwa [List.mem_singleton.1 hk]

theorem placeOne_spec (s : State) (gid : Nat) (g : Grid) (cs : List Nat) (mats : List Bool) (idx : Nat) : CoreOf s gid g mats idx cs (cs.foldl (betterCore s gid g mats idx) none) := by
  induction cs using List.reverseRecOn with
  | nil => intro c hc; cases hc
  | append_singleton cs c ih =>
    rw [List.foldl_append, List.foldl_cons, List.foldl_nil]
    exact coreOf_betterCore c ih

theorem placementChoices : PlacementChoices := by
  refine ⟨fun w mat ps k hw => bestPart_iff w mat ps k hw, fun s gid g cs mats idx rooms seat h => ?_, fun l bound hl => chooseOption_spec l bound hl⟩
  have hcore := placeOne_spec s gid g cs mats idx
  rw [placeOne_fresh] at h
  obtain ⟨b, hb, hseat⟩ := Option.map_eq_some_iff.1 h
  obtain ⟨-, rfl⟩ := Prod.mk.inj hseat
  rw [hb] at hcore
  obtain ⟨hmem, hopen, hfree, hmax⟩ := hcore
  exact ⟨rfl, hmem, hopen, fun c hc ho hf => hfree ▸ hmax c hc ho hf⟩

/-! ### A block starts (R38-R42, R258, R259) -/

theorem startTeam_grid (s : State) (gid bid i core : Nat) (seat : Nat × List Nat) : (startTeam s gid bid i core seat).grid = gid := rfl

theorem startTeam_sreg (s : State) (gid bid i core : Nat) (seat : Nat × List Nat) (n : Nat) : (startTeam s gid bid i core seat).sreg n =
    if n = 0 then BitVec.ofNat 32 (s.gridAt gid).lrec.args else if n = 1 then BitVec.ofNat 32 ((s.gridAt gid).lrec.args / 2 ^ 32) else 0 := by
  have hlow : (BitVec.ofNat 64 (s.gridAt gid).lrec.args).extractLsb' 0 32 = BitVec.ofNat 32 (s.gridAt gid).lrec.args := by
    apply BitVec.eq_of_toNat_eq
    simp only [BitVec.extractLsb'_toNat, BitVec.toNat_ofNat]
    omega
  have hhigh : (BitVec.ofNat 64 (s.gridAt gid).lrec.args).extractLsb' 32 32 = BitVec.ofNat 32 ((s.gridAt gid).lrec.args / 2 ^ 32) := by
    apply BitVec.eq_of_toNat_eq
    simp only [BitVec.extractLsb'_toNat, BitVec.toNat_ofNat, Nat.shiftRight_eq_div_pow]
    omega
  rw [startTeam, Team.setSpair, Team.sreg_setSreg, Team.sreg_setSreg, hlow, hhigh]
  rcases n with _ | _ | n <;> rfl

theorem started_startTeam (s : State) (gid bid i core : Nat) (seat : Nat × List Nat) : started (startTeam s gid bid i core seat) (s.gridAt gid) bid i core seat :=
  ⟨rfl, rfl, rfl, rfl, rfl, rfl, rfl, rfl, rfl, rfl, rfl, rfl, rfl, rfl, rfl, rfl, rfl, rfl, rfl, rfl, fun n _ => startTeam_sreg s gid bid i core seat n,
    rfl, rfl, rfl, rfl, rfl, rfl, rfl, rfl, rfl, rfl, rfl, rfl⟩

theorem startTeams_cons (s : State) (gid bid core : Nat) (seat : Nat × List Nat) (seats : List (Nat × List Nat)) (k : Nat) :
    ((seat :: seats).zipIdx k).foldl (fun s p => { s with teams := kPut s.nextTid (startTeam s gid bid p.2 core p.1) s.teams, nextTid := s.nextTid + 1 }) s =
    (seats.zipIdx (k + 1)).foldl (fun s p => { s with teams := kPut s.nextTid (startTeam s gid bid p.2 core p.1) s.teams, nextTid := s.nextTid + 1 })
      { s with teams := kPut s.nextTid (startTeam s gid bid k core seat) s.teams, nextTid := s.nextTid + 1 } := rfl

/-- The teams of a block that starts, from a place k of its seats on. -/
theorem startTeams_from (gid bid core : Nat) (seats : List (Nat × List Nat)) (s : State) (k : Nat) : ∃ ts,
    (seats.zipIdx k).foldl (fun s p => { s with teams := kPut s.nextTid (startTeam s gid bid p.2 core p.1) s.teams, nextTid := s.nextTid + 1 }) s =
      { s with teams := ts, nextTid := s.nextTid + seats.length } ∧
    (∀ i, i < seats.length → kGetD (s.nextTid + i) Team.blank ts = startTeam s gid bid (k + i) core (seats.getD i (0, []))) ∧
    ∀ u, u < s.nextTid → kGetD u Team.blank ts = s.teamAt u := by
  induction seats generalizing s k with
  | nil => exact ⟨s.teams, rfl, fun i hi => absurd hi (Nat.not_lt_zero i), fun u _ => rfl⟩
  | cons seat seats ih =>
    obtain ⟨ts, hts, hnew, hold⟩ := ih { s with teams := kPut s.nextTid (startTeam s gid bid k core seat) s.teams, nextTid := s.nextTid + 1 } (k + 1)
    refine ⟨ts, ?_, fun i hi => ?_, fun u hu => ?_⟩
    · rw [startTeams_cons, hts, List.length_cons, Nat.add_comm seats.length 1, ← Nat.add_assoc]
    · cases i with
      | zero => exact (hold s.nextTid (Nat.lt_succ_self _)).trans (kGetD_kPut_same _ _ _ _)
      | succ i =>
        have h := hnew i (by simpa using hi)
        rw [show s.nextTid + (i + 1) = s.nextTid + 1 + i by omega, show k + (i + 1) = k + 1 + i by omega]
        exact h
    · exact (hold u (Nat.lt_succ_of_lt hu)).trans (kGetD_kPut_other _ _ _ _ _ (Nat.ne_of_lt hu))

theorem startTeams_eq (s : State) (gid bid core : Nat) (seats : List (Nat × List Nat)) : ∃ ts,
    startTeams s gid bid core seats = { s with teams := ts, nextTid := s.nextTid + seats.length } ∧
    (∀ i, i < seats.length → kGetD (s.nextTid + i) Team.blank ts = startTeam s gid bid i core (seats.getD i (0, []))) ∧
    ∀ u, u < s.nextTid → kGetD u Team.blank ts = s.teamAt u := by
  obtain ⟨ts, h, hnew, hold⟩ := startTeams_from gid bid core seats s 0
  exact ⟨ts, h, fun i hi => by simpa using hnew i hi, hold⟩

/-- Copies that a block's granules take are dropped; the rest of the machine stays (R259). -/
theorem dropTaken_eq (s : State) (c n : Nat) : ∃ cs, dropTaken s c n = { s with cores := cs } ∧
    (∀ k, { kGetD k Core.reset cs with l1 := (s.coreAt k).l1 } = s.coreAt k) ∧ (∀ k, k ≠ c → kGetD k Core.reset cs = s.coreAt k) ∧
    ∀ line x, kGet line (kGetD c Core.reset cs).l1 = some x → kGet line (s.coreAt c).l1 = some x := by
  rw [dropTaken]
  dsimp only
  split
  · exact ⟨s.cores, rfl, fun k => rfl, fun k _ => rfl, fun line x h => h⟩
  · refine ⟨_, rfl, fun k => ?_, fun k hk => kGetD_kPut_other _ _ _ _ _ hk, fun line x h => ?_⟩
    · by_cases hk : k = c
      · rw [hk, kGetD_kPut_same]
      · rw [kGetD_kPut_other _ _ _ _ _ hk]
        rfl
    · rw [kGetD_kPut_same] at h
      have hf := kGet_filter (fun l => decide (Config.l1Granule l % n < l1Granules (roomOf s c))) (s.coreAt c).l1 line
      rw [hf] at h
      split at h
      · exact h
      · cases h

section
variable {s : State} {gid : Nat}

theorem bindSlots_plain (h : (s.gridAt gid).descs = []) (c : Nat) : bindSlots s c gid = some s := by
  rw [bindSlots]
  split
  · rfl
  · simp [h]

theorem divergePlaced_plain (h : (s.gridAt gid).replay = false) (idx bid c : Nat) : divergePlaced s gid idx bid c = s := by
  simp [divergePlaced, h]

theorem record_off (h : (s.gridAt gid).recording = false) (kind key team lane block : Nat) : record s gid kind key team lane block = s := by
  simp [record, h]

theorem decidePlace_plain (h : (s.gridAt gid).replay = false) (h2 : (s.gridAt gid).recording = false) (idx c : Nat) : decidePlace s gid idx c = s := by
  rw [decidePlace]
  exact (if_neg (by simp [h])).trans (record_off h2 _ _ _ _ _)

/-- A block of a plain grid starts on a core. -/
theorem startBlock_plain (hp : plainGrid (s.gridAt gid)) (idx c : Nat) (seats : List (Nat × List Nat)) : ∃ ts cs,
    startBlock s gid (idx, c, seats) = some { s with
      teams := ts, cores := cs, nextTid := s.nextTid + seats.length, nextBid := s.nextBid + 1
      blocks := kPut s.nextBid { Block.blank with grid := gid, idx := idx, core := c, status := .resident, stashBytes := (s.gridAt gid).stash } s.blocks } ∧
    (∀ i, i < seats.length → kGetD (s.nextTid + i) Team.blank ts = startTeam s gid s.nextBid i c (seats.getD i (0, []))) ∧
    (∀ u, u < s.nextTid → kGetD u Team.blank ts = s.teamAt u) ∧
    (∀ k, { kGetD k Core.reset cs with l1 := (s.coreAt k).l1 } = s.coreAt k) ∧ (∀ k, k ≠ c → kGetD k Core.reset cs = s.coreAt k) ∧
    ∀ line x, kGet line (kGetD c Core.reset cs).l1 = some x → kGet line (s.coreAt c).l1 = some x := by
  obtain ⟨-, hdescs, hreplay, hrec⟩ := hp
  obtain ⟨s1, hs1⟩ : ∃ s1 : State, s1 = { s.setBlock s.nextBid { Block.blank with grid := gid, idx := idx, core := c, status := .resident, stashBytes := (s.gridAt gid).stash } with nextBid := s.nextBid + 1 } := ⟨_, rfl⟩
  obtain ⟨cs, hcs, hcores, hother, hl1⟩ := dropTaken_eq s1 c (l1Granules (roomOf s c))
  obtain ⟨ts, hts, hnew, hold⟩ := startTeams_eq { s1 with cores := cs } gid s.nextBid c seats
  subst hs1
  refine ⟨ts, cs, ?_, hnew, hold, hcores, hother, hl1⟩
  rw [startBlock, bindSlots_plain hdescs]
  dsimp only [Option.map_some]
  rw [hcs, hts, divergePlaced_plain, decidePlace_plain]
  · rfl
  · exact hreplay
  · exact hrec
  · exact hreplay

end

/-! ### Marks (R261) -/

/-- A core once a grid's marks are lifted. -/
def unmarked (gid : Nat) (k : Core) : Core := { k with relayout := if k.relayout = some gid then none else k.relayout }

theorem unmark_eq (s : State) (gid : Nat) : unmark s gid = { s with cores := s.cores.map (fun p => (p.1, unmarked gid p.2)) } := by
  rw [unmark]
  congr 2
  funext p
  by_cases h : p.2.relayout = some gid
  · rw [if_pos h, unmarked, if_pos h]
  · rw [if_neg h, unmarked, if_neg h]

theorem unmark_coreAt (s : State) (gid k : Nat) : (unmark s gid).coreAt k = unmarked gid (s.coreAt k) := by
  rw [unmark_eq]
  simp only [State.coreAt, kGetD, kGet_map]
  cases kGet k s.cores <;> rfl

theorem coreOpen_marked {s : State} {c r gid : Nat} (h : (s.coreAt c).relayout = some r) (hne : gid ≠ r) (g : Grid) (idx : Nat) : coreOpen s gid g idx c = false := by
  simp [coreOpen, h, Ne.symm hne]

/-- A core of a number once a waiting block of a grid marks the cores that could hold it. -/
def markedFor (s : State) (gid k : Nat) (x : Core) : Core :=
  if x.enabled && (s.gridAt gid).diesMask.testBit (dieOf k) && x.relayout = none && granulesFit (roomAbove s k (s.gridAt gid).prio) gid (s.gridAt gid) then { x with relayout := some gid } else x

theorem markCores_eq (s : State) (gid : Nat) : markCores s gid = { s with cores := s.cores.map (fun p => (p.1, markedFor s gid p.1 p.2)) } := by
  rw [markCores]
  congr 2
  funext p
  exact (apply_ite (fun x => (p.1, x)) _ _ _).symm

theorem markCores_coreAt (s : State) (gid k : Nat) : (markCores s gid).coreAt k = markedFor s gid k (s.coreAt k) := by
  rw [markCores_eq]
  simp only [State.coreAt, kGetD, kGet_mapEntries]
  cases kGet k s.cores <;> rfl

theorem execBlockPlacement_full {s : State} (hcan : canPlace s (s.gridAt s.ev.x) = true)
    (h : seatsFor s s.ev.x (fun _ => freshMats (s.gridAt s.ev.x)) (fun _ => true) (s.gridAt s.ev.x).nextBlock = none) : execBlockPlacement s = .next (markCores s s.ev.x) := by
  simp only [execBlockPlacement, hcan, h, Bool.not_true, Bool.false_eq_true, if_false]

theorem execBlockPlacement_one {s w : State} {seat : Seat} (hcan : canPlace s (s.gridAt s.ev.x) = true)
    (h : seatsFor s s.ev.x (fun _ => freshMats (s.gridAt s.ev.x)) (fun _ => true) (s.gridAt s.ev.x).nextBlock = some [seat]) (hw : startBlock s s.ev.x seat = some w) :
    execBlockPlacement s = .next (unmark (w.modGrid s.ev.x (fun g => { g with nextBlock := g.nextBlock + 1 })) s.ev.x) := by
  simp only [execBlockPlacement, hcan, h, hw, Bool.not_true, Bool.false_eq_true, if_false, List.foldl_cons, List.foldl_nil, Option.bind_some, List.length_singleton]

theorem blocksPlaced : BlocksPlaced := by
  intro s g c seats hg hcan hplain _
  subst hg
  refine ⟨fun hseats => ?_, fun hnone => ⟨_, execBlockPlacement_full hcan hnone, by rw [markCores_eq], fun k => ⟨fun ⟨he, hd, hr, hf⟩ => ?_, fun hnot => ?_⟩⟩, fun r hr gid idx hne => coreOpen_marked hr hne _ _⟩
  · obtain ⟨ts, cs, hstart, hnew, hold, hcores, hother, hl1⟩ := startBlock_plain hplain (s.gridAt s.ev.x).nextBlock c seats
    have hcore : ∀ w : State, w.cores = cs → ∀ k, (unmark w s.ev.x).coreAt k = unmarked s.ev.x (kGetD k Core.reset cs) := fun w hw k => by rw [unmark_coreAt, State.coreAt, hw]
    refine ⟨_, execBlockPlacement_one hcan hseats hstart, by rw [unmark_eq]; rfl, fun k => ?_, fun k hk => ?_, fun line x hx => ?_, fun k hk => ?_, ?_, ?_, fun b hb => ?_, fun i hi => ?_, fun u hu => ?_⟩
    · rw [hcore _ rfl, ← hcores k]
      rfl
    · rw [hcore _ rfl, hother k hk]
      rfl
    · rw [l1At, hcore _ rfl] at hx
      exact hl1 line x hx
    · exact kGetD_kPut_other _ _ _ _ _ hk
    · exact kGetD_kPut_same _ _ _ _
    · exact kGetD_kPut_same _ _ _ _
    · exact kGetD_kPut_other _ _ _ _ _ hb
    · have hteam : ∀ w : State, w.teams = ts → w.teamAt (s.nextTid + i) = startTeam s s.ev.x s.nextBid i c (seats.getD i (0, [])) := fun w hw => by rw [State.teamAt, hw, hnew i hi]
      rw [hteam _ (by rw [unmark_eq]; rfl)]
      exact ⟨rfl, started_startTeam _ _ _ _ _ _⟩
    · exact hold u hu
  · rw [markCores_coreAt, markedFor]
    refine if_pos ?_
    rw [show dieOf k = k / 48 from rfl]
    simp [he, hd, hr, hf]
  · rw [markCores_coreAt, markedFor]
    refine if_neg ?_
    rw [show dieOf k = k / 48 from rfl]
    rcases hnot with h | h | h | h <;> simp [h]

/-- Settles O53: the three choices, then the block placed on what they chose. -/
theorem blockPlacement : Obligations.BlockPlacement := ⟨placementChoices, blocksPlaced⟩

end Sys2Proof.Machine
end

section
/-! Blocks leave their cores, saved or flushed, and return (R28, R265, R266). -/

namespace Sys2Proof.Machine

open Sys2Proof Sys2Proof.Safety Sys2Proof.Claims

/-! ### A team is saved -/

/-- A state that differs from another in one team, in partitions, and in cores outside their store buffers. -/
structure OneTeam (s : State) (tid : Nat) (v : Team) (w : State) : Prop where
  eq : ∃ ps cs, w = { s with teams := kPut tid v s.teams, parts := ps, cores := cs }
  sbuf : ∀ c, (w.coreAt c).sbuf = (s.coreAt c).sbuf

section
variable {s w : State} {tid : Nat} {v : Team}

theorem OneTeam.teams (h : OneTeam s tid v w) : w.teams = kPut tid v s.teams := by
  obtain ⟨ps, cs, rfl⟩ := h.eq
  rfl

theorem OneTeam.teamAt (h : OneTeam s tid v w) : w.teamAt tid = v := by
  rw [State.teamAt, h.teams, kGetD_kPut_same]

theorem OneTeam.modTeam (h : OneTeam s tid v w) (f : Team → Team) : OneTeam s tid (f v) (w.modTeam tid f) where
  eq := by
    rw [State.modTeam, h.teamAt, State.setTeamAt, h.teams, kPut_kPut_same]
    obtain ⟨ps, cs, rfl⟩ := h.eq
    exact ⟨ps, cs, rfl⟩
  sbuf := h.sbuf

theorem OneTeam.setPart (h : OneTeam s tid v w) (k : Nat) (p : Part) : OneTeam s tid v (w.setPart k p) where
  eq := by
    obtain ⟨ps, cs, rfl⟩ := h.eq
    exact ⟨_, _, rfl⟩
  sbuf := h.sbuf

theorem OneTeam.modCore (h : OneTeam s tid v w) (c : Nat) (f : Core → Core) (hf : ∀ k, (f k).sbuf = k.sbuf) : OneTeam s tid v (w.modCore c f) where
  eq := by
    obtain ⟨ps, cs, rfl⟩ := h.eq
    exact ⟨_, _, rfl⟩
  sbuf := fun k => by
    by_cases hk : k = c
    · subst hk
      rw [State.modCore, State.coreAt_setCore_same, hf]
      exact h.sbuf k
    · rw [State.modCore, State.coreAt_setCore_other _ _ _ _ hk]
      exact h.sbuf k

end

theorem oneTeam_setTeamAt (s : State) (tid : Nat) (v : Team) : OneTeam s tid v (s.setTeamAt tid v) := ⟨⟨_, _, rfl⟩, fun _ => rfl⟩

theorem oneTeam_drainSfu (s : State) (tid : Nat) : OneTeam s tid (((s.partAt (s.teamAt tid).partNo).sfuQ.filter (fun o => o.tid = tid)).foldl writeSfu (s.teamAt tid)) (drainSfu s tid) :=
  (oneTeam_setTeamAt s tid _).setPart _ _

theorem OneTeam.freeWatches {s w : State} {tid : Nat} {v : Team} (h : OneTeam s tid v w) :
    OneTeam s tid { v with struck := v.struck || (teamWatches w tid).any (fun x => x.st = .struck) } (Machine.freeWatches w tid) :=
  (h.modCore (w.teamAt tid).core (fun k => { k with watch := k.watch.filter (fun x => x.tid ≠ tid) }) (fun _ => rfl)).modTeam
    (fun t => { t with struck := t.struck || (teamWatches w tid).any (fun x => x.st = .struck) })

theorem OneTeam.carryMatrix {s w : State} {tid : Nat} {v : Team} (h : OneTeam s tid v w) :
    OneTeam s tid (if (w.partAt v.partNo).holder = some tid then { v with heldMat := some (w.partAt v.partNo).mat } else v) (Machine.carryMatrix w tid) := by
  rw [Machine.carryMatrix, h.teamAt]
  split
  · exact (h.setPart v.partNo { w.partAt v.partNo with holder := none, mat := Matrix.cleared }).modTeam (fun t => { t with heldMat := some (w.partAt v.partNo).mat })
  · exact h

/-- The wait that a saved team keeps: sleeps and yields are discarded (R265). -/
def savedWait : Wait → Wait
  | .barrier l g e => .barrier l g e
  | .cont a m => .cont a m
  | .rdv e => .rdv e
  | _ => .none

/-- A team out of its slots, as a save leaves it. -/
def savedForm (cc : Nat) (t : Team) : Team := { t with status := .saved, slots := [], xlat := [], wait := savedWait t.wait, sched := { t.sched with savedAt := cc } }

theorem savedForm_idem (cc : Nat) (t : Team) : savedForm cc (savedForm cc t) = savedForm cc t := by
  have hw : savedWait (savedWait t.wait) = savedWait t.wait := by cases t.wait <;> rfl
  simp only [savedForm, hw]

theorem freeWatches_cc (s : State) (tid : Nat) : (freeWatches s tid).cc = s.cc := rfl

theorem carryMatrix_cc (s : State) (tid : Nat) : (carryMatrix s tid).cc = s.cc := by
  rw [carryMatrix]
  split <;> rfl

theorem saveTeam_form (s : State) (tid : Nat) : saveTeam s tid = (carryMatrix (freeWatches (drainSfu s tid) tid) tid).modTeam tid (savedForm s.cc) := by
  rw [saveTeam, carryMatrix_cc]
  rfl

/-- What saving a team does: the team is saved, out of its slots; it alone changes, apart from partitions and watch tables. -/
theorem saveTeam_oneTeam (s : State) (tid : Nat) : ∃ v, OneTeam s tid v (saveTeam s tid) ∧ v.status = .saved ∧ v.slots = [] ∧ v.block = (s.teamAt tid).block := by
  rw [saveTeam_form]
  refine ⟨_, (oneTeam_drainSfu s tid).freeWatches.carryMatrix.modTeam _, rfl, rfl, ?_⟩
  obtain ⟨r, f, h⟩ := foldl_writeSfu_eq ((s.partAt (s.teamAt tid).partNo).sfuQ.filter (fun o => o.tid = tid)) (s.teamAt tid)
  rw [h, savedForm]
  split <;> rfl

/-! ### A team that nothing hinders is saved as it stands -/

/-- A state whose partitions, cores and one team read as another's. -/
structure ReadsAlike (s w : State) (tid : Nat) : Prop where
  part : ∀ k, w.partAt k = s.partAt k
  core : ∀ k, w.coreAt k = s.coreAt k
  team : w.teamAt tid = s.teamAt tid

theorem partAt_setPart_self (s : State) (p k : Nat) : (s.setPart p (s.partAt p)).partAt k = s.partAt k := by
  by_cases hk : k = p
  · rw [hk, State.partAt_setPart_same]
  · rw [State.partAt_setPart_other _ _ _ _ hk]

theorem coreAt_setCore_self (s : State) (c k : Nat) : (s.setCore c (s.coreAt c)).coreAt k = s.coreAt k := by
  by_cases hk : k = c
  · rw [hk, State.coreAt_setCore_same]
  · rw [State.coreAt_setCore_other _ _ _ _ hk]

theorem drainSfu_plain {s : State} {tid : Nat} (h : ∀ o ∈ (s.partAt (s.teamAt tid).partNo).sfuQ, o.tid ≠ tid) : ReadsAlike s (drainSfu s tid) tid := by
  have hnone : (s.partAt (s.teamAt tid).partNo).sfuQ.filter (fun o => o.tid = tid) = [] := by simpa using h
  have hall : (s.partAt (s.teamAt tid).partNo).sfuQ.filter (fun o => o.tid != tid) = (s.partAt (s.teamAt tid).partNo).sfuQ := by simpa using h
  have hd : drainSfu s tid = (s.setTeamAt tid (s.teamAt tid)).setPart (s.teamAt tid).partNo (s.partAt (s.teamAt tid).partNo) := by
    rw [drainSfu]
    simp only [hnone, hall, List.foldl_nil]
  rw [hd]
  exact ⟨fun k => partAt_setPart_self s _ k, fun k => rfl, State.teamAt_setTeamAt_same _ _ _⟩

theorem freeWatches_plain {s : State} {tid : Nat} (h : ∀ w ∈ (s.coreAt (s.teamAt tid).core).watch, w.tid ≠ tid) : ReadsAlike s (freeWatches s tid) tid := by
  have hnone : teamWatches s tid = [] := by simpa [teamWatches] using h
  have hall : (s.coreAt (s.teamAt tid).core).watch.filter (fun w => w.tid ≠ tid) = (s.coreAt (s.teamAt tid).core).watch := by simpa using h
  have hf : freeWatches s tid = (s.setCore (s.teamAt tid).core (s.coreAt (s.teamAt tid).core)).setTeamAt tid (s.teamAt tid) := by
    rw [freeWatches]
    simp only [hnone, hall, State.modCore, State.modTeam, List.any_nil, Bool.or_false]
    rfl
  rw [hf]
  exact ⟨fun k => rfl, fun k => coreAt_setCore_self s _ k, State.teamAt_setTeamAt_same _ _ _⟩

theorem carryMatrix_plain {s : State} {tid : Nat} (h : (s.partAt (s.teamAt tid).partNo).holder ≠ some tid) : carryMatrix s tid = s := if_neg h

theorem saveTeam_plain {s : State} {tid : Nat} (h : plainTeam s tid) :
    (∀ k, (saveTeam s tid).partAt k = s.partAt k) ∧ (∀ k, (saveTeam s tid).coreAt k = s.coreAt k) ∧ (saveTeam s tid).teamAt tid = savedForm s.cc (s.teamAt tid) := by
  obtain ⟨hsfu, hwatch, hhold⟩ := h
  obtain ⟨p1, c1, t1⟩ := drainSfu_plain hsfu
  obtain ⟨p2, c2, t2⟩ := freeWatches_plain (s := drainSfu s tid) (tid := tid) (by rwa [t1, c1])
  rw [saveTeam_form, carryMatrix_plain (by rwa [t2, t1, p2, p1])]
  exact ⟨fun k => (p2 k).trans (p1 k), fun k => (c2 k).trans (c1 k), by rw [State.modTeam, State.teamAt_setTeamAt_same, t2, t1]⟩

/-! ### The teams of a block are saved -/

/-- What saving some teams, one after another, has done. -/
structure TeamsSaved (l : KMap Team) (s w : State) : Prop where
  eq : ∃ ts ps cs, w = { s with teams := ts, parts := ps, cores := cs }
  sbuf : ∀ c, (w.coreAt c).sbuf = (s.coreAt c).sbuf
  sorted : kSorted s.teams = true → kSorted w.teams = true
  others : ∀ k, k ∉ l.map (fun p => p.1) → kGet k w.teams = kGet k s.teams
  saved : ∀ k ∈ l.map (fun p => p.1), ∃ v, kGet k w.teams = some v ∧ v.status = .saved ∧ v.slots = [] ∧ v.block = (s.teamAt k).block
  plain : (∀ k ∈ l.map (fun p => p.1), plainTeam s k) → ∀ k ∈ l.map (fun p => p.1), w.teamAt k = savedForm s.cc (s.teamAt k)

theorem teamAt_of_kGet {s w : State} {k : Nat} (h : kGet k w.teams = kGet k s.teams) : w.teamAt k = s.teamAt k := by
  rw [State.teamAt, State.teamAt, kGetD, kGetD, h]

theorem teamsSaved (l : KMap Team) (s : State) : TeamsSaved l s (l.foldl (fun s p => saveTeam s p.1) s) := by
  induction l generalizing s with
  | nil => exact ⟨⟨_, _, _, rfl⟩, fun _ => rfl, id, fun _ _ => rfl, fun k hk => absurd hk List.not_mem_nil, fun _ k hk => absurd hk List.not_mem_nil⟩
  | cons p l ih =>
    obtain ⟨v, hone, hst, hsl, hbl⟩ := saveTeam_oneTeam s p.1
    obtain ⟨⟨ts, ps, cs, heq⟩, hsbuf, hsorted, hothers, hsaved, hplain⟩ := ih (saveTeam s p.1)
    have hteams : (saveTeam s p.1).teams = kPut p.1 v s.teams := hone.teams
    have hcc : (saveTeam s p.1).cc = s.cc := by
      obtain ⟨_, _, h⟩ := hone.eq
      rw [h]
    have hkey : ∀ k, k ≠ p.1 → kGet k (saveTeam s p.1).teams = kGet k s.teams := fun k hk => by rw [hteams, kGet_kPut_other _ _ _ _ hk]
    have hblock : ∀ k, ((saveTeam s p.1).teamAt k).block = (s.teamAt k).block := fun k => by
      by_cases hk : k = p.1
      · rw [hk, hone.teamAt, hbl]
      · rw [teamAt_of_kGet (hkey k hk)]
    rw [List.foldl_cons]
    refine ⟨?_, fun c => (hsbuf c).trans (hone.sbuf c), fun h => hsorted (by rw [hteams]; exact kSorted_kPut _ _ _ h), fun k hk => ?_, fun k hk => ?_, fun hpl k hk => ?_⟩
    · obtain ⟨ps1, cs1, h1⟩ := hone.eq
      rw [heq, h1]
      exact ⟨_, _, _, rfl⟩
    · obtain ⟨hne, hk⟩ : k ≠ p.1 ∧ k ∉ l.map (fun p => p.1) := by simpa [not_or] using hk
      rw [hothers k hk, hkey k hne]
    · by_cases hl : k ∈ l.map (fun p => p.1)
      · obtain ⟨u, hu, hust, husl, hubl⟩ := hsaved k hl
        exact ⟨u, hu, hust, husl, hubl.trans (hblock k)⟩
      · obtain rfl : k = p.1 := by simpa [hl] using hk
        exact ⟨v, by rw [hothers _ hl, hteams, kGet_kPut_same], hst, hsl, hbl⟩
    · obtain ⟨hpart, hcore, hteam⟩ := saveTeam_plain (hpl p.1 (by simp))
      have hseat : ∀ k, ((saveTeam s p.1).teamAt k).partNo = (s.teamAt k).partNo ∧ ((saveTeam s p.1).teamAt k).core = (s.teamAt k).core := fun k => by
        by_cases hk : k = p.1
        · rw [hk, hteam]
          exact ⟨rfl, rfl⟩
        · rw [teamAt_of_kGet (hkey k hk)]
          exact ⟨rfl, rfl⟩
      have hpl' : ∀ k ∈ l.map (fun p => p.1), plainTeam (saveTeam s p.1) k := fun k hk => by
        obtain ⟨hpn, hcn⟩ := hseat k
        rw [plainTeam, hpn, hcn, hpart, hcore]
        exact hpl k (List.mem_cons_of_mem _ hk)
      by_cases hl : k ∈ l.map (fun p => p.1)
      · rw [hplain hpl' k hl, hcc]
        by_cases hk : k = p.1
        · rw [hk, hteam, savedForm_idem]
        · rw [teamAt_of_kGet (hkey k hk)]
      · obtain rfl : k = p.1 := by simpa [hl] using hk
        rw [teamAt_of_kGet (hothers _ hl), hteam]

/-! ### A block is saved -/

theorem dropSlots_eq (s : State) (c gid : Nat) : ∃ cs, dropSlots s c gid = { s with cores := cs } ∧ ∀ k, (kGetD k Core.reset cs).sbuf = (s.coreAt k).sbuf := by
  rw [dropSlots]
  split
  · exact ⟨s.cores, rfl, fun k => rfl⟩
  · refine ⟨_, rfl, fun k => ?_⟩
    by_cases hk : k = c
    · rw [hk, kGetD_kPut_same]
    · rw [kGetD_kPut_other _ _ _ _ _ hk]
      rfl

theorem rung2Done_eq (s : State) (bid : Nat) : ∃ p, rung2Done s bid = { s with plat := p } := by
  rw [rung2Done]
  split
  · exact ⟨s.plat, rfl⟩
  · exact ⟨_, rfl⟩

theorem drainAll_empty {s : State} {c : Nat} (h : (s.coreAt c).sbuf = []) : drainAll s c = some s := by
  rw [drainAll, h]
  rfl

theorem writeBackBlock_noWindow {s : State} {bid : Nat} (h : (s.blockAt bid).windows = []) : writeBackBlock s bid = some s := by
  rw [writeBackBlock, h]
  rfl

/-- The live teams of a block. -/
def runningTeams (s : State) (bid : Nat) : KMap Team := (blockTeams s bid).filter (fun p => p.2.status = .live)

theorem mem_runningTeams {s : State} {bid : Nat} {p : Nat × Team} : p ∈ runningTeams s bid ↔ p ∈ blockTeams s bid ∧ p.2.status = .live := by
  rw [runningTeams, List.mem_filter, decide_eq_true_eq]

theorem saved_noWindow {b : Block} (h : b.windows = []) (f : Window → Window) : { b with status := .saved, windows := b.windows.map f } = { b with status := .saved } := by
  cases b
  subst h
  rfl

/-- A block without windows, on a core with nothing buffered, is saved with its live teams; nothing else of the memory or the blocks changes. -/
theorem saveBlock_bare {s : State} {bid : Nat} (hw : (s.blockAt bid).windows = []) (hb : (s.coreAt (s.blockAt bid).core).sbuf = []) : ∃ w cs p,
    TeamsSaved (runningTeams s bid) s w ∧ (∀ c, (kGetD c Core.reset cs).sbuf = (s.coreAt c).sbuf) ∧
    saveBlock s bid = some { w with cores := cs, plat := p, blocks := kPut bid { s.blockAt bid with status := .saved } s.blocks } := by
  have hsaved := teamsSaved (runningTeams s bid) s
  obtain ⟨w, hwdef⟩ : ∃ w, w = (runningTeams s bid).foldl (fun s p => saveTeam s p.1) s := ⟨_, rfl⟩
  rw [← hwdef] at hsaved
  have hsb : saveBlock s bid = some (rung2Done (dropSlots (w.modBlock bid (fun b => { b with status := .saved, windows := b.windows.map (fun x => { x with lines := [] }) })) (s.blockAt bid).core (s.blockAt bid).grid) bid) := by
    rw [saveBlock]
    simp only [drainAll_empty hb, writeBackBlock_noWindow hw, Option.bind_some, Option.map_some, hwdef]
    rfl
  have hblocks : w.blocks = s.blocks := by
    obtain ⟨_, _, _, h⟩ := hsaved.eq
    rw [h]
  have hmod : w.modBlock bid (fun b => { b with status := .saved, windows := b.windows.map (fun x => { x with lines := [] }) }) =
      { w with blocks := kPut bid { s.blockAt bid with status := .saved } s.blocks } := by
    have hat : w.blockAt bid = s.blockAt bid := by rw [State.blockAt, hblocks]; rfl
    rw [State.modBlock, hat, State.setBlock, hblocks, saved_noWindow hw]
  obtain ⟨cs, hcs, hsbuf⟩ := dropSlots_eq { w with blocks := kPut bid { s.blockAt bid with status := .saved } s.blocks } (s.blockAt bid).core (s.blockAt bid).grid
  obtain ⟨p, hp⟩ := rung2Done_eq { w with blocks := kPut bid { s.blockAt bid with status := .saved } s.blocks, cores := cs } bid
  exact ⟨w, cs, p, hsaved, fun c => (hsbuf c).trans (hsaved.sbuf c), by rw [hsb, hmod, hcs, hp]⟩

theorem chanRequest_eq (s : State) (cls who line : Nat) : ∃ p, chanRequest s cls who line = { s with plat := p } := by
  rw [chanRequest]
  split
  · exact ⟨s.plat, rfl⟩
  · exact ⟨_, rfl⟩

/-- Noting requests changes the channels' record alone. -/
theorem noteFetches_eq (s : State) (core cls : Nat) (s' : State) : ∃ p, noteFetches s core cls s' = { s' with plat := p } := by
  have hfold : ∀ (l : KMap L2Line) (s' : State), ∃ p, l.foldl (fun s p => chanRequest s cls core p.1) s' = { s' with plat := p } := by
    intro l
    induction l with
    | nil => exact fun s' => ⟨s'.plat, rfl⟩
    | cons q l ih =>
      intro s'
      obtain ⟨p, hp⟩ := chanRequest_eq s' cls core q.1
      obtain ⟨r, hr⟩ := ih { s' with plat := p }
      exact ⟨r, by rw [List.foldl_cons, hp, hr]⟩
  exact hfold _ s'

theorem noteAll_eq (s : State) (cls : Nat) (l : KMap Block) (s' : State) : ∃ p, l.foldl (fun s' p => noteFetches s p.2.core cls s') s' = { s' with plat := p } := by
  induction l generalizing s' with
  | nil => exact ⟨s'.plat, rfl⟩
  | cons q l ih =>
    obtain ⟨p, hp⟩ := noteFetches_eq s q.2.core cls s'
    obtain ⟨r, hr⟩ := ih { s' with plat := p }
    exact ⟨r, by rw [List.foldl_cons, hp, hr]⟩

/-! ### The blocks of a cohort are saved together (R28) -/

theorem kGet_of_mem {α : Type} {k : Nat} {v : α} {m : KMap α} (hs : kSorted m = true) (h : (k, v) ∈ m) : kGet k m = some v := by
  rw [kSorted_iff] at hs
  induction m with
  | nil => cases h
  | cons p r ih =>
    obtain ⟨hp, hr⟩ := List.pairwise_cons.1 hs
    rcases List.mem_cons.1 h with rfl | h
    · simp [kGet]
    · have hlt := hp _ h
      rw [kGet, if_neg (by simpa using Nat.ne_of_gt hlt)]
      exact ih hr h

theorem kSorted_nodup {α : Type} {m : KMap α} (hs : kSorted m = true) : (m.map (fun p => p.1)).Nodup := by
  rw [kSorted_iff] at hs
  exact List.pairwise_map.2 (hs.imp (fun h => Nat.ne_of_lt h))

/-- What saving the blocks of a list, one after another, has done. -/
structure BlocksSaved (l : KMap Block) (s t : State) : Prop where
  mem : t.mem = s.mem
  sorted : kSorted t.teams = true
  sbuf : ∀ c, (t.coreAt c).sbuf = (s.coreAt c).sbuf
  blocks : ∀ q ∈ l, (t.blockAt q.1).status = .saved ∧ (t.blockAt q.1).stash = q.2.stash
  otherBlocks : ∀ k, k ∉ l.map (fun q => q.1) → t.blockAt k = s.blockAt k
  teams : ∀ q ∈ l, ∀ p ∈ runningTeams s q.1, (t.teamAt p.1).status = .saved ∧ (t.teamAt p.1).slots = []
  otherTeams : ∀ k, (s.teamAt k).block ∉ l.map (fun q => q.1) → kGet k t.teams = kGet k s.teams

theorem mem_runningTeams_iff {s : State} (hs : kSorted s.teams = true) {bid : Nat} {p : Nat × Team} :
    p ∈ runningTeams s bid ↔ kGet p.1 s.teams = some p.2 ∧ p.2.block = bid ∧ p.2.status = .live := by
  rw [mem_runningTeams, blockTeams, List.mem_filter, decide_eq_true_eq, and_assoc]
  exact and_congr_left fun _ => ⟨kGet_of_mem hs, mem_of_kGet⟩

theorem teamAt_of_some {s : State} {k : Nat} {v : Team} (h : kGet k s.teams = some v) : s.teamAt k = v := by
  rw [State.teamAt, kGetD, h, Option.getD_some]

theorem saveBlock_saves {s : State} {q : Nat × Block} (hs : kSorted s.teams = true) (hq : s.blockAt q.1 = q.2) (hw : q.2.windows = []) (hb : (s.coreAt q.2.core).sbuf = []) :
    ∃ t, saveBlock s q.1 = some t ∧ BlocksSaved [q] s t ∧ ∀ k, (t.teamAt k).block = (s.teamAt k).block := by
  obtain ⟨w, cs, p, hsaved, hsbuf, ht⟩ := saveBlock_bare (s := s) (bid := q.1) (by rwa [hq]) (by rwa [hq])
  have hsavedAt : ∀ k ∈ (runningTeams s q.1).map (fun p => p.1), (w.teamAt k).status = .saved ∧ (w.teamAt k).slots = [] ∧ (w.teamAt k).block = (s.teamAt k).block := fun k hk => by
    obtain ⟨v, hv, hst, hsl, hbl⟩ := hsaved.saved k hk
    rw [teamAt_of_some hv]
    exact ⟨hst, hsl, hbl⟩
  refine ⟨_, ht, ⟨?_, hsaved.sorted hs, hsbuf, fun r hr => ?_, fun k hk => kGetD_kPut_other _ _ _ _ _ (by simpa using hk), fun r hr u hu => ?_, fun k hk => hsaved.others k fun hmem => ?_⟩, fun k => ?_⟩
  · obtain ⟨_, _, _, h⟩ := hsaved.eq
    rw [h]
  · obtain rfl := List.mem_singleton.1 hr
    rw [State.blockAt, kGetD_kPut_same, hq]
    exact ⟨rfl, rfl⟩
  · obtain rfl := List.mem_singleton.1 hr
    obtain ⟨hst, hsl, -⟩ := hsavedAt u.1 (List.mem_map_of_mem hu)
    exact ⟨hst, hsl⟩
  · obtain ⟨u, hu, rfl⟩ := List.mem_map.1 hmem
    obtain ⟨hget, hbl, -⟩ := (mem_runningTeams_iff hs).1 hu
    exact hk (by simp [teamAt_of_some hget, hbl])
  · by_cases hk : k ∈ (runningTeams s q.1).map (fun p => p.1)
    · obtain ⟨-, -, hbl⟩ := hsavedAt k hk
      exact hbl
    · exact congrArg Team.block (teamAt_of_kGet (s := s) (w := w) (hsaved.others k hk))

theorem saveBlocks (l : KMap Block) (hnd : (l.map (fun q => q.1)).Nodup) (s : State) (hs : kSorted s.teams = true)
    (hl : ∀ q ∈ l, s.blockAt q.1 = q.2 ∧ q.2.windows = [] ∧ (s.coreAt q.2.core).sbuf = []) :
    ∃ t, l.foldl (fun o p => o.bind (fun s => saveBlock s p.1)) (some s) = some t ∧ BlocksSaved l s t := by
  induction l generalizing s with
  | nil => exact ⟨s, rfl, rfl, hs, fun _ => rfl, fun q hq => absurd hq List.not_mem_nil, fun _ _ => rfl, fun q hq => absurd hq List.not_mem_nil, fun _ _ => rfl⟩
  | cons q l ih =>
    obtain ⟨hfresh, hnd⟩ := List.nodup_cons.1 hnd
    obtain ⟨⟨hq, hw, hb⟩, hl⟩ := List.forall_mem_cons.1 hl
    obtain ⟨s1, h1, hone, hblock⟩ := saveBlock_saves hs hq hw hb
    have hne : ∀ r ∈ l, r.1 ≠ q.1 := fun r hr he => hfresh (List.mem_map.2 ⟨r, hr, he⟩)
    obtain ⟨t, ht, hrest⟩ := ih hnd s1 hone.sorted fun r hr => by
      rw [hone.otherBlocks r.1 (by simpa using hne r hr), hone.sbuf]
      exact hl r hr
    refine ⟨t, by rw [List.foldl_cons, Option.bind_some, h1, ht], hrest.mem.trans hone.mem, hrest.sorted, fun c => (hrest.sbuf c).trans (hone.sbuf c), fun r hr => ?_, fun k hk => ?_, fun r hr u hu => ?_, fun k hk => ?_⟩
    · rcases List.mem_cons.1 hr with rfl | hr
      · rw [hrest.otherBlocks _ hfresh]
        exact hone.blocks _ (List.mem_singleton_self _)
      · exact hrest.blocks r hr
    · obtain ⟨hkq, hkl⟩ : k ≠ q.1 ∧ k ∉ l.map (fun q => q.1) := by simpa [not_or] using hk
      rw [hrest.otherBlocks k hkl, hone.otherBlocks k (by simpa using hkq)]
    · obtain ⟨hget, hbl, hlive⟩ := (mem_runningTeams_iff hs).1 hu
      have hat := teamAt_of_some hget
      rcases List.mem_cons.1 hr with rfl | hr
      · rw [teamAt_of_kGet (hrest.otherTeams u.1 (by rw [hblock, hat, hbl]; exact hfresh))]
        exact hone.teams _ (List.mem_singleton_self _) u hu
      · refine hrest.teams r hr u ((mem_runningTeams_iff hone.sorted).2 ⟨?_, hbl, hlive⟩)
        rw [hone.otherTeams u.1 (by rw [hat, hbl]; simpa using hne r hr), hget]
    · obtain ⟨hkq, hkl⟩ : (s.teamAt k).block ≠ q.1 ∧ (s.teamAt k).block ∉ l.map (fun q => q.1) := by simpa [not_or] using hk
      rw [hrest.otherTeams k (by rwa [hblock]), hone.otherTeams k (by simpa using hkq)]

/-! ### BLOCK_SAVE and BLOCK_FLUSH -/

theorem cohortHere_eq (s : State) : cohortHere s s.ev.x = cohortLeft s (s.blockAt s.ev.x) := rfl

theorem execBlockSave_failed {s : State} (h : (s.gridAt (s.blockAt s.ev.x).grid).failed = true) : execBlockSave s = .next s := by
  rw [execBlockSave]
  exact if_pos (by simp [h])

theorem execBlockSave_waits {s : State} {q : Nat × Block} (hq : q ∈ cohortLeft s (s.blockAt s.ev.x)) (h : q.2.status ≠ .toSave ∨ ∃ p ∈ blockTeams s q.1, saveReady s p = false) :
    execBlockSave s = .next s := by
  have hnot : (cohortHere s s.ev.x).all (fun p => p.2.status = .toSave && (blockTeams s p.1).all (saveReady s)) = false := by
    rw [List.all_eq_false]
    refine ⟨q, hq, ?_⟩
    rcases h with h | ⟨p, hp, hr⟩
    · simp [h]
    · have hall : (blockTeams s q.1).all (saveReady s) = false := List.all_eq_false.2 ⟨p, hp, by simp [hr]⟩
      simp [hall]
  rw [execBlockSave]
  exact if_pos (by simp [hnot])

theorem execBlockSave_saves {s t : State} (hst : (s.blockAt s.ev.x).status = .toSave) (hf : (s.gridAt (s.blockAt s.ev.x).grid).failed = false)
    (hq : ∀ q ∈ cohortLeft s (s.blockAt s.ev.x), q.2.status = .toSave ∧ ∀ p ∈ blockTeams s q.1, saveReady s p = true)
    (ht : (cohortLeft s (s.blockAt s.ev.x)).foldl (fun o p => o.bind (fun s => saveBlock s p.1)) (some s) = some t) : ∃ p, execBlockSave s = .next { t with plat := p } := by
  have hall : (cohortHere s s.ev.x).all (fun p => p.2.status = .toSave && (blockTeams s p.1).all (saveReady s)) = true := by
    rw [List.all_eq_true]
    intro q hmem
    obtain ⟨h1, h2⟩ := hq q hmem
    simp [h1, List.all_eq_true.2 h2]
  obtain ⟨p, hp⟩ := noteAll_eq s 2 (cohortHere s s.ev.x) t
  refine ⟨p, ?_⟩
  rw [← hp, execBlockSave]
  simp only [hst, hf, hall]
  rw [cohortHere_eq, ht]
  rfl

theorem execBlockFlush_failed {s : State} (h : (s.gridAt (s.blockAt s.ev.x).grid).failed = true) : execBlockFlush s = .next s := by
  rw [execBlockFlush]
  exact if_pos (by simp [h])

theorem execBlockFlush_waits {s : State} (h : ∃ p ∈ blockTeams s s.ev.x, saveReady s p = false) : execBlockFlush s = .next s := by
  obtain ⟨p, hp, hr⟩ := h
  have hnot : (blockTeams s s.ev.x).all (fun p => saveReady s p && p.2.matQ.isEmpty) = false := List.all_eq_false.2 ⟨p, hp, by simp [hr]⟩
  rw [execBlockFlush]
  exact if_pos (by simp [hnot])

/-- A block of a grid without cohorts is its own cohort. -/
theorem cohortLeft_alone {s : State} {b : Block} (hc : (s.gridAt b.grid).cohLvl = 0) :
    cohortLeft s b = (s.blocks.filter (fun p => p.2.grid = b.grid && p.2.idx = b.idx)).filter (fun p => p.2.status ≠ .saved && p.2.status ≠ .retired) := by
  rw [List.filter_filter, cohortLeft, cohortOf, if_pos hc]
  refine List.filter_congr fun p _ => ?_
  have hidx : (decide (b.idx ≤ p.2.idx) && decide (p.2.idx < b.idx + 1)) = decide (p.2.idx = b.idx) := by
    rw [← Bool.decide_and]
    exact decide_eq_decide.2 (by omega)
  dsimp only
  rw [Bool.and_assoc (decide (p.2.grid = b.grid)), hidx, Bool.and_assoc, Bool.and_comm]

theorem execBlockSave_alone {s : State} (hw : (s.blockAt s.ev.x).windows = []) (hsb : (s.coreAt (s.blockAt s.ev.x).core).sbuf = []) (hst : (s.blockAt s.ev.x).status = .toSave)
    (hf : (s.gridAt (s.blockAt s.ev.x).grid).failed = false) (hone : cohortLeft s (s.blockAt s.ev.x) = [(s.ev.x, s.blockAt s.ev.x)]) (hready : ∀ p ∈ blockTeams s s.ev.x, saveReady s p = true)
    (hteams : ∀ p ∈ blockTeams s s.ev.x, kGet p.1 s.teams = some p.2 ∧ plainTeam s p.1) :
    ∃ t, execBlockSave s = .next t ∧ sameMem s t ∧ t.blockAt s.ev.x = { s.blockAt s.ev.x with status := .saved } ∧ (∀ k, k ≠ s.ev.x → t.blockAt k = s.blockAt k) ∧
      ∀ p ∈ blockTeams s s.ev.x, p.2.status = .live → t.teamAt p.1 = savedForm s.cc p.2 := by
  obtain ⟨w, cs, p, hsaved, -, ht⟩ := saveBlock_bare hw hsb
  obtain ⟨p', hp'⟩ := execBlockSave_saves (s := s) hst hf (by rw [hone]; exact List.forall_mem_singleton.2 ⟨hst, hready⟩) (by rw [hone]; exact ht)
  refine ⟨_, hp', fun a => ?_, kGetD_kPut_same _ _ _ _, fun k hk => kGetD_kPut_other _ _ _ _ _ hk, fun u hu hlive => ?_⟩
  · obtain ⟨_, _, _, h⟩ := hsaved.eq
    rw [h]
  · have hplain : ∀ k ∈ (runningTeams s s.ev.x).map (fun p => p.1), plainTeam s k := fun k hk => by
      obtain ⟨v, hv, rfl⟩ := List.mem_map.1 hk
      obtain ⟨hv, -⟩ := mem_runningTeams.1 hv
      obtain ⟨-, hplain⟩ := hteams v hv
      exact hplain
    obtain ⟨hget, -⟩ := hteams u hu
    have hform := hsaved.plain hplain u.1 (List.mem_map_of_mem (mem_runningTeams.2 ⟨hu, hlive⟩))
    rw [teamAt_of_some hget] at hform
    exact hform

/-! ### A block is flushed -/

theorem freeTeams_eq (l : KMap Team) (s : State) : ∃ ts ps cs, l.foldl (fun s p => carryMatrix (freeWatches s p.1) p.1) s = { s with teams := ts, parts := ps, cores := cs } ∧
    ∀ k, k ∉ l.map (fun p => p.1) → kGet k ts = kGet k s.teams := by
  induction l generalizing s with
  | nil => exact ⟨s.teams, s.parts, s.cores, rfl, fun _ _ => rfl⟩
  | cons p l ih =>
    obtain ⟨ts, ps, cs, hstep, hkeep⟩ : ∃ ts ps cs, carryMatrix (freeWatches s p.1) p.1 = { s with teams := ts, parts := ps, cores := cs } ∧ ∀ k, k ≠ p.1 → kGet k ts = kGet k s.teams := by
      rw [carryMatrix]
      split
      · exact ⟨_, _, _, rfl, fun k hk => (kGet_kPut_other _ _ _ _ hk).trans (kGet_kPut_other _ _ _ _ hk)⟩
      · exact ⟨_, _, _, rfl, fun k hk => kGet_kPut_other _ _ _ _ hk⟩
    obtain ⟨ts', ps', cs', hrest, hkeep'⟩ := ih { s with teams := ts, parts := ps, cores := cs }
    refine ⟨ts', ps', cs', by rw [List.foldl_cons, hstep, hrest], fun k hk => ?_⟩
    obtain ⟨hne, hk⟩ : k ≠ p.1 ∧ k ∉ l.map (fun p => p.1) := by simpa [not_or] using hk
    exact (hkeep' k hk).trans (hkeep k hne)

/-- An entry that stands first under its key and passes a test stands first under it among those that pass. -/
theorem kGet_filter_pass {α : Type} {f : Nat × α → Bool} {k : Nat} {v : α} {m : KMap α} (h : kGet k m = some v) (hv : f (k, v) = true) : kGet k (m.filter f) = some v := by
  induction m with
  | nil => cases h
  | cons p r ih =>
    obtain ⟨j, w⟩ := p
    by_cases hk : k = j
    · subst hk
      obtain rfl : w = v := by simpa [kGet] using h
      rw [List.filter_cons_of_pos hv]
      simp [kGet]
    · have hr := ih (by simpa [kGet, hk] using h)
      by_cases hf : f (j, w) = true
      · rw [List.filter_cons_of_pos hf, kGet, if_neg hk, hr]
      · rw [List.filter_cons_of_neg hf, hr]

theorem kGet_filter_none {α : Type} (f : Nat × α → Bool) {k : Nat} {m : KMap α} (h : kGet k m = none) : kGet k (m.filter f) = none := by
  induction m with
  | nil => rfl
  | cons p r ih =>
    obtain ⟨j, w⟩ := p
    by_cases hk : k = j
    · simp [kGet, hk] at h
    · have hr := ih (by simpa [kGet, hk] using h)
      by_cases hf : f (j, w) = true
      · rw [List.filter_cons_of_pos hf, kGet, if_neg hk, hr]
      · rw [List.filter_cons_of_neg hf, hr]

theorem execBlockFlush_still {s : State} (hsb : (s.coreAt (s.blockAt s.ev.x).core).sbuf = []) (hst : (s.blockAt s.ev.x).status = .toFlush) (hf : (s.gridAt (s.blockAt s.ev.x).grid).failed = false)
    (hready : ∀ p ∈ blockTeams s s.ev.x, saveReady s p = true ∧ p.2.matQ = []) : ∃ ts ps cs p gs bars, (∀ k, k ∉ (blockTeams s s.ev.x).map (fun p => p.1) → kGet k ts = kGet k s.teams) ∧
    execBlockFlush s = .next { s with
      teams := ts.filter (fun p => p.2.block ≠ s.ev.x), parts := ps, cores := cs, plat := p, grids := gs, barriers := bars
      blocks := kPut s.ev.x { Block.blank with grid := (s.blockAt s.ev.x).grid, idx := (s.blockAt s.ev.x).idx, core := (s.blockAt s.ev.x).core, status := .flushed, stashBytes := (s.blockAt s.ev.x).stashBytes } s.blocks } := by
  have hok : (blockTeams s s.ev.x).all (fun p => saveReady s p && p.2.matQ.isEmpty) = true := by
    rw [List.all_eq_true]
    intro p hp
    obtain ⟨h1, h2⟩ := hready p hp
    simp [h1, h2]
  obtain ⟨ts, ps, cs, hfree, hkeep⟩ := freeTeams_eq (blockTeams s s.ev.x) s
  obtain ⟨w, hw, hteams, hrest⟩ : ∃ w, execBlockFlush s = .next (rung2Done (dropSlots w (s.blockAt s.ev.x).core (s.blockAt s.ev.x).grid) s.ev.x) ∧ w.teams = ts.filter (fun p => p.2.block ≠ s.ev.x) ∧
      ∃ ps cs gs bars, w = { s with
        teams := w.teams, parts := ps, cores := cs, grids := gs, barriers := bars
        blocks := kPut s.ev.x { Block.blank with grid := (s.blockAt s.ev.x).grid, idx := (s.blockAt s.ev.x).idx, core := (s.blockAt s.ev.x).core, status := .flushed, stashBytes := (s.blockAt s.ev.x).stashBytes } s.blocks } := by
    rw [execBlockFlush]
    simp only [hst, hf, hok, drainAll_empty hsb, hfree]
    exact ⟨_, rfl, rfl, _, _, _, _, rfl⟩
  obtain ⟨ps, cs, gs, bars, hrest⟩ := hrest
  obtain ⟨cs, hdrop, -⟩ := dropSlots_eq w (s.blockAt s.ev.x).core (s.blockAt s.ev.x).grid
  obtain ⟨p, hdone⟩ := rung2Done_eq { w with cores := cs } s.ev.x
  refine ⟨ts, ps, cs, p, gs, bars, hkeep, ?_⟩
  rw [hw, hdrop, hdone, ← hteams, hrest]

theorem blocksLeave : BlocksLeave := by
  intro s b hb hw hsb
  subst hb
  refine ⟨fun hf => ⟨execBlockSave_failed hf, execBlockFlush_failed hf⟩, fun hst hf hc hone hready hteams => ?_, fun hst hf hready hteams => ?_, fun hst hf hsb hsteams hq => ?_,
    fun q hq h => execBlockSave_waits hq h, fun _ h => execBlockFlush_waits h⟩
  · have hleft : cohortLeft s (s.blockAt s.ev.x) = [(s.ev.x, s.blockAt s.ev.x)] := by
      rw [cohortLeft_alone hc, hone]
      simp [hst]
    obtain ⟨t, ht, hmem, hblock, hother, hform⟩ := execBlockSave_alone hw hsb hst hf hleft hready (fun p hp => (hteams p hp).2)
    refine ⟨t, ht, hmem, hblock, hother, fun p hp hlive => ?_⟩
    rw [hform p hp hlive]
    exact ⟨rfl, rfl⟩
  · obtain ⟨ts, ps, cs, p, gs, bars, hkeep, hflush⟩ := execBlockFlush_still hsb hst hf hready
    refine ⟨_, hflush, fun a => rfl, ?_, kGetD_kPut_same _ _ _ _, fun k hk => kGetD_kPut_other _ _ _ _ _ hk, fun u hu => ?_⟩
    · rw [blockTeams, List.filter_filter]
      exact List.filter_eq_nil_iff.2 fun p _ => by simp
    · have hkey : u ∉ (blockTeams s s.ev.x).map (fun p => p.1) := fun hmem => by
        obtain ⟨p, hp, rfl⟩ := List.mem_map.1 hmem
        obtain ⟨-, hget, -⟩ := hteams p hp
        rw [teamAt_of_some hget] at hu
        rw [blockTeams, List.mem_filter, decide_eq_true_eq] at hp
        obtain ⟨-, hp⟩ := hp
        exact hu hp
      refine teamAt_of_kGet ?_
      dsimp only
      cases hget : kGet u s.teams with
      | none => exact kGet_filter_none _ ((hkeep u hkey).trans hget)
      | some v =>
        rw [teamAt_of_some hget] at hu
        exact kGet_filter_pass ((hkeep u hkey).trans hget) (by simpa using hu)
  · obtain ⟨t, ht, hsaved⟩ := saveBlocks (cohortLeft s (s.blockAt s.ev.x)) (kSorted_nodup (kSorted_filter _ _ hsb)) s hsteams fun q hmem => by
      obtain ⟨-, hw, hbuf, -⟩ := hq q hmem
      exact ⟨by rw [State.blockAt, kGetD, kGet_of_mem hsb (List.mem_of_mem_filter hmem)]; rfl, hw, hbuf⟩
    have hready : ∀ q ∈ cohortLeft s (s.blockAt s.ev.x), q.2.status = .toSave ∧ ∀ p ∈ blockTeams s q.1, saveReady s p = true := fun q hmem => by
      obtain ⟨hst, -, -, hready⟩ := hq q hmem
      exact ⟨hst, hready⟩
    obtain ⟨p, hp⟩ := execBlockSave_saves hst hf hready ht
    refine ⟨_, hp, fun a => by rw [← hsaved.mem], fun q hmem => ?_, fun k hk => hsaved.otherBlocks k fun hmem => ?_⟩
    · obtain ⟨h1, h2⟩ := hsaved.blocks q hmem
      exact ⟨h1, h2, fun u hu hlive => hsaved.teams q hmem u (mem_runningTeams.2 ⟨hu, hlive⟩)⟩
    · obtain ⟨q, hq, rfl⟩ := List.mem_map.1 hmem
      exact hk q hq rfl

/-! ### Acquires leave the blocks without windows as they are (R240) -/

theorem mapped_noWindow {b : Block} (h : b.windows = []) (f : Window → Window) : { b with windows := b.windows.map f } = b := by
  cases b
  subst h
  rfl

theorem mapWindows_eq (s : State) (c : Nat) (g : Window → Window) : ∃ bs, mapWindows s c g = { s with blocks := bs } ∧
    ∀ k, (s.blockAt k).windows = [] → kGetD k Block.blank bs = s.blockAt k := by
  have hfold : ∀ (l : KMap Block) (s : State), ∃ bs, l.foldl (fun s p => s.modBlock p.1 (fun b => { b with windows := b.windows.map g })) s = { s with blocks := bs } ∧
      ∀ k, (s.blockAt k).windows = [] → kGetD k Block.blank bs = s.blockAt k := by
    intro l
    induction l with
    | nil => exact fun s => ⟨s.blocks, rfl, fun _ _ => rfl⟩
    | cons p l ih =>
      intro s
      obtain ⟨bs, hbs, hkeep⟩ := ih (s.modBlock p.1 (fun b => { b with windows := b.windows.map g }))
      have hstep : ∀ k, (s.blockAt k).windows = [] → (s.modBlock p.1 (fun b => { b with windows := b.windows.map g })).blockAt k = s.blockAt k := fun k hk => by
        by_cases he : k = p.1
        · subst he
          rw [State.modBlock, State.blockAt_setBlock_same, mapped_noWindow hk]
        · rw [State.modBlock, State.blockAt_setBlock_other _ _ _ _ he]
      refine ⟨bs, by rw [List.foldl_cons, hbs]; rfl, fun k hk => ?_⟩
      rw [hkeep k (by rw [hstep k hk, hk]), hstep k hk]
  exact hfold _ s

theorem acquireAt_eq (s : State) (c scope : Nat) : ∃ bs cs, acquireAt s c scope = { s with blocks := bs, cores := cs } ∧
    ∀ k, (s.blockAt k).windows = [] → kGetD k Block.blank bs = s.blockAt k := by
  rw [acquireAt]
  split
  · exact ⟨s.blocks, s.cores, rfl, fun _ _ => rfl⟩
  · obtain ⟨bs, hbs, hkeep⟩ := mapWindows_eq (s.modCore c (fun k => { k with
      l1 := k.l1.map (fun p => (p.1, { p.2 with expired := p.2.expired || !(p.2.own && (match l2At s (dieOf c) p.1 with
        | some e => e.wts = p.2.wts && e.ver = p.2.ver && e.arr = p.2.arr
        | none => false)) })) })) c (fun w => { w with lines := w.lines.filter (fun p => p.2.dirty != 0) })
    exact ⟨bs, _, hbs, hkeep⟩

/-! ### BLOCK_RESTART (R265) -/

theorem execBlockRestart_places {s : State} {c : Nat} {rooms : KMap Room} {seats : List (Nat × List Nat)} (hplain : plainGrid (s.gridAt (s.blockAt s.ev.x).grid)) (hw : (s.blockAt s.ev.x).windows = [])
    (hd : s.plat.dispatch = true) (he : (s.gridAt (s.blockAt s.ev.x).grid).ended = false) (hf : (s.gridAt (s.blockAt s.ev.x).grid).failed = false) (hst : (s.blockAt s.ev.x).status = .flushed)
    (hplace : placeOne s (s.blockAt s.ev.x).grid (s.gridAt (s.blockAt s.ev.x).grid) (unitCores s (s.gridAt (s.blockAt s.ev.x).grid).diesMask 0 0)
      (freshMats (s.gridAt (s.blockAt s.ev.x).grid)) (s.blockAt s.ev.x).idx [] = some (rooms, ((s.blockAt s.ev.x).idx, c, seats))) :
    ∃ t ts, execBlockRestart s = .next t ∧ sameMem s t ∧ t.blockAt s.ev.x = { s.blockAt s.ev.x with core := c, status := .resident } ∧ t.teams = ts ∧
      (∀ i, i < seats.length → kGetD (s.nextTid + i) Team.blank ts = startTeam s (s.blockAt s.ev.x).grid s.ev.x i c (seats.getD i (0, []))) ∧
      ∀ u, u < s.nextTid → kGetD u Team.blank ts = s.teamAt u := by
  obtain ⟨-, hdescs, hreplay, hrec⟩ := hplain
  obtain ⟨s1, hs1⟩ : ∃ s1 : State, s1 = s.setBlock s.ev.x { s.blockAt s.ev.x with core := c, status := .resident } := ⟨_, rfl⟩
  obtain ⟨cs, hcs, -⟩ := dropTaken_eq s1 c (l1Granules (roomOf s c))
  obtain ⟨ts, hts, hnew, hold⟩ := startTeams_eq { s1 with cores := cs } (s.blockAt s.ev.x).grid s.ev.x c seats
  subst hs1
  obtain ⟨scope, hexec⟩ : ∃ scope, execBlockRestart s = .next (decidePlace (acquireAt { s.setBlock s.ev.x { s.blockAt s.ev.x with core := c, status := .resident } with
      cores := cs, teams := ts, nextTid := s.nextTid + seats.length } c scope) (s.blockAt s.ev.x).grid (s.blockAt s.ev.x).idx c) := by
    rw [execBlockRestart]
    simp only [hst, hd, he, hf, hplace, bindSlots_plain hdescs, hcs, hts]
    exact ⟨_, rfl⟩
  obtain ⟨bs, cs', hacq, hkeep⟩ := acquireAt_eq { s.setBlock s.ev.x { s.blockAt s.ev.x with core := c, status := .resident } with
      cores := cs, teams := ts, nextTid := s.nextTid + seats.length } c scope
  rw [hacq, decidePlace_plain] at hexec
  · refine ⟨_, ts, hexec, fun a => rfl, ?_, rfl, hnew, hold⟩
    have hat := State.blockAt_setBlock_same s s.ev.x { s.blockAt s.ev.x with core := c, status := .resident }
    exact (hkeep s.ev.x ((congrArg Block.windows hat).trans hw)).trans hat
  · exact hreplay
  · exact hrec

/-! ### BLOCK_RESUME (R266) -/

/-- A saved team as it goes on at a seat of a core. -/
def resumedForm (cc core : Nat) (seat : Nat × List Nat) (u : Team) : Team := { u with
  core := core, part := seat.1, slots := seat.2, status := .live, epoch := u.epoch + 1, heldMat := none
  sched := { u.sched with readySince := cc, savedTime := if u.sched.firstIssue = none then 0 else u.sched.savedTime + (cc - u.sched.savedAt) } }

theorem resumeTeam_eq {s : State} {tid : Nat} {u : Team} (hu : s.teamAt tid = u) (core : Nat) (seat : Nat × List Nat) : ∃ ps,
    resumeTeam s tid core seat = { s with teams := kPut tid (resumedForm s.cc core seat u) s.teams, parts := ps } ∧
    ∀ m, u.heldMat = some m → (kGetD (4 * core + seat.1) Part.reset ps).holder = some tid ∧ (kGetD (4 * core + seat.1) Part.reset ps).mat = m := by
  rw [resumeTeam]
  simp only [State.modTeam, State.teamAt_setTeamAt_same, hu]
  cases hm : u.heldMat with
  | none =>
    refine ⟨s.parts, ?_, fun m h => by cases h⟩
    simp only [State.setTeamAt, resumedForm, Option.isNone_iff_eq_none]
  | some m =>
    refine ⟨kPut (4 * core + seat.1) { s.partAt (4 * core + seat.1) with holder := some tid, mat := m } s.parts, ?_, fun m' h => ?_⟩
    · simp only [State.modPart, State.setPart, State.setTeamAt, State.teamAt, kGetD_kPut_same, kPut_kPut_same, Option.isNone_iff_eq_none, resumedForm]
      rfl
    · cases h
      rw [kGetD_kPut_same]
      exact ⟨rfl, rfl⟩

theorem resumeBlock_goesOn {s : State} {c tid : Nat} {u : Team} {seat : Nat × List Nat} (hplain : plainGrid (s.gridAt (s.blockAt s.ev.x).grid)) (hw : (s.blockAt s.ev.x).windows = [])
    (hby : blockBy s (s.blockAt s.ev.x).grid (s.blockAt s.ev.x).idx = some (s.ev.x, s.blockAt s.ev.x)) (hteams : savedTeams s s.ev.x = [(tid, u)]) (hget : kGet tid s.teams = some u) :
    ∃ t, resumeBlock s (s.blockAt s.ev.x).grid ((s.blockAt s.ev.x).idx, c, [seat]) = some t ∧ sameMem s t ∧ t.blockAt s.ev.x = { s.blockAt s.ev.x with core := c, status := .resident } ∧
      t.teamAt tid = resumedForm s.cc c seat u ∧ ∀ m, u.heldMat = some m → (t.partAt (4 * c + seat.1)).holder = some tid ∧ (t.partAt (4 * c + seat.1)).mat = m := by
  obtain ⟨-, hdescs, hreplay, hrec⟩ := hplain
  obtain ⟨s1, hs1⟩ : ∃ s1 : State, s1 = s.setBlock s.ev.x { s.blockAt s.ev.x with core := c, status := .resident } := ⟨_, rfl⟩
  obtain ⟨cs, hcs, -⟩ := dropTaken_eq s1 c (l1Granules (roomOf s c))
  obtain ⟨ps, hps, hmat⟩ := resumeTeam_eq (s := { s1 with cores := cs }) (u := u) (tid := tid) (by rw [hs1]; exact teamAt_of_some hget) c seat
  have hsaved : savedTeams { s1 with cores := cs } s.ev.x = [(tid, u)] := by rw [hs1]; exact hteams
  subst hs1
  obtain ⟨scope, hexec⟩ : ∃ scope, resumeBlock s (s.blockAt s.ev.x).grid ((s.blockAt s.ev.x).idx, c, [seat]) = some (decidePlace (divergePlaced (acquireAt
      { s.setBlock s.ev.x { s.blockAt s.ev.x with core := c, status := .resident } with cores := cs, teams := kPut tid (resumedForm s.cc c seat u) s.teams, parts := ps } c scope)
      (s.blockAt s.ev.x).grid (s.blockAt s.ev.x).idx s.ev.x c) (s.blockAt s.ev.x).grid (s.blockAt s.ev.x).idx c) := by
    rw [resumeBlock]
    simp only [hby, bindSlots_plain hdescs, Option.map_some, hcs, hsaved, List.zip_cons_cons, List.zip_nil_right, List.foldl_cons, List.foldl_nil, hps]
    exact ⟨_, rfl⟩
  obtain ⟨bs, cs', hacq, hkeep⟩ := acquireAt_eq { s.setBlock s.ev.x { s.blockAt s.ev.x with core := c, status := .resident } with
    cores := cs, teams := kPut tid (resumedForm s.cc c seat u) s.teams, parts := ps } c scope
  rw [hacq, divergePlaced_plain, decidePlace_plain] at hexec
  · refine ⟨_, hexec, fun a => rfl, ?_, kGetD_kPut_same _ _ _ _, hmat⟩
    have hat := State.blockAt_setBlock_same s s.ev.x { s.blockAt s.ev.x with core := c, status := .resident }
    exact (hkeep s.ev.x ((congrArg Block.windows hat).trans hw)).trans hat
  · exact hreplay
  · exact hrec
  · exact hreplay

theorem blocksReturn : BlocksReturn := by
  intro s b g c hb hg hplain hw hd he hf
  subst hb hg
  refine ⟨fun rooms seats hst hplace _ => ?_, fun tid u seat hst hby hone hteams hget hseats => ?_⟩
  · obtain ⟨t, ts, ht, hmem, hblock, rfl, hnew, hold⟩ := execBlockRestart_places hplain hw hd he hf hst hplace
    refine ⟨t, ht, hmem, hblock, fun i hi => ?_, hold⟩
    rw [State.teamAt, hnew i hi]
    exact ⟨rfl, started_startTeam _ _ _ _ _ _⟩
  · obtain ⟨t, ht, hmem, hblock, hteam, hmat⟩ := resumeBlock_goesOn (c := c) (seat := seat) hplain hw hby hteams hget
    refine ⟨t, ?_, hmem, by rw [hblock], by rw [hblock], by rw [hblock], hteam, hmat⟩
    have hcoh : cohortOf (s.gridAt (s.blockAt s.ev.x).grid) (s.blockAt s.ev.x).idx = ((s.blockAt s.ev.x).idx, 1) := by
      obtain ⟨hc, -⟩ := hplain
      rw [cohortOf, if_pos hc]
    have hall : (s.blocks.filter (fun p => p.2.grid = (s.blockAt s.ev.x).grid && (s.blockAt s.ev.x).idx ≤ p.2.idx && p.2.idx < (s.blockAt s.ev.x).idx + 1)).all
        (fun p => p.2.status = .saved || p.2.status = .retired) = true := by
      rw [List.all_eq_true]
      intro p hp
      obtain ⟨hmem, hin⟩ := List.mem_filter.1 hp
      obtain ⟨⟨hg, hlo⟩, hhi⟩ : (p.2.grid = (s.blockAt s.ev.x).grid ∧ (s.blockAt s.ev.x).idx ≤ p.2.idx) ∧ p.2.idx < (s.blockAt s.ev.x).idx + 1 := by simpa using hin
      obtain ⟨-, hv⟩ := hone p.1 p.2 hmem hg (by omega)
      simp [hv, hst]
    rw [exec, execBlockResume]
    simp only [hcoh, hall, hst, hd, he, hf]
    rw [hseats]
    simp only [List.foldl_cons, List.foldl_nil, Option.bind_some, ht]
    rfl

/-- Settles O55: saves and flushes, alone and by cohort, then restart and resume. -/
theorem blocksLeaveAndReturn : Obligations.BlocksLeaveAndReturn := ⟨blocksLeave, blocksReturn⟩

end Sys2Proof.Machine
end

section
/-! Grids start, are refused and complete (R31, R250-R259). -/

namespace Sys2Proof.Machine

open Sys2Proof Sys2Proof.Safety Sys2Proof.Claims

/-! ### Records complete (R250, R255) -/

theorem completionWord_eq (status seq : Nat) : completionWord status seq = leBytes 4 (status * 2 ^ 16 + seq) := by
  rw [completionWord, Nat.mul_comm 65536, show (65536 : Nat) = 2 ^ 16 by norm_num]

/-- A queue once a record of it has completed: a ring record counts in QHEAD. -/
def advanced (w : State) (q : Nat) (child : Bool) : State := if child then w else w.setQueue q { w.queueAt q with head := (w.queueAt q).head + 1 }

theorem completeRecord_writes {s w : State} {die key compVa status : Nat} {r : LaunchRec} (h : cpWrite s die key (compVa + 4 * r.cslot) (leBytes 4 (status * 2 ^ 16 + r.seq)) = .ok w ()) (q : Nat) (child : Bool) :
    completeRecord s q die key compVa child r status = some (advanced w q child) := by
  rw [completeRecord, completionWord_eq]
  dsimp only
  rw [h]
  rfl

theorem recordDone_advanced {s w : State} (q die key comp status : Nat) (child : Bool) (r : LaunchRec) : recordDone s w (advanced w q child) q die key comp status child r := fun _ => rfl

theorem refuse_completes {s w : State} {q status : Nat} {h : Head}
    (hw : cpWrite (popHead s q h) (cpDie (s.queueAt q).dies.toNat) (cpKey q) ((s.queueAt q).comp.toNat + 4 * (recordOf h.bytes).cslot) (leBytes 4 (status * 2 ^ 16 + (recordOf h.bytes).seq)) = .ok w ()) :
    refuse s q h status = some (advanced w q h.parent.isSome) := completeRecord_writes hw q _

/-! ### Grids start (R252, R256, R258) -/

section
variable {s s1 s2 : State} {h : Head}

theorem execGridStart_invalid (hd : s.plat.dispatch = true) (hr : readHead s s.ev.x = (s1, some h)) (hok : recordOk (recordOf h.bytes) = false) :
    execGridStart s = .next ((refuse s1 s.ev.x h 0x0B).getD s1) := by
  simp only [execGridStart, hd, hr, hok]
  rfl

theorem execGridStart_first {x : Startable} (hd : s.plat.dispatch = true) (hr : readHead s s.ev.x = (s1, some h)) (hok : recordOk (recordOf h.bytes) = true)
    (hf : firstStartable s1 = (s2, some x)) (hx : x.q = s.ev.x) : execGridStart s = .next ((startHead s2 x).getD s2) := by
  simp only [execGridStart, hd, hr, hok, hf, hx]
  rfl

end

/-- The reasons for which the head that starts first is refused before its code object has passed, with their statuses (R256, R258). -/
def refusedFor (s : State) (x : Startable) (status : Nat) : Prop :=
  (status = 0x0A ∧ x.failed = true) ∨ (status = 0x0F ∧ x.failed = false ∧ grantOk (recordOf x.head.bytes) = false) ∨
  (x.failed = false ∧ grantOk (recordOf x.head.bytes) = true ∧
    ((status = 0x0B ∧ (kGetD (cpKey x.q) [] (s.dieAt (cpDie (s.queueAt x.q).dies.toNat)).rafs).all rfOk = false) ∨
      ((kGetD (cpKey x.q) [] (s.dieAt (cpDie (s.queueAt x.q).dies.toNat)).rafs).all rfOk = true ∧
        readCode s (cpDie (s.queueAt x.q).dies.toNat) (cpKey x.q) (recordOf x.head.bytes) = .bad status)))

/-- A state in which a queue runs a grid that has just started. -/
def runsGrid (w : State) (gid q : Nat) (g : Grid) : State :=
  let s := { w.setGrid gid g with nextGid := gid + 1 }
  s.setQueue q { s.queueAt q with running := some gid }

theorem startHead_refused {s : State} {x : Startable} {status : Nat} (h : refusedFor s x status) : startHead s x = refuse s x.q x.head status := by
  rcases h with ⟨rfl, hf⟩ | ⟨rfl, hf, hg⟩ | ⟨hf, hg, ⟨rfl, hfile⟩ | ⟨hfile, hcode⟩⟩
  · simp only [startHead, hf]
    rfl
  · simp only [startHead, hf, hg]
    rfl
  · simp only [startHead, hf, hg, hfile]
    rfl
  · simp only [startHead, hf, hg, hfile, hcode]
    rfl

section
variable {s s3 s4 : State} {x : Startable} {hdr : CodeHdr} {ds : List FnDesc} {snap : List (Nat × Nat)} {log : List Decision}
  (hf : x.failed = false) (hg : grantOk (recordOf x.head.bytes) = true) (hfile : (kGetD (cpKey x.q) [] (s.dieAt (cpDie (s.queueAt x.q).dies.toNat)).rafs).all rfOk = true)
  (hcode : readCode s (cpDie (s.queueAt x.q).dies.toNat) (cpKey x.q) (recordOf x.head.bytes) = .ok s3 hdr ds)
  (hsnap : snapshotOf s3 (cpDie (s.queueAt x.q).dies.toNat) (cpKey x.q) (launchDescs (detOf (recordOf x.head.bytes) hdr) ds) = some (s4, snap)) (hlog : startLog s4 x.q x.head hdr = some log)
include hf hg hfile hcode hsnap hlog

theorem startHead_unfit {status : Nat} (hfit : fitStatus s4 s4.nextGid (newGrid s4 x.q x.head hdr ds snap log) = some status) : startHead s x = refuse s4 x.q x.head status := by
  simp only [startHead, hf, hg, hfile, hcode, hsnap, hlog, hfit]
  rfl

theorem startHead_runs (hfit : fitStatus s4 s4.nextGid (newGrid s4 x.q x.head hdr ds snap log) = none) : ∃ (w : State) (gs : List Nat), startHead s x =
    some (runsGrid w s4.nextGid x.q { newGrid s4 x.q x.head hdr ds snap log with groups := gs }) := by
  simp only [startHead, hf, hg, hfile, hcode, hsnap, hlog, hfit]
  exact ⟨_, _, rfl⟩

end

theorem startLog_noReplay {s : State} {q : Nat} {h : Head} {hdr : CodeHdr} {log : List Decision} (hlog : startLog s q h hdr = some log) (hr : replays h hdr = false) : log = [] := by
  rw [startLog, hr] at hlog
  simpa using hlog.symm

theorem gridStarts : GridStarts := by
  intro s s1 q h r hq hd hr hrec
  subst hq hrec
  refine ⟨fun hok w hw => ?_, fun hok s2 x die comp hfirst hx hdie hcomp => ?_⟩
  · rw [exec, execGridStart_invalid hd hr hok, refuse_completes hw]
    exact ⟨_, rfl, recordDone_advanced _ _ _ _ _ _ _⟩
  · rw [exec, execGridStart_first hd hr hok hfirst hx]
    subst hdie hcomp
    rw [← hx]
    refine ⟨fun status w hwhy hw => ?_, fun s3 hdr ds s4 snap log g hf hg hfile hcode hsnap hlog hgrid => ⟨fun status w hfit hw => ?_, fun hfit => ?_⟩⟩
    · rw [startHead_refused hwhy, refuse_completes hw]
      exact ⟨_, rfl, recordDone_advanced _ _ _ _ _ _ _⟩
    · subst hgrid
      rw [startHead_unfit hf hg hfile hcode hsnap hlog hfit, refuse_completes hw]
      exact ⟨_, rfl, recordDone_advanced _ _ _ _ _ _ _⟩
    · subst hgrid
      obtain ⟨w, gs, hrun⟩ := startHead_runs hf hg hfile hcode hsnap hlog hfit
      rw [hrun, Option.getD_some]
      refine ⟨_, rfl, ?_, rfl, ?_, rfl, rfl, rfl, rfl, rfl, rfl, rfl, rfl, rfl, rfl, fun hr => startLog_noReplay hlog hr, rfl, rfl, ?_⟩
      · rw [runsGrid, State.queueAt_setQueue_same]
      · exact congrArg (fun g => { g with groups := [] }) (State.gridAt_setGrid_same w s4.nextGid _)
      · simp [newGrid, detOf]

/-! ### Code objects and fit (R29, R72, R73, R259) -/

theorem headerOk_iff (h : CodeHdr) : headerOk h = true ↔ headerFits h := by
  simp only [headerOk, headerFits, lanesOk, teamsOk, Bool.and_eq_true, Bool.or_eq_true, Bool.not_eq_true', decide_eq_true_eq, List.all_eq_true, and_assoc]
  have hsize : h.coh = 0 ∨ 1 ≤ h.csize ↔ (h.coh ≠ 0 → h.csize ≠ 0) := by omega
  rw [hsize]

theorem sizesOk_iff (r : LaunchRec) (h : CodeHdr) : sizesOk r h = true ↔ blockFits r h := by
  simp [sizesOk, blockFits, lanesOf, teamsOf, stashOf]

section
variable {s u : State} {die key : Nat} {r : LaunchRec} {bs : List Byte} (hread : cpRead s die key r.code 80 = .ok u bs)
include hread

theorem readCode_magic (hm : (headerOf bs).magic ≠ 0x4F524B31) : readCode s die key r = .bad 0x0D := by
  simp only [readCode, hread, if_pos hm]

theorem readCode_hash (hm : (headerOf bs).magic = 0x4F524B31) (hh : (headerOf bs).hash ≠ Config.encodingHash) : readCode s die key r = .bad 0x0E := by
  simp only [readCode, hread, hm, if_pos hh]
  rfl

theorem readCode_fields (hm : (headerOf bs).magic = 0x4F524B31) (hh : (headerOf bs).hash = Config.encodingHash) (hbad : ¬ headerFits (headerOf bs) ∨ ¬ blockFits r (headerOf bs)) :
    readCode s die key r = .bad 0x0D := by
  have hfail : (!headerOk (headerOf bs) || !sizesOk r (headerOf bs)) = true := by
    rw [← headerOk_iff, ← sizesOk_iff] at hbad
    simpa using hbad
  simp only [readCode, hread, hm, hh, hfail]
  rfl

theorem readCode_plain (hm : (headerOf bs).magic = 0x4F524B31) (hh : (headerOf bs).hash = Config.encodingHash) (hfit : headerFits (headerOf bs)) (hsize : blockFits r (headerOf bs))
    (hn : (headerOf bs).nfunc = 0) : readCode s die key r = .ok u (headerOf bs) [] := by
  simp only [readCode, hread, hm, hh, (headerOk_iff _).2 hfit, (sizesOk_iff r _).2 hsize, hn]
  rfl

end

/-- One more block on a core, as long as it has room. -/
theorem idleCapacity_succ (gid : Nat) (g : Grid) (n : Nat) (r : Room) : idleCapacity gid g (n + 1) r = (fitRoom r gid g (freshMats g)).elim 0 (fun q => 1 + idleCapacity gid g n q.1) := by
  change (match fitRoom r gid g (freshMats g) with
    | none => 0
    | some q => 1 + idleCapacity gid g n q.1) = _
  cases fitRoom r gid g (freshMats g) <;> rfl

theorem idleCapacity_zero {gid : Nat} {g : Grid} (h : fitRoom Room.idle gid g (freshMats g) = none) (n : Nat) : idleCapacity gid g (n + 1) Room.idle = 0 := by
  rw [idleCapacity_succ, h, Option.elim_none]

theorem idleCapacity_pos {gid : Nat} {g : Grid} (h : fitRoom Room.idle gid g (freshMats g) ≠ none) (n : Nat) : idleCapacity gid g (n + 1) Room.idle ≠ 0 := by
  obtain ⟨q, hq⟩ := Option.ne_none_iff_exists'.1 h
  rw [idleCapacity_succ, hq, Option.elim_some]
  omega

section
variable {s : State} {gid : Nat} {g : Grid}

theorem fitStatus_cohort (hc : g.cohLvl ≠ 0) (h : ∀ u ∈ unitCaps s g.diesMask g.cohLvl (idleCapacity gid g 64 Room.idle), u.2 < g.cohSize) : fitStatus s gid g = some 0x0C := by
  rw [fitStatus]
  exact if_pos (by simpa [hc] using h)

theorem fitStatus_block (h : g.cohLvl = 0 ∨ ∃ u ∈ unitCaps s g.diesMask g.cohLvl (idleCapacity gid g 64 Room.idle), g.cohSize ≤ u.2) :
    fitStatus s gid g = if idleCapacity gid g 64 Room.idle = 0 || unitCores s g.diesMask 0 0 = [] then some 0x10 else none := by
  rw [fitStatus]
  refine if_neg ?_
  rcases h with h | ⟨u, hu, hle⟩
  · simp [h]
  · intro hall
    obtain ⟨-, hall⟩ := (Bool.and_eq_true _ _ ▸ hall : _ ∧ _)
    have := of_decide_eq_true (List.all_eq_true.1 hall u hu)
    omega

end

theorem refusalStatuses : RefusalStatuses := by
  refine ⟨fun s die key r => ⟨fun k hk => ?_, fun u bs h hread hh => ?_⟩, fun s gid g caps hcaps => ⟨fun hc hall => ?_, fun hfit => ⟨fun hnone => ?_, fun hsome hcores => ?_⟩⟩⟩
  · simp only [readCode, hk]
  · subst hh
    exact ⟨readCode_magic hread, fun hm hh => readCode_hash hread hm hh, fun hm hh => ⟨readCode_fields hread hm hh, readCode_plain hread hm hh⟩⟩
  · subst hcaps
    exact fitStatus_cohort hc hall
  · subst hcaps
    rw [fitStatus_block hfit, idleCapacity_zero hnone 63]
    rfl
  · subst hcaps
    rw [fitStatus_block hfit]
    exact if_neg (by simp [idleCapacity_pos hsome 63, hcores])

/-! ### Completion (R31, R255) -/

theorem drainCores_empty {s : State} (h : ∀ c, c < 384 → (s.coreAt c).sbuf = []) (dies lvl u : Nat) :
    (unitCores s dies lvl u).foldl (fun o c => o.bind (fun s => drainAll s c)) (some s) = some s := by
  have hlt : ∀ c ∈ unitCores s dies lvl u, c < 384 := fun c hc => List.mem_range.1 (List.mem_of_mem_filter hc)
  generalize unitCores s dies lvl u = cs at hlt
  induction cs with
  | nil => rfl
  | cons c cs ih =>
    obtain ⟨hc, hcs⟩ := List.forall_mem_cons.1 hlt
    rw [List.foldl_cons, Option.bind_some, drainAll_empty (h c hc)]
    exact ih hcs

/-- A team once a grid has completed: the grid's teams have ended. -/
def endedOf (gid : Nat) (t : Team) : Team := if t.grid = gid then { t with status := .ended } else t

/-- The state once a grid has completed: its queue runs nothing and has its tail children, the grid and its teams have ended. -/
def completed (v : State) (gid : Nat) (g : Grid) : State :=
  { (v.setQueue g.queue { v.queueAt g.queue with
      running := none
      children := (g.tails.foldl (fun l r => insertTail r l) []).map (fun r => (r.bytes, g.lrec.cscope)) ++ (v.queueAt g.queue).children }).setGrid gid { g with ended := true } with
    teams := v.teams.map (fun p => (p.1, endedOf gid p.2)) }

theorem endTeams_eq (gid : Nat) (l : KMap Team) : l.map (fun p => if p.2.grid = gid then (p.1, { p.2 with status := .ended }) else p) = l.map (fun p => (p.1, endedOf gid p.2)) := by
  refine List.map_congr_left fun p _ => ?_
  exact (apply_ite (fun t => (p.1, t)) _ _ _).symm

theorem execLaunchCompletion_eq {s w : State} {g : Grid} (hg : g = s.gridAt s.ev.x) (hdone : gridDone s s.ev.x = true) (hrec : g.recording = false) (hfull : g.logFull = false)
    (hsb : ∀ c, c < 384 → (s.coreAt c).sbuf = [])
    (hw : cpWrite s g.tailDie g.asid (g.compVa + 4 * g.lrec.cslot) (leBytes 4 (worseStatus g.status 0 * 2 ^ 16 + g.lrec.seq)) = .ok w ()) :
    execLaunchCompletion s = .next (completed (advanced w g.queue g.child) s.ev.x g) := by
  have hlog : writeLog s g = some s := by
    rw [writeLog, hrec]
    rfl
  have hstatus : (if g.logFull = true then 3 else 0) = 0 := by rw [hfull]; rfl
  have hrecord := completeRecord_writes hw g.queue g.child
  simp only [execLaunchCompletion, ← hg, hdone, hstatus, drainCores_empty hsb, hlog, Option.bind_some]
  rw [hrecord]
  simp only [endTeams_eq]
  rfl

theorem launchCompletes : LaunchCompletes := by
  intro s w g hg hdone hrec hfull hsb hw
  obtain ⟨v, hv⟩ : ∃ v, v = advanced w g.queue g.child := ⟨_, rfl⟩
  have hqueues : v = { w with queues := v.queues } := by
    rw [hv, advanced]
    split <;> rfl
  have hqueue : v.queueAt g.queue = { w.queueAt g.queue with head := if g.child then (w.queueAt g.queue).head else (w.queueAt g.queue).head + 1 } := by
    rw [hv, advanced]
    cases g.child
    · exact State.queueAt_setQueue_same _ _ _
    · rfl
  have hother : ∀ q, q ≠ g.queue → v.queueAt q = w.queueAt q := fun q hq => by
    rw [hv, advanced]
    split
    · rfl
    · exact State.queueAt_setQueue_other _ _ _ _ hq
  refine ⟨completed v s.ev.x g, by rw [exec, execLaunchCompletion_eq hg hdone hrec hfull hsb hw, hv], fun a => ?_, kGetD_kPut_same _ _ _ _, ?_, fun q hq => ?_, ?_, fun u hu => ?_⟩
  · rw [completed, hqueues]
    rfl
  · refine (kGetD_kPut_same _ _ _ _).trans ?_
    rw [hqueue]
  · exact (kGetD_kPut_other _ _ _ _ _ hq).trans (hother q hq)
  · rw [completed, hqueues]
    rfl
  · have hteams : (completed v s.ev.x g).teams = w.teams.map (fun p => (p.1, endedOf s.ev.x p.2)) := by
      rw [completed, hqueues]
    rw [State.teamAt, kGetD] at hu ⊢
    rw [State.teamAt, kGetD, hteams, kGet_map]
    cases hget : kGet u w.teams with
    | none => rfl
    | some t =>
      rw [hget] at hu
      exact if_neg hu

/-- Settles O52: the head of a queue, the statuses of a refusal, the completion. -/
theorem gridsStartAndComplete : Obligations.GridsStartAndComplete := ⟨gridStarts, refusalStatuses, launchCompletes⟩

end Sys2Proof.Machine
end

section
/-! Instruction words (R57, R68, R77): what the encoder writes is read back whatever follows it, and what is read is what the encoder writes. -/

namespace Sys2Proof.Laws.OpcodeMap

/-- Each instruction's form names it again: `Statement` for each constructor. -/
theorem instrAt_encOf : ∀ i : Instr, Statement i :=
  @Instr.rec Statement clauseStart nop rep bra braAny braAll braNone brx call callx ifP breakP contP exit yield sleep fork rdv bar bara barw bare tail trap chkw smov sadd
    ssub smul smulhiI32 smulhiZ32 smad sadd64 ssub64 smad64 sshl sshr ssra sand sor sxor snot sminI32 sminZ32 smaxI32 smaxZ32 scmpEq scmpNe scmpLtI32 scmpLeI32 scmpLtZ32
    scmpLeZ32 ssel sld srd rfa rlane spopc sclz sbfeZ32 sbfeI32 mov iadd isub imul imulhiI32 imulhiZ32 imad idivI32 idivZ32 iremI32 iremZ32 iminI32 iminZ32 imaxI32
    imaxZ32 iabs shl shr sra and or xor not bfeZ32 bfeI32 bfi popc clz brev icmpEq icmpNe icmpLtI32 icmpLeI32 icmpLtZ32 icmpLeZ32 sel fadd fsub fmul ffma fmin fmax fcmpEq
    fcmpLt fcmpLe fcmpUn fcmpNe fclass hadd2 hmul2 hfma2 hmin2 hmax2 badd2 bmul2 bfma2 cvtI32 cvtZ32 cvtF32 cvtF16 cvtBf16 cvtNf pack unpk shflIdx shflUp shflDown shflXor
    voteAny voteAll voteBal matchLanes vRedAdd vRedMinI32 vRedMinZ32 vRedMaxI32 vRedMaxZ32 vRedAnd vRedOr vRedXor vRedFadd scanAdd scanMaxI32 scanMaxZ32 pand por pxor
    pnot pmov seg rcp rsq sqrt ex2 lg2 sinp cosp tanh rcpA rsqA ex2A ld8I ld8Z ld16I ld16Z ld32 ld64 ld128 st8 st16 st32 st64 st128 ldw32 ldw64 ldw128 atomAdd atomMinI32
    atomMinZ32 atomMaxI32 atomMaxZ32 atomAnd atomOr atomXor atomXchg atomCas atomFadd atomFmin atomFmax mRedAdd mRedMinI32 mRedMinZ32 mRedMaxI32 mRedMaxZ32 mRedAnd mRedOr
    mRedXor mRedFadd mRedFmin mRedFmax append sealPage fence fenceq pref smap sunmap sflush hdecl hpush cpG2s cpS2g cpG2g cpGath cpScat cpFill cpPlane cpTlr mzero mloop
    mgrp mdrainS mdrainA msave mrest mstat fsdef fcall fret fsload fsdrop fsqry srr srw fmap tlbinv capr phase halt ret elseP endifP loopP endloopP qResultWrite
    appendHomeReservation sealCompletion haloPush copySegment copyCompletion matrixStep matrixQueuePerform fsQueuePerform tret variableLatencyCompletion priorityAging
    sleepExpiry barrierGenerationComplete warpSlotRelease watchValidation residencyScheduleLoad residencyEviction ptsTick ptsBroadcast leaseExpiry l1LeaseSweep
    l2LineSweep externalAgentWrite qtailWrite queueEnable queueDisable queueErrClear registerWrite gridStart launchCompletion blockPlacement preemptionDecision
    drainTimeout blockSave blockFlush blockRestart blockResume pendingTrapTaken pageWalk hostFaultAcknowledge faultWaiterReplay stagedRecordAppend ticketGrant
    ticketPhaseRelease replayDecision rds rdx upg wb fwds fwdx invSnoop snoopResponse wbAcknowledge sealRecall mscEviction extentAdd extentReleaseRequest
    forcedExtentRelease extentAccept extentDecline extentCloseComplete extentDone appendFrameAlloc pageFree channelService telemetryCopy rowActivationAlert laneRetrain
    keyLoad keyRevoke boot recoveryWrite firmwareSwap swapPoint aliveReport swapAliveTimeout swapCommit watchdogPet watchdogRung0 watchdogRung1 watchdogRung2
    watchdogRung3 watchdogRung4 watchdogRung5 getMeasurements keyExchange linkUpMaskChange kstatBusyClear ideKeyProgramming

end Sys2Proof.Laws.OpcodeMap

namespace Sys2Proof.Laws

open Sys2Proof Sys2Proof.Machine

/-! ### The opcode maps name forms -/

/-- The instruction has a form of this class and OP, and these are its fields. -/
def HasForm (k : Cls) (op : Nat) (x : Fields) (i : Instr) : Prop := ∃ f, encOf i = some (f, x) ∧ f.cls = k ∧ f.op = op

theorem hasForm_of_fixed {k : Cls} {op : Nat} {x : Fields} {i j : Instr} (hj : HasForm k op {} j) (h : (if x = {} then some j else none) = some i) : HasForm k op x i := by
  split at h
  · next hx =>
    cases h
    exact hx ▸ hj
  · cases h

theorem opX_hasForm {x : Fields} {op : Nat} {i : Instr} (h : opX x op = some i) : HasForm .x op x i := by
  unfold opX at h
  split at h
  case h_8 | h_10 | h_11 | h_12 | h_15 => exact hasForm_of_fixed ⟨_, rfl, rfl, rfl⟩ h
  all_goals cases h <;> exact ⟨_, rfl, rfl, rfl⟩

theorem opS_hasForm {x : Fields} {op : Nat} {i : Instr} (h : opS x op = some i) : HasForm .s op x i := by
  unfold opS at h
  split at h <;> cases h <;> exact ⟨_, rfl, rfl, rfl⟩

theorem opV_hasForm {x : Fields} {op : Nat} {i : Instr} (h : opV x op = some i) : HasForm .v op x i := by
  unfold opV at h
  split at h <;> cases h <;> exact ⟨_, rfl, rfl, rfl⟩

theorem opQ_hasForm {x : Fields} {op : Nat} {i : Instr} (h : opQ x op = some i) : HasForm .q op x i := by
  unfold opQ at h
  split at h <;> cases h <;> exact ⟨_, rfl, rfl, rfl⟩

theorem opM_hasForm {x : Fields} {op : Nat} {i : Instr} (h : opM x op = some i) : HasForm .m op x i := by
  unfold opM at h
  split at h <;> cases h <;> exact ⟨_, rfl, rfl, rfl⟩

theorem opC_hasForm {x : Fields} {op : Nat} {i : Instr} (h : opC x op = some i) : HasForm .c op x i := by
  unfold opC at h
  split at h <;> cases h <;> exact ⟨_, rfl, rfl, rfl⟩

theorem opA_hasForm {x : Fields} {op : Nat} {i : Instr} (h : opA x op = some i) : HasForm .a op x i := by
  unfold opA at h
  split at h <;> cases h <;> exact ⟨_, rfl, rfl, rfl⟩

theorem opY_hasForm {x : Fields} {op : Nat} {i : Instr} (h : opY x op = some i) : HasForm .y op x i := by
  unfold opY at h
  split at h
  case h_9 => exact hasForm_of_fixed ⟨_, rfl, rfl, rfl⟩ h
  all_goals cases h <;> exact ⟨_, rfl, rfl, rfl⟩

/-- What a class's map lists under an OP has a form of that class and OP. -/
theorem instrAt_hasForm {k : Cls} {op : Nat} {x : Fields} {i : Instr} (h : instrAt k op x = some i) : HasForm k op x i := by
  unfold instrAt at h
  split at h
  · next hop =>
    cases h
    exact ⟨_, rfl, rfl, hop.symm⟩
  · cases k with
    | x => exact opX_hasForm h
    | s => exact opS_hasForm h
    | v => exact opV_hasForm h
    | q => exact opQ_hasForm h
    | m => exact opM_hasForm h
    | c => exact opC_hasForm h
    | a => exact opA_hasForm h
    | y => exact opY_hasForm h

/-! ### Words written and read back -/

theorem encode_of_encOf {i : Instr} {f : Form} {x : Fields} (h : encOf i = some (f, x)) : encode i = some (wordOf f.op x :: (x.mod.toList ++ x.imm.toList)) := by
  unfold encode
  split
  · cases h
  · rw [h]
    rfl

theorem classOf_of_encOf {i : Instr} {f : Form} {x : Fields} (h : encOf i = some (f, x)) : classOf i = some f.cls := by
  unfold classOf
  split
  · cases h
  · rw [h]
    rfl

/-- An instruction of a class is a `rep` or has a form of that class. -/
theorem classOf_cases {i : Instr} {k : Cls} (h : classOf i = some k) : (∃ p, i = .rep k p) ∨ ∃ f x, encOf i = some (f, x) ∧ f.cls = k := by
  unfold classOf at h
  split at h
  · next _ p =>
    cases h
    exact .inl ⟨p, rfl⟩
  · obtain ⟨⟨f, x⟩, hf, hc⟩ := Option.map_eq_some_iff.1 h
    exact .inr ⟨f, x, hf, hc⟩

/-- Extension words are found before whatever follows them. -/
theorem extWords_append (x : Fields) (rest : List Word) : extWords (extOf x) (x.mod.toList ++ x.imm.toList ++ rest) = some (x.mod, x.imm, rest) := by
  obtain ⟨d, a, b, h, m, i⟩ := x
  cases m <;> cases i <;> rfl

/-- The words that EXT announces are those of the fields that carry them. -/
theorem extWords_eq_some {e : Nat} {ws rest : List Word} {m i : Option Word} (h : extWords e ws = some (m, i, rest)) (w : Word) :
    extOf (fieldsOf w m i) = e ∧ ws = m.toList ++ i.toList ++ rest := by
  unfold extWords at h
  split at h <;> cases h <;> exact ⟨rfl, rfl⟩

theorem wordOf_fieldsOf {w : Word} {m i : Option Word} (h : extOf (fieldsOf w m i) = bitsOf w 1 0) : wordOf (opOf w) (fieldsOf w m i) = w := by
  have hw := w.isLt
  have hop : opOf w < 128 := Nat.mod_lt _ (by decide)
  apply BitVec.eq_of_toNat_eq
  rw [wordOf_toNat _ _ hop, h]
  simp only [opOf, bitsOf, fieldsOf, BitVec.extractLsb'_toNat, Nat.shiftRight_eq_div_pow]
  omega

/-- Words of an instruction with a form are read back in its class. -/
theorem decode_form {i : Instr} {f : Form} {x : Fields} (h : encOf i = some (f, x)) (rest : List Word) :
    decode f.cls (wordOf f.op x :: (x.mod.toList ++ x.imm.toList) ++ rest) = .ok i rest := by
  obtain ⟨hlt, hi⟩ := OpcodeMap.instrAt_encOf i f x h
  have hop : opOf (wordOf f.op x) = f.op := opOf_wordOf f.op x (by omega)
  simp only [List.cons_append, decode, hop, extOf_wordOf f.op x (by omega), extWords_append, fieldsOf_wordOf f.op x (by omega), hi]
  exact if_neg (by omega)

/-- The number a `rep` word is. -/
theorem repWordOf_toNat (p : RepWord) :
    (repWordOf p).toNat = 0x7F * 2 ^ 25 + p.cnt.toNat * 2 ^ 19 + p.sd.toNat * 2 ^ 18 + p.sa.toNat * 2 ^ 17 + p.sb.toNat * 2 ^ 16 + p.by2.toNat * 2 ^ 15 := by
  obtain ⟨cnt, sd, sa, sb, by2⟩ := p
  have h1 := cnt.isLt; have h2 := sd.toNat_lt; have h3 := sa.toNat_lt; have h4 := sb.toNat_lt; have h5 := by2.toNat_lt
  have h0 : (0 : BitVec 15).toNat = 0 := rfl
  unfold repWordOf
  simp only [BitVec.toNat_append, BitVec.toNat_ofNat, BitVec.toNat_ofBool, h0]
  rw [← Nat.shiftLeft_add_eq_or_of_lt (by omega), ← Nat.shiftLeft_add_eq_or_of_lt (by omega), ← Nat.shiftLeft_add_eq_or_of_lt (by omega), ← Nat.shiftLeft_add_eq_or_of_lt (by omega),
    ← Nat.shiftLeft_add_eq_or_of_lt (by omega), ← Nat.shiftLeft_add_eq_or_of_lt (by omega)]
  simp only [Nat.shiftLeft_eq]
  omega

theorem repWordOf_repOf {w : Word} (hop : opOf w = 0x7F) (h0 : bitsOf w 14 0 = 0) : repWordOf (repOf w) = w := by
  have hw := w.isLt
  apply BitVec.eq_of_toNat_eq
  rw [repWordOf_toNat]
  simp only [opOf, bitsOf, repOf, BitVec.extractLsb'_toNat, BitVec.getLsbD, Nat.toNat_testBit, Nat.shiftRight_eq_div_pow] at *
  omega

/-- A `rep` has no extension words: what follows its word is not looked at. -/
theorem decode_rep_append {k : Cls} {w : Word} {p : RepWord} (h : decode k [w] = .ok (.rep k p) []) (rest : List Word) : decode k (w :: rest) = .ok (.rep k p) rest := by
  unfold decode at h ⊢
  simp only at h ⊢
  split at h
  · next hop =>
    rw [if_pos hop]
    split at h
    · next h0 =>
      cases h
      exact if_pos h0
    · cases h
  · split at h
    · cases h
    · next m im rs he =>
      split at h
      · next j hj =>
        cases h
        obtain ⟨f, hf, -⟩ := instrAt_hasForm hj
        cases hf
      · cases h

theorem decode_encode {i : Instr} {k : Cls} {ws : List Word} (hk : classOf i = some k) (he : encode i = some ws) (rest : List Word) : decode k (ws ++ rest) = .ok i rest := by
  rcases classOf_cases hk with ⟨p, rfl⟩ | ⟨f, x, hf, rfl⟩
  · cases he
    exact decode_rep_append (decode_repWordOf k p) rest
  · cases (encode_of_encOf hf).symm.trans he
    exact decode_form hf rest

theorem encode_decode {i : Instr} {k : Cls} {ws rest : List Word} (h : decode k ws = .ok i rest) : classOf i = some k ∧ ∃ us, encode i = some us ∧ ws = us ++ rest := by
  unfold decode at h
  split at h
  · cases h
  · next w r =>
    split at h
    · next hop =>
      split at h
      · next h0 =>
        cases h
        exact ⟨rfl, [w], congrArg (fun v => some [v]) (repWordOf_repOf hop h0), rfl⟩
      · cases h
    · split at h
      · cases h
      · next m im rs he =>
        split at h
        · next j hj =>
          cases h
          obtain ⟨f, hf, rfl, hop⟩ := instrAt_hasForm hj
          obtain ⟨hext, rfl⟩ := extWords_eq_some he w
          refine ⟨classOf_of_encOf hf, _, encode_of_encOf hf, ?_⟩
          rw [hop, wordOf_fieldsOf hext]
          rfl
        · cases h

/-- Settles O17: written words are read back (`decode_encode`), read words are those written (`encode_decode`). -/
theorem decodeEncode : Obligations.DecodeEncode :=
  ⟨fun _ _ _ rest hk he => decode_encode hk he rest, fun _ _ _ _ h => encode_decode h⟩

theorem decode_of_encode {i : Instr} {k : Cls} {ws : List Word} (hk : classOf i = some k) (he : encode i = some ws) : decode k ws = .ok i [] := by
  simpa using decode_encode hk he []

/-- Settles O16: each list of words is what the encoder writes for its instruction. -/
theorem decodedWords : Obligations.DecodedWords :=
  ⟨decode_of_encode rfl rfl, decode_of_encode rfl rfl, decode_of_encode rfl rfl, decode_of_encode rfl rfl, decode_of_encode rfl rfl, decode_of_encode rfl rfl,
    decode_of_encode rfl rfl, decode_of_encode rfl rfl, decode_of_encode rfl rfl, decode_of_encode rfl rfl⟩

end Sys2Proof.Laws
end

section
/-! A team's turn, and the cycle that follows it (R14, R34, R35, R51, R69, R242, R244, R252). -/

namespace Sys2Proof.Machine

open Sys2Proof Sys2Proof.Claims

/-! ### What a cycle leaves alone -/

/-- Memory, grids, partitions and teams stand as before, and of a block only the lines of its windows may differ. -/
structure TimeKeeps (t u : State) : Prop where
  mem : u.mem = t.mem
  grids : u.grids = t.grids
  parts : u.parts = t.parts
  teams : u.teams = t.teams
  block : ∀ k, { u.blockAt k with windows := (t.blockAt k).windows } = t.blockAt k

theorem TimeKeeps.refl (t : State) : TimeKeeps t t := ⟨rfl, rfl, rfl, rfl, fun _ => rfl⟩

section
variable {t u : State} (h : TimeKeeps t u)
include h

theorem TimeKeeps.setCore (c : Nat) (v : Core) : TimeKeeps t (u.setCore c v) := ⟨h.mem, h.grids, h.parts, h.teams, h.block⟩

theorem TimeKeeps.setDie (d : Nat) (v : Die) : TimeKeeps t (u.setDie d v) := ⟨h.mem, h.grids, h.parts, h.teams, h.block⟩

theorem TimeKeeps.mapBlockWindows (b : Nat) (g : Window → Window) : TimeKeeps t (u.modBlock b (fun x => { x with windows := x.windows.map g })) := by
  refine ⟨h.mem, h.grids, h.parts, h.teams, fun k => ?_⟩
  by_cases hk : k = b
  · subst hk
    rw [State.modBlock, State.blockAt_setBlock_same]
    exact h.block k
  · rw [State.modBlock, State.blockAt_setBlock_other _ _ _ _ hk]
    exact h.block k

theorem TimeKeeps.mapWindows (c : Nat) (g : Window → Window) : TimeKeeps t (mapWindows u c g) := foldl_keeps (P := TimeKeeps t) (fun _ p h => h.mapBlockWindows p.1 g) _ h

theorem TimeKeeps.setPts (c : Nat) (v : BitVec 16) : TimeKeeps t (setPts u c v) := by
  rw [Machine.setPts]
  split
  · exact h
  · exact (h.setCore _ _).mapWindows _ _

theorem TimeKeeps.tellPts (d : Nat) : TimeKeeps t (tellPts u d) := by
  rw [Machine.tellPts]
  split
  · exact h
  · refine foldl_keeps (P := TimeKeeps t) (fun _ p h => ?_) _ (h.setDie _ _)
    split
    · exact h.setPts _ _
    · exact h

theorem TimeKeeps.lateTicks (a b : Nat) : TimeKeeps t (lateTicks u a b) :=
  foldl_keeps (P := TimeKeeps t) (fun _ _ h => iteInduction (fun _ => h) (fun _ => h.setPts _ _)) _ h

theorem TimeKeeps.lateBroadcasts (a b : Nat) : TimeKeeps t (lateBroadcasts u a b) := by
  refine foldl_keeps (P := TimeKeeps t) (fun _ d h => ?_) _ h
  split
  · exact h
  · exact h.tellPts _

theorem TimeKeeps.visitAll : TimeKeeps t (visitAll u) := ⟨h.mem, h.grids, h.parts, h.teams, h.block⟩

end

theorem TimeKeeps.passSpans {t : State} (n a b : Nat) {u : State} (h : TimeKeeps t u) : TimeKeeps t (passSpans n a b u) := by
  induction n generalizing a u with
  | zero => exact h
  | succ n ih =>
    rw [Machine.passSpans]
    dsimp only
    split
    · exact h
    · apply ih
      split
      · exact ((h.lateTicks _ _).lateBroadcasts _ _).visitAll
      · exact (h.lateTicks _ _).lateBroadcasts _ _

theorem passTime_keeps (t : State) (n : Nat) : TimeKeeps t (passTime t n) := by
  obtain ⟨h1, h2, h3, h4, h5⟩ := (TimeKeeps.refl t).passSpans (n / 2097152 - t.cc / 2097152 + 1) (t.cc / 256) (n / 256)
  exact ⟨h1, h2, h3, h4, h5⟩

/-- The times kept for the heads are in the queues. -/
theorem noteHeads_eq (s : State) : ∃ q, noteHeads s = { s with queues := q } := by
  refine foldl_keeps (P := fun u => ∃ q, u = { s with queues := q }) (fun u p hu => ?_) _ ⟨s.queues, rfl⟩
  obtain ⟨q, rfl⟩ := hu
  rw [noteHead]
  split
  · exact ⟨_, rfl⟩
  · exact ⟨q, rfl⟩

/-- What marking a team ready makes of it. -/
def markedTeam (s s' : State) (k : Nat) (u : Team) : Team :=
  if !teamReady s' k then u
  else if teamReady s k then { u with sched := u.sched.aged s'.cc }
  else { u with sched := { u.sched with readySince := s'.cc } }

theorem markReady_teams (s s' : State) : (markReady s s').teams = s'.teams.map (fun p => (p.1, markedTeam s s' p.1 p.2)) := by
  refine List.map_congr_left fun p _ => ?_
  rw [markedTeam]
  split_ifs <;> rfl

/-- An update of every team by its number that leaves the blank team's view in `f` alone acts on each team read. -/
theorem view_mapTeams {α : Type} (f : Team → α) (g : Nat → Team → Team) (m : KMap Team) (k : Nat) (h : ∀ u, f (g k u) = f u) :
    f (kGetD k Team.blank (m.map (fun p => (p.1, g p.1 p.2)))) = f (kGetD k Team.blank m) := by
  rw [kGetD, kGetD, kGet_mapEntries]
  cases kGet k m with
  | none => rfl
  | some u => exact h u

theorem markedTeam_sched (s s' : State) (k : Nat) (u : Team) (x : Sched) : { markedTeam s s' k u with sched := x } = { u with sched := x } := by
  rw [markedTeam]
  split_ifs <;> rfl

theorem markReady_teamAt (s s' : State) (k : Nat) (x : Sched) : { (markReady s s').teamAt k with sched := x } = { s'.teamAt k with sched := x } := by
  rw [State.teamAt, markReady_teams]
  exact view_mapTeams (fun u => { u with sched := x }) (markedTeam s s') s'.teams k (fun u => markedTeam_sched s s' k u x)

/-- A cycle passes: time goes on by one, and nothing changes but leases, times of waiting, queues and the plane. -/
theorem tick_frame (s t : State) : (tick s t).cc = t.cc + 1 ∧ (tick s t).mem = t.mem ∧ (tick s t).grids = t.grids ∧ (tick s t).parts = t.parts ∧
    (∀ k, { (tick s t).blockAt k with windows := (t.blockAt k).windows } = t.blockAt k) ∧ ∀ k, { (tick s t).teamAt k with sched := (t.teamAt k).sched } = t.teamAt k := by
  have hcc : (passTime { t with cc := s.cc } (t.cc + 1)).cc = t.cc + 1 := rfl
  obtain ⟨hmem, hgrids, hparts, hteams, hblock⟩ := passTime_keeps { t with cc := s.cc } (t.cc + 1)
  generalize hu : passTime { t with cc := s.cc } (t.cc + 1) = u at *
  obtain ⟨q, hq⟩ := noteHeads_eq (markReady s u)
  rw [tick, hu, hq]
  refine ⟨hcc, hmem, hgrids, hparts, hblock, fun k => ?_⟩
  refine (markReady_teamAt s u k (t.teamAt k).sched).trans ?_
  rw [State.teamAt, hteams]
  rfl

/-! ### What noting an issue changes -/

/-- What the issue of another team, in partition p, makes of a team. -/
def notedTeam (tid p : Nat) (k : Nat) (u : Team) : Team :=
  if k = tid then u
  else { u with
    wait := match u.wait with
      | .yielded l => .yielded (l.filter (fun k => k ≠ tid))
      | w => w
    sched := { u.sched with yld := u.sched.yld && u.partNo ≠ p } }

theorem noteIssue_teams (t : State) (tid : Nat) : (noteIssue t tid).teams = t.teams.map (fun q => (q.1, notedTeam tid (t.teamAt tid).partNo q.1 q.2)) := by
  refine List.map_congr_left fun q _ => ?_
  rw [notedTeam]
  split_ifs <;> rfl

theorem noteIssue_frame (t : State) (tid : Nat) : (noteIssue t tid).teamAt tid = t.teamAt tid ∧
    (∀ k, { (noteIssue t tid).teamAt k with wait := (t.teamAt k).wait, sched := (t.teamAt k).sched } = t.teamAt k) ∧
    (∀ k, k ≠ (t.teamAt tid).partNo → (noteIssue t tid).partAt k = t.partAt k) ∧ { noteIssue t tid with teams := t.teams, parts := t.parts } = t := by
  refine ⟨?_, fun k => ?_, fun k hk => ?_, rfl⟩
  · rw [State.teamAt, noteIssue_teams]
    exact view_mapTeams id (notedTeam tid _) t.teams tid (fun u => if_pos rfl)
  · rw [State.teamAt, noteIssue_teams]
    refine view_mapTeams (fun u => { u with wait := (t.teamAt k).wait, sched := (t.teamAt k).sched }) (notedTeam tid _) t.teams k (fun u => ?_)
    rw [notedTeam]
    split_ifs <;> rfl
  · exact State.partAt_setPart_other _ _ _ _ hk

/-! ### A turn -/

/-- Nothing that waits in the team's queues is a trap to take. -/
theorem takePending_none {s : State} {tid : Nat} (h1 : (s.teamAt tid).pendStream = []) (h2 : (s.teamAt tid).pendCopy = none) (h3 : (s.teamAt tid).pendMat = []) :
    takePending s tid = none := by
  have hp : pendingOf (s.teamAt tid) = none := by
    rw [pendingOf, h1, h2, h3]
  rw [takePending]
  simp only [hp, Option.map_none, ite_self]

/-- A team whose turn comes runs. -/
theorem issueTeam_runs {s : State} {tid : Nat} (h : takesTurn { s with cur := tid, curStream := none } tid) :
    issueTeam s tid = runIssue { s with cur := tid, curStream := none } tid := by
  obtain ⟨hlive, hlanes, hstop, hheld, hstream, hcopy, hmat, hwait⟩ := h
  rw [issueTeam]
  simp only [hlive, hlanes, hstop, hheld, takePending_none hstream hcopy hmat, hwait]
  rfl

section
variable {s s1 : State} {tid : Nat} {r : List Choice} (ha : s.agenda = .issue tid :: r) (hs : s1 = { s with agenda := r, cur := tid, curStream := none })
  (hturn : turnOk { s with agenda := r } tid = true) (htake : takesTurn s1 tid)
include ha hs hturn htake

/-- The step of a team whose turn it is: what it runs, noted. -/
theorem step_issue : step s = tickOut s (runIssue s1 tid) := by
  subst hs
  rw [step, nextChoice, ha]
  dsimp only
  rw [runChoice, if_pos hturn]
  exact congrArg (tickOut s) (issueTeam_runs (s := { s with agenda := r }) htake)

theorem step_issue_next {t : State} (h : runTeam s1 = .next t) : step s = .next (afterIssue s s1 tid t) := by
  rw [step_issue ha hs hturn htake, runIssue, h, afterIssue]
  simp only [moved, decide_eq_true_eq, ite_not]
  rfl

theorem step_issue_fault {e : Fault} (h : runTeam s1 = .fault e) : step s = .fault e := by
  rw [step_issue ha hs hturn htake, runIssue, h]
  rfl

theorem step_issue_refused {e : Refusal} (h : runTeam s1 = .refused e) : step s = .refused e := by
  rw [step_issue ha hs hturn htake, runIssue, h]
  rfl

end

/-- A team in its clause runs the instruction decoded at its place; inside a repeat, the repeated instruction. -/
theorem runTeam_decoded {s : State} {c : Clause} {ws tl : List Word} {i j : Instr} (hc : s.team.clause = some c) (hf : fetchInstr s s.cur (selfPc s.team).toNat = .ok ws)
    (hd : decode c.cls ws = .ok i tl) (hj : s.team.inRep = none ∧ j = i ∨ ∃ p, s.team.inRep = some p ∧ j = repeated p (s.team.rep.toNat % 64) i) : runTeam s = exec j s := by
  rw [runTeam, hc]
  dsimp only
  rw [runWords, hf]
  simp only [withFetch, hd]
  rcases hj with ⟨hr, rfl⟩ | ⟨p, hr, rfl⟩
  · rw [hr]
  · rw [hr]
    simp only [BitVec.extractLsb'_toNat, Nat.shiftRight_zero]

theorem runTeam_header {s : State} {w : Word} (hc : s.team.clause = none) (hf : fetchWord s s.cur s.team.pc.toNat = .ok w) : runTeam s = exec (.clauseStart w) s := by
  rw [runTeam, hc]
  dsimp only
  rw [runHeader, hf]
  rfl

/-- Settles O18: a turn runs what is decoded at the team's place (`runTeam_decoded`), between a cycle (`tick_frame`) and the note of the issue (`noteIssue_frame`). -/
theorem stepRunsDecoded : Obligations.StepRunsDecoded := by
  refine ⟨fun s s1 tid r c ws tl i j ha hs hturn htake hc hf hd hj => ?_, fun s s1 tid r w ha hs hturn htake hc hf t ht => ?_, fun s i a r ha he t ht => ?_, fun s tid r ha hturn => ?_,
    tick_frame, noteIssue_frame⟩
  · have hcur : s1.cur = tid := by rw [hs]
    have hrun := runTeam_decoded hc (by rwa [hcur]) hd hj
    exact ⟨fun t ht => step_issue_next ha hs hturn htake (hrun.trans ht), fun e ht => step_issue_fault ha hs hturn htake (hrun.trans ht),
      fun e ht => step_issue_refused ha hs hturn htake (hrun.trans ht)⟩
  · have hcur : s1.cur = tid := by rw [hs]
    exact step_issue_next ha hs hturn htake ((runTeam_header hc (by rwa [hcur])).trans ht)
  · rw [step, nextChoice, ha]
    dsimp only
    rw [runChoice, if_pos he, ht]
    rfl
  · rw [step, nextChoice, ha]
    dsimp only
    rw [runChoice, hturn]
    rfl

end Sys2Proof.Machine
end

section
/-! Clause headers, `nop`, and the start of a repeat (R51, R56, R69-R71, R77, R124). -/

namespace Sys2Proof.Machine

open Sys2Proof Sys2Proof.Safety Sys2Proof.Claims

theorem bitsOf_eq_extractLsb' (w : Word) (hi lo : Nat) : bitsOf w hi lo = (w.extractLsb' lo (hi + 1 - lo)).toNat := (BitVec.extractLsb'_toNat ..).symm

theorem hdrYld_eq (w : Word) : hdrYld w = w.getLsbD 4 := by
  rw [hdrYld, bitsOf, BitVec.getLsbD, Nat.testBit_eq_decide_div_mod_eq, Nat.shiftRight_eq_div_pow]
  rfl

/-- The clause that a header at `pc` describes (R51). -/
def clauseOf (pc : DWord) (w : Word) : Clause :=
  { hdr := pc, cls := clsOf (w.extractLsb' 25 3).toNat, left := (w.extractLsb' 28 4).toNat, setA := (w.extractLsb' 9 4).toNat, setB := (w.extractLsb' 5 4).toNat, yld := w.getLsbD 4 }

section
variable {w : Word} {s : State} (hc : s.team.clause = none)
include hc

theorem execClauseStart_opens (hwait : waitClear s.team w = true) (hhdr : hdrOk w = true) :
    execClauseStart w s = .next (s.setTeam { s.team with clause := some (clauseOf s.team.pc w), pc := s.team.pc + 4, sched := { s.team.sched with yld := false } }) := by
  rw [clauseOf, ← hdrYld_eq, execClauseStart]
  simp only [hc, hwait, hhdr, hdrCls, hdrN, hdrSetA, hdrSetB, bitsOf_eq_extractLsb']
  rfl

theorem execClauseStart_waits (hwait : waitClear s.team w = false) : execClauseStart w s = .next s := by
  rw [execClauseStart]
  simp only [hc, hwait]
  rfl

theorem execClauseStart_malformed (hwait : waitClear s.team w = true) (hhdr : hdrOk w = false) : execClauseStart w s = trapAll s illegalClause := by
  rw [execClauseStart]
  simp only [hc, hwait, hhdr]
  rfl

end

theorem clauseOpens : ClauseOpens := by
  intro w s hc
  refine ⟨fun hwait hhdr => ⟨_, execClauseStart_opens hc hwait hhdr, OnlyTeam_setTeam _ _, ?_⟩, execClauseStart_waits hc, execClauseStart_malformed hc⟩
  rw [State.setTeam_eq, State.team_setTeamAt_cur]
  exact ⟨rfl, rfl, rfl⟩

theorem nopGoesOn : NopGoesOn := by
  intro k f s hr
  obtain ⟨t, ht, honly, hon, p, c, r, q, k', d, y, z, hteam⟩ := finish_spec s s.team f rfl rfl rfl rfl
  refine ⟨t, ?_, honly, hon, by rw [hteam]; rfl⟩
  rw [exec_nop, execNop, issue_reaches _ rfl hr]
  exact ht

/-- A stream's `rep` stands in the clauses of its engine's class and of class S (R124). -/
theorem streamRep_some (e : Eng) (cl : Cls) : streamRep (some e) cl = true ↔ cl = .s ∨ cl = if e = .mat then .a else .c := by
  cases e <;> simp [streamRep, or_comm]

/-- A `rep` that a stream may not hold traps. -/
theorem execRep_refused {cl : Cls} {p : RepWord} {s : State} (h : streamRep s.curStream cl = false) : execRep cl p s = trapAll s illegalInstruction := by
  rw [execRep]
  exact if_pos (by simp [h])

/-- NEXT of a sequence in progress, else 0. -/
def repNext (t : Team) : Nat := if t.rep.getLsbD 6 then (t.rep.extractLsb' 0 6).toNat else 0

theorem repNext_idle {t : Team} (h : t.rep.getLsbD 6 = false) : repNext t = 0 := if_neg (by rw [h]; decide)

theorem repNext_progress {t : Team} (h : t.rep.getLsbD 6 = true) : repNext t = (t.rep.extractLsb' 0 6).toNat := if_pos h

theorem rep_of_next {r : BitVec 7} (h : r.getLsbD 6 = true) : 64#7 ||| BitVec.ofNat 7 (r.extractLsb' 0 6).toNat = r := by
  revert r
  decide

section
variable {cl : Cls} {p : RepWord} {s : State} {k : Clause} {ws rest : List Word} {i : Instr} (hs : streamRep s.curStream cl = true) (hc : s.team.clause = some k)
  (hk : 1 < k.left) (hf : fetchInstr s s.cur (s.team.pc + 4).toNat = .ok ws) (hd : decode cl ws = .ok i rest) (ht : repTrap s.team p i = none)
include hs hc hk hf hd ht

/-- `rep` starts the repeats of an instruction it may repeat. -/
theorem execRep_starts (hn : repNext s.team ≤ p.cnt.toNat) :
    execRep cl p s = .next (s.setTeam { s.team with rep := 64#7 ||| BitVec.ofNat 7 (repNext s.team), inRep := some p }) := by
  rw [execRep]
  simp only [hc, hs, hf, withFetch, hd, ht, Nat.not_le.2 hk]
  exact if_neg (Nat.not_lt.2 hn)

/-- Started at a NEXT, `rep` leaves the team where it stands. -/
theorem execRep_frame (hn : repNext s.team ≤ p.cnt.toNat) :
    ∃ t, exec (.rep cl p) s = .next t ∧ OnlyTeam s t ∧ placed s.team t.team = s.team ∧ t.team.rep = 64#7 ||| BitVec.ofNat 7 (repNext s.team) ∧ t.team.inRep = some p ∧
      t.team.pc = s.team.pc ∧ t.team.clause = some k := by
  refine ⟨_, (exec_rep cl p s).trans (execRep_starts hs hc hk hf hd ht hn), OnlyTeam_setTeam _ _, ?_⟩
  rw [State.setTeam_eq, State.team_setTeamAt_cur]
  exact ⟨rfl, rfl, rfl, rfl, hc⟩

end

theorem repeatStarts : RepeatStarts := by
  refine ⟨fun cl p s e he hS hE => ?_, fun cl p s k ws rest i hstream hc hk hf hd ht => ?_⟩
  · exact execRep_refused (by rw [he, Bool.eq_false_iff, Ne, streamRep_some]; exact fun h => h.elim hS hE)
  · have hs : streamRep s.curStream cl = true := by
      cases he : s.curStream with
      | none => rfl
      | some e => exact (streamRep_some e cl).2 (hstream e he)
    refine ⟨fun h6 => ?_, fun h6 hn => ?_⟩
    · have h := execRep_frame hs hc hk hf hd ht (repNext_idle h6 ▸ Nat.zero_le _)
      rwa [repNext_idle h6] at h
    · have h := execRep_frame hs hc hk hf hd ht (repNext_progress h6 ▸ hn)
      rwa [repNext_progress h6, rep_of_next h6] at h

/-- Settles O28: the header, `nop`, and `rep`. -/
theorem clausesNopAndRepeat : Obligations.ClausesNopAndRepeat := ⟨clauseOpens, nopGoesOn, repeatStarts⟩

end Sys2Proof.Machine
end

section
/-! The checks at issue (R52, R60, R75). The group checks of `fcall` and `fret` stand with check 4 in the model, but not in the check 4 that the claims of O35 name. -/

namespace Sys2Proof.Machine

open Sys2Proof Sys2Proof.Safety Sys2Proof.Claims

/-- A function of one input and three outputs. -/
def threeOutputs : FnDesc := { d := 1, m := 3, staged := false, allot := 64, tpages := 1, tbase := 0, w := [0], r0 := 0, tau := 0, g := 0 }

/-- `fcall` of slot 0 with its outputs from `v86` on, so that the third lies beyond `v87`, under the uniform guard p0. -/
def fcallBeyond : Fields := { d := 86, a := 0, b := 0, mod := some 0x02000380, imm := some 0 }

/-- Team 0 before the last instruction of a clause of class Y with a flag, p0 false, and a binding of slot 0 to `threeOutputs` queued. -/
def beforeFcall : State :=
  let s := placeWords State.reset .y []
  (s.setTeam { s.team with clause := s.team.clause.map (fun c => { c with left := 1, setA := 0 }) }).modCore 0 (fun c => { c with
    fsQ := [{ id := 0, tid := 0, kind := .define 0 threeOutputs, flag := none }] })

/-- The form of `fcall`. -/
def fcallForm : Form := ⟨.y, 0x02, .vg, .vg, .slot, 12, 0, .uniform, true, true⟩

/-- The checks of R75 that `encodingTrap` makes pass, and the guard fails. -/
theorem fcallBeyond_skipped : streamOk beforeFcall.curStream (.fcall fcallBeyond) fcallForm fcallBeyond = true ∧ encodingTrap beforeFcall.team (.fcall fcallBeyond) fcallForm fcallBeyond = none ∧
    uniformHolds beforeFcall.team (modOf .y fcallBeyond) = false := by
  decide +kernel

/-- The group of outputs is checked before the guard all the same, so the instruction traps. -/
theorem exec_fcallBeyond : exec (.fcall fcallBeyond) beforeFcall = trapAll beforeFcall illegalOperand := by
  rw [exec_fcall, execFcall, withGroups]
  exact if_pos (by decide +kernel)

/-- The trap, which no handler takes, leaves the place where it is. -/
theorem trapped_pc : (enterTrap beforeFcall beforeFcall.cur illegalOperand beforeFcall.team.mask beforeFcall.team.pc false).team.pc = 0x1004 := by
  decide +kernel

/-- Refutes O35: `UniformGuardSkips` fails for an `fcall` whose guard fails and whose outputs reach beyond `v87`: it takes the Illegal Operand trap and does not go on. -/
theorem not_issueChecks : ¬ Obligations.IssueChecks := by
  rintro ⟨-, hskip, -⟩
  obtain ⟨hstream, hchecks, hguard⟩ := fcallBeyond_skipped
  obtain ⟨t, ht, -, hon, -⟩ := hskip (.fcall fcallBeyond) beforeFcall fcallForm fcallBeyond rfl hstream hchecks rfl hguard
  rw [exec_fcallBeyond] at ht
  cases ht
  exact absurd (trapped_pc.symm.trans hon.1) (by decide +kernel)

end Sys2Proof.Machine
end

section
/-! The special registers (R43, R145, R286, R287, R291, R292): `srd`, `srr`, `srw`, `capr` and `phase`. -/

namespace Sys2Proof.Machine

open Sys2Proof Sys2Proof.Safety Sys2Proof.Claims

/-! ### Writes of scalar registers -/

theorem Team.setSdst_sregs (t : Team) (d : Nat) (v : Word) : ∃ g, t.setSdst d v = { t with sregs := g } := by
  rw [Team.setSdst]
  split
  · exact ⟨_, rfl⟩
  · exact ⟨t.sregs, rfl⟩

/-- An instruction that ends with other scalar registers, and the rest of the team as it was. -/
theorem finish_sregs (s : State) (g : KMap Word) (x : Fields) :
    ∃ t, finish s { s.team with sregs := g } x = .next t ∧ OnlyTeam s t ∧ wentOn s.team t.team (lenOf x) ∧ { placed s.team t.team with sregs := s.team.sregs } = s.team ∧ t.team.sregs = g := by
  obtain ⟨t, ht, honly, hon, p, c, r, q, k, d, y, z, hteam⟩ := finish_spec s { s.team with sregs := g } x rfl rfl rfl rfl
  exact ⟨t, ht, honly, hon, by rw [hteam]; rfl, by rw [hteam]⟩

/-- An instruction that ends with a write to one scalar destination. -/
theorem finish_setSdst (s : State) (d : Nat) (v : Word) (x : Fields) :
    ∃ t, finish s (s.team.setSdst d v) x = .next t ∧ OnlyTeam s t ∧ wentOn s.team t.team (lenOf x) ∧ { placed s.team t.team with sregs := s.team.sregs } = s.team ∧ scalarWritten s.team t.team d v := by
  obtain ⟨g, hg⟩ := Team.setSdst_sregs s.team d v
  obtain ⟨t, ht, honly, hon, hrest, hregs⟩ := finish_sregs s g x
  rw [hg]
  refine ⟨t, ht, honly, hon, hrest, fun n hn => ?_⟩
  rw [← Team.sreg_setSdst s.team d n v hn, hg, Team.sreg, Team.sreg, hregs]

theorem spair_setSpair (t : Team) (n : Nat) (v : DWord) : (t.setSpair n v).spair n = v := by
  have hlo : (t.setSpair n v).sreg n = v.extractLsb' 0 32 := by
    rw [Team.setSpair, Team.sreg_setSreg, if_neg (Nat.ne_of_lt n.lt_succ_self), Team.sreg_setSreg, if_pos rfl]
  have hhi : (t.setSpair n v).sreg (n + 1) = v.extractLsb' 32 32 := by
    rw [Team.setSpair, Team.sreg_setSreg, if_pos rfl]
  rw [Team.spair, hlo, hhi]
  exact BitVec.eq_of_getLsbD_eq fun i hi => by
    rw [BitVec.getLsbD_append, BitVec.getLsbD_extractLsb', BitVec.getLsbD_extractLsb']
    by_cases h : i < 32
    · simp [h]
    · simp [h, show i - 32 < 32 by omega, show 32 + (i - 32) = i by omega]

theorem sreg_setSpair_other (t : Team) {n k : Nat} (v : DWord) (h : n ≠ k) (h' : n ≠ k + 1) : (t.setSpair k v).sreg n = t.sreg n := by
  rw [Team.setSpair, Team.sreg_setSreg, if_neg h', Team.sreg_setSreg, if_neg h]

/-! ### Reads of special registers -/

section
variable {code : Nat} (s : State) (t : Team) (dst warp : Nat)

theorem readSpecial_word (h : code ≠ 0x20) (h' : code ≠ 0x21) : readSpecial s t code dst warp = t.setSdst dst ((specialVal s t code warp).extractLsb' 0 32) := by
  rw [readSpecial]
  exact if_neg (by simp [h, h'])

theorem readSpecial_pair (h : code = 0x20 ∨ code = 0x21) : readSpecial s t code dst warp = if dst < 64 then t.setSpair dst (specialVal s t code warp) else t := by
  rw [readSpecial]
  exact if_pos (by simpa using h)

end

/-- `srr` and `srd` of a register of 32 bits or fewer. -/
theorem finish_readSpecial_word (s : State) {code : Nat} (dst warp : Nat) (x : Fields) (h : code ≠ 0x20) (h' : code ≠ 0x21) :
    ∃ t, finish s (readSpecial s s.team code dst warp) x = .next t ∧ OnlyTeam s t ∧ wentOn s.team t.team (lenOf x) ∧ { placed s.team t.team with sregs := s.team.sregs } = s.team ∧
      scalarWritten s.team t.team dst ((specialVal s s.team code warp).extractLsb' 0 32) := by
  rw [readSpecial_word s s.team dst warp h h']
  exact finish_setSdst s dst _ x

/-- `srr` and `srd` of `%tpc` and `%tvec`. -/
theorem finish_readSpecial_pair (s : State) {code : Nat} (dst warp : Nat) (x : Fields) (h : code = 0x20 ∨ code = 0x21) :
    ∃ t, finish s (readSpecial s s.team code dst warp) x = .next t ∧ OnlyTeam s t ∧ wentOn s.team t.team (lenOf x) ∧ { placed s.team t.team with sregs := s.team.sregs } = s.team ∧
      (dst < 64 → t.team.spair dst = specialVal s s.team code warp) ∧ ∀ n, n < 64 → ¬(dst < 64 ∧ (n = dst ∨ n = dst + 1)) → t.team.sreg n = s.team.sreg n := by
  rw [readSpecial_pair s s.team dst warp h]
  split
  · next hd =>
    obtain ⟨t, ht, honly, hon, hrest, hregs⟩ := finish_sregs s (s.team.setSpair dst (specialVal s s.team code warp)).sregs x
    have hs : ∀ n, t.team.sreg n = (s.team.setSpair dst (specialVal s s.team code warp)).sreg n := fun n => by rw [Team.sreg, Team.sreg, hregs]
    refine ⟨t, ht, honly, hon, hrest, fun _ => ?_, fun n _ hne => ?_⟩
    · rw [Team.spair, hs, hs]
      exact spair_setSpair _ _ _
    · rw [hs]
      exact sreg_setSpair_other _ _ (fun e => hne ⟨hd, .inl e⟩) (fun e => hne ⟨hd, .inr e⟩)
  · next hd =>
    obtain ⟨t, ht, honly, hon, hrest, hregs⟩ := finish_sregs s s.team.sregs x
    exact ⟨t, ht, honly, hon, hrest, fun h => absurd h hd, fun n _ _ => by rw [Team.sreg, Team.sreg, hregs]⟩

section
variable {f : Fields} {s : State}

theorem exec_srr_reaches (h : reaches s (.srr f) = true) : exec (.srr f) s = finish s (readSpecial s s.team f.a.toNat f.d.toNat 0) f := by
  rw [exec_srr, execSrr, issue_reaches _ rfl h]

theorem exec_srd_reaches (h : reaches s (.srd f) = true) : exec (.srd f) s = finish s (readSpecial s s.team f.a.toNat f.d.toNat (srcS s.team f.b.toNat (immOf f)).toNat) f := by
  rw [exec_srd, execSrd, issue_reaches _ rfl h]

theorem srr_reads (h : reaches s (.srr f) = true) : ∃ t, exec (.srr f) s = .next t ∧ OnlyTeam s t ∧ wentOn s.team t.team (lenOf f) ∧
      { placed s.team t.team with sregs := s.team.sregs } = s.team ∧
      (f.a.toNat ≠ 0x20 → f.a.toNat ≠ 0x21 → scalarWritten s.team t.team f.d.toNat ((specialVal s s.team f.a.toNat 0).extractLsb' 0 32)) ∧
      (f.a.toNat = 0x20 → f.d.toNat < 64 → t.team.spair f.d.toNat = s.team.trap.tpc) ∧
      (f.a.toNat = 0x21 → f.d.toNat < 64 → t.team.spair f.d.toNat = s.team.trap.tvec) ∧
      (f.a.toNat = 0x20 ∨ f.a.toNat = 0x21 → ∀ n, n < 64 → ¬(f.d.toNat < 64 ∧ (n = f.d.toNat ∨ n = f.d.toNat + 1)) → t.team.sreg n = s.team.sreg n) := by
  rw [exec_srr_reaches h]
  by_cases hp : f.a.toNat = 0x20 ∨ f.a.toNat = 0x21
  · obtain ⟨t, ht, honly, hon, hrest, hpair, hother⟩ := finish_readSpecial_pair s f.d.toNat 0 f hp
    refine ⟨t, ht, honly, hon, hrest, fun h1 h2 => absurd hp (not_or.2 ⟨h1, h2⟩), fun ha hd => ?_, fun ha hd => ?_, fun _ => hother⟩ <;>
      rw [hpair hd, ha, specialVal]
  · obtain ⟨h1, h2⟩ := not_or.1 hp
    obtain ⟨t, ht, honly, hon, hrest, hword⟩ := finish_readSpecial_word s f.d.toNat 0 f h1 h2
    exact ⟨t, ht, honly, hon, hrest, fun _ _ => hword, fun ha => absurd ha h1, fun ha => absurd ha h2, fun h => absurd h hp⟩

/-! ### `capr` and `phase` -/

theorem capr_reads (h : reaches s (.capr f) = true) (hal : (immOf f).toNat % 4 = 0) (hlt : (immOf f).toNat < 0x1000) : ∃ t, exec (.capr f) s = .next t ∧ OnlyTeam s t ∧
      wentOn s.team t.team (lenOf f) ∧ { placed s.team t.team with sregs := s.team.sregs } = s.team ∧ scalarWritten s.team t.team f.d.toNat (capWord s (immOf f).toNat) := by
  obtain ⟨t, ht, hrest⟩ := finish_setSdst s f.d.toNat (capWord s (immOf f).toNat) f
  refine ⟨t, ?_, hrest⟩
  rw [exec_capr, execCapr, issue_reaches _ rfl h, ← ht]
  exact if_neg (by simp [hal, hlt])

theorem capr_traps (h : reaches s (.capr f) = true) (hbad : (immOf f).toNat % 4 ≠ 0 ∨ 0x1000 ≤ (immOf f).toNat) : exec (.capr f) s = trapAll s illegalOperand := by
  rw [exec_capr, execCapr, issue_reaches _ rfl h]
  exact if_pos (by simpa using hbad)

end

/-- What an advance of its die's phase makes of a core: more window lines to evict. -/
def evictingCore (s : State) (die c : Nat) (k : Core) : Core :=
  if dieOf c = die then { k with evictQ := k.evictQ ++ (lowLines s c).filter (fun l => !k.evictQ.contains l) } else k

theorem advancePhase_cores (s : State) (die a : Nat) :
    (advancePhase s die a).cores = s.cores.map (fun p => (p.1, evictingCore (s.modDie die (fun d => { d with phase := a })) die p.1 p.2)) := by
  refine List.map_congr_left fun p _ => ?_
  rw [evictingCore]
  split_ifs <;> rfl

theorem mem_evictingCore {s : State} {die c line : Nat} {k : Core} (h : line ∈ k.evictQ) : line ∈ (evictingCore s die c k).evictQ := by
  rw [evictingCore]
  split
  · exact List.mem_append_left _ h
  · exact h

/-- A phase that advances: the die's number changes, its cores have window lines to evict besides those they had, and no other die changes. -/
theorem advancePhase_spec (s : State) (die a : Nat) : ((advancePhase s die a).dieAt die).phase = a ∧ (∀ c line, line ∈ (s.coreAt c).evictQ → line ∈ ((advancePhase s die a).coreAt c).evictQ) ∧
    ∀ d, d ≠ die → (advancePhase s die a).dieAt d = s.dieAt d := by
  refine ⟨?_, fun c line hl => ?_, fun d hd => State.dieAt_setDie_other _ _ _ _ hd⟩
  · exact congrArg Die.phase (State.dieAt_setDie_same s die { s.dieAt die with phase := a })
  · rw [State.coreAt, kGetD] at hl
    rw [State.coreAt, kGetD, advancePhase_cores, kGet_mapEntries]
    cases hk : kGet c s.cores with
    | none => rwa [hk] at hl
    | some k =>
      rw [hk] at hl
      exact mem_evictingCore hl

/-- The state in which `phase` goes on: the die's phase advanced by 1 to 127, or as it was. -/
def phased (s : State) (die a : Nat) : State :=
  if 1 ≤ (a + 256 - (s.dieAt die).phase) % 256 ∧ (a + 256 - (s.dieAt die).phase) % 256 ≤ 127 then advancePhase s die a else s

theorem phased_spec (s : State) (die a : Nat) : (phased s die a).cur = s.cur ∧ (phased s die a).teams = s.teams ∧ (phased s die a).mem = s.mem ∧
    ((phased s die a).dieAt die).phase =
      (if 1 ≤ (a + 256 - (s.dieAt die).phase) % 256 ∧ (a + 256 - (s.dieAt die).phase) % 256 ≤ 127 then a else (s.dieAt die).phase) ∧
    (∀ c line, line ∈ (s.coreAt c).evictQ → line ∈ ((phased s die a).coreAt c).evictQ) ∧ ∀ d, d ≠ die → (phased s die a).dieAt d = s.dieAt d := by
  rw [phased]
  split
  · exact ⟨rfl, rfl, rfl, advancePhase_spec s die a⟩
  · exact ⟨rfl, rfl, rfl, rfl, fun _ _ h => h, fun _ _ => rfl⟩

section
variable {f : Fields} {s : State} (h : reaches s (.phase f) = true)
include h

theorem exec_phase_reaches (hle : (srcS s.team f.a.toNat (immOf f)).toNat ≤ 254) :
    exec (.phase f) s = finish (phased s (dieOf s.team.core) (srcS s.team f.a.toNat (immOf f)).toNat) s.team f := by
  rw [exec_phase, execPhase, issue_reaches _ rfl h, phased]
  refine (if_neg (by omega)).trans ?_
  simp only [Bool.and_eq_true, decide_eq_true_eq]

theorem phase_advances (hle : (srcS s.team f.a.toNat (immOf f)).toNat ≤ 254) : ∃ t, exec (.phase f) s = .next t ∧ sameMem s t ∧
      wentOn s.team t.team (lenOf f) ∧ placed s.team t.team = s.team ∧
      (t.dieAt (dieOf s.team.core)).phase =
        (if 1 ≤ ((srcS s.team f.a.toNat (immOf f)).toNat + 256 - (s.dieAt (dieOf s.team.core)).phase) % 256 ∧
            ((srcS s.team f.a.toNat (immOf f)).toNat + 256 - (s.dieAt (dieOf s.team.core)).phase) % 256 ≤ 127
          then (srcS s.team f.a.toNat (immOf f)).toNat else (s.dieAt (dieOf s.team.core)).phase) ∧
      (∀ c line, line ∈ (s.coreAt c).evictQ → line ∈ (t.coreAt c).evictQ) ∧
      ∀ d, d ≠ dieOf s.team.core → t.dieAt d = s.dieAt d := by
  obtain ⟨hcur, hteams, hmem, hphase, hevict, hother⟩ := phased_spec s (dieOf s.team.core) (srcS s.team f.a.toNat (immOf f)).toNat
  rw [exec_phase_reaches h hle]
  generalize phased s (dieOf s.team.core) (srcS s.team f.a.toNat (immOf f)).toNat = w at *
  have hteam : w.team = s.team := by rw [State.team, State.teamAt, hcur, hteams]; rfl
  obtain ⟨t, ht, honly, hon, p, c, r, q, k, d, y, z, hrest⟩ := finish_spec w w.team f rfl rfl rfl rfl
  rw [hteam] at hrest
  refine ⟨t, hteam ▸ ht, fun a => (honly.mem a).trans (by rw [hmem]), hteam ▸ hon, by rw [hrest]; rfl, ?_⟩
  rw [honly.team]
  exact ⟨hphase, hevict, hother⟩

theorem phase_traps (hgt : 254 < (srcS s.team f.a.toNat (immOf f)).toNat) : exec (.phase f) s = trapAll s illegalOperand := by
  rw [exec_phase, execPhase, issue_reaches _ rfl h]
  exact if_pos hgt

end

theorem systemReads : SystemReads := fun _ _ => ⟨srr_reads, capr_reads, capr_traps, phase_advances, phase_traps⟩

/-! ### `srw` -/

theorem low_zeroExtend (w : Word) : (w.zeroExtend 64).extractLsb' 0 32 = w := by
  apply BitVec.eq_of_toNat_eq
  rw [BitVec.extractLsb'_toNat, BitVec.toNat_setWidth, Nat.shiftRight_zero]
  omega

/-- The register that `srw` writes, field by field. -/
theorem writeSpecial_eq (t : Team) (code : Nat) (v : DWord) : writeSpecial t code v = { t with
    rep := if code = 0x0F then (v.extractLsb' 0 32).extractLsb' 0 7 else t.rep
    fmode := if code = 0x10 then v.extractLsb' 0 32 else t.fmode
    est := if code = 0x11 then v.extractLsb' 0 32 else t.est
    nf0 := if code = 0x15 then v.extractLsb' 0 32 else t.nf0
    nf1 := if code = 0x16 then v.extractLsb' 0 32 else t.nf1
    nf2 := if code = 0x17 then v.extractLsb' 0 32 else t.nf2
    nf3 := if code = 0x18 then v.extractLsb' 0 32 else t.nf3
    trap := if code = 0x20 then { t.trap with tpc := v, tpcWritten := true } else if code = 0x21 then { t.trap with tvec := v } else t.trap } := by
  unfold writeSpecial
  split
  case h_10 h1 h2 h3 h4 h5 h6 h7 h8 h9 => rw [if_neg h1, if_neg h2, if_neg h3, if_neg h4, if_neg h5, if_neg h6, if_neg h7, if_neg h8, if_neg h9]
  all_goals rfl

/-- The value that `srw` takes of its source: a pair for `%tpc` and `%tvec`. -/
def srwValue (t : Team) (f : Fields) : DWord :=
  if f.d.toNat = 0x20 ∨ f.d.toNat = 0x21 then srcS64 t f.a.toNat (immOf f) else (srcS t f.a.toNat (immOf f)).zeroExtend 64

theorem srwValue_word {t : Team} {f : Fields} (h : ¬(f.d.toNat = 0x20 ∨ f.d.toNat = 0x21)) : (srwValue t f).extractLsb' 0 32 = srcS t f.a.toNat (immOf f) := by
  rw [srwValue, if_neg h, low_zeroExtend]

/-- A `srw` that its mode permits and whose value the register takes. -/
theorem exec_srw_reaches {f : Fields} {s : State} (h : reaches s (.srw f) = true) (hsup : f.d.toNat = 0x0F ∨ f.d.toNat = 0x20 ∨ f.d.toNat = 0x21 → s.team.trap.sup = true)
    (hok : srwOk f.d.toNat (srwValue s.team f) = true) : exec (.srw f) s = finish s (writeSpecial s.team f.d.toNat (srwValue s.team f)) f := by
  rw [exec_srw, execSrw, issue_reaches _ rfl h]
  simp only [Bool.or_eq_true, decide_eq_true_eq]
  rw [← srwValue, if_pos hok]
  split
  · next hc => exact if_pos (hsup (or_assoc.1 hc))
  · rfl

/-- A rounding mode of R287. -/
theorem fmode_ok {w : Word} (h : w.toNat ≤ 4) : (decide (w.toNat < 8) && w != 5 && w != 6 && w != 7) = true := by
  have hne : ∀ c : Word, 4 < c.toNat → w ≠ c := fun c hc e => by
    rw [e] at h
    omega
  simp only [Bool.and_eq_true, decide_eq_true_eq, bne_iff_ne]
  exact ⟨⟨⟨by omega, hne 5 (by decide)⟩, hne 6 (by decide)⟩, hne 7 (by decide)⟩

/-- The conditions of R287 on a value, code by code. -/
theorem srwOk_of {f : Fields} {t : Team} (h10 : f.d.toNat = 0x10 → (srcS t f.a.toNat (immOf f)).toNat ≤ 4) (h0F : f.d.toNat = 0x0F → (srcS t f.a.toNat (immOf f)).toNat < 128)
    (hnf : 0x15 ≤ f.d.toNat → f.d.toNat ≤ 0x18 → srcS t f.a.toNat (immOf f) = 0 ∨ nfValid (srcS t f.a.toNat (immOf f)) = true)
    (hpair : f.d.toNat = 0x20 ∨ f.d.toNat = 0x21 → (srcS64 t f.a.toNat (immOf f)).toNat % 4 = 0) : srwOk f.d.toNat (srwValue t f) = true := by
  by_cases hp : f.d.toNat = 0x20 ∨ f.d.toNat = 0x21
  · have hlow : (srwValue t f).extractLsb' 0 2 = 0 := by
      apply BitVec.eq_of_toNat_eq
      rw [srwValue, if_pos hp, BitVec.extractLsb'_toNat, Nat.shiftRight_zero]
      exact hpair hp
    rcases hp with hp | hp <;> rw [hp] <;> exact decide_eq_true hlow
  · have hw := srwValue_word (t := t) hp
    unfold srwOk
    simp only [hw]
    split
    case h_1 hd => exact decide_eq_true (h0F hd)
    case h_2 hd => exact fmode_ok (h10 hd)
    case h_3 hd | h_4 hd | h_5 hd | h_6 hd => simpa using hnf (by omega) (by omega)
    case h_7 hd => exact absurd (.inl hd) hp
    case h_8 hd => exact absurd (.inr hd) hp
    case h_9 => rfl

/-- Outside a repeat an instruction leaves `%rep` as its effect does. -/
theorem wentOn_rep {a b : Team} {len : Nat} (h : wentOn a b len) (hin : a.inRep = none) : b.rep = a.rep := by
  rw [wentOn, hin] at h
  exact h.2.1

/-- An instruction that ends with the registers `srw` writes changed. -/
theorem finish_writeSpecial (s : State) (code : Nat) (v : DWord) (x : Fields) : ∃ t, finish s (writeSpecial s.team code v) x = .next t ∧ OnlyTeam s t ∧
      { t.team with
        pc := s.team.pc, clause := s.team.clause, inRep := s.team.inRep, rep := s.team.rep, latch := s.team.latch, sched := s.team.sched
        xlat := s.team.xlat, walkFault := s.team.walkFault, fmode := s.team.fmode, est := s.team.est, nf0 := s.team.nf0, nf1 := s.team.nf1
        nf2 := s.team.nf2, nf3 := s.team.nf3, trap := s.team.trap } = s.team ∧
      (code ≠ 0x0F → wentOn s.team t.team (lenOf x)) ∧ (code = 0x0F → s.team.inRep = none → t.team.rep = (v.extractLsb' 0 32).extractLsb' 0 7) ∧
      t.team.fmode = (if code = 0x10 then v.extractLsb' 0 32 else s.team.fmode) ∧ t.team.est = (if code = 0x11 then v.extractLsb' 0 32 else s.team.est) ∧
      t.team.nf0 = (if code = 0x15 then v.extractLsb' 0 32 else s.team.nf0) ∧ t.team.nf1 = (if code = 0x16 then v.extractLsb' 0 32 else s.team.nf1) ∧
      t.team.nf2 = (if code = 0x17 then v.extractLsb' 0 32 else s.team.nf2) ∧ t.team.nf3 = (if code = 0x18 then v.extractLsb' 0 32 else s.team.nf3) ∧
      t.team.trap = (if code = 0x20 then { s.team.trap with tpc := v, tpcWritten := true } else if code = 0x21 then { s.team.trap with tvec := v } else s.team.trap) := by
  refine ⟨_, rfl, OnlyTeam_setTeam _ _, ?_⟩
  rw [State.setTeam_eq, State.team_setTeamAt_cur]
  have hon := Team.advance_wentOn ((writeSpecial s.team code v).issued s.cc) (lenOf x)
  obtain ⟨p, c, r, q, y, hu⟩ := Team.advance_rest ((writeSpecial s.team code v).issued s.cc) (lenOf x)
  generalize ((writeSpecial s.team code v).issued s.cc).advance (lenOf x) = u at *
  refine ⟨?_, fun hc => ?_, fun hc hin => ?_, ?_⟩
  · rw [hu, writeSpecial_eq]
    rfl
  · exact wentOn_congr hon (by rw [writeSpecial_eq]; rfl) (by rw [writeSpecial_eq]; exact if_neg hc) (by rw [writeSpecial_eq]; rfl) (by rw [writeSpecial_eq]; rfl)
  · exact (wentOn_rep hon (by rw [writeSpecial_eq]; exact hin)).trans (by rw [writeSpecial_eq]; exact if_pos hc)
  · rw [hu, writeSpecial_eq]
    exact ⟨rfl, rfl, rfl, rfl, rfl, rfl, rfl⟩

theorem srwValue_pair {t : Team} {f : Fields} (h : f.d.toNat = 0x20 ∨ f.d.toNat = 0x21) : srwValue t f = srcS64 t f.a.toNat (immOf f) := if_pos h

/-- What a word register holds after `srw` of a code. -/
theorem srw_word {t : Team} {f : Fields} {c : Nat} (old : Word) (hc : c ≠ 0x20 ∧ c ≠ 0x21) :
    (if f.d.toNat = c then (srwValue t f).extractLsb' 0 32 else old) = if f.d.toNat = c then srcS t f.a.toNat (immOf f) else old := by
  split
  · next hd => exact srwValue_word (by rw [hd]; exact not_or.2 hc)
  · rfl

theorem specialRegisterWrites : SpecialRegisterWrites := by
  intro f s hr hsup h10 h0F hnf hpair
  obtain ⟨t, ht, honly, hframe, hon, hrep, hfm, hest, h0, h1, h2, h3, htrap⟩ := finish_writeSpecial s f.d.toNat (srwValue s.team f) f
  refine ⟨t, (exec_srw_reaches hr hsup (srwOk_of h10 h0F hnf hpair)).trans ht, honly, hframe, hon, fun hd hin => ?_, hfm.trans (srw_word _ (by decide)), hest.trans (srw_word _ (by decide)),
    h0.trans (srw_word _ (by decide)), h1.trans (srw_word _ (by decide)), h2.trans (srw_word _ (by decide)), h3.trans (srw_word _ (by decide)), htrap.trans ?_⟩
  · rw [hrep hd hin, srwValue_word (by omega)]
  · split
    · next hd => rw [srwValue_pair (.inl hd)]
    · split
      · next hd => rw [srwValue_pair (.inr hd)]
      · rfl

/-! ### The values that `srd` and `srr` read -/

theorem low_ofNat (n : Nat) : (BitVec.ofNat 64 n).extractLsb' 0 32 = BitVec.ofNat 32 n := by
  apply BitVec.eq_of_toNat_eq
  rw [BitVec.extractLsb'_toNat, BitVec.toNat_ofNat, BitVec.toNat_ofNat, Nat.shiftRight_zero]
  omega

theorem saveOff_eq (s : State) (t : Team) : saveOff s t = 64 * (((s.blockAt t.block).stashBytes + 63) / 64) + t.index * (256 + 64 * ((44 * t.lanes + 63) / 64)) := by
  have hsize : saveBytes t.warps = 256 + 64 * ((44 * t.lanes + 63) / 64) := by
    rw [saveBytes, Team.lanes]
    omega
  rw [saveOff, hsize, roundUp64, Nat.mul_comm _ 64]

/-- The word of each row is the low word of the register. -/
theorem specialVal_rows (s : State) (warp : Nat) : (specialWords s).Forall (fun row => (specialVal s s.team row.1 warp).extractLsb' 0 32 = row.2) := by
  have hz : (specialVal s s.team 0x04 warp).extractLsb' 0 32 = BitVec.ofNat 32 ((s.blockAt s.team.block).idx / ((s.gridAt s.team.grid).lrec.gx * (s.gridAt s.team.grid).lrec.gy)) := by
    rw [← Nat.div_div_eq_div_mul]
    exact low_ofNat _
  have hepoch : (specialVal s s.team 0x0C warp).extractLsb' 0 32 = BitVec.ofNat 32 s.team.epoch := by
    refine (low_ofNat _).trans (BitVec.eq_of_toNat_eq ?_)
    rw [BitVec.toNat_ofNat, BitVec.toNat_ofNat, Nat.mod_mod]
  have hsave : (specialVal s s.team 0x31 warp).extractLsb' 0 32 =
      BitVec.ofNat 32 (64 * (((s.blockAt s.team.block).stashBytes + 63) / 64) + s.team.index * (256 + 64 * ((44 * s.team.lanes + 63) / 64))) := by
    rw [← saveOff_eq]
    exact low_ofNat _
  exact ⟨low_ofNat _, low_ofNat _, low_ofNat _, hz, low_ofNat _, low_ofNat _, low_ofNat _, low_ofNat _, low_ofNat _, low_ofNat _, low_ofNat _, hepoch,
    (low_ofNat _).trans (BitVec.ofNat_toNat _ _), low_ofNat _, (low_ofNat _).trans (BitVec.ofNat_toNat _ _), low_zeroExtend _, low_zeroExtend _, low_zeroExtend _, low_zeroExtend _,
    low_zeroExtend _, low_zeroExtend _, low_zeroExtend _, low_zeroExtend _, low_zeroExtend _, low_zeroExtend _, low_zeroExtend _, low_zeroExtend _, low_zeroExtend _, low_zeroExtend _,
    low_ofNat _, hsave, low_ofNat _, low_ofNat _, low_ofNat _⟩

/-- No row is `%tpc` or `%tvec`. -/
theorem specialWords_words (s : State) : ∀ c ∈ (specialWords s).map Prod.fst, c ≠ 0x20 ∧ c ≠ 0x21 := by
  have hcodes : (specialWords s).map Prod.fst = List.range' 1 24 ++ List.range' 0x22 5 ++ List.range' 0x30 5 := rfl
  rw [hcodes]
  decide

theorem specialWords_read {s : State} {f : Fields} {row : Nat × Word} (hrow : row ∈ specialWords s) (ha : f.a.toNat = row.1) {i : Instr} (hi : i ∈ [Instr.srd f, .srr f])
    (hr : reaches s i = true) : ∃ t, exec i s = .next t ∧ scalarWritten s.team t.team f.d.toNat row.2 := by
  obtain ⟨h1, h2⟩ := specialWords_words s row.1 (List.mem_map_of_mem hrow)
  have hval := fun warp => List.forall_iff_forall_mem.1 (specialVal_rows s warp) row hrow
  have hread : ∀ warp, ∃ t, finish s (readSpecial s s.team f.a.toNat f.d.toNat warp) f = .next t ∧ scalarWritten s.team t.team f.d.toNat row.2 := fun warp => by
    obtain ⟨t, ht, -, -, -, hw⟩ := finish_readSpecial_word s f.d.toNat warp f h1 h2
    rw [hval] at hw
    exact ⟨t, ha ▸ ht, hw⟩
  rcases List.mem_pair.1 hi with rfl | rfl
  · rw [exec_srd_reaches hr]
    exact hread _
  · rw [exec_srr_reaches hr]
    exact hread _

/-- `%tmask` reads as the lane word of a warp. -/
theorem specialVal_tmask (s : State) (t : Team) (warp : Nat) {i : Nat} (hi : i < 32) :
    ((specialVal s t 0x27 warp).extractLsb' 0 32).getLsbD i = (decide (warp < t.warps) && t.trap.tmask.getLsbD (32 * warp + i)) := by
  rw [specialVal]
  by_cases h : warp < t.warps
  · simp only [h, if_true, low_zeroExtend, laneWord, BitVec.getLsbD_extractLsb', hi, decide_true, Bool.true_and]
  · simp [h]

theorem tmask_read {s : State} {f : Fields} (ha : f.a.toNat = 0x27) (hr : reaches s (.srd f) = true) : ∃ t w, exec (.srd f) s = .next t ∧ scalarWritten s.team t.team f.d.toNat w ∧
    ∀ i, i < 32 → w.getLsbD i = (decide ((srcS s.team f.b.toNat (immOf f)).toNat < s.team.warps) && s.team.trap.tmask.getLsbD (32 * (srcS s.team f.b.toNat (immOf f)).toNat + i)) := by
  obtain ⟨t, ht, -, -, -, hw⟩ := finish_readSpecial_word s (code := 0x27) f.d.toNat (srcS s.team f.b.toNat (immOf f)).toNat f (by decide) (by decide)
  exact ⟨t, _, (exec_srd_reaches hr).trans (ha ▸ ht), hw, fun i hi => specialVal_tmask s s.team _ hi⟩

/-! ### What `srw` writes is read back -/

theorem zeroExtend_low7 {w : Word} (h : w.toNat < 128) : (w.extractLsb' 0 7).zeroExtend 32 = w := by
  apply BitVec.eq_of_toNat_eq
  rw [BitVec.toNat_setWidth, BitVec.extractLsb'_toNat, Nat.shiftRight_zero]
  omega

/-- The word that a writable register holds. -/
def writtenWord (t : Team) (code : Nat) : Word :=
  if code = 0x0F then t.rep.zeroExtend 32
  else if code = 0x10 then t.fmode
  else if code = 0x11 then t.est
  else if code = 0x15 then t.nf0
  else if code = 0x16 then t.nf1
  else if code = 0x17 then t.nf2
  else t.nf3

theorem specialVal_writable (s : State) (t : Team) : ∀ c ∈ writableWords.map Prod.fst, (specialVal s t c 0).extractLsb' 0 32 = writtenWord t c :=
  List.forall_iff_forall_mem.1 ⟨(low_ofNat _).trans (BitVec.ofNat_toNat _ _), low_zeroExtend _, low_zeroExtend _, low_zeroExtend _, low_zeroExtend _, low_zeroExtend _, low_zeroExtend _⟩

/-- A value that a row of `writableWords` admits is one that `srw` takes. -/
theorem srwOk_writable {row : Nat × (Word → Bool)} (hrow : row ∈ writableWords) {v : DWord} (h : row.2 (v.extractLsb' 0 32) = true) : srwOk row.1 v = true := by
  simp only [writableWords, List.mem_cons, List.not_mem_nil, or_false] at hrow
  rcases hrow with rfl | rfl | rfl | rfl | rfl | rfl | rfl
  case inr.inl => exact fmode_ok (of_decide_eq_true h)
  case inr.inr.inl => rfl
  all_goals exact h

theorem srw_written {s : State} {f : Fields} {row : Nat × (Word → Bool)} (hrow : row ∈ writableWords) (hd : f.d.toNat = row.1) (hv : row.2 (srcS s.team f.a.toNat (immOf f)) = true)
    (hr : reaches s (.srw f) = true) (hrep : row.1 = 0x0F → s.team.trap.sup = true ∧ s.team.inRep = none) :
    ∃ t, exec (.srw f) s = .next t ∧ writtenWord t.team row.1 = srcS s.team f.a.toNat (immOf f) := by
  have hc : ∀ c ∈ writableWords.map Prod.fst, c ≠ 0x20 ∧ c ≠ 0x21 := by decide
  obtain ⟨h20, h21⟩ := hc row.1 (List.mem_map_of_mem hrow)
  have hlow := srwValue_word (t := s.team) (f := f) (by rw [hd]; exact not_or.2 ⟨h20, h21⟩)
  obtain ⟨t, ht, -, -, -, hr0, hfm, hest, h0, h1, h2, h3, -⟩ := finish_writeSpecial s row.1 (srwValue s.team f) f
  refine ⟨t, ?_, ?_⟩
  · rw [exec_srw_reaches hr (by rw [hd]; exact fun h => h.elim (fun h => (hrep h).1) (fun h => absurd h (not_or.2 ⟨h20, h21⟩))) (by rw [hd]; exact srwOk_writable hrow (by rwa [hlow])), hd, ht]
  · rw [hlow] at hr0 hfm hest h0 h1 h2 h3
    simp only [writableWords, List.mem_cons, List.not_mem_nil, or_false] at hrow
    rcases hrow with rfl | rfl | rfl | rfl | rfl | rfl | rfl
    · rw [writtenWord, if_pos rfl, hr0 rfl (hrep rfl).2]
      exact zeroExtend_low7 (of_decide_eq_true hv)
    · exact hfm
    · exact hest
    · exact h0
    · exact h1
    · exact h2
    · exact h3

theorem specialValues : SpecialValues := by
  refine fun f s => ⟨fun row hrow ha i hi hr => specialWords_read hrow ha hi hr, tmask_read, fun row hrow hd hv hr hrep => ?_⟩
  obtain ⟨t, ht, hw⟩ := srw_written hrow hd hv hr hrep
  have hc : ∀ c ∈ writableWords.map Prod.fst, c ≠ 0x20 ∧ c ≠ 0x21 := by decide
  obtain ⟨h1, h2⟩ := hc row.1 (List.mem_map_of_mem hrow)
  refine ⟨t, ht, fun g hg hrg => ?_⟩
  obtain ⟨u, hu, -, -, -, hread⟩ := finish_readSpecial_word t g.d.toNat 0 g h1 h2
  rw [specialVal_writable t t.team row.1 (List.mem_map_of_mem hrow), hw] at hread
  exact ⟨u, by rw [exec_srr_reaches hrg, hg, hd, hu], hread⟩

/-- Settles O36: the reads, the writes, and the values read. -/
theorem specialRegisters : Obligations.SpecialRegisters := ⟨systemReads, specialRegisterWrites, specialValues⟩

end Sys2Proof.Machine
end

section
/-! Subfields (R64-R66): what is read, what is written, and saturation. -/

namespace Sys2Proof.Machine

open Sys2Proof Sys2Proof.Claims

/-! ### Digits of a word -/

/-- A number split at a bit field: what lies above it, the field, and what lies below. -/
theorem field_split (v lo n : Nat) : v = 2 ^ lo * (2 ^ n * (v / 2 ^ lo / 2 ^ n) + v / 2 ^ lo % 2 ^ n) + v % 2 ^ lo := by
  rw [Nat.div_add_mod, Nat.div_add_mod]

/-- The bits of a number with a field put in. -/
theorem testBit_field {a b c lo n : Nat} (hb : b < 2 ^ n) (hc : c < 2 ^ lo) (i : Nat) :
    (2 ^ lo * (2 ^ n * a + b) + c).testBit i = if i < lo then c.testBit i else if i < lo + n then b.testBit (i - lo) else a.testBit (i - lo - n) := by
  rw [Nat.testBit_two_pow_mul_add _ hc]
  by_cases hlow : i < lo
  · rw [if_pos hlow, if_pos hlow]
  · rw [if_neg hlow, if_neg hlow, Nat.testBit_two_pow_mul_add _ hb]
    exact if_congr (by omega) rfl rfl

/-! ### The subfield codes -/

/-- A subfield code other than the whole word, with its lowest bit and its width. -/
structure IsSubfield (c lo n : Nat) : Prop where
  code : c ≠ 0
  low : subLow c = lo
  width : subWidth c = n
  pos : 0 < n
  fits : lo + n ≤ 32

theorem isSubfield_of_mem {c lo n : Nat} (h : (c, lo, n) ∈ subfields) : IsSubfield c lo n := by
  have hall : ∀ p ∈ subfields, p.1 ≠ 0 ∧ subLow p.1 = p.2.1 ∧ subWidth p.1 = p.2.2 ∧ 0 < p.2.2 ∧ p.2.1 + p.2.2 ≤ 32 := by decide
  obtain ⟨h1, h2, h3, h4, h5⟩ := hall _ h
  exact ⟨h1, h2, h3, h4, h5⟩

section
variable {c lo n : Nat} (h : IsSubfield c lo n)
include h

theorem IsSubfield.subBits_eq (w : Word) : subBits c w = w.toNat / 2 ^ lo % 2 ^ n := by rw [subBits, h.low, h.width, Nat.shiftRight_eq_div_pow]

theorem IsSubfield.subBits_lt (w : Word) : subBits c w < 2 ^ n := by
  rw [h.subBits_eq]
  exact Nat.mod_lt _ (Nat.two_pow_pos n)

theorem IsSubfield.testBit_subBits (w : Word) (i : Nat) : (subBits c w).testBit i = (decide (i < n) && w.getLsbD (lo + i)) := by
  rw [h.subBits_eq, Nat.testBit_mod_two_pow, Nat.testBit_div_two_pow, Nat.add_comm]
  rfl

/-! ### Reading -/

theorem IsSubfield.getLsbD_widenZero (w : Word) {i : Nat} (hi : i < 32) : (widenInt false c w).getLsbD i = (decide (i < n) && w.getLsbD (lo + i)) := by
  rw [← h.testBit_subBits, widenInt, if_neg (by simp), BitVec.getLsbD_ofNat, decide_eq_true hi, Bool.true_and]

/-- Sign-extended, a field whose top bit is set has ones above it. -/
theorem IsSubfield.getLsbD_widenSign (w : Word) {i : Nat} (hi : i < 32) : (widenInt true c w).getLsbD i = w.getLsbD (lo + min i (n - 1)) := by
  have hlt := h.subBits_lt w
  have hfits := h.fits
  have hpos := h.pos
  have htop : (subBits c w).testBit (n - 1) = w.getLsbD (lo + (n - 1)) := by
    rw [h.testBit_subBits]
    simp [hpos]
  have hsign : (subBits c w).testBit (n - 1) = decide (subBits c w / 2 ^ (n - 1) = 1) := by
    rw [Nat.testBit_eq_decide_div_mod_eq, Nat.mod_eq_of_lt]
    rw [Nat.div_lt_iff_lt_mul (Nat.two_pow_pos _), ← pow_succ', Nat.sub_add_cancel hpos]
    exact hlt
  rw [widenInt, h.width]
  simp only [Bool.true_and, decide_eq_true_eq]
  split
  · next hs =>
    have hones : 2 ^ 32 - 2 ^ n = 2 ^ n * (2 ^ (32 - n) - 1) := by
      rw [Nat.mul_sub, ← pow_add, Nat.mul_one, Nat.add_sub_cancel' (by omega)]
    rw [BitVec.getLsbD_ofNat, decide_eq_true hi, Bool.true_and, Nat.add_comm, hones, Nat.testBit_two_pow_mul_add _ hlt, Nat.testBit_two_pow_sub_one]
    split
    · next hin => rw [h.testBit_subBits, decide_eq_true hin, Bool.true_and, Nat.min_eq_left (by omega)]
    · next hin => rw [Nat.min_eq_right (by omega), ← htop, hsign, decide_eq_true hs, decide_eq_true (by omega)]
  · next hs =>
    rw [BitVec.getLsbD_ofNat, decide_eq_true hi, Bool.true_and, h.testBit_subBits]
    by_cases hin : i < n - 1
    · rw [decide_eq_true (by omega), Bool.true_and, Nat.min_eq_left (by omega)]
    · have hzero : w.getLsbD (lo + (n - 1)) = false := by rw [← htop, hsign, decide_eq_false hs]
      rw [Nat.min_eq_right (by omega), hzero]
      by_cases he : i = n - 1
      · rw [he, hzero, Bool.and_false]
      · rw [decide_eq_false (by omega), Bool.false_and]

/-! ### Writing -/

/-- The number of a word after a write of a subfield. -/
theorem IsSubfield.subInsert_eq (old : Word) (v : Nat) :
    subInsert c old v = BitVec.ofNat 32 (2 ^ lo * (2 ^ n * (old.toNat / 2 ^ lo / 2 ^ n) + v % 2 ^ n) + old.toNat % 2 ^ lo) := by
  have hsplit := field_split old.toNat lo n
  rw [subInsert, h.low, h.width, Nat.shiftRight_eq_div_pow]
  congr 1
  rw [Nat.mul_add] at hsplit ⊢
  rw [Nat.mul_comm (old.toNat / 2 ^ lo % 2 ^ n), Nat.mul_comm (v % 2 ^ n)]
  omega

theorem IsSubfield.getLsbD_subInsert (old : Word) (v : Nat) {i : Nat} (hi : i < 32) :
    (subInsert c old v).getLsbD i = if lo ≤ i ∧ i < lo + n then (v % 2 ^ n).testBit (i - lo) else old.getLsbD i := by
  have hv : v % 2 ^ n < 2 ^ n := Nat.mod_lt _ (Nat.two_pow_pos n)
  have hf : old.toNat / 2 ^ lo % 2 ^ n < 2 ^ n := Nat.mod_lt _ (Nat.two_pow_pos n)
  have hl : old.toNat % 2 ^ lo < 2 ^ lo := Nat.mod_lt _ (Nat.two_pow_pos lo)
  have hold : old.getLsbD i = _ := (congrArg (·.testBit i) (field_split old.toNat lo n)).trans (testBit_field hf hl i)
  rw [hold, h.subInsert_eq, BitVec.getLsbD_ofNat, decide_eq_true hi, Bool.true_and, testBit_field hv hl]
  by_cases hlow : i < lo
  · rw [if_pos hlow, if_pos hlow, if_neg (by omega)]
  · rw [if_neg hlow, if_neg hlow]
    by_cases hin : i < lo + n
    · rw [if_pos hin, if_pos ⟨by omega, hin⟩]
    · rw [if_neg hin, if_neg hin, if_neg (by omega)]

theorem IsSubfield.getLsbD_narrowInt (sg : Bool) (old r : Word) {i : Nat} (hi : i < 32) :
    (narrowInt sg false c old r).getLsbD i = if lo ≤ i ∧ i < lo + n then r.getLsbD (i - lo) else old.getLsbD i := by
  rw [narrowInt, if_neg h.code]
  refine (h.getLsbD_subInsert old _ hi).trans ?_
  split
  · next hin =>
    rw [if_neg Bool.false_ne_true, Nat.testBit_mod_two_pow, decide_eq_true (by omega), Bool.true_and]
    rfl
  · rfl

/-! ### Saturation -/

/-- The subfield holds what was put there. -/
theorem IsSubfield.toNat_extract_subInsert (old : Word) (v : Nat) : ((subInsert c old v).extractLsb' lo n).toNat = v % 2 ^ n := by
  have hv : v % 2 ^ n < 2 ^ n := Nat.mod_lt _ (Nat.two_pow_pos n)
  have hfits := h.fits
  apply Nat.eq_of_testBit_eq
  intro i
  by_cases hi : i < n
  · rw [BitVec.testBit_toNat, BitVec.getLsbD_extractLsb', decide_eq_true hi, Bool.true_and, h.getLsbD_subInsert old v (by omega), if_pos (by omega), Nat.add_sub_cancel_left]
  · rw [BitVec.testBit_toNat, BitVec.getLsbD_extractLsb', decide_eq_false hi, Bool.false_and, Nat.testBit_lt_two_pow (Nat.lt_of_lt_of_le hv (Nat.pow_le_pow_right (by decide) (by omega)))]

/-- Saturated, the subfield holds the clamped value as a number of its own bits. -/
theorem IsSubfield.extract_saturated (sg : Bool) (old r : Word) :
    (narrowInt sg true c old r).extractLsb' lo n = BitVec.ofInt n (clampI (if sg then -(2 ^ (n - 1)) else 0) (if sg then 2 ^ (n - 1) - 1 else 2 ^ n - 1) (intVal sg r)) := by
  have hpow : (0 : Int) < (2 ^ n : Nat) := by positivity
  have hlt := Int.emod_lt_of_pos (clampI (if sg then -(2 ^ (n - 1)) else 0) (if sg then 2 ^ (n - 1) - 1 else 2 ^ n - 1) (intVal sg r)) hpow
  apply BitVec.eq_of_toNat_eq
  rw [narrowInt, if_neg h.code]
  refine (h.toNat_extract_subInsert old _).trans ?_
  rw [h.width, if_pos rfl, BitVec.toNat_ofInt, Nat.mod_eq_of_lt (by omega)]

theorem IsSubfield.getLsbD_saturated_outside (sg : Bool) (old r : Word) {i : Nat} (hi : i < 32) (hout : ¬(lo ≤ i ∧ i < lo + n)) :
    (narrowInt sg true c old r).getLsbD i = old.getLsbD i := by
  rw [narrowInt, if_neg h.code]
  exact (h.getLsbD_subInsert old _ hi).trans (if_neg hout)

end

theorem clampI_eq {lo hi : Int} (hle : lo ≤ hi) (x : Int) : clampI lo hi x = max lo (min hi x) := by
  rw [clampI]
  split_ifs <;> omega

section
variable {c lo n : Nat} (h : IsSubfield c lo n)
include h

theorem IsSubfield.toInt_saturated (old r : Word) :
    ((narrowInt true true c old r).extractLsb' lo n).toInt = max (-(2 ^ (n - 1) : Int)) (min (2 ^ (n - 1) - 1) r.toInt) := by
  have hpow : (0 : Int) < 2 ^ (n - 1) := by positivity
  rw [h.extract_saturated, if_pos rfl, if_pos rfl, clampI_eq (by omega), intVal, if_pos rfl]
  exact BitVec.toInt_ofInt_eq_self h.pos (le_max_left _ _) (by omega)

theorem IsSubfield.toNat_saturated (old r : Word) :
    ((narrowInt false true c old r).extractLsb' lo n).toNat = min (2 ^ n - 1) r.toNat := by
  have hpow : 0 < 2 ^ n := Nat.two_pow_pos n
  have hcast : ((2 : Int) ^ n) = ((2 ^ n : Nat) : Int) := by push_cast; rfl
  rw [h.extract_saturated, if_neg Bool.false_ne_true, if_neg Bool.false_ne_true, hcast, clampI_eq (by omega), intVal, if_neg Bool.false_ne_true,
    BitVec.toNat_ofInt, Int.emod_eq_of_lt (le_max_left _ _) (by omega)]
  omega

end

theorem subfieldsReadAndWrite : SubfieldsReadAndWrite := by
  intro c lo n hmem w old r sg i hi
  have h := isSubfield_of_mem hmem
  exact ⟨h.getLsbD_widenZero w hi, h.getLsbD_widenSign w hi, h.getLsbD_narrowInt sg old r hi⟩

theorem saturationClamps : SaturationClamps := by
  intro c lo n hmem old r
  have h := isSubfield_of_mem hmem
  exact ⟨h.toInt_saturated old r, h.toNat_saturated old r, fun sg _ hi hout => h.getLsbD_saturated_outside sg old r hi hout⟩

/-- Settles O25, bit by bit: a subfield code splits the word into the field, what lies above it and what lies below, and a write keeps the outer two. -/
theorem subfieldsAndSaturation : Obligations.SubfieldsAndSaturation := ⟨subfieldsReadAndWrite, saturationClamps⟩

end Sys2Proof.Machine
end

section
/-! The results of the vector instructions agree with the functions that the obligations name (R139-R148). -/

namespace Sys2Proof.Machine

open Sys2Proof Sys2Proof.Claims

/-! ### Products, shifts and selections -/

theorem extractHigh_ofInt (z : Int) : (BitVec.ofInt 64 z).extractLsb' 32 32 = BitVec.ofInt 32 (z / 2 ^ 32) := by
  apply BitVec.eq_of_toNat_eq
  rw [BitVec.extractLsb'_toNat, BitVec.toNat_ofInt, BitVec.toNat_ofInt, Nat.shiftRight_eq_div_pow]
  omega

theorem mulhiI_eq_spec (a b : Word) : mulhiI a b = specMulhiI a b := by
  rw [specMulhiI, BitVec.signExtend, BitVec.signExtend, ← BitVec.ofInt_mul, extractHigh_ofInt, mulhiI]

theorem mulhiZ_eq_spec (a b : Word) : mulhiZ a b = specMulhiZ a b := by
  apply BitVec.eq_of_toNat_eq
  have hlt : a.toNat * b.toNat < 2 ^ 64 := Nat.mul_lt_mul'' (c := 2 ^ 32) (d := 2 ^ 32) a.isLt b.isLt
  simp only [mulhiZ, specMulhiZ, BitVec.toNat_ofNat, BitVec.extractLsb'_toNat, BitVec.toNat_mul, BitVec.toNat_setWidth, Nat.shiftRight_eq_div_pow]
  rw [Nat.mod_eq_of_lt (Nat.lt_trans a.isLt (by decide)), Nat.mod_eq_of_lt (Nat.lt_trans b.isLt (by decide)), Nat.mod_eq_of_lt hlt]

/-- A multiple of a power of two is a shift. -/
theorem ofNat_mul_two_pow (k n : Nat) : BitVec.ofNat 32 (k * 2 ^ n) = BitVec.ofNat 32 k <<< n := by
  apply BitVec.eq_of_toNat_eq
  rw [BitVec.toNat_ofNat, BitVec.toNat_shiftLeft, BitVec.toNat_ofNat, Nat.shiftLeft_eq, Nat.mod_mul_mod]

theorem shlW_eq_spec (a b : Word) : shlW a b = specShl a b := by
  rw [shlW, specShl, ofNat_mul_two_pow, BitVec.ofNat_toNat, BitVec.setWidth_eq]

theorem shrW_eq_spec (a b : Word) : shrW a b = specShr a b := by
  simp only [shrW, specShr]
  congr 1
  apply BitVec.eq_of_toNat_eq
  rw [BitVec.toNat_ofNat, BitVec.toNat_ushiftRight, Nat.shiftRight_eq_div_pow, Nat.mod_eq_of_lt (Nat.lt_of_le_of_lt (Nat.div_le_self _ _) a.isLt)]

theorem sraW_eq_spec (a b : Word) : sraW a b = specSra a b := by
  rw [sraW, specSra, BitVec.sshiftRight, Int.shiftRight_eq_div_pow]
  rfl

theorem minI_eq_spec (a b : Word) : minI a b = if a.sle b then a else b := by simp only [minI, BitVec.sle_iff_toInt_le]
theorem minZ_eq_spec (a b : Word) : minZ a b = if a.ule b then a else b := by simp only [minZ, BitVec.ule_iff_toNat_le]
theorem maxI_eq_spec (a b : Word) : maxI a b = if b.sle a then a else b := by simp only [maxI, BitVec.sle_iff_toInt_le]
theorem maxZ_eq_spec (a b : Word) : maxZ a b = if b.ule a then a else b := by simp only [maxZ, BitVec.ule_iff_toNat_le]

/-! ### Bits -/

theorem popcW_eq_spec (a : Word) : popcW a = specPopc a := by
  rw [popcW, specPopc, List.countP_eq_length_filter]

/-- The run of places from 0 on that pass, before the first that does not. -/
theorem length_takeWhile_range {p : Nat → Bool} {k n : Nat} (hbelow : ∀ i < k, p i = true) (hk : k < n) (hat : p k = false) :
    ((List.range n).takeWhile p).length = k := by
  obtain ⟨m, rfl⟩ := Nat.exists_eq_add_of_lt hk
  have hsplit : List.range (k + m + 1) = List.range k ++ (k + 0) :: (List.range m).map (fun i => k + (i + 1)) := by
    rw [Nat.add_assoc, List.range_add, List.range_succ_eq_map, List.map_cons, List.map_map]
    rfl
  rw [hsplit, List.takeWhile_append_of_pos (fun i hi => hbelow i (List.mem_range.mp hi)), Nat.add_zero, List.takeWhile_cons_of_neg (by rw [hat]; decide),
    List.append_nil, List.length_range]

theorem clzW_eq_spec (a : Word) : clzW a = specClz a := by
  rw [clzW, specClz]
  split
  · next h =>
    rw [h]
    rfl
  · next h =>
    have hne : a.toNat ≠ 0 := fun h0 => h (BitVec.eq_of_toNat_eq h0)
    have hlog : a.toNat.log2 < 32 := (Nat.log2_lt hne).mpr a.isLt
    rw [length_takeWhile_range (k := 31 - a.toNat.log2) _ (by omega) _]
    · intro i hi
      rw [Bool.not_eq_true', ← BitVec.testBit_toNat]
      exact Nat.testBit_lt_two_pow ((Nat.log2_lt hne).mp (by omega))
    · rw [Bool.not_eq_false', Nat.sub_sub_self (by omega), ← BitVec.testBit_toNat, Nat.testBit_log2 hne]

theorem brevW_eq_spec (a : Word) : brevW a = a.reverse := by
  apply BitVec.eq_of_getLsbD_eq
  intro i hi
  rw [brevW, BitVec.getLsbD_ofNat, (foldl_bits (fun i => a.getLsbD (31 - i)) 32).2, BitVec.getLsbD_reverse, BitVec.getMsbD]
  simp [hi]

theorem absW_eq_spec (a : Word) : absW a = if a.slt 0 then 0 - a else a := by
  rw [absW]
  split
  · next h =>
    have hneg : a.toInt < 0 := BitVec.slt_iff_toInt_lt.mp h
    rw [← BitVec.ofInt_natCast, Int.ofNat_natAbs_of_nonpos hneg.le, BitVec.ofInt_neg, BitVec.ofInt_toInt, BitVec.ofNat_eq_ofNat, BitVec.zero_sub]
  · next h =>
    have hpos : 0 ≤ a.toInt := by
      by_contra hlt
      exact h (BitVec.slt_iff_toInt_lt.mpr (not_le.mp hlt))
    rw [← BitVec.ofInt_natCast, Int.natAbs_of_nonneg hpos, BitVec.ofInt_toInt]

/-! ### Bit fields -/

theorem bfOff_eq_spec (b : Word) : bfOff b = specOff b := by
  rw [bfOff, specOff, bitsOf, BitVec.extractLsb'_toNat]

theorem bfLen_eq_spec (b : Word) : bfLen b = specLen b := by
  rw [bfLen, specLen, bitsOf, BitVec.extractLsb'_toNat]

theorem bfLen_le (b : Word) : bfLen b ≤ 32 := Nat.min_le_right _ _

theorem bfeZ_eq_spec (a b : Word) : bfeZ a b = specBfeZ a b := by
  apply BitVec.eq_of_toNat_eq
  rw [bfeZ, specBfeZ, ← bfOff_eq_spec, ← bfLen_eq_spec, BitVec.toNat_ofNat, BitVec.toNat_setWidth, BitVec.truncate, BitVec.toNat_setWidth, BitVec.toNat_ushiftRight, Nat.shiftRight_eq_div_pow]

theorem setWidth_ofInt {n m : Nat} (h : m ≤ n) (z : Int) : (BitVec.ofInt n z).setWidth m = BitVec.ofInt m z := by
  apply BitVec.eq_of_toInt_eq
  have hdvd : ((2 ^ m : Nat) : Int) ∣ ((2 ^ n : Nat) : Int) := Int.natCast_dvd_natCast.mpr (Nat.pow_dvd_pow 2 h)
  have hnonneg : 0 ≤ z % ((2 ^ n : Nat) : Int) := Int.emod_nonneg _ (by positivity)
  rw [BitVec.toInt_setWidth, BitVec.toInt_ofInt, BitVec.toNat_ofInt, Int.toNat_of_nonneg hnonneg, ← Int.emod_bmod (z % _), Int.emod_emod_of_dvd _ hdvd, Int.emod_bmod]

/-- The value of a field of w bits, as `bfeI` names it. -/
theorem bmod_two_pow_succ (v : Int) (w : Nat) :
    Int.bmod v (2 ^ (w + 1)) = if v % 2 ^ (w + 1) < 2 ^ w then v % 2 ^ (w + 1) else v % 2 ^ (w + 1) - 2 ^ (w + 1) := by
  have hhalf : (((2 ^ (w + 1) : Nat) : Int) + 1) / 2 = 2 ^ w := by
    push_cast
    rw [pow_succ]
    omega
  rw [Int.bmod, hhalf]
  push_cast
  rfl

theorem bfeI_eq_spec (a b : Word) : bfeI a b = specBfeI a b := by
  rw [bfeI, specBfeI, ← bfOff_eq_spec, ← bfLen_eq_spec, BitVec.signExtend, BitVec.truncate, BitVec.sshiftRight, setWidth_ofInt (bfLen_le b), BitVec.toInt_ofInt, Int.shiftRight_eq_div_pow]
  cases bfLen b with
  | zero => simp
  | succ w =>
    rw [bmod_two_pow_succ]
    rfl

theorem bfiW_eq_spec (a b c : Word) : bfiW a b c = specBfi a b c := by
  rw [bfiW, specBfi, ← bfOff_eq_spec, ← bfLen_eq_spec, ofNat_mul_two_pow, ofNat_mul_two_pow, BitVec.ofNat_toNat, BitVec.setWidth_eq]

/-! ### Division -/

theorem divI_eq_spec (a b : Word) : divI a b = specDivI a b := by
  rw [divI, specDivI]
  split
  · rfl
  · split
    · next h =>
      obtain ⟨rfl, rfl⟩ := h
      decide
    · rfl

theorem divZ_eq_spec (a b : Word) : divZ a b = specDivZ a b := rfl

theorem remI_eq_spec (a b : Word) : remI a b = specRemI a b := by
  rw [remI, specRemI]
  split
  · rfl
  · split
    · next h =>
      obtain ⟨rfl, rfl⟩ := h
      decide
    · rw [Int.tmod_def]

theorem remZ_eq_spec (a b : Word) : remZ a b = specRemZ a b := by
  rw [remZ, specRemZ, Nat.mod_eq_sub]

/-! ### Classes of FP32 codes -/

/-- The parts of an FP32 code as numbers. -/
theorem ofF32_eq (w : Word) :
    ofF32 w =
      if (w.extractLsb' 23 8).toNat = 255 then (if (w.extractLsb' 0 23).toNat = 0 then .inf (w.getLsbD 31) else .nan)
      else if (w.extractLsb' 23 8).toNat = 0 then .fin (w.getLsbD 31) (w.extractLsb' 0 23).toNat (-149)
      else .fin (w.getLsbD 31) (2 ^ 23 + (w.extractLsb' 0 23).toNat) ((w.extractLsb' 23 8).toNat - 150) := by
  have hlt := w.isLt
  have hsign : w.getLsbD 31 = decide (w.toNat / 2 ^ 31 = 1) := by
    rw [← BitVec.testBit_toNat, Nat.testBit_eq_decide_div_mod_eq, Nat.mod_eq_of_lt (by omega)]
  have he : w.toNat % 2 ^ 31 / 2 ^ 23 = w.toNat / 2 ^ 23 % 2 ^ 8 := by omega
  have hm : w.toNat % 2 ^ 31 % 2 ^ 23 = w.toNat % 2 ^ 23 := by omega
  rw [hsign, BitVec.extractLsb'_toNat, BitVec.extractLsb'_toNat, Nat.shiftRight_zero, Nat.shiftRight_eq_div_pow]
  have hbits : w.toNat % 2 ^ 32 = w.toNat := Nat.mod_eq_of_lt hlt
  simp only [ofF32, widen, fp32, hbits, if_true, Nat.add_one_sub_one, Bool.true_and, Bool.false_eq_true, if_false]
  rw [he, hm]
  by_cases hinf : w.toNat / 2 ^ 23 % 2 ^ 8 = 255
  · rw [if_pos hinf]
    by_cases h0 : w.toNat % 2 ^ 23 = 0
    · rw [if_pos h0, if_pos (by omega)]
    · rw [if_neg h0, if_neg (by omega), if_pos (by omega)]
  rw [if_neg hinf, if_neg (by omega), if_neg (by omega)]
  by_cases hsub : w.toNat / 2 ^ 23 % 2 ^ 8 = 0
  · simp only [ne_eq, hsub, not_true_eq_false, if_false]
    rfl
  · simp only [ne_eq, hsub, not_false_eq_true, if_true]
    congr 1
    omega

theorem fclassWord_eq_spec (w : Word) (quiet : Bool) : fclassWord (ofF32 w) quiet = specClass w quiet := by
  have hm : (w.extractLsb' 0 23).toNat < 2 ^ 23 := (w.extractLsb' 0 23).isLt
  rw [ofF32_eq, specClass]
  generalize (w.extractLsb' 0 23).toNat = m at hm ⊢
  generalize (w.extractLsb' 23 8).toNat = e
  generalize w.getLsbD 31 = n
  by_cases hinf : e = 255
  · rw [if_pos hinf, if_pos hinf, ite_not]
    cases decEq m 0 with
    | isTrue h0 => simp [fclassWord, h0]
    | isFalse h0 => simp [fclassWord, h0]
  rw [if_neg hinf, if_neg hinf]
  by_cases hsub : e = 0
  · rw [if_pos hsub, if_pos hsub]
    by_cases h0 : m = 0
    · simp [fclassWord, h0]
    · have hlow : m.log2 < 23 := (Nat.log2_lt h0).mpr hm
      have hnorm : decide (-126 ≤ (m.log2 : Int) + -149) = false := decide_eq_false (by omega)
      simp only [fclassWord, if_neg h0, hnorm, Bool.false_eq_true, if_false]
  · have hlog : (2 ^ 23 + m).log2 = 23 := by
      rw [Nat.log2_eq_iff (by omega)]
      omega
    have hnorm : decide (-126 ≤ ((2 ^ 23 + m).log2 : Int) + ((e : Int) - 150)) = true := by
      rw [hlog]
      exact decide_eq_true (by omega)
    rw [if_neg hsub, if_neg hsub]
    simp only [fclassWord, if_neg (by omega : ¬2 ^ 23 + m = 0), hnorm, if_true]

/-! ### Packed halves -/

theorem signBit_le (f : Fmt) (neg : Bool) : signBit f neg ≤ 2 ^ (f.bits - 1) := by
  rw [signBit]
  split
  · exact le_rfl
  · exact Nat.zero_le _

theorem signCode_lt {f : Fmt} {n mag : Nat} (neg : Bool) (hb : f.bits = n + 1) (hmag : mag < 2 ^ n) : signCode f neg mag < 2 ^ (n + 1) := by
  have hs := signBit_le f neg
  rw [hb, Nat.add_sub_cancel] at hs
  have htwo : 2 ^ (n + 1) = 2 ^ n + 2 ^ n := by rw [pow_succ, Nat.mul_two]
  rw [signCode]
  split_ifs <;> omega

/-- A code of a format fits its bits, where its largest finite code, its infinity and its NaN do. -/
theorem narrow_lt {f : Fmt} {n : Nat} (hb : f.bits = n + 1) (hmax : f.maxCode < 2 ^ n) (hinf : f.inf.getD 0 < 2 ^ n) (hnan : f.nan.getD 0 < 2 ^ n)
    (x : XVal) (mode : RMode) (sat : Bool) : narrow f x mode sat < 2 ^ (n + 1) := by
  have htwo : 2 ^ (n + 1) = 2 ^ n + 2 ^ n := by rw [pow_succ, Nat.mul_two]
  have hpos : 0 < 2 ^ n := Nat.two_pow_pos n
  have hover (neg : Bool) : (match f.inf with
      | some i => if sat then signCode f neg f.maxCode else i + signBit f neg
      | none => signCode f neg f.maxCode) < 2 ^ (n + 1) := by
    have hcode := signCode_lt neg hb hmax
    have hs := signBit_le f neg
    rw [hb, Nat.add_sub_cancel] at hs
    cases hi : f.inf with
    | none => exact hcode
    | some i =>
      rw [hi, Option.getD_some] at hinf
      dsimp only
      split_ifs <;> omega
  cases x with
  | nan => exact Nat.lt_of_lt_of_le hnan (by omega)
  | inf neg =>
    rw [narrow]
    split
    · omega
    · exact hover neg
  | fin neg m e =>
    simp only [narrow]
    split
    · omega
    · split
      · exact hover neg
      · exact signCode_lt neg hb (by omega)

theorem packedWord_eq_spec {f : Fmt} (hnarrow : ∀ x mode sat, narrow f x mode sat < 2 ^ 16) (mode : RMode) (sat : Bool) (fn : RMode → XVal → XVal → XVal → XVal)
    (a b c : Word) :
    packedWord f mode sat fn a b c =
      BitVec.ofNat 16 (narrow f (fn mode (widen f (a.extractLsb' 16 16).toNat) (widen f (b.extractLsb' 16 16).toNat) (widen f (c.extractLsb' 16 16).toNat)) mode sat) ++
      BitVec.ofNat 16 (narrow f (fn mode (widen f (a.extractLsb' 0 16).toNat) (widen f (b.extractLsb' 0 16).toNat) (widen f (c.extractLsb' 0 16).toNat)) mode sat) := by
  have high (w : Word) : halfOf 1 w = (w.extractLsb' 16 16).toNat := by rw [halfOf, bitsOf, BitVec.extractLsb'_toNat]
  have low (w : Word) : halfOf 0 w = (w.extractLsb' 0 16).toNat := by rw [halfOf, bitsOf, BitVec.extractLsb'_toNat]
  rw [packedWord]
  simp only [high, low]
  generalize hx : narrow f _ mode sat = x
  generalize hy : narrow f _ mode sat = y
  have h0 : x < 2 ^ 16 := hx ▸ hnarrow _ mode sat
  have h1 : y < 2 ^ 16 := hy ▸ hnarrow _ mode sat
  apply BitVec.eq_of_toNat_eq
  rw [BitVec.toNat_append, BitVec.toNat_ofNat, BitVec.toNat_ofNat, BitVec.toNat_ofNat, Nat.mod_eq_of_lt h0, Nat.mod_eq_of_lt h1, ← Nat.shiftLeft_add_eq_or_of_lt h0, Nat.shiftLeft_eq]
  omega

/-! ### Subfields, selections and shuffles -/

theorem subBits_lt (c : Nat) (w : Word) : subBits c w < 2 ^ 32 := by
  have hwidth : subWidth c ≤ 32 := by
    rw [subWidth]
    split_ifs <;> omega
  exact Nat.lt_of_lt_of_le (Nat.mod_lt _ (Nat.two_pow_pos _)) (Nat.pow_le_pow_right (by decide) hwidth)

@[simp] theorem toNat_widenInt_zero (c : Nat) (w : Word) : (widenInt false c w).toNat = subBits c w := by
  rw [widenInt, if_neg (by simp), BitVec.toNat_ofNat, Nat.mod_eq_of_lt (subBits_lt c w)]

theorem sel_bit (w : Word) : decide (w.toNat / 32 % 2 = 1) = w.getLsbD 5 := by
  rw [← BitVec.testBit_toNat, Nat.testBit_eq_decide_div_mod_eq]

theorem sel_code (w : Word) : w.toNat % 32 = (w.extractLsb' 0 5).toNat := by
  rw [BitVec.extractLsb'_toNat, Nat.shiftRight_zero]

theorem shuffle_eq_spec (t : Team) (f : Fields) (pos : Nat → Nat → Option Nat) (l : Nat) :
    (match pos (l % segWidth t t.seg) (srcV t f.b.toNat (immOf f) l).toNat with
      | some j => if j < segWidth t t.seg then srcV t f.a.toNat (immOf f) (segFirst (segWidth t t.seg) l + j) else srcV t f.a.toNat (immOf f) l
      | none => srcV t f.a.toNat (immOf f) l) = shufVal pos t f l := by
  rw [shufVal]
  cases pos (l % segWidth t t.seg) (srcV t f.b.toNat (immOf f) l).toNat with
  | none => rfl
  | some j =>
    dsimp only [Option.bind_some]
    rw [Claims.laneAt]
    split <;> rfl

end Sys2Proof.Machine
end

section
/-! The latch and HOLD (R47-R49, R162): what a vector instruction writes, what it holds, and what becomes of the latch. -/

namespace Sys2Proof.Machine

open Sys2Proof Sys2Proof.Claims

/-! ### The latch -/

theorem kGetD_latchRow (val : Nat → Word) {l n : Nat} (hl : l < n) : kGetD l 0 (latchRow n val) = val l := by
  have h := kGetD_row val 0 l (List.range n) (List.mem_range.mpr hl)
  simp only [Nat.mul_zero, Nat.zero_add] at h
  exact h

@[simp] theorem heldVal_tick (k : Latch) (e l : Nat) : heldVal k.tick e l = heldVal k e l := rfl

@[simp] theorem heldReads_tick (k : Latch) (e : Nat) : heldReads k.tick e = heldReads k e - 1 := by
  simp only [heldReads, Latch.tick]
  split_ifs <;> rfl

theorem ptr_write {k : Latch} (hptr : k.ptr < 3) (row : KMap Word) : (k.write row).ptr = (k.ptr + 1) % 3 := by
  simp only [Latch.write]
  split_ifs <;> simp only <;> omega

theorem heldVal_write {k : Latch} {e : Nat} (hptr : k.ptr < 3) (he : e < 3) (row : KMap Word) (l : Nat) :
    heldVal (k.write row) e l = if e = k.ptr then kGetD l 0 row else heldVal k e l := by
  grind [heldVal, Latch.write]

theorem heldReads_write {k : Latch} {e : Nat} (hptr : k.ptr < 3) (he : e < 3) (row : KMap Word) :
    heldReads (k.write row) e = if e = k.ptr then 2 else heldReads k e := by
  grind [heldReads, Latch.write]

/-- A row goes to the entry that the pointer names and the pointer goes on; whatever is kept loses a read. -/
theorem latchAfter_write {k : Latch} {hold : BitVec 2} {n : Nat} {val : Nat → Word} {row : KMap Word} (hhold : hold ≠ 0) (hptr : k.ptr < 3)
    (hrow : ∀ l < n, kGetD l 0 row = val l) : latchAfter k (k.tick.write row) hold n val := by
  have hptr' : k.tick.ptr < 3 := hptr
  refine ⟨?_, fun e l he hne => ?_, fun _ => ⟨?_, fun l hl => ?_⟩⟩
  · rw [if_neg hhold, ptr_write hptr']
    rfl
  · have hpe : e ≠ k.tick.ptr := hne.resolve_left hhold
    rw [heldVal_write hptr' he, heldReads_write hptr' he, if_neg hpe, if_neg hpe]
    exact ⟨heldVal_tick k e l, heldReads_tick k e⟩
  · exact (heldReads_write hptr' hptr row).trans (if_pos rfl)
  · exact ((heldVal_write hptr' hptr row l).trans (if_pos rfl)).trans (hrow l hl)

theorem latchAfter_tick (k : Latch) (n : Nat) (val : Nat → Word) : latchAfter k k.tick 0 n val :=
  ⟨rfl, fun e l _ _ => ⟨heldVal_tick k e l, heldReads_tick k e⟩, fun h => absurd rfl h⟩

/-- What HOLD keeps of a lane, by its code: the first operand, the second, or the destination after the instruction. -/
def heldLane (u : Team) (x : Fields) (set : LaneSet) (a b res : Nat → Word) (l : Nat) : Word :=
  if x.hold = 1 then a l else if x.hold = 2 then b l
  else if x.d.toNat < 88 then u.word (u.vWord x.d.toNat) l else if set.getLsbD l then res l else 0

theorem holdOf_zero (t u : Team) {x : Fields} (set : LaneSet) (a b res : Nat → Word) (h : x.hold = 0) : holdOf t u x set a b res = none := by
  rw [holdOf, h]
  rfl

theorem holdOf_nonzero (t u : Team) {x : Fields} (set : LaneSet) (a b res : Nat → Word) (h : x.hold ≠ 0) :
    ∃ r, holdOf t u x set a b res = some r ∧ ∀ l < t.lanes, kGetD l 0 r = heldLane u x set a b res l := by
  have hcase : x.hold = 1 ∨ x.hold = 2 ∨ x.hold = 3 := by
    revert h
    generalize x.hold = c
    revert c
    decide
  rw [holdOf]
  rcases hcase with h' | h' | h' <;> rw [h']
  all_goals exact ⟨_, rfl, fun l hl => by rw [kGetD_latchRow _ hl, heldLane, h']; rfl⟩

/-- The end of an instruction that may hold: the latch as its HOLD asks. -/
theorem finishHold_latchAfter {s : State} {u : Team} {x : Fields} {row : Option (KMap Word)} {val : Nat → Word} (hpc : u.pc = s.team.pc)
    (hrep : u.rep = s.team.rep) (hin : u.inRep = s.team.inRep) (hcl : u.clause = s.team.clause) (hl : u.latch = s.team.latch) (hptr : s.team.latch.ptr < 3)
    (hzero : x.hold = 0 → row = none) (hrow : x.hold ≠ 0 → ∃ r, row = some r ∧ ∀ l < s.team.lanes, kGetD l 0 r = val l) :
    ∃ t, finishHold s u x row = .next t ∧ (∃ p c r q k d y z, t.team = { u with pc := p, clause := c, rep := r, inRep := q, latch := k, sched := d, xlat := y, walkFault := z }) ∧
      latchAfter s.team.latch t.team.latch x.hold s.team.lanes val := by
  obtain ⟨t, ht, -, -, hlatch, hrest⟩ := finishHold_spec s u x row hpc hrep hin hcl
  refine ⟨t, ht, hrest, ?_⟩
  rw [hlatch, hl]
  by_cases h : x.hold = 0
  · rw [hzero h, h]
    exact latchAfter_tick _ _ _
  · obtain ⟨r, hr, hval⟩ := hrow h
    rw [hr]
    exact latchAfter_write h hptr hval

/-- The writes of a class V instruction leave its place, its latch and its views alone. -/
structure SamePlace (u t : Team) : Prop where
  pc : u.pc = t.pc
  rep : u.rep = t.rep
  inRep : u.inRep = t.inRep
  clause : u.clause = t.clause
  latch : u.latch = t.latch
  viewV : u.viewV = t.viewV

theorem SamePlace.refl (t : Team) : SamePlace t t := ⟨rfl, rfl, rfl, rfl, rfl, rfl⟩

theorem SamePlace.setV {u t : Team} (h : SamePlace u t) (d : Nat) (set : LaneSet) (val : Nat → Word) : SamePlace (u.setV d set val) t := by
  rw [Team.setV]
  split
  · exact ⟨h.pc, h.rep, h.inRep, h.clause, h.latch, h.viewV⟩
  · exact h

theorem SamePlace.setPred {u t : Team} (h : SamePlace u t) (p : Nat) (set v : LaneSet) : SamePlace (u.setPred p set v) t := by
  rw [Team.setPred]
  split
  · exact h
  · exact ⟨h.pc, h.rep, h.inRep, h.clause, h.latch, h.viewV⟩

/-- What `holdOf` names is what the latch holds afterwards, the destination read after the instruction. -/
theorem finishHold_holdOf {s : State} {u : Team} (h : SamePlace u s.team) (x : Fields) (set : LaneSet) (a b res : Nat → Word) (hptr : s.team.latch.ptr < 3) :
    ∃ t, finishHold s u x (holdOf s.team u x set a b res) = .next t ∧ latchAfter s.team.latch t.team.latch x.hold s.team.lanes (fun l =>
      if x.hold = 1 then a l else if x.hold = 2 then b l
      else if x.d.toNat < 88 then t.team.word (s.team.vWord x.d.toNat) l else if set.getLsbD l then res l else 0) := by
  obtain ⟨t, ht, ⟨p, c, r, q, k, d, y, z, hteam⟩, hlatch⟩ := finishHold_latchAfter (x := x) (val := heldLane u x set a b res) h.pc h.rep h.inRep h.clause h.latch hptr
    (holdOf_zero _ _ _ _ _ _) (holdOf_nonzero _ _ _ _ _ _)
  refine ⟨t, ht, ?_⟩
  have hword (l : Nat) : t.team.word (s.team.vWord x.d.toNat) l = u.word (u.vWord x.d.toNat) l := by
    rw [hteam]
    simp only [Team.word, Team.vWord, h.viewV]
  simp only [hword]
  exact hlatch

/-! ### Segment width -/

theorem segmentWidth : SegmentWidth := by
  intro f s hr
  have hexec : exec (.seg f) s = _ := (exec_seg f s).trans (issue_reaches _ rfl hr)
  rw [hexec]
  refine ⟨fun hlo hhi => ?_, fun hout => ?_⟩
  · rw [if_pos (by simp [hlo, hhi])]
    obtain ⟨t, ht, honly, hon, -, p, c, r, q, k, d, y, z, hteam⟩ := finishHold_spec s { s.team with seg := (srcU s.team f.a.toNat (immOf f)).toNat } f
      (if f.hold.toNat = 1 then some (latchRow s.team.lanes (fun _ => srcU s.team f.a.toNat (immOf f))) else none) rfl rfl rfl rfl
    refine ⟨t, ht, honly, hon, ?_, ?_⟩
    · rw [hteam]
      rfl
    · rw [hteam]
  · rw [if_neg (by simpa using hout)]
    rfl

end Sys2Proof.Machine
end

section
/-! What each vector instruction writes and holds (R47-R49): the instructions' effects in the terms that the obligations name. -/

namespace Sys2Proof.Machine

open Sys2Proof Sys2Proof.Safety Sys2Proof.Claims

/-- A constructor whose instruction is encoded with its own fields. -/
def EncodesItself (con : Fields → Instr) : Prop := ∀ f, ∃ fm, encOf (con f) = some (fm, f)

theorem EncodesItself.issue_eq {con : Fields → Instr} (h : EncodesItself con) {f : Fields} {s : State} (hr : reaches s (con f) = true)
    {body : Team → Fields → Out} : issue (con f) s (fun t _ x => body t x) = body s.team f := by
  obtain ⟨fm, hfm⟩ := h f
  exact issue_reaches _ hfm hr

theorem reaches_holdOk {i : Instr} {s : State} {fm : Form} {x : Fields} (he : encOf i = some (fm, x)) (h : reaches s i = true) : holdOk fm x.hold.toNat = true := by
  simp only [reaches, he, Bool.and_eq_true, Option.isNone_iff_eq_none] at h
  obtain ⟨⟨⟨-, htrap⟩, -⟩, -⟩ := h
  have hcheck : check3 i fm x = true := by
    rw [encodingTrap] at htrap
    by_contra hbad
    rw [if_pos (by simp [hbad])] at htrap
    cases htrap
  simp only [check3, Bool.and_eq_true] at hcheck
  tauto

/-! ### Results by lane -/

/-- An instruction that writes a vector result: its operands as HOLD keeps them, the second only where it may be held, and its result. -/
def RunsVecWrite (row : (Fields → Instr) × LaneVal × LaneVal × LaneVal) : Prop :=
  ∀ (f : Fields) (s : State), reaches s (row.1 f) = true →
    ∃ b, (f.hold = 2 → b = row.2.2.1 s.team f) ∧ exec (row.1 f) s = vecWrite s s.team f (row.2.1 s.team f) b (row.2.2.2 s.team f)

/-- A row of the integer instructions: its result narrowed into the destination's subfield. -/
def RunsIntRow (r : IntRow) : Prop := RunsVecWrite (r.1, (fun t f => vA t f r.2.1), (fun t f => vB t f r.2.1), fun t f l =>
    narrowInt r.2.1 (mSat (modOf .v f)) (mDnar (modOf .v f)) (dstOld t f.d.toNat l) (r.2.2 (vA t f r.2.1 l) (vB t f r.2.1 l) (dstOld t f.d.toNat l)))

theorem runsIntRow_of {con : Fields → Instr} {sg : Bool} {fn fn' : Word → Word → Word → Word} (henc : EncodesItself con)
    (hexec : ∀ f s, exec (con f) s = vecOp (con f) s sg fn) (hfn : ∀ a b c, fn a b c = fn' a b c) : RunsIntRow (con, sg, fn') := by
  obtain rfl : fn = fn' := funext fun a => funext fun b => funext fun c => hfn a b c
  exact fun f s hr => ⟨_, fun _ => rfl, (hexec f s).trans (henc.issue_eq hr)⟩

theorem runsVecWrite_float {con : Fields → Instr} {fn : RMode → XVal → XVal → XVal → XVal} (henc : EncodesItself con)
    (hexec : ∀ f s, exec (con f) s = floatOp (con f) s fn) : RunsVecWrite (con, fA, fB, floatVal fn) :=
  fun f s hr => ⟨_, fun _ => rfl, (hexec f s).trans (henc.issue_eq hr)⟩

theorem runsVecWrite_packed {con : Fields → Instr} {fm : Fmt} {fn : RMode → XVal → XVal → XVal → XVal} (henc : EncodesItself con)
    (hexec : ∀ f s, exec (con f) s = packedOp (con f) s fm fn) (hnarrow : ∀ x mode sat, narrow fm x mode sat < 2 ^ 16) :
    RunsVecWrite (con, (fun t f => srcV t f.a.toNat (immOf f)), (fun t f => srcV t f.b.toNat (immOf f)), packedVal fm fn) := by
  intro f s hr
  refine ⟨_, fun _ => rfl, ((hexec f s).trans (henc.issue_eq hr)).trans (congrArg (vecWrite s s.team f _ _) (funext fun l => ?_))⟩
  exact packedWord_eq_spec hnarrow _ _ _ _ _ _

theorem runsVecWrite_shuffle {con : Fields → Instr} {pos : Nat → Nat → Option Nat} (henc : EncodesItself con)
    (hexec : ∀ f s, exec (con f) s = shuffle (con f) s pos) :
    RunsVecWrite (con, (fun t f => srcV t f.a.toNat (immOf f)), (fun t f => srcV t f.b.toNat (immOf f)), shufVal pos) := by
  exact fun f s hr => ⟨_, fun _ => rfl, ((hexec f s).trans (henc.issue_eq hr)).trans
    (congrArg (vecWrite s s.team f _ _) (funext fun l => shuffle_eq_spec s.team f pos l))⟩

theorem vectorRows_run : ∀ r ∈ vectorRows, RunsIntRow r := by
  simp only [vectorRows, List.forall_mem_cons, List.not_mem_nil, false_implies, implies_true, and_true]
  exact ⟨runsIntRow_of (fun _ => ⟨_, rfl⟩) exec_mov fun _ _ _ => rfl,
    runsIntRow_of (fun _ => ⟨_, rfl⟩) exec_iadd fun _ _ _ => rfl,
    runsIntRow_of (fun _ => ⟨_, rfl⟩) exec_isub fun _ _ _ => rfl,
    runsIntRow_of (fun _ => ⟨_, rfl⟩) exec_imul fun _ _ _ => rfl,
    runsIntRow_of (fun _ => ⟨_, rfl⟩) exec_imulhiI32 fun a b _ => mulhiI_eq_spec a b,
    runsIntRow_of (fun _ => ⟨_, rfl⟩) exec_imulhiZ32 fun a b _ => mulhiZ_eq_spec a b,
    runsIntRow_of (fun _ => ⟨_, rfl⟩) exec_imad fun _ _ _ => rfl,
    runsIntRow_of (fun _ => ⟨_, rfl⟩) exec_shl fun a b _ => shlW_eq_spec a b,
    runsIntRow_of (fun _ => ⟨_, rfl⟩) exec_shr fun a b _ => shrW_eq_spec a b,
    runsIntRow_of (fun _ => ⟨_, rfl⟩) exec_sra fun a b _ => sraW_eq_spec a b,
    runsIntRow_of (fun _ => ⟨_, rfl⟩) exec_and fun _ _ _ => rfl,
    runsIntRow_of (fun _ => ⟨_, rfl⟩) exec_or fun _ _ _ => rfl,
    runsIntRow_of (fun _ => ⟨_, rfl⟩) exec_xor fun _ _ _ => rfl,
    runsIntRow_of (fun _ => ⟨_, rfl⟩) exec_not fun _ _ _ => rfl,
    runsIntRow_of (fun _ => ⟨_, rfl⟩) exec_iminI32 fun a b _ => minI_eq_spec a b,
    runsIntRow_of (fun _ => ⟨_, rfl⟩) exec_iminZ32 fun a b _ => minZ_eq_spec a b,
    runsIntRow_of (fun _ => ⟨_, rfl⟩) exec_imaxI32 fun a b _ => maxI_eq_spec a b,
    runsIntRow_of (fun _ => ⟨_, rfl⟩) exec_imaxZ32 fun a b _ => maxZ_eq_spec a b,
    runsIntRow_of (fun _ => ⟨_, rfl⟩) exec_popc fun a _ _ => popcW_eq_spec a,
    runsIntRow_of (fun _ => ⟨_, rfl⟩) exec_clz fun a _ _ => clzW_eq_spec a,
    runsIntRow_of (fun _ => ⟨_, rfl⟩) exec_brev fun a _ _ => brevW_eq_spec a,
    runsIntRow_of (fun _ => ⟨_, rfl⟩) exec_bfeZ32 fun a b _ => bfeZ_eq_spec a b,
    runsIntRow_of (fun _ => ⟨_, rfl⟩) exec_bfeI32 fun a b _ => bfeI_eq_spec a b,
    runsIntRow_of (fun _ => ⟨_, rfl⟩) exec_bfi fun a b c => bfiW_eq_spec a b c,
    runsIntRow_of (fun _ => ⟨_, rfl⟩) exec_iabs fun a _ _ => absW_eq_spec a,
    runsIntRow_of (fun _ => ⟨_, rfl⟩) exec_idivI32 fun a b _ => divI_eq_spec a b,
    runsIntRow_of (fun _ => ⟨_, rfl⟩) exec_idivZ32 fun a b _ => divZ_eq_spec a b,
    runsIntRow_of (fun _ => ⟨_, rfl⟩) exec_iremI32 fun a b _ => remI_eq_spec a b,
    runsIntRow_of (fun _ => ⟨_, rfl⟩) exec_iremZ32 fun a b _ => remZ_eq_spec a b⟩

theorem runsVecWrite_fclass : RunsVecWrite (.fclass, fA, fB, fun t f l => specClass (fA t f l) (quietBit (mAsub (modOf .v f)) (srcV t f.a.toNat (immOf f) l))) := by
  intro f s hr
  refine ⟨fA s.team f, fun h2 => ?_, (exec_fclass f s).trans ((issue_reaches _ rfl hr).trans (congrArg (vecWrite s s.team f _ _) (funext fun l => ?_)))⟩
  · have hhold := reaches_holdOk rfl hr
    rw [h2] at hhold
    exact absurd hhold (by decide)
  · exact fclassWord_eq_spec _ _

theorem floatRows_run : ∀ r ∈ floatRows, RunsVecWrite (r.1, fA, fB, r.2) := by
  simp only [floatRows, List.forall_mem_cons, List.not_mem_nil, false_implies, implies_true, and_true]
  exact ⟨runsVecWrite_float (fun _ => ⟨_, rfl⟩) fun _ _ => rfl, runsVecWrite_float (fun _ => ⟨_, rfl⟩) fun _ _ => rfl,
    runsVecWrite_float (fun _ => ⟨_, rfl⟩) fun _ _ => rfl, runsVecWrite_float (fun _ => ⟨_, rfl⟩) fun _ _ => rfl,
    runsVecWrite_float (fun _ => ⟨_, rfl⟩) fun _ _ => rfl, runsVecWrite_float (fun _ => ⟨_, rfl⟩) fun _ _ => rfl, runsVecWrite_fclass⟩

theorem narrow_fp16_lt (x : XVal) (mode : RMode) (sat : Bool) : narrow fp16 x mode sat < 2 ^ 16 := narrow_lt rfl (by decide) (by decide) (by decide) x mode sat

theorem narrow_bf16_lt (x : XVal) (mode : RMode) (sat : Bool) : narrow bf16 x mode sat < 2 ^ 16 := narrow_lt rfl (by decide) (by decide) (by decide) x mode sat

theorem packedRows_run : ∀ r ∈ packedRows, RunsVecWrite (r.1, (fun t f => srcV t f.a.toNat (immOf f)), (fun t f => srcV t f.b.toNat (immOf f)), r.2) := by
  simp only [packedRows, List.forall_mem_cons, List.not_mem_nil, false_implies, implies_true, and_true]
  exact ⟨runsVecWrite_packed (fun _ => ⟨_, rfl⟩) (fun _ _ => rfl) narrow_fp16_lt, runsVecWrite_packed (fun _ => ⟨_, rfl⟩) (fun _ _ => rfl) narrow_fp16_lt,
    runsVecWrite_packed (fun _ => ⟨_, rfl⟩) (fun _ _ => rfl) narrow_fp16_lt, runsVecWrite_packed (fun _ => ⟨_, rfl⟩) (fun _ _ => rfl) narrow_fp16_lt,
    runsVecWrite_packed (fun _ => ⟨_, rfl⟩) (fun _ _ => rfl) narrow_fp16_lt, runsVecWrite_packed (fun _ => ⟨_, rfl⟩) (fun _ _ => rfl) narrow_bf16_lt,
    runsVecWrite_packed (fun _ => ⟨_, rfl⟩) (fun _ _ => rfl) narrow_bf16_lt, runsVecWrite_packed (fun _ => ⟨_, rfl⟩) (fun _ _ => rfl) narrow_bf16_lt⟩

theorem runsVecWrite_cvtInt {con : Fields → Instr} {sg : Bool} (henc : EncodesItself con) (hexec : ∀ f s, exec (con f) s = cvtIntOp (con f) s sg) :
    RunsVecWrite (con, convHeld, convHeld, convInt sg) :=
  fun f s hr => ⟨_, fun _ => rfl, (hexec f s).trans (henc.issue_eq hr)⟩

theorem runsVecWrite_cvtFloat {con : Fields → Instr} {fm : Team → Word → Fmt} (henc : EncodesItself con) (hexec : ∀ f s, exec (con f) s = cvtFloatOp (con f) s)
    (hfm : ∀ t f, cvtFmt t (cvtDst (con f) (modOf .v f)) = fm t (modOf .v f)) : RunsVecWrite (con, convHeld, convHeld, convFmt fm) := by
  intro f s hr
  refine ⟨_, fun _ => rfl, ((hexec f s).trans (henc.issue_eq hr)).trans (congrArg (vecWrite s s.team f _ _) (funext fun l => ?_))⟩
  simp only [convFmt, ← hfm]
  rfl

theorem cvtFmt_nf (t : Team) (f : Fields) : cvtFmt t (cvtDst (.cvtNf f) (modOf .v f)) = nfFmt (t.nf (mNfs (modOf .v f))) := by
  have hdst : cvtDst (.cvtNf f) (modOf .v f) = 5 + mNfs (modOf .v f) := rfl
  rw [hdst, cvtFmt, if_neg (by omega), if_neg (by omega), if_neg (by omega), Nat.add_sub_cancel_left]

theorem convRows_run : ∀ r ∈ convRows.take 6, RunsVecWrite (r.1, convHeld, convHeld, r.2) := by
  simp only [convRows, List.take_succ_cons, List.take_zero, List.forall_mem_cons, List.not_mem_nil, false_implies, implies_true, and_true]
  exact ⟨runsVecWrite_cvtInt (fun _ => ⟨_, rfl⟩) fun _ _ => rfl, runsVecWrite_cvtInt (fun _ => ⟨_, rfl⟩) fun _ _ => rfl,
    runsVecWrite_cvtFloat (fun _ => ⟨_, rfl⟩) (fun _ _ => rfl) fun _ _ => rfl, runsVecWrite_cvtFloat (fun _ => ⟨_, rfl⟩) (fun _ _ => rfl) fun _ _ => rfl,
    runsVecWrite_cvtFloat (fun _ => ⟨_, rfl⟩) (fun _ _ => rfl) fun _ _ => rfl,
    runsVecWrite_cvtFloat (fun _ => ⟨_, rfl⟩) (fun _ _ => rfl) cvtFmt_nf⟩

theorem runsVecWrite_pack : RunsVecWrite (.pack, (fun t f => vA t f false), (fun t f => vB t f false), fun t f l =>
    subInsert (mDnar (modOf .v f) + 1) (subInsert (mDnar (modOf .v f)) (dstOld t f.d.toNat l) (subBits (mAsub (modOf .v f)) (srcV t f.a.toNat (immOf f) l)))
      (subBits (mBsub (modOf .v f)) (srcV t f.b.toNat (immOf f) l))) := by
  intro f s hr
  refine ⟨_, fun _ => rfl, (exec_pack f s).trans ((issue_reaches _ rfl hr).trans (congrArg (vecWrite s s.team f _ _) (funext fun l => ?_)))⟩
  rw [toNat_widenInt_zero, toNat_widenInt_zero]

theorem runsVecWrite_sel : RunsVecWrite (.sel, (fun t f => srcV t f.a.toNat 0), (fun t f => srcV t f.b.toNat 0), fun t f l =>
    if ((t.pred ((immOf f).extractLsb' 0 5).toNat).getLsbD l != (immOf f).getLsbD 5) then srcV t f.a.toNat 0 l else srcV t f.b.toNat 0 l) := by
  intro f s hr
  refine ⟨_, fun _ => rfl, (exec_sel f s).trans ((issue_reaches _ rfl hr).trans (congrArg (vecWrite s s.team f _ _) (funext fun l => ?_)))⟩
  rw [sel_bit, sel_code]

theorem shuffleRows_run : ∀ r ∈ shuffleRows, RunsVecWrite (r.1, (fun t f => srcV t f.a.toNat (immOf f)), (fun t f => srcV t f.b.toNat (immOf f)), r.2) := by
  simp only [shuffleRows, List.forall_mem_cons, List.not_mem_nil, false_implies, implies_true, and_true]
  exact ⟨runsVecWrite_shuffle (fun _ => ⟨_, rfl⟩) fun _ _ => rfl, runsVecWrite_shuffle (fun _ => ⟨_, rfl⟩) fun _ _ => rfl,
    runsVecWrite_shuffle (fun _ => ⟨_, rfl⟩) fun _ _ => rfl, runsVecWrite_shuffle (fun _ => ⟨_, rfl⟩) fun _ _ => rfl⟩

theorem heldRows_run : ∀ row ∈ heldRows, RunsVecWrite row := by
  simp only [heldRows, List.forall_mem_append, List.forall_mem_map]
  refine ⟨⟨⟨⟨⟨⟨vectorRows_run, floatRows_run⟩, packedRows_run⟩, convRows_run⟩, ?_⟩, ?_⟩, shuffleRows_run⟩
  · simpa only [convRows, List.drop_succ_cons, List.drop_zero, List.take_succ_cons, List.take_zero, List.forall_mem_singleton] using runsVecWrite_pack
  · simpa only [convRows, List.drop_succ_cons, List.drop_zero, List.forall_mem_singleton] using runsVecWrite_sel

/-! ### Comparisons -/

/-- A comparison: its operands as HOLD keeps them, its result in a predicate. -/
def RunsPredWrite (row : (Fields → Instr) × LaneVal × LaneVal) : Prop :=
  ∀ (f : Fields) (s : State), reaches s (row.1 f) = true →
    ∃ res, exec (row.1 f) s = predWrite s s.team f (row.2.1 s.team f) (row.2.2 s.team f) res

def RunsCmpRow (r : CmpRow) : Prop := RunsPredWrite (r.1, (fun t f => vA t f r.2.1), fun t f => vB t f r.2.1)

theorem runsCmpRow_of {con : Fields → Instr} {sg : Bool} {c : Cmp} {fn : Word → Word → Bool} (henc : EncodesItself con)
    (hexec : ∀ f s, exec (con f) s = vecCmp (con f) s sg c) : RunsCmpRow (con, sg, fn) :=
  fun f s hr => ⟨_, (hexec f s).trans (henc.issue_eq hr)⟩

theorem vectorCmpRows_run : ∀ r ∈ vectorCmpRows, RunsCmpRow r := by
  simp only [vectorCmpRows, List.forall_mem_cons, List.not_mem_nil, false_implies, implies_true, and_true]
  exact ⟨runsCmpRow_of (fun _ => ⟨_, rfl⟩) exec_icmpEq, runsCmpRow_of (fun _ => ⟨_, rfl⟩) exec_icmpNe, runsCmpRow_of (fun _ => ⟨_, rfl⟩) exec_icmpLtI32,
    runsCmpRow_of (fun _ => ⟨_, rfl⟩) exec_icmpLeI32, runsCmpRow_of (fun _ => ⟨_, rfl⟩) exec_icmpLtZ32, runsCmpRow_of (fun _ => ⟨_, rfl⟩) exec_icmpLeZ32⟩

theorem runsPredWrite_float {con : Fields → Instr} {c : FCmp} (henc : EncodesItself con) (hexec : ∀ f s, exec (con f) s = floatCmp (con f) s c) :
    RunsPredWrite (con, fA, fB) :=
  fun f s hr => ⟨_, (hexec f s).trans (henc.issue_eq hr)⟩

theorem heldCmpRows_run : ∀ row ∈ heldCmpRows, RunsPredWrite row := by
  simp only [heldCmpRows, List.forall_mem_append, List.forall_mem_map]
  refine ⟨vectorCmpRows_run, ?_⟩
  simp only [List.forall_mem_cons, List.not_mem_nil, false_implies, implies_true, and_true]
  exact ⟨runsPredWrite_float (fun _ => ⟨_, rfl⟩) exec_fcmpEq, runsPredWrite_float (fun _ => ⟨_, rfl⟩) exec_fcmpLt,
    runsPredWrite_float (fun _ => ⟨_, rfl⟩) exec_fcmpLe, runsPredWrite_float (fun _ => ⟨_, rfl⟩) exec_fcmpUn, runsPredWrite_float (fun _ => ⟨_, rfl⟩) exec_fcmpNe⟩

/-! ### Reductions, scans, ballots and matches -/

/-- An instruction over segments: it writes at most registers and predicates, and what HOLD may keep of its first operand is that operand. -/
def RunsSegment (con : Fields → Instr) : Prop :=
  ∀ (f : Fields) (s : State), reaches s (con f) = true →
    ∃ u set a b res, SamePlace u s.team ∧ (con f ≠ .voteBal f → a = srcV s.team f.a.toNat (immOf f)) ∧
      exec (con f) s = finishHold s u f (holdOf s.team u f set a b res)

theorem runsSegment_of {con : Fields → Instr} {res : RMode → Nat → List (Option Word) → Word} (henc : EncodesItself con)
    (hexec : ∀ f s, exec (con f) s = segmentOp (con f) s res) : RunsSegment con :=
  fun f s hr => ⟨_, _, _, _, _, ((SamePlace.refl s.team).setPred _ _ _).setV _ _ _, fun _ => rfl, (hexec f s).trans (henc.issue_eq hr)⟩

theorem runsSegment_reduce {con : Fields → Instr} {fn : Word → Word → Word} {ident : Word} (henc : EncodesItself con)
    (hexec : ∀ f s, exec (con f) s = reduce (con f) s fn ident) : RunsSegment con := runsSegment_of henc hexec

theorem runsSegment_scan {con : Fields → Instr} {fn : Word → Word → Word} {ident : Word} (henc : EncodesItself con)
    (hexec : ∀ f s, exec (con f) s = scan (con f) s fn ident) : RunsSegment con := runsSegment_of henc hexec

theorem runsSegment_match : RunsSegment .matchLanes := by
  intro f s hr
  have hexec : exec (.matchLanes f) s = _ := (exec_matchLanes f s).trans (issue_reaches _ rfl hr)
  exact ⟨_, _, _, _, _, (SamePlace.refl s.team).setV _ _ _, fun _ => rfl, hexec⟩

theorem runsSegment_ballot : RunsSegment .voteBal := by
  intro f s hr
  have hexec : exec (.voteBal f) s = _ := (exec_voteBal f s).trans (issue_reaches _ rfl hr)
  exact ⟨_, _, _, _, _, (SamePlace.refl s.team).setV _ _ _, fun h => absurd rfl h, hexec⟩

theorem segmentRows_run : ∀ con ∈ segmentRows, RunsSegment con := by
  simp only [segmentRows, reduceRows, List.map_cons, List.map_nil, List.cons_append, List.nil_append, List.forall_mem_cons, List.not_mem_nil, false_implies,
    implies_true, and_true]
  exact ⟨runsSegment_reduce (fun _ => ⟨_, rfl⟩) exec_vRedAdd, runsSegment_reduce (fun _ => ⟨_, rfl⟩) exec_vRedMinI32,
    runsSegment_reduce (fun _ => ⟨_, rfl⟩) exec_vRedMinZ32, runsSegment_reduce (fun _ => ⟨_, rfl⟩) exec_vRedMaxI32,
    runsSegment_reduce (fun _ => ⟨_, rfl⟩) exec_vRedMaxZ32, runsSegment_reduce (fun _ => ⟨_, rfl⟩) exec_vRedAnd,
    runsSegment_reduce (fun _ => ⟨_, rfl⟩) exec_vRedOr, runsSegment_reduce (fun _ => ⟨_, rfl⟩) exec_vRedXor,
    runsSegment_scan (fun _ => ⟨_, rfl⟩) exec_scanAdd, runsSegment_scan (fun _ => ⟨_, rfl⟩) exec_scanMaxI32,
    runsSegment_scan (fun _ => ⟨_, rfl⟩) exec_scanMaxZ32,
    runsSegment_of (fun _ => ⟨_, rfl⟩) exec_vRedFadd, runsSegment_match, runsSegment_ballot⟩

/-! ### What HOLD keeps -/

theorem latchAfter_congr {k k' : Latch} {hold : BitVec 2} {n : Nat} {val val' : Nat → Word} (h : latchAfter k k' hold n val)
    (hval : hold ≠ 0 → ∀ l < n, val l = val' l) : latchAfter k k' hold n val' := by
  obtain ⟨hptr, hkept, hnew⟩ := h
  refine ⟨hptr, hkept, fun h0 => ?_⟩
  obtain ⟨hreads, hvals⟩ := hnew h0
  exact ⟨hreads, fun l hl => (hvals l hl).trans (hval h0 l hl)⟩

theorem hold_eq_three {h : BitVec 2} (h0 : h ≠ 0) (h1 : h ≠ 1) (h2 : h ≠ 2) : h = 3 := by
  revert h
  decide

theorem RunsVecWrite.latchAfter {row : (Fields → Instr) × LaneVal × LaneVal × LaneVal} (h : RunsVecWrite row) {f : Fields} {s : State}
    (hptr : s.team.latch.ptr < 3) (hr : reaches s (row.1 f) = true) :
    ∃ t, exec (row.1 f) s = .next t ∧ latchAfter s.team.latch t.team.latch f.hold s.team.lanes (fun l =>
      if f.hold = 1 then row.2.1 s.team f l else if f.hold = 2 then row.2.2.1 s.team f l
      else if f.d.toNat < 88 then t.team.word (s.team.vWord f.d.toNat) l
      else if (presentSet s.team (modOf .v f)).getLsbD l then row.2.2.2 s.team f l else 0) := by
  obtain ⟨b, hb, hexec⟩ := h f s hr
  obtain ⟨t, ht, hlatch⟩ := finishHold_holdOf ((SamePlace.refl s.team).setV f.d.toNat (presentSet s.team (modOf .v f)) (row.2.2.2 s.team f)) f
    (presentSet s.team (modOf .v f)) (row.2.1 s.team f) b (row.2.2.2 s.team f) hptr
  refine ⟨t, hexec.trans ht, latchAfter_congr hlatch fun _ l _ => ?_⟩
  by_cases h2 : f.hold = 2
  · rw [hb h2]
  · rw [if_neg h2, if_neg h2]

theorem RunsPredWrite.latchAfter {row : (Fields → Instr) × LaneVal × LaneVal} (h : RunsPredWrite row) {f : Fields} {s : State}
    (hptr : s.team.latch.ptr < 3) (hne : f.hold ≠ 3) (hr : reaches s (row.1 f) = true) :
    ∃ t, exec (row.1 f) s = .next t ∧ latchAfter s.team.latch t.team.latch f.hold s.team.lanes (fun l =>
      if f.hold = 1 then row.2.1 s.team f l else row.2.2 s.team f l) := by
  obtain ⟨res, hexec⟩ := h f s hr
  obtain ⟨t, ht, hlatch⟩ := finishHold_holdOf ((SamePlace.refl s.team).setPred f.d.toNat (presentSet s.team (modOf .v f)) res) f
    (presentSet s.team (modOf .v f)) (row.2.1 s.team f) (row.2.2 s.team f) (fun _ => 0) hptr
  refine ⟨t, hexec.trans ht, latchAfter_congr hlatch fun h0 l _ => ?_⟩
  by_cases h1 : f.hold = 1
  · rw [if_pos h1, if_pos h1]
  · have h2 : f.hold = 2 := by_contra fun h2 => hne (hold_eq_three h0 h1 h2)
    rw [if_neg h1, if_neg h1, if_pos h2]

theorem RunsSegment.latchAfter {con : Fields → Instr} (h : RunsSegment con) {f : Fields} {s : State} (hptr : s.team.latch.ptr < 3)
    (hhold : f.hold = 0 ∨ (f.hold = 1 ∧ con f ≠ .voteBal f) ∨ (f.hold = 3 ∧ f.d.toNat < 88)) (hr : reaches s (con f) = true) :
    ∃ t, exec (con f) s = .next t ∧ latchAfter s.team.latch t.team.latch f.hold s.team.lanes (fun l =>
      if f.hold = 1 then srcV s.team f.a.toNat (immOf f) l else t.team.word (s.team.vWord f.d.toNat) l) := by
  obtain ⟨u, set, a, b, res, hplace, ha, hexec⟩ := h f s hr
  obtain ⟨t, ht, hlatch⟩ := finishHold_holdOf hplace f set a b res hptr
  refine ⟨t, hexec.trans ht, latchAfter_congr hlatch fun h0 l _ => ?_⟩
  obtain h1 | ⟨h1, hcon⟩ | ⟨h3, hd⟩ := hhold
  · exact absurd h1 h0
  · rw [if_pos h1, if_pos h1, ha hcon]
  · rw [if_pos hd, h3, if_neg (by decide), if_neg (by decide), if_neg (by decide)]

theorem holdFillsLatch : HoldFillsLatch :=
  ⟨fun row hrow _ _ _ hptr hr => (heldRows_run row hrow).latchAfter hptr hr,
   fun row hrow _ _ _ hptr hne hr => (heldCmpRows_run row hrow).latchAfter hptr hne hr,
   fun con hcon _ _ _ hptr hhold hr => (segmentRows_run con hcon).latchAfter hptr hhold hr⟩

end Sys2Proof.Machine
end

section
/-! Class Q (R163-R170): an instruction's entry into the unit's queue, the write of its results, and the resident routine of `ex2.a`. -/

namespace Sys2Proof.Machine

open Sys2Proof Sys2Proof.Safety Sys2Proof.Claims

/-! ### Issue -/

/-- A class Q instruction that reaches its effect: it waits for an entry, does nothing without a present lane, else enters the queue. -/
def RunsQ (row : (Fields → Instr) × QOp) : Prop :=
  ∀ (f : Fields) (s : State), reaches s (row.1 f) = true → exec (row.1 f) s =
    if 16 ≤ (s.partAt s.team.partNo).sfuQ.length then .next s
    else if presentSet s.team (modOf .q f) = 0 then finishHold s s.team f (qHold s.team f)
    else finishHold (s.setPart s.team.partNo { s.partAt s.team.partNo with sfuQ := (s.partAt s.team.partNo).sfuQ ++ [sfuOpOf s.cur s.team row.2 f] })
      { s.team.flagUp (selFlag s.team (modOf .q f)) with nextOp := s.team.nextOp + 1 } f (qHold s.team f)

theorem runsQ_of {con : Fields → Instr} {op : QOp} (henc : EncodesItself con) (hexec : ∀ f s, exec (con f) s = qOp (con f) s op) : RunsQ (con, op) := by
  intro f s hr
  rw [hexec f s, qOp, issueQ]
  exact henc.issue_eq hr

theorem sfuRows_run : ∀ row ∈ sfuRows, RunsQ row := by
  simp only [sfuRows, List.forall_mem_cons, List.not_mem_nil, false_implies, implies_true, and_true]
  exact ⟨runsQ_of (fun _ => ⟨_, rfl⟩) exec_rcp, runsQ_of (fun _ => ⟨_, rfl⟩) exec_rsq, runsQ_of (fun _ => ⟨_, rfl⟩) exec_sqrt, runsQ_of (fun _ => ⟨_, rfl⟩) exec_ex2,
    runsQ_of (fun _ => ⟨_, rfl⟩) exec_lg2, runsQ_of (fun _ => ⟨_, rfl⟩) exec_sinp, runsQ_of (fun _ => ⟨_, rfl⟩) exec_cosp, runsQ_of (fun _ => ⟨_, rfl⟩) exec_tanh,
    runsQ_of (fun _ => ⟨_, rfl⟩) exec_rcpA, runsQ_of (fun _ => ⟨_, rfl⟩) exec_rsqA⟩

theorem kGet_lanes (val : Nat → Word) (ls : List Nat) (l : Nat) : kGet l (ls.map (fun l => (l, val l))) = if l ∈ ls then some (val l) else none := by
  induction ls with
  | nil => rfl
  | cons a r ih =>
    rw [List.map_cons, kGet, ih]
    by_cases h : l = a
    · simp [h]
    · simp [h]

theorem mem_laneList {n l : Nat} {m : LaneSet} : l ∈ laneList n m ↔ l < n ∧ m.getLsbD l = true := by
  simp [laneList]

/-- The results that a class Q instruction enters the queue with: those of its present lanes. -/
theorem kGet_sfuOpOf_vals (tid : Nat) (t : Team) (op : QOp) (x : Fields) {l : Nat} (hl : l < t.lanes) :
    kGet l (sfuOpOf tid t op x).vals = if (presentSet t (modOf .q x)).getLsbD l then some (qResult op (ofF32 (qA t x l))) else none := by
  refine (kGet_lanes (fun l => qResult op (ofF32 (qA t x l))) _ l).trans ?_
  simp only [mem_laneList, hl, true_and]

theorem specialFunctionIssue : SpecialFunctionIssue := by
  intro row hrow f s hr
  have hexec := sfuRows_run row hrow f s hr
  refine ⟨fun hfull => ?_, fun hnone hfree => ?_, fun hsome hfree => ?_⟩
  · rw [hexec, if_pos hfull]
  · rw [hexec, if_neg (by omega), if_pos hnone]
    obtain ⟨t, ht, honly, hon, -, p, c, r, q, k, d, y, z, hteam⟩ := finishHold_spec s s.team f (qHold s.team f) rfl rfl rfl rfl
    exact ⟨t, ht, honly, hon, by rw [hteam]; rfl⟩
  · rw [hexec, if_neg (by omega), if_neg hsome]
    obtain ⟨fl, hfl⟩ := s.team.flagUp_rest (selFlag s.team (modOf .q f))
    rw [hfl]
    obtain ⟨t, ht, honly, hon, -, p, c, r, q, k, d, y, z, hteam⟩ := finishHold_spec (s.setPart s.team.partNo _) { s.team with flags := fl, nextOp := s.team.nextOp + 1 } f (qHold s.team f) rfl rfl rfl rfl
    refine ⟨t, sfuOpOf s.cur s.team row.2 f, ht, hon, honly.mem, ?_, ?_, honly.team, rfl, rfl, rfl, fun l hl => kGet_sfuOpOf_vals _ _ _ _ hl⟩
    · rw [hteam]
      rfl
    · rw [hteam]

/-! ### The write of a result -/

theorem any_key_eq_isSome (m : KMap Word) (k : Nat) : m.any (fun p => p.1 = k) = (kGet k m).isSome := by
  induction m with
  | nil => rfl
  | cons p r ih =>
    obtain ⟨j, v⟩ := p
    rw [List.any_cons, ih, kGet]
    by_cases h : k = j
    · simp [h]
    · simp [h, Ne.symm h]

theorem Team.word_flagDown (t : Team) (k : Option Nat) (q l : Nat) : (t.flagDown k).word q l = t.word q l := by
  cases k <;> rfl

theorem Team.flag_flagDown (t : Team) (k : Option Nat) (j : Nat) : (t.flagDown k).flag j = if k = some j then t.flag j - 1 else t.flag j := by
  cases k with
  | none => rfl
  | some k =>
    by_cases h : k = j
    · subst h
      rw [if_pos rfl]
      exact kGetD_kSet_same 0 (t.flag k - 1) k t.flags
    · rw [if_neg (by simpa using h)]
      exact kGetD_kSet_other 0 (t.flag k - 1) k j t.flags (Ne.symm h)

theorem writeSfu_rest (t : Team) (o : SfuOp) : ∃ r f, writeSfu t o = { t with regs := r, flags := f } := foldl_writeSfu_eq [o] t

theorem flag_writeSfu (t : Team) (o : SfuOp) (k : Nat) : (writeSfu t o).flag k = if o.flag = some k then t.flag k - 1 else t.flag k := by
  rw [writeSfu, Team.flag_flagDown]
  cases o.dst <;> rfl

theorem word_writeSfu {t : Team} (o : SfuOp) (hw : t.warps ≤ 32) (q : Nat) {l : Nat} (hl : l < t.lanes) :
    (writeSfu t o).word q l = if o.dst = some q then (kGet l o.vals).getD (t.word q l) else t.word q l := by
  rw [writeSfu, Team.word_flagDown]
  cases hd : o.dst with
  | none => rfl
  | some p =>
    dsimp only
    rw [Team.word_setWord _ _ _ _ _ _ hw hl, getLsbD_laneSetOf _ _ _ (by simp only [Team.lanes]; omega), any_key_eq_isSome, decide_eq_true hl, Bool.true_and, kGetD]
    by_cases h : q = p
    · rw [h, if_pos rfl]
      cases kGet l o.vals <;> simp
    · rw [if_neg (fun hc => h hc.1), if_neg (by simpa using Ne.symm h)]

theorem specialFunctionResult : SpecialFunctionResult := by
  intro s o r hw hq ho
  have hfirst : firstSfu (o :: r) s.ev.x = some o := List.find?_cons_of_pos (by simpa using ho)
  have hdrop : dropSfu s.ev.x (o :: r) = r := if_pos ho
  rw [exec_qResultWrite, execQResultWrite]
  simp only [hq, hfirst, hdrop]
  refine ⟨fun hheld => if_pos hheld, fun hheld => ⟨_, if_neg (by simp [hheld]), fun _ => rfl, ?_, ?_, fun k hk => ?_, fun k hk => ?_, fun q l hl => ?_⟩⟩
  · rw [State.partAt_setPart_same]
  all_goals rw [State.teamAt_setPart, State.teamAt_setTeamAt_same]
  · obtain ⟨rg, fl, h⟩ := writeSfu_rest (s.teamAt s.ev.x) o
    rw [h]
  · rw [flag_writeSfu, if_pos hk]
  · rw [flag_writeSfu, if_neg hk]
  · exact word_writeSfu o hw q hl

/-! ### The resident routine -/

/-- With nothing queued in its partition, what is drained leaves a team as it was. -/
theorem drainSfu_empty {s : State} {tid : Nat} (h : (s.partAt (s.teamAt tid).partNo).sfuQ = []) : (drainSfu s tid).teamAt tid = s.teamAt tid := by
  rw [drainSfu]
  simp [h]

/-- A class Q result written at once: the destination in the present lanes, no flag. -/
theorem vecWritten_writeSfu {t : Team} (tid : Nat) (op : QOp) (x : Fields) (hw : t.warps ≤ 32) :
    vecWritten t (writeSfu t { sfuOpOf tid t op x with flag := none }) x.d.toNat (presentSet t (modOf .q x)) (fun l => qResult op (ofF32 (qA t x l))) := by
  intro q l hl
  have hdst : (sfuOpOf tid t op x).dst = some q ↔ x.d.toNat < 88 ∧ q = t.vWord x.d.toNat := by
    simp only [sfuOpOf, Option.ite_none_right_eq_some, Option.some.injEq, @eq_comm _ q]
  rw [word_writeSfu _ hw q hl, kGet_sfuOpOf_vals tid t op x hl]
  refine (if_congr hdst rfl rfl).trans ?_
  cases (presentSet t (modOf .q x)).getLsbD l <;> simp

theorem writeSfu_noFlag (t : Team) (o : SfuOp) : ∃ r, writeSfu t { o with flag := none } = { t with regs := r } := by
  rw [writeSfu]
  cases o.dst <;> exact ⟨_, rfl⟩

/-- The state in which the resident routine writes: earlier results drained, one entry more in the die's telemetry. -/
def residentState (s : State) : State := (drainSfu s s.cur).modDie (dieOf s.team.core) (fun d => { d with compat := d.compat + 1 })

theorem residentState_team {s : State} (h : (s.partAt s.team.partNo).sfuQ = []) : (residentState s).team = s.team := drainSfu_empty h

theorem residentState_compat (s : State) : ((residentState s).dieAt (dieOf s.team.core)).compat = (s.dieAt (dieOf s.team.core)).compat + 1 := by
  rw [residentState, State.modDie, State.dieAt_setDie_same]
  rfl

theorem exec_ex2A_present {f : Fields} {s : State} (hr : reaches s (.ex2A f) = true) (hempty : (s.partAt s.team.partNo).sfuQ = [])
    (hpresent : presentSet s.team (modOf .q f) ≠ 0) :
    exec (.ex2A f) s = if heldByFenceq s s.cur 3 s.team.nextOp then .next s
      else finishHold (residentState s) (writeSfu (residentState s).team { sfuOpOf s.cur s.team .ex2A f with flag := none }) f (qHold s.team f) := by
  rw [exec_ex2A, execEx2A, issueQ]
  refine (issue_reaches _ rfl hr).trans ?_
  rw [if_neg (by simp [hempty, Config.sfuEntries]), if_neg hpresent]
  rfl

theorem residentRoutine : ResidentRoutine := by
  intro f s hw hr hempty hpresent
  rw [exec_ex2A_present hr hempty hpresent]
  refine ⟨fun hheld => if_pos hheld, fun hheld => ?_⟩
  rw [if_neg (by simp [hheld])]
  have hs := residentState_team hempty
  obtain ⟨rg, hwrite⟩ := writeSfu_noFlag s.team (sfuOpOf s.cur s.team .ex2A f)
  have hword := vecWritten_writeSfu (t := s.team) s.cur .ex2A f hw
  rw [hs, hwrite]
  rw [hwrite] at hword
  obtain ⟨t, ht, honly, hon, -, p, c, r, q, k, d, y, z, hteam⟩ := finishHold_spec (residentState s) { s.team with regs := rg } f (qHold s.team f)
    (by rw [hs]) (by rw [hs]) (by rw [hs]) (by rw [hs])
  rw [hs] at hon
  refine ⟨t, ht, hon, honly.mem, ?_, ?_, ?_⟩
  · rw [hteam]
    rfl
  · rw [honly.team]
    exact residentState_compat s
  · intro q' l hl
    rw [hteam]
    exact hword q' l hl

end Sys2Proof.Machine
end

section
/-! The special operands of the class Q functions (R164, R166-R168). -/

namespace Sys2Proof.Machine

open Sys2Proof Sys2Proof.Claims

/-! ### Codes by their number -/

theorem ofF32_nan {w : Word} (h : 0x7F800000 < w.toNat % 2 ^ 31) : ofF32 w = .nan := by
  rw [ofF32_eq, BitVec.extractLsb'_toNat, BitVec.extractLsb'_toNat, Nat.shiftRight_zero, Nat.shiftRight_eq_div_pow, if_pos (by omega), if_neg (by omega)]

/-- A negative code below -0 and above -infinity is a nonzero finite value. -/
theorem ofF32_negative {w : Word} (hlo : 0x80000000 < w.toNat) (hhi : w.toNat < 0xFF800000) : ∃ m e, m ≠ 0 ∧ ofF32 w = .fin true m e := by
  have hsign : w.getLsbD 31 = true := by
    rw [← BitVec.testBit_toNat, Nat.testBit_eq_decide_div_mod_eq]
    exact decide_eq_true (by omega)
  rw [ofF32_eq, hsign, BitVec.extractLsb'_toNat, BitVec.extractLsb'_toNat, Nat.shiftRight_zero, Nat.shiftRight_eq_div_pow, if_neg (by omega)]
  by_cases hsub : w.toNat / 2 ^ 23 % 2 ^ 8 = 0
  · exact ⟨_, _, by omega, if_pos hsub⟩
  · exact ⟨_, _, by omega, if_neg hsub⟩

/-- A normal code by its number. -/
theorem ofF32_normal {w : Word} (hlo : 1 ≤ w.toNat / 2 ^ 23 % 2 ^ 8) (hhi : w.toNat / 2 ^ 23 % 2 ^ 8 < 255) :
    ofF32 w = .fin (decide (2 ^ 31 ≤ w.toNat)) (2 ^ 23 + w.toNat % 2 ^ 23) ((w.toNat / 2 ^ 23 % 2 ^ 8 : Nat) - 150) := by
  have hlt := w.isLt
  have hsign : w.getLsbD 31 = decide (2 ^ 31 ≤ w.toNat) := by
    rw [← BitVec.testBit_toNat, Nat.testBit_eq_decide_div_mod_eq]
    exact decide_eq_decide.mpr (by omega)
  rw [ofF32_eq, hsign, BitVec.extractLsb'_toNat, BitVec.extractLsb'_toNat, Nat.shiftRight_zero, Nat.shiftRight_eq_div_pow, if_neg (by omega), if_neg (by omega)]

/-! ### NaN, zeros and infinities -/

theorem qResult_nan (op : QOp) : qResult op .nan = 0x7FC00000 := by cases op <;> rfl

theorem qResult_table : ∀ row ∈ sfuTable, qResult row.1 (ofF32 0) = row.2.1 ∧ qResult row.1 (ofF32 0x80000000) = row.2.2.1 ∧
    qResult row.1 (ofF32 0x7F800000) = row.2.2.2.1 ∧ qResult row.1 (ofF32 0xFF800000) = row.2.2.2.2 := by
  decide

theorem qResult_negative : ∀ op ∈ [QOp.rsq, .sqrt, .lg2, .rsqA], ∀ (m : Nat) (e : Int), m ≠ 0 → qResult op (.fin true m e) = 0x7FC00000 := by
  simp only [List.forall_mem_cons, List.not_mem_nil, false_implies, implies_true, and_true]
  refine ⟨?_, ?_, ?_, ?_⟩ <;> intro m e h
  · rw [qResult]
    simp only [rsqV, if_neg h, if_true]
    rfl
  · rw [qResult]
    simp only [sqrtV, if_neg h, if_true]
    rfl
  · rw [qResult]
    simp only [lg2V, if_neg h, if_true]
    rfl
  · rw [qResult]
    simp only [rsqA, if_neg h, if_true]
    rfl

/-! ### Whole numbers and halves -/

theorem toF32_zero (neg : Bool) : toF32 (.fin neg 0 0) .rne false = if neg then 0x80000000 else 0 := by cases neg <;> rfl

/-- m whole halves, q of them in a turn of four: the quadrant and the place within it. -/
theorem quadrant (q n : Nat) : 2 * (q * 2 ^ n % 2 ^ (n + 2)) / 2 ^ (n + 1) = q % 4 ∧ 2 * (q * 2 ^ n % 2 ^ (n + 2)) % 2 ^ (n + 1) = 0 := by
  have h4 : 2 ^ (n + 2) = 4 * 2 ^ n := by rw [pow_add, Nat.mul_comm]; rfl
  have h2 : 2 ^ (n + 1) = 2 * 2 ^ n := by rw [pow_succ, Nat.mul_comm]
  have hpos : 0 < 2 * 2 ^ n := by positivity
  rw [h4, h2, Nat.mul_mod_mul_right, Nat.mul_left_comm]
  exact ⟨Nat.mul_div_cancel _ hpos, Nat.mul_mod_left _ _⟩

/-- The sine of a whole number of half turns is a zero of the operand's sign. -/
theorem sincosPi_whole {m k : Nat} {e : Int} (neg : Bool) (h : isWhole m e k) : sincosPi false neg m e = .fin neg 0 0 := by
  rw [sincosPi]
  by_cases h0 : m = 0
  · rw [if_pos h0]
    rfl
  rw [if_neg h0]
  by_cases he : 0 ≤ e
  · rw [if_pos he]
    rfl
  rw [isWhole, if_neg he] at h
  rw [if_neg he]
  obtain ⟨n, hn⟩ : ∃ n, (-e).toNat = n + 1 := ⟨(-e).toNat - 1, by omega⟩
  have hm : m = 2 * k * 2 ^ n := by rw [h, hn, pow_succ]; ring
  obtain ⟨hquad, hrest⟩ := quadrant (2 * k) n
  rw [hn, hm]
  simp only [hquad, hrest, if_true]
  have hcase : 2 * k % 4 = 0 ∨ 2 * k % 4 = 2 := by omega
  rcases hcase with hc | hc
  · rw [hc]
    rfl
  · rw [hc]
    rfl

/-- The cosine of an odd number of quarter turns is +0. -/
theorem sincosPi_half {m k : Nat} {e : Int} (neg : Bool) (h : isWhole m (e + 1) (2 * k + 1)) : sincosPi true neg m e = .fin false 0 0 := by
  have he : ¬0 ≤ e := by
    intro he
    obtain ⟨n, hn⟩ : ∃ n, (e + 1).toNat = n + 1 := ⟨(e + 1).toNat - 1, by omega⟩
    rw [isWhole, if_pos (by omega), hn, pow_succ, ← Nat.mul_assoc] at h
    omega
  obtain ⟨n, hn⟩ : ∃ n, (-e).toNat = n + 1 := ⟨(-e).toNat - 1, by omega⟩
  have hm : m = (2 * k + 1) * 2 ^ n := by
    rw [isWhole] at h
    split at h
    · obtain ⟨h1, h2⟩ : n = 0 ∧ (e + 1).toNat = 0 := by omega
      rw [h1, pow_zero, Nat.mul_one]
      rwa [h2, pow_zero, Nat.mul_one] at h
    · rw [h]
      congr 2
      omega
  have h0 : m ≠ 0 := by rw [hm]; positivity
  obtain ⟨hquad, hrest⟩ := quadrant (2 * k + 1) n
  rw [sincosPi, if_neg h0, if_neg he, hn, hm]
  simp only [hquad, hrest, if_true]
  have hcase : (2 * k + 1) % 4 = 1 ∨ (2 * k + 1) % 4 = 3 := by omega
  rcases hcase with hc | hc
  · rw [hc]
    rfl
  · rw [hc]
    rfl

/-! ### Overflow and underflow of `ex2.a` -/

/-- The whole number of a finite value in units of 2^u, u at most its exponent. -/
def wholeIn (u : Int) (neg : Bool) (m : Nat) (e : Int) : Int := if neg then -((m * 2 ^ (e - u).toNat : Nat) : Int) else (m * 2 ^ (e - u).toNat : Nat)

theorem cmp_fin (n1 n2 : Bool) (m1 m2 : Nat) (e1 e2 : Int) :
    XVal.cmp (.fin n1 m1 e1) (.fin n2 m2 e2) = some (compare (wholeIn (min e1 e2) n1 m1 e1) (wholeIn (min e1 e2) n2 m2 e2)) := rfl

theorem le_fin (n1 n2 : Bool) (m1 m2 : Nat) (e1 e2 : Int) :
    XVal.le (.fin n1 m1 e1) (.fin n2 m2 e2) = true ↔ wholeIn (min e1 e2) n1 m1 e1 ≤ wholeIn (min e1 e2) n2 m2 e2 := by
  rw [XVal.le, cmp_fin]
  simp only [Option.some.injEq, Bool.or_eq_true, decide_eq_true_eq, compare_lt_iff_lt, compare_eq_iff_eq]
  exact le_iff_lt_or_eq.symm

theorem lt_fin (n1 n2 : Bool) (m1 m2 : Nat) (e1 e2 : Int) :
    XVal.lt (.fin n1 m1 e1) (.fin n2 m2 e2) = true ↔ wholeIn (min e1 e2) n1 m1 e1 < wholeIn (min e1 e2) n2 m2 e2 := by
  rw [XVal.lt, cmp_fin]
  simp only [Option.some.injEq, decide_eq_true_eq, compare_lt_iff_lt]

/-- A multiple of 2^k against a value of at most k fraction bits. -/
theorem scaled_le {c k m : Nat} {x : Int} (hm : c * 2 ^ k ≤ m) (hx : -(k : Int) ≤ x) : c * 2 ^ (0 - min 0 x).toNat ≤ m * 2 ^ (x - min 0 x).toNat := by
  by_cases h : 0 ≤ x
  · rw [min_eq_left h]
    calc c * 2 ^ (0 - 0 : Int).toNat ≤ c * 2 ^ k := Nat.mul_le_mul_left _ (Nat.pow_le_pow_right (by decide) (by omega))
      _ ≤ m := hm
      _ ≤ m * 2 ^ (x - 0).toNat := Nat.le_mul_of_pos_right _ (Nat.two_pow_pos _)
  · rw [min_eq_right (by omega), sub_self]
    calc c * 2 ^ (0 - x).toNat ≤ c * 2 ^ k := Nat.mul_le_mul_left _ (Nat.pow_le_pow_right (by decide) (by omega))
      _ ≤ m * 2 ^ (0 : Int).toNat := by simpa using hm

theorem le_128 {m : Nat} {x : Int} (hm : 2 ^ 23 ≤ m) (hx : -16 ≤ x) : XVal.le (.fin false 128 0) (.fin false m x) = true := by
  rw [le_fin]
  exact Int.ofNat_le.mpr (scaled_le (k := 16) (by omega) hx)

theorem not_le_128_neg (m : Nat) (x : Int) : ¬XVal.le (.fin false 128 0) (.fin true m x) = true := by
  rw [le_fin]
  have hpos : 0 < 128 * 2 ^ (0 - min 0 x).toNat := by positivity
  simp only [wholeIn, Bool.false_eq_true, if_false, if_true]
  omega

theorem lt_neg_150 {m : Nat} {x : Int} (h : x = -16 ∧ 150 * 2 ^ 16 < m ∨ -15 ≤ x ∧ 2 ^ 23 ≤ m) : XVal.lt (.fin true m x) (.fin true 150 0) = true := by
  rw [lt_fin, min_comm]
  have hpos : 0 < 2 ^ (0 - min 0 x).toNat := Nat.two_pow_pos _
  have hlt : 150 * 2 ^ (0 - min 0 x).toNat < m * 2 ^ (x - min 0 x).toNat := by
    rcases h with ⟨hx, hm⟩ | ⟨hx, hm⟩
    · rw [hx]
      simpa using hm
    · have hle := scaled_le (c := 256) (k := 15) (m := m) (x := x) (by omega) hx
      omega
  exact neg_lt_neg (Int.ofNat_lt.mpr hlt)

theorem ex2A_overflow {w : Word} (hlo : 0x43000000 ≤ w.toNat) (hhi : w.toNat ≤ 0x7F800000) : qResult .ex2A (ofF32 w) = 0x7F800000 := by
  by_cases hinf : w.toNat = 0x7F800000
  · obtain rfl : w = 0x7F800000 := BitVec.eq_of_toNat_eq hinf
    rfl
  · rw [ofF32_normal (by omega) (by omega), decide_eq_false (by omega), qResult]
    simp only [ex2A]
    rw [if_pos (le_128 (by omega) (by omega))]
    rfl

theorem ex2A_underflow {w : Word} (hlo : 0xC3160000 < w.toNat) (hhi : w.toNat ≤ 0xFF800000) : qResult .ex2A (ofF32 w) = 0 := by
  by_cases hinf : w.toNat = 0xFF800000
  · obtain rfl : w = 0xFF800000 := BitVec.eq_of_toNat_eq hinf
    rfl
  · rw [ofF32_normal (by omega) (by omega), decide_eq_true (by omega), qResult]
    simp only [ex2A]
    rw [if_neg (not_le_128_neg _ _), if_pos (lt_neg_150 (by omega))]
    rfl

theorem specialFunctionTable : SpecialFunctionTable := by
  refine ⟨fun row hrow => ⟨fun w hw => ?_, qResult_table row hrow⟩, fun op hop w hlo hhi => ?_, fun w neg m e k hw => ⟨fun h => ?_, fun h => ?_⟩, by decide,
    fun w hlo hhi => ex2A_overflow hlo hhi, fun w hlo hhi => ex2A_underflow hlo hhi⟩
  · rw [ofF32_nan hw, qResult_nan]
  · obtain ⟨m, e, hm, hv⟩ := ofF32_negative hlo hhi
    rw [hv, qResult_negative op hop m e hm]
  · rw [hw, qResult]
    simp only [sinpV]
    rw [sincosPi_whole neg h, toF32_zero]
  · rw [hw, qResult]
    simp only [cospV]
    rw [sincosPi_half neg h, toF32_zero]
    rfl

/-- Settles O27: the queue's entry and its result, the routine that stands in for the unit, and the table of special operands. -/
theorem specialFunctions : Obligations.SpecialFunctions := ⟨specialFunctionIssue, specialFunctionResult, residentRoutine, specialFunctionTable⟩

end Sys2Proof.Machine
end

section
/-! HOLD in the other classes (R47-R49): class Q's first operand, and the second of class M and of the gathering and scattering copies. -/

namespace Sys2Proof.Machine

open Sys2Proof Sys2Proof.Safety Sys2Proof.Claims

/-! ### Class Q -/

/-- A row that HOLD asks for and that is read in every lane. -/
theorem row_of_held {hold : BitVec 2} {row : Option (KMap Word)} {n : Nat} {val : Nat → Word} (h : hold ≠ 0 → row = some (latchRow n val)) :
    hold ≠ 0 → ∃ r, row = some r ∧ ∀ l < n, kGetD l 0 r = val l :=
  fun h0 => ⟨_, h h0, fun _ hl => kGetD_latchRow val hl⟩

theorem qHold_zero (t : Team) {x : Fields} (h : x.hold = 0) : qHold t x = none := if_pos h

theorem qHold_nonzero (t : Team) {x : Fields} (h : x.hold ≠ 0) : qHold t x = some (latchRow t.lanes (qA t x)) := if_neg h

theorem RunsQ.latchAfter {row : (Fields → Instr) × QOp} (h : RunsQ row) {f : Fields} {s : State} (hptr : s.team.latch.ptr < 3)
    (hr : reaches s (row.1 f) = true) (hfree : (s.partAt s.team.partNo).sfuQ.length < 16) :
    ∃ t, exec (row.1 f) s = .next t ∧ latchAfter s.team.latch t.team.latch f.hold s.team.lanes (qA s.team f) := by
  rw [h f s hr, if_neg (by omega)]
  split
  · obtain ⟨t, ht, -, hlatch⟩ := finishHold_latchAfter (s := s) (u := s.team) (x := f) rfl rfl rfl rfl rfl hptr (qHold_zero s.team)
      (row_of_held (qHold_nonzero s.team))
    exact ⟨t, ht, hlatch⟩
  · obtain ⟨fl, hfl⟩ := s.team.flagUp_rest (selFlag s.team (modOf .q f))
    rw [hfl]
    obtain ⟨t, ht, -, hlatch⟩ := finishHold_latchAfter
      (s := s.setPart s.team.partNo { s.partAt s.team.partNo with sfuQ := (s.partAt s.team.partNo).sfuQ ++ [sfuOpOf s.cur s.team row.2 f] })
      (u := { s.team with flags := fl, nextOp := s.team.nextOp + 1 }) (x := f) rfl rfl rfl rfl rfl hptr (qHold_zero s.team) (row_of_held (qHold_nonzero s.team))
    exact ⟨t, ht, hlatch⟩

/-! ### Class M -/

theorem mHold_two (t : Team) {x : Fields} (h : x.hold = 0 ∨ x.hold = 2) (h0 : x.hold ≠ 0) : mHold t x = some (latchRow t.lanes (srcV t x.b.toNat (immOf x))) :=
  if_pos (h.resolve_left h0)

theorem mHold_zero (t : Team) {x : Fields} (h : x.hold = 0) : mHold t x = none := if_neg (by rw [h]; decide)

/-- Checks that all pass lead to the accesses. -/
theorem perLane_passes {i : Instr} {s : State} {fm : Form} {f : Fields} {n : Nat} {w : Want} {accs : List LaneAcc} (k : Team → Fields → List LaneAcc → Out)
    (he : encOf i = some (fm, f)) (hr : reaches s i = true) (hpresent : presentSet s.team (modOf .m f) ≠ 0) (hpass : lanesPass s f n w accs) :
    perLane i s n w k = k s.team f accs := by
  obtain ⟨hdata, hmap⟩ := hpass
  have hgather : gather (laneChecks s s.team f (presentSet s.team (modOf .m f)) n w) = .go accs := by
    rw [← gather_ok accs hdata, hmap]
    rfl
  rw [perLane, issue_reaches _ he hr]
  dsimp only
  rw [if_neg hpresent, hgather]
  rfl

/-- The watch rule finds nothing to wait for and nothing struck. -/
theorem releaseGate_clear {s : State} (h : watchesClear s) : releaseGate s s.cur = .clear := by
  obtain ⟨hpending, hconfirmed, hstruck⟩ := h
  have hnone (st : WState) (hst : st ≠ .confirmed) : (teamWatches s s.cur).any (fun w => w.st = st) = false := by
    rw [List.any_eq_false]
    intro w hw
    obtain ⟨hmem, hmine⟩ := List.mem_filter.mp hw
    simp [hconfirmed w hmem (by simpa using hmine), Ne.symm hst]
  have hpending' : pendingWatched (s.teamAt s.cur) = false := hpending
  have hstruck' : (s.teamAt s.cur).struck = false := hstruck
  simp [releaseGate, hpending', hstruck', hnone]

theorem withGate_clear {s : State} {rel : Bool} (h : rel = false ∨ watchesClear s) (k : Out) : withGate s rel k = k := by
  rw [withGate]
  obtain rfl | h := h
  · rfl
  · rw [releaseGate_clear h]
    cases rel <;> rfl

/-- A per-lane instruction: with no present lane it only holds; where all checks, the watch rule and the log let it through, its operation is queued. -/
def RunsLane (row : (Fields → Instr) × Nat × Want) : Prop :=
  ∀ (f : Fields) (s : State), reaches s (row.1 f) = true →
    (presentSet s.team (modOf .m f) = 0 → exec (row.1 f) s = finishHold s s.team f (mHold s.team f)) ∧
    (∀ accs, presentSet s.team (modOf .m f) ≠ 0 → lanesPass s f row.2.1 row.2.2 accs → mSem (modOf .m f) < 2 ∨ watchesClear s →
      (s.gridAt s.team.grid).replay = false → (s.gridAt s.team.grid).det = false → ∃ o, exec (row.1 f) s = enqueueOp s s.team f o (mHold s.team f))

theorem perLane_none {i : Instr} {s : State} {fm : Form} {f : Fields} {n : Nat} {w : Want} (k : Team → Fields → List LaneAcc → Out)
    (he : encOf i = some (fm, f)) (hr : reaches s i = true) (hnone : presentSet s.team (modOf .m f) = 0) :
    perLane i s n w k = finishHold s s.team f (mHold s.team f) := by
  rw [perLane, issue_reaches _ he hr]
  exact if_pos hnone

theorem runsLane_load {con : Fields → Instr} {n : Nat} {sg wt : Bool} (henc : EncodesItself con) (hexec : ∀ f s, exec (con f) s = loadOp (con f) s n sg wt) :
    RunsLane (con, n, wantRead) := by
  intro f s hr
  obtain ⟨fm, he⟩ := henc f
  rw [hexec f s, loadOp]
  exact ⟨perLane_none _ he hr, fun accs hpresent hpass _ _ _ => ⟨_, perLane_passes _ he hr hpresent hpass⟩⟩

theorem runsLane_store {con : Fields → Instr} {n : Nat} (henc : EncodesItself con) (hexec : ∀ f s, exec (con f) s = storeOp (con f) s n) :
    RunsLane (con, n, wantWrite) := by
  intro f s hr
  obtain ⟨fm, he⟩ := henc f
  rw [hexec f s, storeOp]
  exact ⟨perLane_none _ he hr, fun accs hpresent hpass hgate _ _ => ⟨_, (perLane_passes _ he hr hpresent hpass).trans
    (withGate_clear (hgate.imp_left fun h => decide_eq_false (Nat.not_le.mpr h)) _)⟩⟩

theorem runsLane_atom {con : Fields → Instr} {op : AOp} {ret : Bool} (henc : EncodesItself con) (hexec : ∀ f s, exec (con f) s = atomOp (con f) s op ret) :
    RunsLane (con, 4, if ret then wantAtom else wantWrite) := by
  intro f s hr
  obtain ⟨fm, he⟩ := henc f
  rw [hexec f s, atomOp]
  refine ⟨perLane_none _ he hr, fun accs hpresent hpass hgate hreplay hdet => ?_⟩
  have hrel : (newOp s.team (.atom op ret) (modOf .m f)).rel = false ∨ watchesClear s := hgate.imp_left fun h => decide_eq_false (Nat.not_le.mpr h)
  rw [perLane_passes _ he hr hpresent hpass]
  dsimp only
  rw [if_neg (by simp [hdet]), withGate_clear hrel, withReplay, if_pos (by simp [hreplay])]
  exact ⟨_, rfl⟩

theorem loadRows_run : ∀ r ∈ loadRows, RunsLane (r.1, r.2.1, wantRead) := by
  simp only [loadRows, List.forall_mem_cons, List.not_mem_nil, false_implies, implies_true, and_true]
  exact ⟨runsLane_load (fun _ => ⟨_, rfl⟩) exec_ld8I, runsLane_load (fun _ => ⟨_, rfl⟩) exec_ld8Z, runsLane_load (fun _ => ⟨_, rfl⟩) exec_ld16I,
    runsLane_load (fun _ => ⟨_, rfl⟩) exec_ld16Z, runsLane_load (fun _ => ⟨_, rfl⟩) exec_ld32, runsLane_load (fun _ => ⟨_, rfl⟩) exec_ld64,
    runsLane_load (fun _ => ⟨_, rfl⟩) exec_ld128, runsLane_load (fun _ => ⟨_, rfl⟩) exec_ldw32, runsLane_load (fun _ => ⟨_, rfl⟩) exec_ldw64,
    runsLane_load (fun _ => ⟨_, rfl⟩) exec_ldw128⟩

theorem storeRows_run : ∀ r ∈ storeRows, RunsLane (r.1, r.2, wantWrite) := by
  simp only [storeRows, List.forall_mem_cons, List.not_mem_nil, false_implies, implies_true, and_true]
  exact ⟨runsLane_store (fun _ => ⟨_, rfl⟩) exec_st8, runsLane_store (fun _ => ⟨_, rfl⟩) exec_st16, runsLane_store (fun _ => ⟨_, rfl⟩) exec_st32,
    runsLane_store (fun _ => ⟨_, rfl⟩) exec_st64, runsLane_store (fun _ => ⟨_, rfl⟩) exec_st128⟩

def RunsAtomRow (r : (Fields → Instr) × AOp × Bool) : Prop := RunsLane (r.1, 4, if r.2.2 then wantAtom else wantWrite)

theorem runsAtomRow_of {con : Fields → Instr} {op : AOp} {ret : Bool} (henc : EncodesItself con) (hexec : ∀ f s, exec (con f) s = atomOp (con f) s op ret) :
    RunsAtomRow (con, op, ret) := runsLane_atom henc hexec

theorem atomRows_run : ∀ r ∈ atomRows, RunsAtomRow r := by
  simp only [atomRows, List.forall_mem_cons, List.not_mem_nil, false_implies, implies_true, and_true]
  exact ⟨runsAtomRow_of (fun _ => ⟨_, rfl⟩) exec_atomAdd, runsAtomRow_of (fun _ => ⟨_, rfl⟩) exec_atomMinI32, runsAtomRow_of (fun _ => ⟨_, rfl⟩) exec_atomMinZ32,
    runsAtomRow_of (fun _ => ⟨_, rfl⟩) exec_atomMaxI32, runsAtomRow_of (fun _ => ⟨_, rfl⟩) exec_atomMaxZ32, runsAtomRow_of (fun _ => ⟨_, rfl⟩) exec_atomAnd,
    runsAtomRow_of (fun _ => ⟨_, rfl⟩) exec_atomOr, runsAtomRow_of (fun _ => ⟨_, rfl⟩) exec_atomXor, runsAtomRow_of (fun _ => ⟨_, rfl⟩) exec_atomXchg,
    runsAtomRow_of (fun _ => ⟨_, rfl⟩) exec_atomCas, runsAtomRow_of (fun _ => ⟨_, rfl⟩) exec_atomFadd, runsAtomRow_of (fun _ => ⟨_, rfl⟩) exec_atomFmin,
    runsAtomRow_of (fun _ => ⟨_, rfl⟩) exec_atomFmax, runsAtomRow_of (fun _ => ⟨_, rfl⟩) exec_mRedAdd, runsAtomRow_of (fun _ => ⟨_, rfl⟩) exec_mRedMinI32,
    runsAtomRow_of (fun _ => ⟨_, rfl⟩) exec_mRedMinZ32, runsAtomRow_of (fun _ => ⟨_, rfl⟩) exec_mRedMaxI32, runsAtomRow_of (fun _ => ⟨_, rfl⟩) exec_mRedMaxZ32,
    runsAtomRow_of (fun _ => ⟨_, rfl⟩) exec_mRedAnd, runsAtomRow_of (fun _ => ⟨_, rfl⟩) exec_mRedOr, runsAtomRow_of (fun _ => ⟨_, rfl⟩) exec_mRedXor,
    runsAtomRow_of (fun _ => ⟨_, rfl⟩) exec_mRedFadd, runsAtomRow_of (fun _ => ⟨_, rfl⟩) exec_mRedFmin, runsAtomRow_of (fun _ => ⟨_, rfl⟩) exec_mRedFmax⟩

theorem laneRows_run : ∀ row ∈ laneRows, RunsLane row := by
  simp only [laneRows, List.forall_mem_append, List.forall_mem_map]
  exact ⟨⟨loadRows_run, storeRows_run⟩, atomRows_run⟩

theorem RunsLane.latchAfter {row : (Fields → Instr) × Nat × Want} (h : RunsLane row) {f : Fields} {s : State} (hptr : s.team.latch.ptr < 3)
    (hr : reaches s (row.1 f) = true) (hhold : f.hold = 0 ∨ f.hold = 2)
    (hcase : presentSet s.team (modOf .m f) = 0 ∨
      ((∃ accs, lanesPass s f row.2.1 row.2.2 accs) ∧ (mSem (modOf .m f) < 2 ∨ watchesClear s) ∧ (s.gridAt s.team.grid).replay = false ∧
        (s.gridAt s.team.grid).det = false)) :
    ∃ t, exec (row.1 f) s = .next t ∧ latchAfter s.team.latch t.team.latch f.hold s.team.lanes (srcV s.team f.b.toNat (immOf f)) := by
  obtain ⟨hnone, hsome⟩ := h f s hr
  have hrow := row_of_held (mHold_two s.team hhold)
  by_cases h0 : presentSet s.team (modOf .m f) = 0
  · rw [hnone h0]
    obtain ⟨t, ht, -, hlatch⟩ := finishHold_latchAfter (s := s) (u := s.team) (x := f) rfl rfl rfl rfl rfl hptr (mHold_zero s.team) hrow
    exact ⟨t, ht, hlatch⟩
  · obtain ⟨⟨accs, hpass⟩, hgate, hreplay, hdet⟩ := hcase.resolve_left h0
    obtain ⟨o, ho⟩ := hsome accs h0 hpass hgate hreplay hdet
    obtain ⟨fl, hfl⟩ := s.team.flagUp_rest o.flag
    rw [ho, enqueueOp, hfl]
    obtain ⟨t, ht, -, hlatch⟩ := finishHold_latchAfter (s := s)
      (u := { s.team with flags := fl, memQ := s.team.memQ ++ [{ o with phase := teamPhase s s.cur }], nextOp := s.team.nextOp + 1 }) (x := f) rfl rfl rfl rfl rfl
      hptr (mHold_zero s.team) hrow
    exact ⟨t, ht, hlatch⟩

/-! ### Gathers and scatters -/

theorem skipCopy_latchAfter {s : State} {f : Fields} {row : Option (KMap Word)} {val : Nat → Word} (cont : Bool) (hptr : s.team.latch.ptr < 3)
    (hzero : f.hold = 0 → row = none) (hrow : f.hold ≠ 0 → ∃ r, row = some r ∧ ∀ l < s.team.lanes, kGetD l 0 r = val l) :
    ∃ t, skipCopy s s.team f cont row = .next t ∧ latchAfter s.team.latch t.team.latch f.hold s.team.lanes val := by
  cases cont with
  | false =>
    obtain ⟨t, ht, -, hlatch⟩ := finishHold_latchAfter (s := s) (u := s.team) (x := f) rfl rfl rfl rfl rfl hptr hzero hrow
    exact ⟨t, ht, hlatch⟩
  | true =>
    refine ⟨_, rfl, ?_⟩
    rw [State.setTeam_eq, State.team_setTeamAt_cur]
    by_cases h0 : f.hold = 0
    · rw [hzero h0, h0]
      exact latchAfter_tick _ _ _
    · obtain ⟨r, hr, hval⟩ := hrow h0
      rw [hr]
      exact latchAfter_write h0 hptr hval

theorem enqueueCopy_latchAfter {s : State} {f : Fields} {row : Option (KMap Word)} {val : Nat → Word} (o : CopyOp) (hptr : s.team.latch.ptr < 3)
    (hzero : f.hold = 0 → row = none) (hrow : f.hold ≠ 0 → ∃ r, row = some r ∧ ∀ l < s.team.lanes, kGetD l 0 r = val l) :
    ∃ t, enqueueCopy s s.team f o row = .next t ∧ latchAfter s.team.latch t.team.latch f.hold s.team.lanes val := by
  obtain ⟨fl, hfl⟩ := s.team.flagUp_rest o.flag
  rw [enqueueCopy, hfl]
  cases o.cont with
  | false =>
    obtain ⟨t, ht, -, hlatch⟩ := finishHold_latchAfter (s := s.modPart s.team.partNo (fun p => { p with copyQ := p.copyQ ++ [o] }))
      (u := { s.team with flags := fl, nextOp := s.team.nextOp + 1 }) (x := f) rfl rfl rfl rfl rfl hptr hzero hrow
    exact ⟨t, ht, hlatch⟩
  | true =>
    obtain ⟨t, ht, -, hlatch⟩ := finishHold_latchAfter (s := s.modPart s.team.partNo (fun p => { p with copyQ := p.copyQ ++ [o] }))
      (u := { s.team with flags := fl, nextOp := s.team.nextOp + 1, wait := .cont (labelOf s.team f) s.team.mask }) (x := f) rfl rfl rfl rfl rfl hptr hzero hrow
    exact ⟨t, ht, hlatch⟩

/-- The held B source of a copy (R47). -/
def copyHold (t : Team) (x : Fields) : Option (KMap Word) := if x.hold = 2 then some (latchRow t.lanes (srcV t x.b.toNat 0)) else none

theorem copyHold_zero (t : Team) {x : Fields} (h : x.hold = 0) : copyHold t x = none := if_neg (by rw [h]; decide)

theorem copyHold_two (t : Team) {x : Fields} (h : x.hold = 0 ∨ x.hold = 2) (h0 : x.hold ≠ 0) : copyHold t x = some (latchRow t.lanes (srcV t x.b.toNat 0)) :=
  if_pos (h.resolve_left h0)

theorem copyOp_reaches {con : Fields → Instr} {f : Fields} {s : State} (ok : Team → Fields → Bool) (mk : Team → Fields → CopyOp → LaneSet → CopyOp) (k : CKind)
    (henc : EncodesItself con) (hr : reaches s (con f) = true) :
    copyOp (con f) s ok mk k =
      if presentSet s.team (modOf .c f) = 0 then skipCopy s s.team f (mCont (modOf .c f)) (copyHold s.team f)
      else if !ok s.team f then trapAll s illegalOperand
      else enqueueCopy s s.team f (mk s.team f (newCopy s s.team k (modOf .c f)) (presentSet s.team (modOf .c f))) (copyHold s.team f) :=
  henc.issue_eq hr

theorem gatherOk_of_fits {t : Team} {f : Fields} (h : gatherFits t f) : gatherOk t f = true := List.contains_iff_mem.mpr h

theorem gather_latchAfter {con : Fields → Instr} {mk : Team → Fields → CopyOp → LaneSet → CopyOp} {k : CKind} (henc : EncodesItself con)
    (hexec : ∀ f s, exec (con f) s = copyOp (con f) s gatherOk mk k) {f : Fields} {s : State} (hptr : s.team.latch.ptr < 3) (hr : reaches s (con f) = true)
    (hhold : f.hold = 0 ∨ f.hold = 2) (hfits : presentSet s.team (modOf .c f) = 0 ∨ gatherFits s.team f) :
    ∃ t, exec (con f) s = .next t ∧ latchAfter s.team.latch t.team.latch f.hold s.team.lanes (srcV s.team f.b.toNat 0) := by
  have hrow := row_of_held (copyHold_two s.team hhold)
  rw [hexec f s, copyOp_reaches _ _ _ henc hr]
  by_cases h0 : presentSet s.team (modOf .c f) = 0
  · rw [if_pos h0]
    exact skipCopy_latchAfter _ hptr (copyHold_zero s.team) hrow
  · rw [if_neg h0, gatherOk_of_fits (hfits.resolve_left h0)]
    exact enqueueCopy_latchAfter _ hptr (copyHold_zero s.team) hrow

theorem holdOfOtherClasses : HoldOfOtherClasses := by
  refine ⟨fun row hrow f s _ hptr hr _ hfree => (sfuRows_run row hrow).latchAfter hptr hr hfree,
    fun row hrow f s _ hptr hr hhold hcase => (laneRows_run row hrow).latchAfter hptr hr hhold hcase, ?_⟩
  simp only [List.forall_mem_cons, List.not_mem_nil, false_implies, implies_true, and_true]
  exact ⟨fun f s _ hptr hr hhold hfits => gather_latchAfter (fun _ => ⟨_, rfl⟩) exec_cpGath hptr hr hhold hfits,
    fun f s _ hptr hr hhold hfits => gather_latchAfter (fun _ => ⟨_, rfl⟩) exec_cpScat hptr hr hhold hfits⟩

/-- Settles O24: what HOLD keeps is named before the instruction's end, which puts it into the latch, class by class. -/
theorem segmentsAndHold : Obligations.SegmentsAndHold := ⟨segmentWidth, holdFillsLatch, holdOfOtherClasses⟩

end Sys2Proof.Machine
end

section
/-! A performed operation of a memory queue completes (R53, R144, R181, R183, R187): the lanes it writes, what they get, and what it leaves alone. -/

namespace Sys2Proof.Machine

open Sys2Proof Sys2Proof.Claims

/-! ### Sets of lanes as sums -/

/-- A power of two added where its bit is clear sets that bit alone. -/
theorem testBit_add_two_pow {v k : Nat} (h : v.testBit k = false) (j : Nat) : (v + 2 ^ k).testBit j = (decide (j = k) || v.testBit j) := by
  have hlow : v % 2 ^ k < 2 ^ k := Nat.mod_lt _ (Nat.two_pow_pos k)
  have heven : v / 2 ^ k % 2 = 0 := by
    rw [Nat.testBit_eq_decide_div_mod_eq, decide_eq_false_iff_not] at h
    omega
  have hsplit : v = 2 ^ k * (v / 2 ^ k) + v % 2 ^ k := (Nat.div_add_mod v (2 ^ k)).symm
  have hsum : v + 2 ^ k = 2 ^ k * (v / 2 ^ k + 1) + v % 2 ^ k := by
    rw [Nat.mul_add]
    omega
  have hv : v.testBit j = _ := (congrArg (·.testBit j) hsplit).trans (Nat.testBit_two_pow_mul_add _ hlow j)
  rw [hsum, Nat.testBit_two_pow_mul_add _ hlow, hv]
  rcases Nat.lt_trichotomy j k with hj | rfl | hj
  · rw [if_pos hj, if_pos hj, decide_eq_false (by omega), Bool.false_or]
  · rw [if_neg (by omega), if_neg (by omega), decide_eq_true rfl, Bool.true_or, Nat.sub_self, Nat.testBit_zero]
    exact decide_eq_true (by omega)
  · obtain ⟨i, hi⟩ : ∃ i, j - k = i + 1 := ⟨j - k - 1, by omega⟩
    rw [if_neg (by omega), if_neg (by omega), decide_eq_false (by omega), Bool.false_or, hi, Nat.testBit_succ, Nat.testBit_succ]
    congr 1
    omega

/-- The accesses of distinct lanes that pass a test, summed as a set. -/
theorem testBit_sumLanes (c : LaneAcc → Bool) (accs : List LaneAcc) (hnd : (accs.map (fun a => a.lane)).Nodup) (v : Nat)
    (hv : ∀ x ∈ accs, v.testBit x.lane = false) (j : Nat) :
    (accs.foldl (fun a x => if c x then a + 2 ^ x.lane else a) v).testBit j = (v.testBit j || accs.any (fun x => decide (x.lane = j) && c x)) := by
  induction accs generalizing v with
  | nil => simp
  | cons x r ih =>
    rw [List.map_cons, List.nodup_cons] at hnd
    obtain ⟨hx, hr⟩ := hnd
    have hne (y : LaneAcc) (hy : y ∈ r) : y.lane ≠ x.lane := fun he => hx (he ▸ List.mem_map_of_mem hy)
    rw [List.foldl_cons, List.any_cons]
    by_cases hc : c x
    · rw [if_pos hc, ih hr, testBit_add_two_pow (hv x List.mem_cons_self), hc, Bool.and_true, ← Bool.or_assoc, eq_comm, Bool.or_comm (decide _)]
      · simp only [eq_comm]
      · intro y hy
        rw [testBit_add_two_pow (hv x List.mem_cons_self), hv y (List.mem_cons_of_mem _ hy), decide_eq_false (hne y hy)]
        rfl
    · rw [if_neg hc, ih hr _ (fun y hy => hv y (List.mem_cons_of_mem _ hy))]
      simp [hc]

/-- A test of the access of a lane, found by its lane. -/
theorem any_lane (c : LaneAcc → Bool) (accs : List LaneAcc) (hnd : (accs.map (fun a => a.lane)).Nodup) (j : Nat) :
    accs.any (fun x => decide (x.lane = j) && c x) = (accs.find? (fun a => a.lane = j)).elim false c := by
  induction accs with
  | nil => rfl
  | cons x r ih =>
    rw [List.map_cons, List.nodup_cons] at hnd
    obtain ⟨hx, hr⟩ := hnd
    rw [List.any_cons, ih hr]
    by_cases h : x.lane = j
    · have hnone : r.find? (fun a => a.lane = j) = none := by
        rw [List.find?_eq_none]
        intro y hy
        simpa using fun he => hx (List.mem_map.mpr ⟨y, hy, he.trans h.symm⟩)
      simp [h, hnone]
    · simp [h]

/-- The lanes of an operation whose accesses pass a test, as a lane set. -/
theorem getLsbD_lanesOf (c : LaneAcc → Bool) {accs : List LaneAcc} (hnd : (accs.map (fun a => a.lane)).Nodup) {l : Nat} (hl : l < 1024) :
    (BitVec.ofNat 1024 (accs.foldl (fun a x => if c x then a + 2 ^ x.lane else a) 0)).getLsbD l = (accs.find? (fun a => a.lane = l)).elim false c := by
  rw [BitVec.getLsbD_ofNat, decide_eq_true hl, Bool.true_and, testBit_sumLanes c accs hnd 0 (fun _ _ => Nat.zero_testBit _), any_lane c accs hnd, Nat.zero_testBit, Bool.false_or]

/-- The lanes that an operation's results are written in. -/
def resultSet (o : MemOp) : LaneSet := BitVec.ofNat 1024 (o.accs.foldl (fun a x => a + 2 ^ x.lane) 0)

theorem getLsbD_resultSet {o : MemOp} (hnd : (o.accs.map (fun a => a.lane)).Nodup) {l : Nat} (hl : l < 1024) :
    (resultSet o).getLsbD l = (o.accs.find? (fun a => a.lane = l)).isSome := by
  refine (getLsbD_lanesOf (fun _ => true) hnd hl).trans ?_
  cases o.accs.find? (fun a => a.lane = l) <;> rfl

/-! ### The registers of an operation -/

/-- What a lane of an operation gets: a part of its access, 0 where it has none. -/
def resultVal (o : MemOp) (f : LaneAcc → Nat) (l : Nat) : Word := BitVec.ofNat 32 (match o.accs.find? (fun a => a.lane = l) with
    | some a => f a
    | none => 0)

/-- The part of its datum that a lane's i-th destination register gets from a load of n bytes. -/
def loadPart (n : Nat) (sg : Bool) (i : Nat) (a : LaneAcc) : Nat := (if sg then signExt n a.data else a.data) / 2 ^ (32 * i) % 2 ^ 32

theorem writeResults_load {o : MemOp} {n : Nat} {sg w : Bool} (t : Team) (h : o.kind = .load n sg w) :
    writeResults t o = o.dst.elim t (fun q => (List.range ((n + 3) / 4)).foldl (fun t i => t.setWord (q + i) (resultSet o) (resultVal o (loadPart n sg i))) t) := by
  rw [writeResults, h]
  cases o.dst <;> rfl

theorem writeResults_sload {o : MemOp} (t : Team) (h : o.kind = .sload) :
    writeResults t o = o.dst.elim t (fun q => t.setSreg q (BitVec.ofNat 32 ((o.accs.map (fun a => a.data)).headD 0))) := by
  rw [writeResults, h]
  cases o.dst <;> rfl

theorem writeResults_atom {o : MemOp} {op : AOp} (t : Team) (h : o.kind = .atom op true) :
    writeResults t o = o.dst.elim t (fun q => t.setWord q (resultSet o) (resultVal o (fun a => a.data))) := by
  rw [writeResults, h]
  cases o.dst <;> rfl

/-- The lanes of an `append` that the page took. -/
def appendTook (o : MemOp) : LaneSet := BitVec.ofNat 1024 (o.accs.foldl (fun a x => if x.addr = appendFail then a else a + 2 ^ x.lane) 0)

theorem writeResults_append {o : MemOp} {e p size : Nat} {r : Bool} (t : Team) (h : o.kind = .append e p size r) :
    writeResults t o = (o.dst.elim t (fun q => t.setWord q (resultSet o) (resultVal o (fun a => a.addr)))).setPred o.pdst (resultSet o) (appendTook o) := by
  rw [writeResults, h]
  cases o.dst <;> rfl

theorem getLsbD_appendTook {o : MemOp} (hnd : (o.accs.map (fun a => a.lane)).Nodup) {l : Nat} (hl : l < 1024) :
    (appendTook o).getLsbD l = (o.accs.find? (fun a => a.lane = l)).elim false (fun a => a.addr != appendFail) := by
  rw [← getLsbD_lanesOf (fun a => a.addr != appendFail) hnd hl, appendTook]
  simp only [bne_iff_ne, ne_eq, ite_not]

/-- One row of results: each lane that has an access gets its part, every other word stays. -/
theorem word_setResult {t : Team} {o : MemOp} (hw : t.warps ≤ 32) (hnd : (o.accs.map (fun a => a.lane)).Nodup) (f : LaneAcc → Nat) (q p : Nat) {l : Nat}
    (hl : l < t.lanes) :
    (t.setWord q (resultSet o) (resultVal o f)).word p l = (o.accs.find? (fun a => a.lane = l)).elim (t.word p l) (fun a => if p = q then BitVec.ofNat 32 (f a) else t.word p l) := by
  rw [Team.word_setWord _ _ _ _ _ _ hw hl, getLsbD_resultSet hnd (by rw [Team.lanes] at hl; omega), resultVal]
  cases o.accs.find? (fun a => a.lane = l) <;> simp

/-- The rows of a load, its destination first. -/
def setRows (o : MemOp) (q : Nat) (f : Nat → LaneAcc → Nat) (t : Team) (k : Nat) : Team :=
  (List.range k).foldl (fun t i => t.setWord (q + i) (resultSet o) (resultVal o (f i))) t

theorem setRows_rest (o : MemOp) (q : Nat) (f : Nat → LaneAcc → Nat) (t : Team) (k : Nat) : ∃ r, setRows o q f t k = { t with regs := r } := by
  induction k with
  | zero => exact ⟨t.regs, rfl⟩
  | succ k ih =>
    obtain ⟨r, hr⟩ := ih
    rw [setRows] at hr ⊢
    rw [List.range_succ, List.foldl_append, hr]
    exact ⟨_, rfl⟩

theorem word_setRows {t : Team} {o : MemOp} (hw : t.warps ≤ 32) (hnd : (o.accs.map (fun a => a.lane)).Nodup) (f : Nat → LaneAcc → Nat) (q k p : Nat) {l : Nat}
    (hl : l < t.lanes) :
    (setRows o q f t k).word p l = (o.accs.find? (fun a => a.lane = l)).elim (t.word p l) (fun a =>
      if q ≤ p ∧ p < q + k then BitVec.ofNat 32 (f (p - q) a) else t.word p l) := by
  induction k with
  | zero =>
    cases o.accs.find? (fun a => a.lane = l) with
    | none => rfl
    | some a => exact (if_neg (by omega)).symm
  | succ k ih =>
    obtain ⟨r, hr⟩ := setRows_rest o q f t k
    have hstep : setRows o q f t (k + 1) = (setRows o q f t k).setWord (q + k) (resultSet o) (resultVal o (f k)) := by
      rw [setRows, List.range_succ, List.foldl_append]
      rfl
    rw [hstep, word_setResult (by rw [hr]; exact hw) hnd _ _ _ (by rw [hr]; exact hl), ih]
    cases o.accs.find? (fun a => a.lane = l) with
    | none => rfl
    | some a =>
      dsimp only [Option.elim]
      by_cases hp : p = q + k
      · rw [if_pos hp, if_pos (by omega), hp, Nat.add_sub_cancel_left]
      · rw [if_neg hp]
        exact if_congr (by omega) rfl rfl

/-- Sign extension of a datum of fewer than four bytes, as a number. -/
theorem toNat_signExtend_ofNat {n d : Nat} (hpos : 0 < n) (hfour : n < 4) (hd : d < 2 ^ (8 * n)) : ((BitVec.ofNat (8 * n) d).signExtend 32).toNat = signExt n d % 2 ^ 32 := by
  have hwidth : 2 ^ (8 * n) ≤ 2 ^ 24 := Nat.pow_le_pow_right (by decide) (by omega)
  have htop : 2 ^ (8 * n) = 2 * 2 ^ (8 * n - 1) := by rw [← pow_succ', Nat.sub_add_cancel (by omega)]
  have hsign : d / 2 ^ (8 * n - 1) = 1 ↔ 2 ^ (8 * n - 1) ≤ d := by
    rw [Nat.div_eq_iff (Nat.two_pow_pos _)]
    omega
  rw [BitVec.toNat_signExtend, BitVec.msb_eq_decide, BitVec.toNat_setWidth, BitVec.toNat_ofNat, Nat.mod_eq_of_lt hd, signExt]
  simp only [hsign, hfour, decide_true, Bool.and_true, decide_eq_true_eq]
  split <;> omega

/-- What a load's register gets is the datum's word, extended by the load's type. -/
theorem ofNat_loadPart {n i : Nat} {sg : Bool} {a : LaneAcc} (hsg : sg = true → n ≤ 2) (hdata : a.data < 2 ^ (8 * n)) (hi : i < (n + 3) / 4) :
    BitVec.ofNat 32 (loadPart n sg i a) = loadedWord n sg i a.data := by
  cases sg with
  | false =>
    apply BitVec.eq_of_toNat_eq
    rw [loadPart, loadedWord, if_neg Bool.false_ne_true, if_neg Bool.false_ne_true, BitVec.toNat_ofNat, BitVec.toNat_ofNat, Nat.mod_mod]
  | true =>
    have hn := hsg rfl
    have hi0 : i = 0 := by omega
    apply BitVec.eq_of_toNat_eq
    rw [loadPart, loadedWord, if_pos rfl, if_pos rfl, hi0, toNat_signExtend_ofNat (by omega) (by omega) hdata, BitVec.toNat_ofNat, Nat.mul_zero, pow_zero, Nat.div_one,
      Nat.mod_mod]

/-! ### What stays -/

/-- Operations that write no register. -/
def writesNothing (k : MKind) : Prop :=
  (∀ op, k ≠ .atom op true) ∧ (∀ n sg w, k ≠ .load n sg w) ∧ (∀ e p size r, k ≠ .append e p size r) ∧ k ≠ .sload ∧ ∀ p w, k ≠ .fmap p w

theorem writeResults_nothing {o : MemOp} (t : Team) (h : writesNothing o.kind) : writeResults t o = t := by
  obtain ⟨hatom, hload, happend, hsload, hfmap⟩ := h
  rw [writeResults]
  split
  · next hk => exact absurd hk (hload _ _ _)
  · next hk => exact absurd hk hsload
  · next hk => exact absurd hk (hatom _)
  · next hk => exact absurd hk (happend _ _ _ _)
  · next hk => exact absurd hk (hfmap _ _)
  · rfl

theorem writeResults_rest (t : Team) (o : MemOp) : ∃ r g p, writeResults t o = { t with regs := r, sregs := g, preds := p } := by
  rw [writeResults]
  split
  · next n sg _ _ =>
    split
    · exact ⟨_, _, _, rfl⟩
    · next q _ =>
      obtain ⟨r, hr⟩ := setRows_rest o q (loadPart n sg) t ((n + 3) / 4)
      exact ⟨r, _, _, hr⟩
  · split <;> exact ⟨_, _, _, rfl⟩
  · split <;> exact ⟨_, _, _, rfl⟩
  · split <;> simp only [Team.setPred] <;> split <;> exact ⟨_, _, _, rfl⟩
  · split <;> exact ⟨_, _, _, rfl⟩
  · exact ⟨_, _, _, rfl⟩

/-! ### The completion -/

/-- The team once its operation has completed. -/
def opCompleted (t : Team) (o : MemOp) : Team :=
  { (writeResults t o).flagDown o.flag with memQ := t.memQ.filter (fun p => p.id ≠ o.id) }

theorem kGet_isSome_of_mem {α : Type} {m : KMap α} {p : Nat × α} (h : p ∈ m) : (kGet p.1 m).isSome = true := by
  induction m with
  | nil => cases h
  | cons q r ih =>
    rw [kGet]
    split
    · rfl
    · next hne =>
      refine ih ((List.mem_cons.mp h).resolve_left fun he => hne ?_)
      rw [he]

/-- A step that brings no line into the die's L2 makes no request for one. -/
theorem noteFetches_sameL2 {s s' : State} {core : Nat} (cls : Nat) (h : (s'.dieAt (dieOf core)).l2 = (s.dieAt (dieOf core)).l2) : noteFetches s core cls s' = s' := by
  rw [noteFetches]
  rw [List.filter_eq_nil_iff.mpr]
  · rfl
  · intro p hp
    rw [h] at hp
    have hsome : (l2At s (dieOf core) p.1).isSome = true := kGet_isSome_of_mem hp
    simp [Option.isSome_iff_ne_none.mp hsome]

theorem drainTo_none {s : State} {c : Nat} {p : SBuf → Bool} (h : ∀ e ∈ (s.coreAt c).sbuf, p e = false) : drainTo s c p = some s := by
  have hall : (s.coreAt c).sbuf.reverse.takeWhile (fun e => !p e) = (s.coreAt c).sbuf.reverse :=
    List.takeWhile_eq_self_iff.mpr fun e he => by rw [h e (List.mem_reverse.mp he)]; rfl
  rw [drainTo, sbufUpTo, hall, List.length_reverse, Nat.sub_self]
  rfl

theorem completeOp_eq {s : State} {tid : Nat} {o : MemOp}
    (hstore : (∀ n, o.kind ≠ .store n) ∨ ∀ e ∈ (s.coreAt (s.teamAt tid).core).sbuf, e.tid ≠ tid) :
    completeOp s tid o = some (s.setTeamAt tid (opCompleted (s.teamAt tid) o)) := by
  obtain ⟨r, g, p, hrest⟩ := writeResults_rest (s.teamAt tid) o
  have hq : ((writeResults (s.teamAt tid) o).flagDown o.flag).memQ = (s.teamAt tid).memQ := by
    rw [hrest]
    cases o.flag <;> rfl
  rw [completeOp]
  dsimp only
  split
  · next n hk =>
    rw [drainTo_none (by simpa using hstore.resolve_left fun hne => hne n hk), Option.map_some, State.modTeam, hq]
    rfl
  · rw [Option.map_some, State.modTeam, hq]
    rfl

theorem exec_completion {s : State} {o : MemOp} (hnames : namesOp s o) (hperf : o.performed = true)
    (hstore : (∀ n, o.kind ≠ .store n) ∨ ∀ e ∈ (s.coreAt (s.teamAt s.ev.x).core).sbuf, e.tid ≠ s.ev.x) :
    exec .variableLatencyCompletion s = .next (s.setTeamAt s.ev.x (opCompleted (s.teamAt s.ev.x) o)) := by
  have hfind : findOp s s.ev.x s.ev.y = some o := hnames
  rw [exec_variableLatencyCompletion, execVariableLatencyCompletion, hfind]
  dsimp only
  rw [stepOp, if_pos hperf, completeOp_eq hstore, Option.getD_some, noteOut]
  dsimp only
  exact congrArg Host.Outcome.next (noteFetches_sameL2 _ rfl)

/-! ### The completed team -/

theorem opCompleted_rest (t : Team) (o : MemOp) : ∃ r g p f, opCompleted t o =
    { t with regs := r, sregs := g, preds := p, flags := f, memQ := t.memQ.filter (fun p => p.id ≠ o.id) } := by
  obtain ⟨r, g, p, h⟩ := writeResults_rest t o
  rw [opCompleted, h]
  cases o.flag <;> exact ⟨_, _, _, _, rfl⟩

theorem opCompleted_flag (t : Team) (o : MemOp) (k : Nat) : (opCompleted t o).flag k = if o.flag = some k then t.flag k - 1 else t.flag k := by
  obtain ⟨r, g, p, h⟩ := writeResults_rest t o
  have hflag := Team.flag_flagDown (writeResults t o) o.flag k
  rw [h] at hflag
  rw [opCompleted, h]
  exact hflag

/-- The registers of the completed team are those that the results were written to. -/
theorem opCompleted_registers (t : Team) (o : MemOp) :
    (opCompleted t o).regs = (writeResults t o).regs ∧ (opCompleted t o).sregs = (writeResults t o).sregs ∧ (opCompleted t o).preds = (writeResults t o).preds := by
  rw [opCompleted]
  cases o.flag <;> exact ⟨rfl, rfl, rfl⟩

theorem opCompleted_word (t : Team) (o : MemOp) (q l : Nat) : (opCompleted t o).word q l = (writeResults t o).word q l := by
  obtain ⟨h, -, -⟩ := opCompleted_registers t o
  rw [Team.word, h, Team.word]

theorem opCompleted_pred (t : Team) (o : MemOp) (q : Nat) : (opCompleted t o).pred q = (writeResults t o).pred q := by
  obtain ⟨-, -, h⟩ := opCompleted_registers t o
  rw [Team.pred, h, Team.pred]

theorem opCompleted_sreg (t : Team) (o : MemOp) (n : Nat) : (opCompleted t o).sreg n = (writeResults t o).sreg n := by
  obtain ⟨-, h, -⟩ := opCompleted_registers t o
  rw [Team.sreg, h, Team.sreg]

section
variable {t : Team} {o : MemOp}

theorem load_completed {n : Nat} {sg w : Bool} (hw : t.warps ≤ 32) (hnd : (o.accs.map (fun a => a.lane)).Nodup) (hk : o.kind = .load n sg w)
    (hsg : sg = true → n ≤ 2) (hdata : ∀ a ∈ o.accs, a.data < 2 ^ (8 * n)) :
    (writeResults t o).sregs = t.sregs ∧ (writeResults t o).preds = t.preds ∧ ∀ q l, l < t.lanes → (writeResults t o).word q l =
      match o.dst, o.accs.find? (fun a => a.lane = l) with
      | some d, some a => if d ≤ q ∧ q < d + (n + 3) / 4 then loadedWord n sg (q - d) a.data else t.word q l
      | _, _ => t.word q l := by
  rw [writeResults_load t hk]
  cases o.dst with
  | none => exact ⟨rfl, rfl, fun _ _ _ => rfl⟩
  | some d =>
    have hrows : (some d).elim t (fun q => (List.range ((n + 3) / 4)).foldl (fun t i => t.setWord (q + i) (resultSet o) (resultVal o (loadPart n sg i))) t) =
      setRows o d (loadPart n sg) t ((n + 3) / 4) := rfl
    rw [hrows]
    obtain ⟨r, hr⟩ := setRows_rest o d (loadPart n sg) t ((n + 3) / 4)
    refine ⟨by rw [hr], by rw [hr], fun q l hl => ?_⟩
    rw [word_setRows hw hnd _ _ _ _ hl]
    cases hf : o.accs.find? (fun a => a.lane = l) with
    | none => rfl
    | some a =>
      dsimp only [Option.elim]
      by_cases hq : d ≤ q ∧ q < d + (n + 3) / 4
      · rw [if_pos hq, if_pos hq, ofNat_loadPart hsg (hdata a (List.mem_of_find?_eq_some hf)) (by omega)]
      · rw [if_neg hq, if_neg hq]

theorem word_dstResult (hw : t.warps ≤ 32) (hnd : (o.accs.map (fun a => a.lane)).Nodup) (f : LaneAcc → Nat) (q : Nat) {l : Nat} (hl : l < t.lanes) :
    (o.dst.elim t (fun d => t.setWord d (resultSet o) (resultVal o f))).word q l =
      match o.accs.find? (fun a => a.lane = l) with
      | some a => if o.dst = some q then BitVec.ofNat 32 (f a) else t.word q l
      | none => t.word q l := by
  cases o.dst with
  | none => cases o.accs.find? (fun a => a.lane = l) <;> rfl
  | some d =>
    refine (word_setResult hw hnd f d q hl).trans ?_
    cases o.accs.find? (fun a => a.lane = l) with
    | none => rfl
    | some a => exact if_congr (by simp [eq_comm]) rfl rfl

theorem dstResult_rest (f : LaneAcc → Nat) : ∃ r, o.dst.elim t (fun d => t.setWord d (resultSet o) (resultVal o f)) = { t with regs := r } := by
  cases o.dst <;> exact ⟨_, rfl⟩

theorem atom_completed {op : AOp} (hw : t.warps ≤ 32) (hnd : (o.accs.map (fun a => a.lane)).Nodup) (hk : o.kind = .atom op true) :
    (writeResults t o).sregs = t.sregs ∧ (writeResults t o).preds = t.preds ∧ ∀ q l, l < t.lanes → (writeResults t o).word q l =
      match o.accs.find? (fun a => a.lane = l) with
      | some a => if o.dst = some q then BitVec.ofNat 32 a.data else t.word q l
      | none => t.word q l := by
  obtain ⟨r, hr⟩ := dstResult_rest (t := t) (o := o) (fun a => a.data)
  rw [writeResults_atom t hk]
  exact ⟨by rw [hr], by rw [hr], fun q l hl => word_dstResult hw hnd _ q hl⟩

theorem append_completed {e p size : Nat} {r : Bool} (hw : t.warps ≤ 32) (hnd : (o.accs.map (fun a => a.lane)).Nodup) (hk : o.kind = .append e p size r) :
    (writeResults t o).sregs = t.sregs ∧
    (∀ q l, l < t.lanes → (writeResults t o).word q l =
      match o.accs.find? (fun a => a.lane = l) with
      | some a => if o.dst = some q then BitVec.ofNat 32 a.addr else t.word q l
      | none => t.word q l) ∧
    ∀ q l, l < t.lanes → ((writeResults t o).pred q).getLsbD l =
      match o.accs.find? (fun a => a.lane = l) with
      | some a => if q = o.pdst ∧ q ≠ 31 then a.addr != 0xFFFFFFFF else (t.pred q).getLsbD l
      | none => (t.pred q).getLsbD l := by
  obtain ⟨rg, hr⟩ := dstResult_rest (t := t) (o := o) (fun a => a.addr)
  have hword := fun q l hl => word_dstResult (t := t) (o := o) hw hnd (fun a => a.addr) q (l := l) hl
  rw [writeResults_append t hk]
  rw [hr] at hword ⊢
  refine ⟨?_, fun q l hl => ?_, fun q l hl => ?_⟩
  · rw [Team.setPred]
    split <;> rfl
  · refine Eq.trans ?_ (hword q l hl)
    rw [Team.setPred]
    split <;> rfl
  · have hl' : l < 1024 := by rw [Team.lanes] at hl; omega
    rw [Team.pred_setPred _ _ _ _ _ _ hl', getLsbD_resultSet hnd hl', getLsbD_appendTook hnd hl']
    cases o.accs.find? (fun a => a.lane = l) with
    | none => exact if_neg (by simp)
    | some a => exact if_congr (by simp) rfl rfl

theorem sload_completed (hk : o.kind = .sload) :
    (writeResults t o).regs = t.regs ∧ (writeResults t o).preds = t.preds ∧
      ∀ a, o.accs = [a] → ∀ n, (writeResults t o).sreg n = if o.dst = some n then BitVec.ofNat 32 a.data else t.sreg n := by
  rw [writeResults_sload t hk]
  cases o.dst with
  | none => exact ⟨rfl, rfl, fun _ _ _ => rfl⟩
  | some d =>
    refine ⟨rfl, rfl, fun a ha n => ?_⟩
    rw [ha]
    exact (Team.sreg_setSreg t d n _).trans (if_congr (by simp [eq_comm]) rfl rfl)

end

/-- Settles O7: the completion writes the operation's results into its team and nothing else, and each kind's results are named by lane. -/
theorem memoryOperationsComplete : Obligations.MemoryOperationsComplete := by
  intro s o hnames hperf hw hstore hnd _
  refine ⟨_, exec_completion hnames hperf hstore, ?_⟩
  obtain ⟨hregs, hsregs, hpreds⟩ := opCompleted_registers (s.teamAt s.ev.x) o
  rw [evTeam, State.teamAt_setTeamAt_same]
  simp only [opCompleted_flag, opCompleted_word, opCompleted_pred, opCompleted_sreg, hregs, hsregs, hpreds]
  refine ⟨trivial, ?_, fun k hk => if_pos hk, fun k hk => if_neg hk, ?_, fun n sg w hk hsg hdata => load_completed hw hnd hk hsg hdata,
    fun op hk => atom_completed hw hnd hk, fun e p size r hk => append_completed hw hnd hk, fun hk => sload_completed hk,
    fun hatom hload happend hsload hfmap => ?_⟩
  · rfl
  · obtain ⟨r, g, p, f, h⟩ := opCompleted_rest (s.teamAt s.ev.x) o
    rw [h]
  · rw [writeResults_nothing _ ⟨hatom, hload, happend, hsload, hfmap⟩]
    exact ⟨rfl, rfl, rfl⟩

end Sys2Proof.Machine
end

section
/-! Results across lanes (R110, R156-R160): what shuffles, ballots, matches, reductions and scans write. -/

namespace Sys2Proof.Machine

open Sys2Proof Sys2Proof.Safety Sys2Proof.Claims

/-! ### The end of an instruction that writes a vector register, and perhaps a predicate -/

theorem setV_regs (t : Team) (d : Nat) (set : LaneSet) (val : Nat → Word) : ∃ r, t.setV d set val = { t with regs := r } := by
  rw [Team.setV]
  split
  · exact ⟨_, rfl⟩
  · exact ⟨t.regs, rfl⟩

theorem setPred_preds (t : Team) (p : Nat) (set v : LaneSet) : ∃ r, t.setPred p set v = { t with preds := r } := by
  rw [Team.setPred]
  split
  · exact ⟨t.preds, rfl⟩
  · exact ⟨_, rfl⟩

theorem vecWritten_setV {t : Team} (hw : t.warps ≤ 32) (d : Nat) (set : LaneSet) (val : Nat → Word) : vecWritten t (t.setV d set val) d set val :=
  fun q l hl => Team.word_setV t d set val q l hw hl

/-- Predicate results are given lane by lane. -/
theorem predWritten_setPred {t : Team} (hw : t.warps ≤ 32) (p : Nat) (set : LaneSet) (res : Nat → Bool) :
    predWritten t (t.setPred p set (laneSetOf t.lanes res)) p (fun l => set.getLsbD l) res := by
  intro q l hl
  have hlanes : t.lanes ≤ 1024 := by
    unfold Team.lanes
    omega
  rw [Team.pred_setPred t p q set _ l (Nat.lt_of_lt_of_le hl hlanes), getLsbD_laneSetOf _ _ _ hlanes, decide_eq_true hl, Bool.true_and]

/-- An instruction that ends with new registers goes on and leaves the rest alone. -/
theorem finishHold_vec {s : State} (hw : s.team.warps ≤ 32) (x : Fields) (row : Option (KMap Word)) (d : Nat) (set : LaneSet) (val : Nat → Word) :
    ∃ t, finishHold s (s.team.setV d set val) x row = .next t ∧ OnlyTeam s t ∧ wentOn s.team t.team (lenOf x) ∧
      { placed s.team t.team with regs := s.team.regs } = s.team ∧ vecWritten s.team t.team d set val := by
  have hwritten := vecWritten_setV hw d set val
  obtain ⟨r, hr⟩ := setV_regs s.team d set val
  rw [hr] at hwritten ⊢
  obtain ⟨t, ht, honly, hon, -, p, c, e, q, k, g, y, z, hteam⟩ := finishHold_spec s { s.team with regs := r } x row rfl rfl rfl rfl
  refine ⟨t, ht, honly, hon, ?_, ?_⟩ <;> rw [hteam]
  · rfl
  · exact hwritten

/-- The same with a predicate beside the registers. -/
theorem finishHold_predVec {s : State} (hw : s.team.warps ≤ 32) (x : Fields) (row : Option (KMap Word)) (p : Nat) (pset : LaneSet) (res : Nat → Bool)
    (d : Nat) (set : LaneSet) (val : Nat → Word) :
    ∃ t, finishHold s ((s.team.setPred p pset (laneSetOf s.team.lanes res)).setV d set val) x row = .next t ∧ OnlyTeam s t ∧
      wentOn s.team t.team (lenOf x) ∧ { placed s.team t.team with regs := s.team.regs, preds := s.team.preds } = s.team ∧
      vecWritten s.team t.team d set val ∧ predWritten s.team t.team p (fun l => pset.getLsbD l) res := by
  have hpred := predWritten_setPred hw p pset res
  obtain ⟨ps, hps⟩ := setPred_preds s.team p pset (laneSetOf s.team.lanes res)
  rw [hps] at hpred ⊢
  have hvec := vecWritten_setV (t := { s.team with preds := ps }) hw d set val
  obtain ⟨r, hr⟩ := setV_regs { s.team with preds := ps } d set val
  rw [hr] at hvec ⊢
  obtain ⟨t, ht, honly, hon, -, p, c, e, q, k, g, y, z, hteam⟩ := finishHold_spec s { s.team with preds := ps, regs := r } x row rfl rfl rfl rfl
  refine ⟨t, ht, honly, hon, ?_, ?_, ?_⟩ <;> rw [hteam]
  · rfl
  · exact hvec
  · exact hpred

/-! ### Shuffles, ballots and matches (R156-R158) -/

/-- What a vector instruction writes, from its form. -/
theorem RunsVecWrite.written {row : (Fields → Instr) × LaneVal × LaneVal × LaneVal} (h : RunsVecWrite row) {f : Fields} {s : State}
    (hw : s.team.warps ≤ 32) (hr : reaches s (row.1 f) = true) :
    ∃ t, exec (row.1 f) s = .next t ∧ OnlyTeam s t ∧ wentOn s.team t.team (lenOf f) ∧ { placed s.team t.team with regs := s.team.regs } = s.team ∧
      vecWritten s.team t.team f.d.toNat (presentSet s.team (modOf .v f)) (row.2.2.2 s.team f) := by
  obtain ⟨b, -, hexec⟩ := h f s hr
  rw [hexec]
  exact finishHold_vec hw f _ _ _ _

theorem warpWidth_eq (t : Team) : segWidth t (warpSeg t) = warpWidth t := rfl

theorem warpWidth_le {t : Team} (h : t.seg ≤ 6) : warpWidth t ≤ 32 := by
  have hcode : (if t.seg = 6 then 5 else t.seg) ≤ 5 := by split_ifs <;> omega
  rw [warpWidth, segWidth, if_neg (by omega)]
  exact Nat.pow_le_pow_right (by decide) hcode

/-- A ballot has a bit for each contributor that passes the test. -/
theorem getLsbD_ballot {t : Team} (f : Fields) (l : Nat) {q : Nat} (hq : q < 32) (test : Nat → Bool) :
    (ballot (warpWidth t) l (presentSet t (modOf .v f)) test).getLsbD q = ballotBit t f l q test := by
  rw [ballot, BitVec.getLsbD_ofNat, (foldl_bits (fun q => (presentSet t (modOf .v f)).getLsbD (segFirst (warpWidth t) l + q) &&
    test (segFirst (warpWidth t) l + q)) (warpWidth t)).2, decide_eq_true hq, Bool.true_and, ballotBit, Bool.and_assoc]

/-- An instruction that writes ballots of a test on lanes. -/
theorem ballot_written {con : Fields → Instr} {test : Team → Fields → Nat → Nat → Bool} {a : Team → Fields → Nat → Word} (henc : EncodesItself con)
    (hexec : ∀ f s, exec (con f) s = issue (con f) s (fun t _ x => crossWrite s t t x (presentSet t (modOf .v x)) (a t x) (fun _ => 0)
      (fun l => ballot (segWidth t (warpSeg t)) l (presentSet t (modOf .v x)) (test t x l))))
    {f : Fields} {s : State} (hw : s.team.warps ≤ 32) (hr : reaches s (con f) = true) :
    ∃ t, exec (con f) s = .next t ∧ OnlyTeam s t ∧ wentOn s.team t.team (lenOf f) ∧ { placed s.team t.team with regs := s.team.regs } = s.team ∧
      ∃ v : Nat → Word, vecWritten s.team t.team f.d.toNat (presentSet s.team (modOf .v f)) v ∧
        ∀ l q, q < 32 → (v l).getLsbD q = ballotBit s.team f l q (test s.team f l) := by
  rw [hexec, henc.issue_eq hr]
  obtain ⟨t, ht, honly, hon, hframe, hvec⟩ := finishHold_vec hw f _ _ _ _
  exact ⟨t, ht, honly, hon, hframe, _, hvec, fun l q hq => getLsbD_ballot f l hq _⟩

theorem crossLaneReads : CrossLaneReads := by
  refine ⟨fun row hrow f s hw hr => (shuffleRows_run row hrow).written hw hr, ?_⟩
  simp only [List.forall_mem_cons, List.not_mem_nil, false_implies, implies_true, and_true]
  refine ⟨fun f s hw _ hr => ?_, fun f s hw _ hr => ?_⟩
  · exact ballot_written (test := fun t f _ k => (t.pred f.a.toNat).getLsbD k) (fun _ => ⟨_, rfl⟩) exec_voteBal hw hr
  · exact ballot_written (test := fun t f l k => srcV t f.a.toNat (immOf f) k == srcV t f.a.toNat (immOf f) l) (fun _ => ⟨_, rfl⟩) exec_matchLanes hw hr

/-! ### Reductions, scans and the tree sum (R110, R159, R160) -/

/-- The values of a lane's segment by position, none where the lane does not contribute. -/
def segValues (t : Team) (f : Fields) (l : Nat) : List (Option Word) :=
  (List.range (segWidth t t.seg)).map (fun q =>
    if (presentSet t (modOf .v f)).getLsbD (segFirst (segWidth t t.seg) l + q) then some (srcV t f.a.toNat (immOf f) (segFirst (segWidth t t.seg) l + q))
    else none)

/-- The values that `segmentOp` gathers. -/
theorem segValues_eq (t : Team) (f : Fields) (l : Nat) :
    (segLanes (segWidth t t.seg) (segFirst (segWidth t t.seg) l)).map (fun k =>
      if (presentSet t (modOf .v f)).getLsbD k then some (srcV t f.a.toNat (immOf f) k) else none) = segValues t f l := by
  rw [segLanes, List.map_map]
  rfl

theorem take_range_eq_filter (w n : Nat) : (List.range w).take n = (List.range w).filter (fun q => decide (q < n)) := by
  rw [List.take_range]
  induction w with
  | zero => simp
  | succ w ih =>
    rw [List.range_succ, List.filter_append, ← ih]
    by_cases h : w < n
    · rw [List.filter_cons_of_pos (by simpa using h), List.filter_nil, Nat.min_eq_right h, Nat.min_eq_right h.le, List.range_succ]
    · have hn : n ≤ w := Nat.not_lt.mp h
      rw [List.filter_cons_of_neg (by simpa using hn), List.filter_nil, Nat.min_eq_left hn, Nat.min_eq_left (Nat.le_succ_of_le hn), List.append_nil]

theorem filterMap_ite_some {α β : Type} (p : α → Bool) (g : α → β) (l : List α) :
    (l.map (fun q => if p q then some (g q) else none)).filterMap id = (l.filter p).map g := by
  induction l with
  | nil => rfl
  | cons q r ih => cases h : p q <;> simp [h, ← ih]

/-- The contributors among the first positions, in position order. -/
theorem filterMap_take_segValues (t : Team) (f : Fields) (l n : Nat) : ((segValues t f l).take n).filterMap id = contributions t f l n := by
  rw [segValues, ← List.map_take, take_range_eq_filter, filterMap_ite_some, List.filter_filter, contributions]
  simp only [Bool.and_comm]

theorem filterMap_segValues (t : Team) (f : Fields) (l : Nat) : (segValues t f l).filterMap id = contributions t f l (segWidth t t.seg) := by
  rw [← filterMap_take_segValues, List.take_of_length_le (by simp [segValues])]

theorem any_segValues (t : Team) (f : Fields) (l : Nat) :
    (segValues t f l).any Option.isSome = (contributions t f l (segWidth t t.seg) != []) := by
  rw [← filterMap_segValues]
  induction segValues t f l with
  | nil => rfl
  | cons o r ih => cases o <;> simp [ih]

theorem foldVals_eq_combine (fn : Word → Word → Word) (ident : Word) (vals : List (Option Word)) :
    foldVals fn ident vals = combine fn ident (vals.filterMap id) := rfl

/-- What an instruction over segments writes: the receivers' results from the values by position, and whether there is a contributor. -/
theorem segmentOp_written {con : Fields → Instr} {res : RMode → Nat → List (Option Word) → Word} (henc : EncodesItself con)
    (hexec : ∀ f s, exec (con f) s = segmentOp (con f) s res) {f : Fields} {s : State} (hw : s.team.warps ≤ 32) (hr : reaches s (con f) = true) :
    ∃ t, exec (con f) s = .next t ∧ OnlyTeam s t ∧ wentOn s.team t.team (lenOf f) ∧
      { placed s.team t.team with regs := s.team.regs, preds := s.team.preds } = s.team ∧
      vecWritten s.team t.team f.d.toNat s.team.mask (fun l =>
        res (modeOf s.team (modOf .v f)) (l % segWidth s.team s.team.seg) (segValues s.team f l)) ∧
      predWritten s.team t.team f.b.toNat (fun l => s.team.mask.getLsbD l)
        (fun l => contributions s.team f l (segWidth s.team s.team.seg) != []) := by
  rw [hexec, segmentOp, henc.issue_eq hr]
  simp only [segValues_eq, any_segValues]
  exact finishHold_predVec hw f _ _ _ _ _ _ _

/-- A row of reductions or scans does what its combination says. -/
def RunsReduction (row : RedRow) : Prop :=
  ∀ (f : Fields) (s : State), s.team.warps ≤ 32 → reaches s (row.1 f) = true →
    ∃ t, exec (row.1 f) s = .next t ∧ OnlyTeam s t ∧ wentOn s.team t.team (lenOf f) ∧
      { placed s.team t.team with regs := s.team.regs, preds := s.team.preds } = s.team ∧
      vecWritten s.team t.team f.d.toNat s.team.mask (fun l => combine row.2.2.1 row.2.2.2
        (contributions s.team f l (if row.2.1 then l % segWidth s.team s.team.seg + 1 else segWidth s.team s.team.seg))) ∧
      predWritten s.team t.team f.b.toNat (fun l => s.team.mask.getLsbD l)
        (fun l => contributions s.team f l (segWidth s.team s.team.seg) != [])

theorem runsReduction_reduce {con : Fields → Instr} {fn fn' : Word → Word → Word} {ident : Word} (henc : EncodesItself con)
    (hexec : ∀ f s, exec (con f) s = reduce (con f) s fn ident) (hfn : ∀ a b, fn a b = fn' a b) : RunsReduction (con, false, fn', ident) := by
  obtain rfl : fn = fn' := funext fun a => funext fun b => hfn a b
  intro f s hw hr
  simpa only [foldVals_eq_combine, filterMap_segValues, Bool.false_eq_true, if_false] using segmentOp_written henc hexec hw hr

theorem runsReduction_scan {con : Fields → Instr} {fn fn' : Word → Word → Word} {ident : Word} (henc : EncodesItself con)
    (hexec : ∀ f s, exec (con f) s = scan (con f) s fn ident) (hfn : ∀ a b, fn a b = fn' a b) : RunsReduction (con, true, fn', ident) := by
  obtain rfl : fn = fn' := funext fun a => funext fun b => hfn a b
  intro f s hw hr
  simpa only [foldVals_eq_combine, filterMap_take_segValues, if_true] using segmentOp_written henc hexec hw hr

theorem reduceRows_run : ∀ row ∈ reduceRows, RunsReduction row := by
  simp only [reduceRows, List.forall_mem_cons, List.not_mem_nil, false_implies, implies_true, and_true]
  exact ⟨runsReduction_reduce (fun _ => ⟨_, rfl⟩) exec_vRedAdd fun _ _ => rfl,
    runsReduction_reduce (fun _ => ⟨_, rfl⟩) exec_vRedMinI32 minI_eq_spec, runsReduction_reduce (fun _ => ⟨_, rfl⟩) exec_vRedMinZ32 minZ_eq_spec,
    runsReduction_reduce (fun _ => ⟨_, rfl⟩) exec_vRedMaxI32 maxI_eq_spec, runsReduction_reduce (fun _ => ⟨_, rfl⟩) exec_vRedMaxZ32 maxZ_eq_spec,
    runsReduction_reduce (fun _ => ⟨_, rfl⟩) exec_vRedAnd fun _ _ => rfl, runsReduction_reduce (fun _ => ⟨_, rfl⟩) exec_vRedOr fun _ _ => rfl,
    runsReduction_reduce (fun _ => ⟨_, rfl⟩) exec_vRedXor fun _ _ => rfl, runsReduction_scan (fun _ => ⟨_, rfl⟩) exec_scanAdd fun _ _ => rfl,
    runsReduction_scan (fun _ => ⟨_, rfl⟩) exec_scanMaxI32 maxI_eq_spec, runsReduction_scan (fun _ => ⟨_, rfl⟩) exec_scanMaxZ32 maxZ_eq_spec⟩

theorem reductionsAndScans : ReductionsAndScans := reduceRows_run

theorem treeSum : TreeSum := by
  intro f s hw hr
  obtain ⟨t, ht, honly, hon, hframe, hvec, hpred⟩ := segmentOp_written (fun _ => ⟨_, rfl⟩) exec_vRedFadd hw hr
  refine ⟨t, ht, honly, hon, hframe, hpred, ?_⟩
  simp only [segValues, List.map_map, Function.comp_def, apply_ite (Option.map ofF32), Option.map_some, Option.map_none] at hvec
  exact hvec

/-- Settles O23: the reads across lanes, the reductions and scans over a segment's contributors, and the tree of `red.fadd`. -/
theorem crossLaneResults : Obligations.CrossLaneResults := ⟨crossLaneReads, reductionsAndScans, treeSum⟩

end Sys2Proof.Machine
end

section
/-! Rounding (R86-R99): codes as rational values, the code below a value, codes that survive rounding, and the directed modes. -/

namespace Sys2Proof.Machine

open Sys2Proof Sys2Proof.Claims

/-! ### Values as rationals -/

/-- A signed dyadic as a rational. -/
def dyadic (n : Bool) (m : Nat) (e : Int) : ℚ := if n then -(m * 2 ^ e) else m * 2 ^ e

/-- A mantissa moved to a smaller exponent keeps the value. -/
theorem shiftedMant_mul (m : Nat) {e d : Int} (h : d ≤ e) : ((m * 2 ^ (e - d).toNat : Nat) : ℚ) * 2 ^ d = m * 2 ^ e := by
  have hexp : (2 : ℚ) ^ e = 2 ^ (e - d).toNat * 2 ^ d := by
    rw [← zpow_natCast, ← zpow_add₀ two_ne_zero, Int.toNat_of_nonneg (by omega), sub_add_cancel]
  rw [hexp]
  push_cast
  ring

/-- The model compares at a common exponent; that is the order of the rationals. -/
theorem le_fin_iff (n₁ n₂ : Bool) (m₁ m₂ : Nat) (e₁ e₂ : Int) :
    XVal.le (.fin n₁ m₁ e₁) (.fin n₂ m₂ e₂) = true ↔ dyadic n₁ m₁ e₁ ≤ dyadic n₂ m₂ e₂ := by
  have hpos : (0 : ℚ) < 2 ^ min e₁ e₂ := zpow_pos two_pos _
  have hscaled (n : Bool) (m : Nat) (e : Int) (h : min e₁ e₂ ≤ e) :
      dyadic n m e = ((if n then -((m * 2 ^ (e - min e₁ e₂).toNat : Nat) : Int) else ((m * 2 ^ (e - min e₁ e₂).toNat : Nat) : Int) : Int) : ℚ) * 2 ^ min e₁ e₂ := by
    rw [dyadic, ← shiftedMant_mul m h]
    cases n <;> simp
  rw [hscaled n₁ m₁ e₁ (min_le_left _ _), hscaled n₂ m₂ e₂ (min_le_right _ _), mul_le_mul_iff_left₀ hpos, Int.cast_le, le_iff_lt_or_eq]
  simp only [XVal.le, XVal.cmp, alignFin, Bool.or_eq_true, decide_eq_true_eq, Option.some.injEq, compare_lt_iff_lt, compare_eq_iff_eq]

theorem inf_le_fin (n : Bool) (m : Nat) (e : Int) : XVal.le (.inf true) (.fin n m e) = true := rfl

theorem fin_le_inf (n : Bool) (m : Nat) (e : Int) : XVal.le (.fin n m e) (.inf false) = true := rfl

/-! ### Codes of the formats that have infinities -/

/-- A format of the shape of FP32 (R86, R106): signed, floating, with subnormals and -0; infinity follows the largest finite code, NaN's come after it. -/
structure FloatFmt (f : Fmt) : Prop where
  signed : f.signed = true
  fixed : f.fixed = false
  sub : f.sub = true
  negZero : f.negZero = true
  inf : f.inf = some (f.maxCode + 1)
  bits : 0 < f.bits
  fits : f.maxCode + 1 < 2 ^ (f.bits - 1)

theorem floatFmt_fp32 : FloatFmt fp32 := ⟨rfl, rfl, rfl, rfl, rfl, by decide, by decide⟩
theorem floatFmt_fp16 : FloatFmt fp16 := ⟨rfl, rfl, rfl, rfl, rfl, by decide, by decide⟩
theorem floatFmt_bf16 : FloatFmt bf16 := ⟨rfl, rfl, rfl, rfl, rfl, by decide, by decide⟩
theorem floatFmt_acc40 : FloatFmt acc40 := ⟨rfl, rfl, rfl, rfl, by decide, by decide, by decide⟩

/-- Mantissa and exponent of a finite magnitude code (R95). -/
def codeMant (f : Fmt) (c : Nat) : Nat := if c / 2 ^ f.mant = 0 then c else 2 ^ f.mant + c % 2 ^ f.mant
def codeExp (f : Fmt) (c : Nat) : Int := f.emin + ((c / 2 ^ f.mant - 1 : Nat) : Int) - f.mant

/-- Value of a magnitude code, the codes above `maxCode` read as finite too. -/
def codeVal (f : Fmt) (c : Nat) : ℚ := codeMant f c * 2 ^ codeExp f c

section
variable {f : Fmt} (h : FloatFmt f)
include h

theorem signCode_eq (n : Bool) (c : Nat) : signCode f n c = c + signBit f n := by
  rw [signCode]
  split
  · next h0 => rw [if_pos h.negZero, h0, Nat.zero_add]
  · rfl

/-- A code's sign and magnitude. -/
theorem code_eq {c : Nat} (hc : c < 2 ^ f.bits) : c = c % 2 ^ (f.bits - 1) + signBit f (decide (c / 2 ^ (f.bits - 1) = 1)) := by
  have hhalf : c / 2 ^ (f.bits - 1) < 2 := by
    rw [Nat.div_lt_iff_lt_mul (Nat.two_pow_pos _), ← pow_succ', Nat.sub_add_cancel h.bits]
    exact hc
  have hsplit := Nat.mod_add_div c (2 ^ (f.bits - 1))
  rw [signBit, h.signed, Bool.and_true]
  by_cases h1 : c / 2 ^ (f.bits - 1) = 1
  · rw [h1, Nat.mul_one] at hsplit
    rw [if_pos (by simpa using h1), hsplit]
  · have h0 : c / 2 ^ (f.bits - 1) = 0 := (Nat.le_one_iff_eq_zero_or_eq_one.mp (Nat.le_of_lt_succ hhalf)).resolve_right h1
    rw [h0, Nat.mul_zero] at hsplit
    rw [if_neg (by simpa using h1), hsplit]

/-- What a code of sign n and magnitude c reads as. -/
theorem widen_code (n : Bool) {c : Nat} (hc : c < 2 ^ (f.bits - 1)) :
    widen f (c + signBit f n) = if c ≤ f.maxCode then .fin n (codeMant f c) (codeExp f c) else if c = f.maxCode + 1 then .inf n else .nan := by
  have htwo : 2 ^ f.bits = 2 * 2 ^ (f.bits - 1) := by rw [← pow_succ', Nat.sub_add_cancel h.bits]
  have hs : signBit f n = 2 ^ (f.bits - 1) * n.toNat := by
    rw [signBit, h.signed, Bool.and_true]
    cases n <;> simp
  have hn : n.toNat ≤ 1 := Bool.toNat_le n
  have hlt : c + signBit f n < 2 ^ f.bits := by
    have := Nat.mul_le_mul_left (2 ^ (f.bits - 1)) hn
    omega
  have hmag : (c + signBit f n) % 2 ^ (f.bits - 1) = c := by rw [hs, Nat.add_mul_mod_self_left, Nat.mod_eq_of_lt hc]
  have hsign : decide ((c + signBit f n) / 2 ^ (f.bits - 1) = 1) = n := by
    rw [hs, Nat.add_mul_div_left _ _ (Nat.two_pow_pos _), Nat.div_eq_of_lt hc, Nat.zero_add]
    cases n <;> rfl
  simp only [widen, h.signed, h.fixed, h.sub, h.inf, Nat.mod_eq_of_lt hlt, hmag, hsign, if_true, Bool.true_and, Bool.false_eq_true, if_false]
  by_cases hfin : c ≤ f.maxCode
  · rw [if_pos hfin, if_neg (by omega), if_neg (by omega), codeMant, codeExp]
    by_cases h0 : c / 2 ^ f.mant = 0
    · have hsmall : c % 2 ^ f.mant = c := Nat.mod_eq_of_lt (Nat.div_eq_zero_iff.mp h0 |>.resolve_left (Nat.two_pow_pos _).ne')
      simp [h0, hsmall]
    · simp only [ne_eq, h0, not_false_eq_true, if_true, if_false]
      congr 1
      generalize c / 2 ^ f.mant = k at h0 ⊢
      omega
  · rw [if_neg hfin]
    by_cases hinf : c = f.maxCode + 1
    · simp only [hinf, if_true]
    · rw [if_neg hinf, if_neg hinf, if_pos (by omega)]

/-- The code of a finite value: the rounded magnitude, or infinity. -/
theorem narrow_fin (mode : RMode) (n : Bool) (m : Nat) (e : Int) : narrow f (.fin n m e) mode false = min (roundMag f mode n m e) (f.maxCode + 1) + signBit f n := by
  simp only [narrow, h.signed, h.inf, signCode_eq h, Bool.not_true, Bool.and_false, Bool.false_eq_true, if_false]
  split <;> omega

/-- The value that a finite value rounds to. -/
theorem roundTo_fin (mode : RMode) (n : Bool) (m : Nat) (e : Int) :
    roundTo f (.fin n m e) mode =
      if roundMag f mode n m e ≤ f.maxCode then .fin n (codeMant f (roundMag f mode n m e)) (codeExp f (roundMag f mode n m e)) else .inf n := by
  rw [roundTo, narrow_fin h, widen_code h n (Nat.lt_of_le_of_lt (Nat.min_le_right _ _) h.fits)]
  by_cases hle : roundMag f mode n m e ≤ f.maxCode
  · rw [Nat.min_eq_left (by omega), if_pos hle, if_pos hle]
  · rw [Nat.min_eq_right (by omega), if_neg hle, if_neg (by omega), if_pos rfl]

end

/-! ### The order of codes -/

/-- A code written as a multiple of its unit, at either end of its binade. -/
theorem codeVal_eq (f : Fmt) {q k : Nat} (hlow : k = 0 ∨ 2 ^ f.mant ≤ q) (hhigh : q ≤ 2 ^ (f.mant + 1)) :
    codeVal f (q + k * 2 ^ f.mant) = q * 2 ^ (f.emin + (k : Int) - f.mant) := by
  have hpos : 0 < 2 ^ f.mant := Nat.two_pow_pos _
  have htwo : 2 ^ (f.mant + 1) = 2 * 2 ^ f.mant := pow_succ' _ _
  have hdiv : (q + k * 2 ^ f.mant) / 2 ^ f.mant = q / 2 ^ f.mant + k := Nat.add_mul_div_right _ _ hpos
  have hmod : (q + k * 2 ^ f.mant) % 2 ^ f.mant = q % 2 ^ f.mant := Nat.add_mul_mod_self_right _ _ _
  rw [codeVal, codeMant, codeExp, hdiv, hmod]
  obtain hq | ⟨hq1, hq2⟩ | hq : q < 2 ^ f.mant ∨ (2 ^ f.mant ≤ q ∧ q < 2 * 2 ^ f.mant) ∨ q = 2 * 2 ^ f.mant := by omega
  · have hk : k = 0 := hlow.resolve_right (by omega)
    rw [Nat.div_eq_of_lt hq, hk]
    simp
  · have h1 : q / 2 ^ f.mant = 1 := Nat.div_eq_of_lt_le (by omega) (by omega)
    have hm : 2 ^ f.mant + q % 2 ^ f.mant = q := by
      have := Nat.mod_add_div q (2 ^ f.mant)
      rw [h1] at this
      omega
    rw [h1, if_neg (by omega), hm, Nat.add_sub_cancel_left]
  · have h2 : q / 2 ^ f.mant = 2 := by rw [hq, Nat.mul_div_cancel _ hpos]
    have hm : q % 2 ^ f.mant = 0 := by rw [hq, Nat.mul_mod_left]
    rw [h2, hm, if_neg (by omega), hq]
    have hexp : f.emin + ((2 + k - 1 : Nat) : Int) - f.mant = f.emin + (k : Int) - f.mant + 1 := by omega
    rw [hexp, zpow_add_one₀ two_ne_zero]
    push_cast
    ring

theorem codeVal_le_succ (f : Fmt) (c : Nat) : codeVal f c ≤ codeVal f (c + 1) := by
  have hpos : 0 < 2 ^ f.mant := Nat.two_pow_pos _
  have htwo : 2 ^ (f.mant + 1) = 2 * 2 ^ f.mant := pow_succ' _ _
  have hsplit := Nat.mod_add_div c (2 ^ f.mant)
  have hmod := Nat.mod_lt c hpos
  obtain ⟨q, k, rfl, hlow, hhigh⟩ : ∃ q k, c = q + k * 2 ^ f.mant ∧ (k = 0 ∨ 2 ^ f.mant ≤ q) ∧ q < 2 ^ (f.mant + 1) := by
    cases hE : c / 2 ^ f.mant with
    | zero => exact ⟨c, 0, by omega, .inl rfl, by rw [hE] at hsplit; omega⟩
    | succ k =>
      rw [hE, Nat.mul_succ, Nat.mul_comm] at hsplit
      exact ⟨c % 2 ^ f.mant + 2 ^ f.mant, k, by omega, .inr (by omega), by omega⟩
  rw [Nat.add_right_comm, codeVal_eq f hlow hhigh.le, codeVal_eq f (hlow.imp_right (by omega)) hhigh]
  push_cast
  exact mul_le_mul_of_nonneg_right (by linarith) (zpow_nonneg two_pos.le _)

theorem codeVal_mono (f : Fmt) : Monotone (codeVal f) := monotone_nat_of_le_succ (codeVal_le_succ f)

/-! ### The code below a value -/

/-- Binades above the lowest: the exponent of the unit in which a value rounds, counted from that of the subnormals (R98). -/
def binade (f : Fmt) (m : Nat) (e : Int) : Nat := ((Nat.log2 m : Int) + e - f.emin).toNat

def unitExp (f : Fmt) (m : Nat) (e : Int) : Int := f.emin + (binade f m e : Int) - f.mant

/-- Quotient and remainder of m x 2^e by 2^u, the remainder in units of 2^e. -/
def quotAt (m : Nat) (e u : Int) : Nat := if u ≤ e then m * 2 ^ (e - u).toNat else m / 2 ^ (u - e).toNat
def remAt (m : Nat) (e u : Int) : Nat := if u ≤ e then 0 else m % 2 ^ (u - e).toNat

theorem quotAt_add_remAt (m : Nat) (e u : Int) : (quotAt m e u : ℚ) * 2 ^ u + remAt m e u * 2 ^ e = m * 2 ^ e := by
  rw [quotAt, remAt]
  split
  · next hle => rw [shiftedMant_mul m hle, Nat.cast_zero, zero_mul, add_zero]
  · next hlt =>
    have hexp := shiftedMant_mul 1 (le_of_not_ge hlt)
    have hdiv : ((m % 2 ^ (u - e).toNat + 2 ^ (u - e).toNat * (m / 2 ^ (u - e).toNat) : Nat) : ℚ) = m := congrArg _ (Nat.mod_add_div _ _)
    push_cast at hexp hdiv
    rw [one_mul, one_mul] at hexp
    rw [← hexp, ← hdiv]
    ring

theorem quotAt_le (m : Nat) (e u : Int) : (quotAt m e u : ℚ) * 2 ^ u ≤ m * 2 ^ e := by
  rw [← quotAt_add_remAt m e u]
  exact le_add_of_nonneg_right (mul_nonneg (Nat.cast_nonneg _) (zpow_nonneg two_pos.le _))

theorem lt_quotAt_succ (m : Nat) (e u : Int) : (m * 2 ^ e : ℚ) < (quotAt m e u + 1) * 2 ^ u := by
  rw [← quotAt_add_remAt m e u, add_mul, one_mul]
  refine add_lt_add_right ?_ _
  rw [remAt]
  split
  · rw [Nat.cast_zero, zero_mul]
    exact zpow_pos two_pos _
  · next hlt =>
    rw [← one_mul ((2 : ℚ) ^ u), ← Nat.cast_one, ← shiftedMant_mul 1 (le_of_not_ge hlt), Nat.one_mul]
    exact mul_lt_mul_of_pos_right (Nat.cast_lt.mpr (Nat.mod_lt _ (Nat.two_pow_pos _))) (zpow_pos two_pos _)

/-- The magnitude code at or just below a value, as if codes went on above `maxCode`. -/
def floorCode (f : Fmt) (m : Nat) (e : Int) : Nat := quotAt m e (unitExp f m e) + binade f m e * 2 ^ f.mant

theorem cast_lt_two_pow {q n : Nat} : (q : ℚ) < 2 ^ (n : Int) ↔ q < 2 ^ n := by
  rw [zpow_natCast]
  exact_mod_cast Iff.rfl

/-- The quotient fills the mantissa, but for subnormals, and no more than that. -/
theorem quotAt_bounds (f : Fmt) {m : Nat} (hm : m ≠ 0) (e : Int) :
    (f.emin ≤ (m.log2 : Int) + e → 2 ^ f.mant ≤ quotAt m e (unitExp f m e)) ∧ quotAt m e (unitExp f m e) < 2 ^ (f.mant + 1) := by
  have hunit : (0 : ℚ) < 2 ^ unitExp f m e := zpow_pos two_pos _
  have hlow : ((2 : ℚ) ^ m.log2) ≤ m := by exact_mod_cast Nat.log2_self_le hm
  have hhigh : (m : ℚ) < 2 ^ (m.log2 + 1) := by exact_mod_cast Nat.lt_log2_self
  constructor
  · intro hnormal
    have hexp : (m.log2 : Int) + e = (f.mant : Int) + unitExp f m e := by
      rw [unitExp, binade]
      omega
    have hval : (2 : ℚ) ^ (f.mant : Int) * 2 ^ unitExp f m e ≤ m * 2 ^ e := by
      rw [← zpow_add₀ two_ne_zero, ← hexp, zpow_add₀ two_ne_zero, zpow_natCast]
      exact mul_le_mul_of_nonneg_right hlow (zpow_nonneg two_pos.le _)
    have hq := lt_of_mul_lt_mul_right (hval.trans_lt (lt_quotAt_succ m e (unitExp f m e))) hunit.le
    rw [zpow_natCast] at hq
    have hq' : 2 ^ f.mant < quotAt m e (unitExp f m e) + 1 := by exact_mod_cast hq
    omega
  · have hexp : (m.log2 : Int) + 1 + e ≤ ((f.mant + 1 : Nat) : Int) + unitExp f m e := by
      rw [unitExp, binade]
      omega
    have hval : (m * 2 ^ e : ℚ) < 2 ^ ((f.mant + 1 : Nat) : Int) * 2 ^ unitExp f m e := by
      rw [← zpow_add₀ two_ne_zero]
      refine lt_of_lt_of_le ?_ (zpow_le_zpow_right₀ one_le_two hexp)
      rw [zpow_add₀ two_ne_zero]
      exact mul_lt_mul_of_pos_right (by exact_mod_cast hhigh) (zpow_pos two_pos _)
    exact cast_lt_two_pow.mp (lt_of_mul_lt_mul_right ((quotAt_le m e _).trans_lt hval) hunit.le)

theorem quotAt_fills (f : Fmt) {m : Nat} (hm : m ≠ 0) (e : Int) : binade f m e = 0 ∨ 2 ^ f.mant ≤ quotAt m e (unitExp f m e) := by
  by_cases hnormal : f.emin ≤ (m.log2 : Int) + e
  · exact .inr ((quotAt_bounds f hm e).1 hnormal)
  · refine .inl ?_
    rw [binade]
    omega

theorem codeVal_floorCode (f : Fmt) {m : Nat} (hm : m ≠ 0) (e : Int) :
    codeVal f (floorCode f m e) = quotAt m e (unitExp f m e) * 2 ^ unitExp f m e := by
  exact codeVal_eq f (quotAt_fills f hm e) (quotAt_bounds f hm e).2.le

theorem codeVal_floorCode_succ (f : Fmt) {m : Nat} (hm : m ≠ 0) (e : Int) :
    codeVal f (floorCode f m e + 1) = (quotAt m e (unitExp f m e) + 1) * 2 ^ unitExp f m e := by
  rw [floorCode, Nat.add_right_comm, codeVal_eq f ((quotAt_fills f hm e).imp_right (by omega)) (quotAt_bounds f hm e).2]
  push_cast
  rfl

/-! ### Rounding by mode -/

/-- A mode that takes the smaller magnitude of values of this sign. -/
def towardZero (mode : RMode) (n : Bool) : Bool :=
  match mode with
  | .rtz => true
  | .rup => n
  | .rdn => !n
  | _ => false

/-- Rounding chooses between the code below a value and the next; from above `maxCode`, between `maxCode` and infinity. -/
theorem roundMag_eq {f : Fmt} (h : FloatFmt f) (mode : RMode) (n : Bool) {m : Nat} (hm : m ≠ 0) (e : Int) :
    roundMag f mode n m e =
      if f.maxCode < floorCode f m e then (if towardZero mode n then f.maxCode else f.maxCode + 1)
      else if remAt m e (unitExp f m e) = 0 then floorCode f m e
      else if roundUp mode n (compare (2 * remAt m e (unitExp f m e)) (2 ^ (unitExp f m e - e).toNat)) (decide (floorCode f m e % 2 = 0)) then floorCode f m e + 1
      else floorCode f m e := by
  have hunit : (if decide ((m.log2 : Int) + e < f.emin) = true then f.emin - (f.mant : Int) else (m.log2 : Int) + e - (f.mant : Int)) = unitExp f m e := by
    rw [unitExp, binade]
    simp only [decide_eq_true_eq]
    split <;> omega
  have hfloor : (if decide ((m.log2 : Int) + e < f.emin) = true then quotAt m e (unitExp f m e)
      else (((m.log2 : Int) + e - f.emin).toNat + 1) * 2 ^ f.mant + (quotAt m e (unitExp f m e) - 2 ^ f.mant)) = floorCode f m e := by
    have hfull := (quotAt_bounds f hm e).1
    rw [floorCode, binade]
    simp only [decide_eq_true_eq]
    split
    · next hlow => rw [Int.toNat_of_nonpos (by omega), Nat.zero_mul, Nat.add_zero]
    · next hnormal =>
      rw [Nat.add_mul, Nat.one_mul]
      have := hfull (by omega)
      omega
  simp only [roundMag, if_neg hm, h.fixed, h.sub, Bool.not_false, Bool.true_and, Bool.false_eq_true, if_false, if_true, Bool.not_true, Bool.and_false, hunit]
  simp only [quotAt] at hfloor
  simp only [hfloor]
  refine if_congr Iff.rfl ?_ rfl
  cases mode <;> cases n <;> rfl

theorem roundMag_zero (f : Fmt) (mode : RMode) (n : Bool) (e : Int) : roundMag f mode n 0 e = 0 := if_pos rfl

/-! ### Codes survive -/

theorem binade_code (f : Fmt) {c : Nat} (hc : c ≠ 0) : binade f (codeMant f c) (codeExp f c) = c / 2 ^ f.mant - 1 := by
  have hpos : 0 < 2 ^ f.mant := Nat.two_pow_pos _
  rw [binade, codeMant, codeExp]
  split
  · next h0 =>
    have hlog : c.log2 < f.mant := (Nat.log2_lt hc).mpr ((Nat.div_eq_zero_iff.mp h0).resolve_left hpos.ne')
    rw [h0]
    omega
  · next h0 =>
    have hlog : (2 ^ f.mant + c % 2 ^ f.mant).log2 = f.mant := by
      have hmod := Nat.mod_lt c hpos
      rw [Nat.log2_eq_iff (by omega), pow_succ]
      omega
    rw [hlog]
    omega

theorem codeMant_add (f : Fmt) (c : Nat) : codeMant f c + (c / 2 ^ f.mant - 1) * 2 ^ f.mant = c := by
  rw [codeMant]
  split
  · next h0 => rw [h0, Nat.zero_sub, Nat.zero_mul, Nat.add_zero]
  · next h0 =>
    have hsplit := Nat.mod_add_div' c (2 ^ f.mant)
    obtain ⟨k, hk⟩ := Nat.exists_eq_succ_of_ne_zero h0
    rw [hk, Nat.succ_mul] at hsplit
    rw [hk, Nat.succ_sub_one]
    omega

theorem roundMag_code {f : Fmt} (h : FloatFmt f) (mode : RMode) (n : Bool) {c : Nat} (hc : c ≤ f.maxCode) :
    roundMag f mode n (codeMant f c) (codeExp f c) = c := by
  by_cases h0 : c = 0
  · have hmant : codeMant f c = 0 := by rw [h0, codeMant, Nat.zero_div, if_pos rfl]
    rw [hmant, h0, roundMag_zero]
  have hmant : codeMant f c ≠ 0 := by
    rw [codeMant]
    split
    · exact h0
    · exact (Nat.add_pos_left (Nat.two_pow_pos _) _).ne'
  have hunit : unitExp f (codeMant f c) (codeExp f c) = codeExp f c := by rw [unitExp, binade_code f h0, codeExp]
  have hfloor : floorCode f (codeMant f c) (codeExp f c) = c := by
    rw [floorCode, hunit, binade_code f h0, quotAt, if_pos le_rfl, sub_self, Int.toNat_zero, pow_zero, Nat.mul_one, codeMant_add]
  rw [roundMag_eq h mode n hmant, hfloor, hunit, remAt, if_pos le_rfl, if_neg (by omega), if_pos rfl]

/-- A finite code is the code of its value, in every mode, saturating or not. -/
theorem narrow_code {f : Fmt} (h : FloatFmt f) (mode : RMode) (n : Bool) {c : Nat} (hc : c ≤ f.maxCode) (sat : Bool) :
    narrow f (.fin n (codeMant f c) (codeExp f c)) mode sat = c + signBit f n := by
  simp only [narrow, h.signed, signCode_eq h, roundMag_code h mode n hc, Bool.not_true, Bool.and_false, Bool.false_eq_true, if_false]
  exact if_neg (by omega)

theorem code_survives {f : Fmt} (h : FloatFmt f) {i nan : Nat} (hi : f.maxCode + 1 = i) (hnan : f.nan = some nan) (mode : RMode) {c : Nat} (hc : c < 2 ^ f.bits) :
    (c % 2 ^ (f.bits - 1) ≤ i → narrow f (widen f c) mode false = c) ∧
    (c % 2 ^ (f.bits - 1) < i → narrow f (widen f c) mode true = c) ∧
    (i < c % 2 ^ (f.bits - 1) → ∀ sat, narrow f (widen f c) mode sat = nan) := by
  have hcode := code_eq h hc
  have hmag : c % 2 ^ (f.bits - 1) < 2 ^ (f.bits - 1) := Nat.mod_lt _ (Nat.two_pow_pos _)
  generalize c % 2 ^ (f.bits - 1) = mag at hcode hmag ⊢
  generalize decide (c / 2 ^ (f.bits - 1) = 1) = n at hcode
  rw [hcode, widen_code h n hmag]
  refine ⟨fun hle => ?_, fun hlt => ?_, fun hgt sat => ?_⟩
  · by_cases hfin : mag ≤ f.maxCode
    · rw [if_pos hfin, narrow_code h mode n hfin]
    · have hinf : mag = f.maxCode + 1 := by omega
      rw [if_neg hfin, if_pos hinf, narrow, h.signed, h.inf, hinf]
      simp
  · have hfin : mag ≤ f.maxCode := by omega
    rw [if_pos hfin, narrow_code h mode n hfin]
  · rw [if_neg (by omega), if_neg (by omega), narrow, hnan, Option.getD_some]

theorem codesSurviveRounding : CodesSurviveRounding := by
  simp only [CodesSurviveRounding, List.forall_mem_cons, List.not_mem_nil, false_implies, implies_true, and_true]
  exact ⟨fun mode _ hc => code_survives floatFmt_fp32 rfl rfl mode hc, fun mode _ hc => code_survives floatFmt_fp16 rfl rfl mode hc,
    fun mode _ hc => code_survives floatFmt_bf16 rfl rfl mode hc⟩

/-! ### The directed modes -/

/-- Where the mode never goes up, the magnitude stays finite and does not exceed the exact one. -/
theorem codeVal_roundMag_le {f : Fmt} (h : FloatFmt f) {mode : RMode} {n : Bool} (hdown : ∀ o b, roundUp mode n o b = false) (htoward : towardZero mode n = true)
    (m : Nat) (e : Int) : roundMag f mode n m e ≤ f.maxCode ∧ codeVal f (roundMag f mode n m e) ≤ m * 2 ^ e := by
  by_cases hm : m = 0
  · rw [hm, roundMag_zero]
    simp [codeVal, codeMant]
  have hle : codeVal f (floorCode f m e) ≤ m * 2 ^ e := by
    rw [codeVal_floorCode f hm]
    exact quotAt_le m e _
  have hmag : roundMag f mode n m e = min (floorCode f m e) f.maxCode := by
    rw [roundMag_eq h mode n hm, htoward]
    simp only [hdown, if_true, Bool.false_eq_true, if_false, ite_self]
    split <;> omega
  rw [hmag]
  exact ⟨Nat.min_le_right _ _, (codeVal_mono f (Nat.min_le_left _ _)).trans hle⟩

/-- Where the mode always goes up, the magnitude is infinite or does not fall below the exact one. -/
theorem le_codeVal_roundMag {f : Fmt} (h : FloatFmt f) {mode : RMode} {n : Bool} (hup : ∀ o b, roundUp mode n o b = true) (haway : towardZero mode n = false)
    (m : Nat) (e : Int) (hfin : roundMag f mode n m e ≤ f.maxCode) : m * 2 ^ e ≤ codeVal f (roundMag f mode n m e) := by
  by_cases hm : m = 0
  · rw [hm, roundMag_zero]
    simp [codeVal, codeMant]
  rw [roundMag_eq h mode n hm, haway] at hfin ⊢
  simp only [hup, if_true, Bool.false_eq_true, if_false] at hfin ⊢
  split at hfin
  · omega
  · next hover =>
    rw [if_neg hover]
    split
    · next hexact =>
      rw [codeVal_floorCode f hm, ← quotAt_add_remAt m e (unitExp f m e), hexact, Nat.cast_zero, zero_mul, add_zero]
    · rw [codeVal_floorCode_succ f hm]
      exact (lt_quotAt_succ m e _).le

theorem dyadic_code (f : Fmt) (n : Bool) (c : Nat) : dyadic n (codeMant f c) (codeExp f c) = if n then -codeVal f c else codeVal f c := rfl

theorem roundTo_rdn_le {f : Fmt} (h : FloatFmt f) (n : Bool) (m : Nat) (e : Int) : XVal.le (roundTo f (.fin n m e) .rdn) (.fin n m e) = true := by
  rw [roundTo_fin h]
  cases n with
  | false =>
    obtain ⟨hfin, hle⟩ := codeVal_roundMag_le h (mode := .rdn) (n := false) (fun _ _ => rfl) rfl m e
    rw [if_pos hfin, le_fin_iff, dyadic_code]
    exact hle
  | true =>
    split
    · next hfin =>
      rw [le_fin_iff, dyadic_code]
      exact neg_le_neg (le_codeVal_roundMag h (fun _ _ => rfl) rfl m e hfin)
    · exact inf_le_fin _ _ _

theorem le_roundTo_rup {f : Fmt} (h : FloatFmt f) (n : Bool) (m : Nat) (e : Int) : XVal.le (.fin n m e) (roundTo f (.fin n m e) .rup) = true := by
  rw [roundTo_fin h]
  cases n with
  | false =>
    split
    · next hfin =>
      rw [le_fin_iff, dyadic_code]
      exact le_codeVal_roundMag h (fun _ _ => rfl) rfl m e hfin
    · exact fin_le_inf _ _ _
  | true =>
    obtain ⟨hfin, hle⟩ := codeVal_roundMag_le h (mode := .rup) (n := true) (fun _ _ => rfl) rfl m e
    rw [if_pos hfin, le_fin_iff, dyadic_code]
    exact neg_le_neg hle

theorem directedRoundingBrackets : DirectedRoundingBrackets := by
  simp only [DirectedRoundingBrackets, List.forall_mem_cons, List.not_mem_nil, false_implies, implies_true, and_true]
  exact ⟨fun n m e => ⟨roundTo_rdn_le floatFmt_fp32 n m e, le_roundTo_rup floatFmt_fp32 n m e⟩,
    fun n m e => ⟨roundTo_rdn_le floatFmt_fp16 n m e, le_roundTo_rup floatFmt_fp16 n m e⟩,
    fun n m e => ⟨roundTo_rdn_le floatFmt_bf16 n m e, le_roundTo_rup floatFmt_bf16 n m e⟩,
    fun n m e => ⟨roundTo_rdn_le floatFmt_acc40 n m e, le_roundTo_rup floatFmt_acc40 n m e⟩⟩

/-! ### Special operands (R87) -/

theorem add_nan_right (mode : RMode) (x : XVal) : XVal.add mode x .nan = .nan := by cases x <;> rfl

theorem mul_nan_right (x : XVal) : XVal.mul x .nan = .nan := by cases x <;> rfl

/-- An exact zero sum of operands of opposite sign has the sign that the mode gives it. -/
theorem add_opposite (mode : RMode) (n : Bool) (m : Nat) (e : Int) : XVal.add mode (.fin n m e) (.fin (!n) m e) = .fin (decide (mode = .rdn)) 0 0 := by
  rw [XVal.add]
  split
  · rw [if_neg (by cases n <;> decide)]
  · cases n <;> simp [alignFin]

theorem specialFloatResults : SpecialFloatResults := by
  refine ⟨fun mode x => ⟨rfl, add_nan_right mode x, rfl, mul_nan_right x⟩, fun mode n => ?_, fun n k e => ⟨rfl, rfl⟩, fun mode sat => rfl, fun mode n m e => ?_⟩
  · cases n <;> rfl
  · rw [add_opposite]
    cases mode <;> decide

/-- Settles O26: codes survive since a code's value is rounded at the code's own unit; the directed modes take the code below the magnitude, or the next above it. -/
theorem roundingAndSpecialFloats : Obligations.RoundingAndSpecialFloats := ⟨codesSurviveRounding, directedRoundingBrackets, specialFloatResults⟩

end Sys2Proof.Machine
end

section
/-! The ticket unit (R111, R344, R370-R377): turns, releases of phases, decisions tried again, and the append of staged records. -/

namespace Sys2Proof.Machine

open Sys2Proof Sys2Proof.Safety Sys2Proof.Claims

/-! ### Tickets and phases (R371-R373) -/

section
variable {s : State}

/-- Outside cohorts the group of a block is its grid. -/
theorem allLower_iff {bid : Nat} {b : Block} (hb : b = s.blockAt bid) (hcoh : (s.gridAt b.grid).cohLvl = 0) (p : Nat → Block → Bool) :
    allLower s bid p = true ↔ (lowerBlocks s b).length = b.idx ∧ ∀ q ∈ lowerBlocks s b, p q.1 q.2 = true := by
  subst hb
  simp only [allLower, ticketGroup, if_pos hcoh, Nat.zero_le, decide_true, Bool.and_true, Nat.sub_zero, Bool.and_eq_true, decide_eq_true_eq, List.all_eq_true]
  rfl

theorem grid_of_mem_lowerBlocks {b : Block} {q : Nat × Block} (h : q ∈ lowerBlocks s b) : q.2.grid = b.grid := by
  simp only [lowerBlocks, List.mem_filter, Bool.and_eq_true, decide_eq_true_eq] at h
  exact h.2.1

theorem blockAt_of_kGet {k : Nat} {v : Block} (h : kGet k s.blocks = some v) : s.blockAt k = v := by
  rw [State.blockAt, kGetD, h, Option.getD_some]

/-- While its grid has not failed, a block has ended when it has retired, or has no team left to run and is not to start again. -/
theorem blockEnded_iff {k : Nat} {v : Block} (hk : kGet k s.blocks = some v) (hfail : (s.gridAt v.grid).failed = false) :
    blockEnded s k = true ↔ v.status = .retired ∨ (v.status ≠ .flushed ∧ liveTeams s k = []) := by
  simp [blockEnded, blockAt_of_kGet hk, blockOver, hfail]

/-- A lower block that is still to release a phase holds up what waits for it, while it runs in the phase or has yet to start again. -/
theorem not_released {k : Nat} {v : Block} (hk : kGet k s.blocks = some v) (hfail : (s.gridAt v.grid).failed = false) {n : Nat} (hrel : v.relPhase ≤ n)
    (hruns : v.relPhase ≤ v.phase ∨ (v.status ≠ .retired ∧ (v.status = .flushed ∨ liveTeams s k ≠ []))) :
    (decide (n < v.relPhase) || (blockEnded s k && decide (v.phase < v.relPhase))) = false := by
  rw [decide_eq_false (Nat.not_lt.mpr hrel), Bool.false_or, Bool.and_eq_false_iff, decide_eq_false_iff_not, Nat.not_lt]
  rcases hruns with hphase | ⟨hret, hlive⟩
  · exact .inr hphase
  · refine .inl (Bool.eq_false_iff.mpr fun hend => ?_)
    rcases (blockEnded_iff hk hfail).mp hend with h | ⟨hfl, hnone⟩
    · exact hret h
    · exact hlive.elim hfl (fun h => h hnone)

theorem ticketsGranted : TicketsGranted := by
  intro s b hb hdet hcoh hfail
  rw [exec_ticketGrant, execTicketGrant, ← hb, hdet, Bool.true_and]
  refine ⟨fun hlen hall => ?_, fun hlen => ?_, fun q hq hk hrel hruns => ?_⟩
  · refine if_pos ((allLower_iff hb hcoh _).mpr ⟨hlen, fun q hq => ?_⟩)
    obtain ⟨hk, hatom, hphase⟩ := hall q hq
    have hend := blockEnded_iff hk (by rw [grid_of_mem_lowerBlocks hq, hfail])
    simp only [hatom, Bool.not_false, Bool.and_true, Bool.or_eq_true, Bool.and_eq_true, decide_eq_true_eq, hend]
    tauto
  · refine if_neg fun h => ?_
    have := ((allLower_iff hb hcoh _).mp h).1
    omega
  · refine if_neg fun h => ?_
    have hp := ((allLower_iff hb hcoh _).mp h).2 q hq
    rw [not_released hk (by rw [grid_of_mem_lowerBlocks hq, hfail]) hrel hruns] at hp
    cases hp

theorem execTicketPhaseRelease_held (h : phaseReleasable s s.ev.x = false) : execTicketPhaseRelease s = .next s := by
  simp [execTicketPhaseRelease, h]

theorem phasesReleased : PhasesReleased := by
  intro s b hb hdet hcoh hphase
  have hiff (hpend : blockPending s s.ev.x b.relPhase = false) : phaseReleasable s s.ev.x =
      allLower s s.ev.x (fun k v => b.relPhase < v.relPhase || (blockEnded s k && v.phase < v.relPhase)) := by
    simp [phaseReleasable, ← hb, hdet, hpend, hphase, hphase.le]
  have hheld (h : allLower s s.ev.x (fun k v => b.relPhase < v.relPhase || (blockEnded s k && v.phase < v.relPhase)) = false) :
      exec .ticketPhaseRelease s = .next s := by
    refine execTicketPhaseRelease_held ?_
    simp only [phaseReleasable, ← hb, h, Bool.and_false]
  refine ⟨fun q u hlen hall hpend hstaged happ => ?_, fun hpend => ?_, fun hlen => ?_, fun v hv hk hrel hret hlive hfail => ?_⟩
  · have hready : phaseReleasable s s.ev.x = true := by
      rw [hiff hpend, allLower_iff hb hcoh]
      exact ⟨hlen, fun v hv => by simp [hall v hv]⟩
    refine ⟨u.modBlock s.ev.x (fun k => { k with staged := k.staged.filter (fun w => b.relPhase < w.phase), relPhase := b.relPhase + 1 }), ?_, rfl,
      fun k hk => State.blockAt_setBlock_other _ _ _ _ hk, State.blockAt_setBlock_same _ _ _⟩
    simp only [exec_ticketPhaseRelease, execTicketPhaseRelease, hready, ← hb, hstaged, Option.bind_some, happ]
    rfl
  · exact execTicketPhaseRelease_held (by simp [phaseReleasable, ← hb, hpend])
  · refine hheld (Bool.eq_false_iff.mpr fun h => ?_)
    have := ((allLower_iff hb hcoh _).mp h).1
    omega
  · refine hheld (Bool.eq_false_iff.mpr fun h => ?_)
    have hp := ((allLower_iff hb hcoh _).mp h).2 v hv
    rw [not_released hk (by rw [grid_of_mem_lowerBlocks hv, hfail]) hrel (.inr ⟨hret, hlive⟩)] at hp
    cases hp

end

/-! ### A replay's decisions (R377) -/

theorem replayTriesAgain : ReplayTriesAgain := by
  intro s u hu
  rw [exec_replayDecision, execReplayDecision, ← hu]
  refine ⟨fun hwait => ?_, fun hwait hq => ?_⟩
  · rw [if_pos hwait, wake, State.modTeam, ← hu]
    rfl
  · rw [if_neg hwait, heldDecision, hq]
    rfl

/-! ### What an append at its home leaves alone -/

/-- Two states that differ in memory and in what the dies hold of lines alone. -/
structure HomeKeeps (s w : State) : Prop where
  rest : ∃ m ds, w = { s with mem := m, dies := ds }
  rafs : ∀ d, (w.dieAt d).rafs = (s.dieAt d).rafs

theorem HomeKeeps.refl (s : State) : HomeKeeps s s := ⟨⟨s.mem, s.dies, rfl⟩, fun _ => rfl⟩

section
variable {s w : State} (h : HomeKeeps s w)
include h

theorem HomeKeeps.pages_eq : w.pages = s.pages := by
  obtain ⟨⟨m, ds, rfl⟩, -⟩ := h
  rfl

theorem HomeKeeps.gridAt_eq (k : Nat) : w.gridAt k = s.gridAt k := by
  obtain ⟨⟨m, ds, rfl⟩, -⟩ := h
  rfl

theorem HomeKeeps.regionOf_eq (die asid va : Nat) : regionOf w die asid va = regionOf s die asid va := by
  rw [regionOf, regionOf, h.rafs]

theorem HomeKeeps.memWrite (pa : Nat) (bs : List Byte) : HomeKeeps s (memWrite w pa bs) := by
  obtain ⟨⟨m, ds, rfl⟩, hr⟩ := h
  exact ⟨⟨_, _, rfl⟩, hr⟩

theorem HomeKeeps.modDie (k : Nat) {f : Die → Die} (hf : ∀ x, (f x).rafs = x.rafs) : HomeKeeps s (w.modDie k f) := by
  refine ⟨?_, fun d => ?_⟩
  · obtain ⟨⟨m, ds, rfl⟩, -⟩ := h
    exact ⟨m, _, rfl⟩
  · by_cases hd : d = k
    · rw [hd, State.modDie, State.dieAt_setDie_same, hf, h.rafs]
    · rw [State.modDie, State.dieAt_setDie_other _ _ _ _ hd, h.rafs]

theorem HomeKeeps.setDir (k line : Nat) (e : Dir) : HomeKeeps s (setDir w k line e) := h.modDie k fun _ => rfl

theorem HomeKeeps.homePut (k line : Nat) (d : Line) : HomeKeeps s (homePut w k line d) := by
  rw [Machine.homePut]
  split
  · exact h.modDie k fun _ => rfl
  · exact h.memWrite _ _

theorem HomeKeeps.recallLine (k line : Nat) : HomeKeeps s (recallLine w k line) := by
  have hdrop := foldl_keeps (P := HomeKeeps s) (g := fun s k => s.modDie k (fun x => { x with l2 := kDel line x.l2, wbuf := kDel line x.wbuf }))
    (fun _ k h => h.modDie k fun _ => rfl) (List.range Config.dies) h
  rw [Machine.recallLine]
  refine HomeKeeps.setDir ?_ _ _ _
  split
  · exact hdrop.homePut _ _ _
  · exact hdrop

theorem HomeKeeps.evictMsc (k line : Nat) : HomeKeeps s (evictMsc w k line) := by
  have hrecall := h.recallLine k line
  rw [Machine.evictMsc]
  dsimp only
  split
  · exact hrecall
  · refine HomeKeeps.modDie ?_ k fun _ => rfl
    split
    · exact hrecall.memWrite _ _
    · exact hrecall

theorem HomeKeeps.homeWrite (k line : Nat) (d : Line) : HomeKeeps s (homeWrite w k line d) := by
  rw [Machine.homeWrite]
  split
  · refine HomeKeeps.modDie ?_ k fun _ => rfl
    rw [mscRoom]
    split
    · exact h
    · split
      · exact h
      · exact h.evictMsc _ _
  · exact h.memWrite _ _

theorem HomeKeeps.appendPiece (line : Nat) (m : ByteMask) (d : Line) : Yields (HomeKeeps s) (appendPiece w line m d) := by
  rw [Machine.appendPiece]
  split
  · exact .some h
  · split
    · exact .none
    · exact .some (((h.recallLine _ _).homeWrite _ _ _).setDir _ _ _)

end

theorem appendWrite_homeKeeps {s w : State} {pa : Nat} {bs : List Byte} (h : appendWrite s pa bs = some w) : HomeKeeps s w :=
  Yields.foldl (P := HomeKeeps s) (fun _ _ h => h.appendPiece _ _ _) _ (.some (.refl s)) w h

/-! ### A page without requests is sealed (R188, R361) -/

/-- No request waits for a line of a set. -/
def NoneWaits (s : State) (lines : Nat → Bool) : Prop := ∀ q ∈ s.dies, ∀ l ∈ q.2.dir, lines l.1 = true → l.2.waiting = []

theorem mapWindows_dies (s : State) (c : Nat) (g : Window → Window) : (mapWindows s c g).dies = s.dies := by
  obtain ⟨bs, h, -⟩ := mapWindows_eq s c g
  rw [h]

theorem mapWindows_pages (s : State) (c : Nat) (g : Window → Window) : (mapWindows s c g).pages = s.pages := by
  obtain ⟨bs, h, -⟩ := mapWindows_eq s c g
  rw [h]

theorem recallSealed_pages (s : State) (die : Nat) (lines : Nat → Bool) : (recallSealed s die lines).pages = s.pages := by
  rw [recallSealed]
  refine foldl_keeps (P := fun u : State => u.pages = s.pages) (fun u q h => ?_) _ rfl
  exact (mapWindows_pages _ _ _).trans h

theorem recallSealed_dies (s : State) (die : Nat) (lines : Nat → Bool) :
    (recallSealed s die lines).dies = kPut die { s.dieAt die with l2 := (s.dieAt die).l2.filter (fun p => !lines p.1) } s.dies := by
  rw [recallSealed]
  refine foldl_keeps (P := fun u : State => u.dies = kPut die { s.dieAt die with l2 := (s.dieAt die).l2.filter (fun p => !lines p.1) } s.dies)
    (fun u q h => ?_) _ rfl
  exact (mapWindows_dies _ _ _).trans h

/-- A die's directory is one of those listed, or empty. -/
theorem NoneWaits.dieAt {s : State} {lines : Nat → Bool} (h : NoneWaits s lines) (k : Nat) : ∀ l ∈ (s.dieAt k).dir, lines l.1 = true → l.2.waiting = [] := by
  intro l hl
  cases hk : kGet k s.dies with
  | none =>
    rw [State.dieAt, kGetD, hk, Option.getD_none] at hl
    cases hl
  | some v =>
    rw [State.dieAt, kGetD, hk, Option.getD_some] at hl
    exact h _ (mem_of_kGet hk) l hl

theorem NoneWaits.recallSealed {s : State} {lines : Nat → Bool} (h : NoneWaits s lines) (k : Nat) (gone : Nat → Bool) : NoneWaits (recallSealed s k gone) lines := by
  intro q hq
  rw [recallSealed_dies] at hq
  rcases mem_kPut hq with rfl | hq
  · exact h.dieAt k
  · exact h q hq

theorem foldl_eq_self {α β : Type} {g : α → β → α} {l : List β} {a : α} (h : ∀ b ∈ l, g a b = a) : l.foldl g a = a := by
  induction l with
  | nil => rfl
  | cons b r ih => rw [List.foldl_cons, h b List.mem_cons_self, ih fun c hc => h c (List.mem_cons_of_mem _ hc)]

/-- The page's lines. -/
def inPage (p size l : Nat) : Bool := decide (p ≤ 64 * l) && decide (64 * l < p + size)

theorem noneWaits_inPage {s : State} {p size : Nat}
    (h : ∀ q ∈ s.dies, ∀ l ∈ q.2.dir, p ≤ 64 * l.1 → 64 * l.1 < p + size → l.2.waiting = []) : NoneWaits s (inPage p size) := by
  intro q hq l hl hin
  simp only [inPage, Bool.and_eq_true, decide_eq_true_eq] at hin
  exact h q hq l hl hin.1 hin.2

/-- Every die's copies of a page are gone. -/
@[irreducible] def recallPage (s : State) (p size : Nat) : State := (List.range Config.dies).foldl (fun u d => recallSealed u d (inPage p size)) s

theorem recallPage_noneWaits {s : State} {p size : Nat} (h : NoneWaits s (inPage p size)) :
    (recallPage s p size).mem = s.mem ∧ (recallPage s p size).pages = s.pages ∧ NoneWaits (recallPage s p size) (inPage p size) := by
  rw [recallPage]
  exact foldl_keeps (P := fun u : State => u.mem = s.mem ∧ u.pages = s.pages ∧ NoneWaits u (inPage p size))
    (fun _ d ⟨hm, hp, hn⟩ => ⟨(recallSealed_mem _ _ _).trans hm, (recallSealed_pages _ _ _).trans hp, hn.recallSealed d _⟩) _ ⟨rfl, rfl, h⟩

/-- A die whose entries of a page's lines are cleared, but for the requests that wait. -/
def clearDir (p size : Nat) (d : Die) : Die :=
  { d with dir := d.dir.map (fun e => if inPage p size e.1 then (e.1, { Dir.reset with waiting := e.2.waiting }) else e) }

/-- The state that `sealNow` comes to before it serves the requests that waited. -/
def sealCleared (s : State) (p : Nat) (g : APage) : State :=
  setPageRec { recallPage s p g.size with dies := (recallPage s p g.size).dies.map (fun q => (q.1, clearDir p g.size q.2)) } p { g with st := .sealed, recalled := [] }

theorem sealNow_eq (s : State) (p : Nat) (g : APage) :
    sealNow s p g = (sealCleared s p g).dies.foldl (fun s d => (d.2.dir.filter (fun e => inPage p g.size e.1 && decide (e.2.waiting ≠ []))).foldl
      (fun s e => serveLine d.1 e.1 e.2.waiting.length s) s) (sealCleared s p g) := by
  rw [sealNow, sealCleared, recallPage]
  rfl

theorem sealCleared_noneWaits {s : State} {p : Nat} {g : APage} (h : NoneWaits s (inPage p g.size)) : NoneWaits (sealCleared s p g) (inPage p g.size) := by
  intro q hq l hl hin
  obtain ⟨d, hd, rfl⟩ := List.mem_map.mp hq
  obtain ⟨c, hc, rfl⟩ := List.mem_map.mp hl
  obtain ⟨-, -, hnone⟩ := recallPage_noneWaits h
  have hwait := hnone d hd c hc
  by_cases hline : inPage p g.size c.1 = true
  · rw [if_pos hline]
    exact hwait hline
  · rw [if_neg hline] at hin
    exact absurd hin hline

/-- Where no request waits for its lines, the seal of a page leaves memory and the other pages alone. -/
theorem sealNow_noneWaits {s : State} {p : Nat} {g : APage} (h : NoneWaits s (inPage p g.size)) :
    (sealNow s p g).mem = s.mem ∧ (sealNow s p g).pages = kPut p { g with st := .sealed, recalled := [] } s.pages := by
  obtain ⟨hmem, hpages, -⟩ := recallPage_noneWaits h
  have hnone := sealCleared_noneWaits h
  rw [sealNow_eq, foldl_eq_self]
  · exact ⟨hmem, congrArg (kPut p _) hpages⟩
  · intro q hq
    rw [List.filter_eq_nil_iff.mpr, List.foldl_nil]
    intro l hl
    simp only [Bool.and_eq_true, decide_eq_true_eq, not_and, not_not]
    exact hnone q hq l hl

/-! ### Records appended to a table (R327, R344) -/

section
variable {xl : State → Nat → EngX} {die size k : Nat} {d : FnDesc} {r : FnRec} {s : State}

/-- A page of a table that takes no record: it can be read, but is not open. -/
def PassedPage (xl : State → Nat → EngX) (size : Nat) (d : FnDesc) (s : State) (i : Nat) : Prop :=
  ∃ p g, xl s (d.tbase + i * size) = .ok s p ∧ pageGone s p.ppage size = false ∧ kGet p.ppage s.pages = some g ∧ g.st ≠ .opened

theorem pageRec_of_kGet {p : Nat} {g : APage} (h : kGet p s.pages = some g) (size : Nat) : pageRec s p size = g := by
  rw [pageRec, kGetD, h, Option.getD_some]

theorem tableAppend_passed {page : Nat} (hin : page < d.tpages) (h : PassedPage xl size d s page) (n : Nat) :
    tableAppend none xl die size k d r (n + 1) s page = tableAppend none xl die size k d r n s (page + 1) := by
  obtain ⟨p, g, hx, hgone, hg, hst⟩ := h
  simp [tableAppend, Nat.not_le.mpr hin, hx, hgone, pageRec_of_kGet hg, hst]

theorem tableAppend_open {page at0 : Nat} {e : TlbEntry} {g : APage} (hin : page < d.tpages) (hx : xl s (d.tbase + page * size) = .ok s e)
    (hgone : pageGone s e.ppage size = false) (hg : kGet e.ppage s.pages = some g) (hst : g.st = .opened) (hat : at0 = (g.tail + 127) / 128 * 128)
    (hfits : at0 + 128 ≤ size) (n : Nat) :
    tableAppend none xl die size k d r (n + 1) s page =
      (appendWrite (setPageRec s e.ppage { g with tail := at0 + 128 }) (e.ppage + at0) (recBytes k { r with serial := (page * size + at0) / 128 + 1 })).map
        (fun s => (s, page, some ((page * size + at0) / 128 + 1))) := by
  subst hat
  simp [tableAppend, Nat.not_le.mpr hin, hx, hgone, pageRec_of_kGet hg, hst, Nat.not_lt.mpr hfits]

/-- A record goes to the first page that is open. -/
theorem tableAppend_first {page n at0 : Nat} {e : TlbEntry} {g : APage} (hle : page ≤ n) (hpassed : ∀ i, page ≤ i → i < n → PassedPage xl size d s i)
    (hin : n < d.tpages) (hx : xl s (d.tbase + n * size) = .ok s e) (hgone : pageGone s e.ppage size = false) (hg : kGet e.ppage s.pages = some g)
    (hst : g.st = .opened) (hat : at0 = (g.tail + 127) / 128 * 128) (hfits : at0 + 128 ≤ size) {fuel : Nat} (hfuel : n < page + fuel) :
    tableAppend none xl die size k d r fuel s page =
      (appendWrite (setPageRec s e.ppage { g with tail := at0 + 128 }) (e.ppage + at0) (recBytes k { r with serial := (n * size + at0) / 128 + 1 })).map
        (fun s => (s, n, some ((n * size + at0) / 128 + 1))) := by
  induction fuel generalizing page with
  | zero => omega
  | succ fuel ih =>
    rcases Nat.eq_or_lt_of_le hle with rfl | hlt
    · exact tableAppend_open hin hx hgone hg hst hat hfits fuel
    · rw [tableAppend_passed (by omega) (hpassed page le_rfl hlt), ih hlt (fun i hi => hpassed i (by omega)) (by omega)]

end

/-- The serial of the record that a staged one supersedes: its own, or that of the record staged before it in the same `fret`. -/
def supersededSerial (a : AppendSt) (r : StagedRec) : Nat :=
  match r.superStaged with
  | some i => (((a.serials.filter (fun q => q.1 = r.block && q.2.1 = r.team && q.2.2.1 = r.seq && q.2.2.2.1 = r.slot))[i]?).bind (fun q => q.2.2.2.2)).getD 0
  | none => r.frec.super

/-- What one append hands on: the state, the slot's page, the serial given, and the frame that was written. -/
def noteAppend (die asid size : Nat) (d : FnDesc) (a : AppendSt) (r : StagedRec) (q : State × Nat × Option Nat) : AppendSt :=
  let pa := match q.2.2 with
    | none => none
    | some _ => match cpXlat q.1 die asid (d.tbase + q.2.1 * size) accW with
      | .ok _ e => some e.ppage
      | _ => none
  { s := q.1, pages := kPut r.slot q.2.1 a.pages, serials := a.serials ++ [(r.block, r.team, r.seq, r.slot, q.2.2)],
    frames := match pa with
      | some p => if a.frames.contains (p, size) then a.frames else a.frames ++ [(p, size)]
      | none => a.frames }

theorem appendStaged_eq {gid die size : Nat} {a : AppendSt} {r : StagedRec} {d : FnDesc} {g : Grid} (hgrid : a.s.gridAt gid = g)
    (hdesc : g.descs[r.slot]? = some d) (hsize : pageSize (regionOf a.s die g.asid d.tbase) = size) :
    appendStaged gid die a r =
      (tableAppend none (fun s va => cpXlat s die g.asid va accW) die size r.slot d { r.frec with super := supersededSerial a r } (d.tpages + 1) a.s
        (kGetD r.slot 0 a.pages)).map (noteAppend die g.asid size d a r) := by
  rw [appendStaged, hgrid, hdesc]
  subst hsize
  rfl

/-- A staged record is appended to the first page of its slot's table that is open. -/
theorem appendStaged_first {gid die n at0 size : Nat} {a : AppendSt} {r : StagedRec} {d : FnDesc} {g : Grid} {w : State} {e e1 : TlbEntry} {page : APage}
    (hgrid : a.s.gridAt gid = g) (hdesc : g.descs[r.slot]? = some d) (hsize : pageSize (regionOf a.s die g.asid d.tbase) = size)
    (hle : kGetD r.slot 0 a.pages ≤ n) (hpassed : ∀ i, kGetD r.slot 0 a.pages ≤ i → i < n → PassedPage (fun s va => cpXlat s die g.asid va accW) size d a.s i)
    (hin : n < d.tpages) (hx : cpXlat a.s die g.asid (d.tbase + n * size) accW = .ok a.s e) (hgone : pageGone a.s e.ppage size = false)
    (hpage : kGet e.ppage a.s.pages = some page) (hst : page.st = .opened) (hat : at0 = (page.tail + 127) / 128 * 128) (hfits : at0 + 128 ≤ size)
    (hw : appendWrite (setPageRec a.s e.ppage { page with tail := at0 + 128 }) (e.ppage + at0)
      (recBytes r.slot { r.frec with super := supersededSerial a r, serial := (n * size + at0) / 128 + 1 }) = some w)
    (hx1 : cpXlat w die g.asid (d.tbase + n * size) accW = .ok w e1) :
    appendStaged gid die a r = some {
      s := w
      pages := kPut r.slot n a.pages
      serials := a.serials ++ [(r.block, r.team, r.seq, r.slot, some ((n * size + at0) / 128 + 1))]
      frames := if a.frames.contains (e1.ppage, size) then a.frames else a.frames ++ [(e1.ppage, size)] } := by
  have happ : tableAppend none (fun s va => cpXlat s die g.asid va accW) die size r.slot d { r.frec with super := supersededSerial a r } (d.tpages + 1) a.s
      (kGetD r.slot 0 a.pages) = some (w, n, some ((n * size + at0) / 128 + 1)) :=
    (tableAppend_first hle hpassed hin hx hgone hpage hst hat hfits (by omega)).trans (congrArg (Option.map _) hw)
  rw [appendStaged_eq hgrid hdesc hsize, happ, Option.map_some]
  simp only [noteAppend, hx1]

/-! ### STAGED_RECORD_APPEND (R344, R345, R373) -/

/-- A grid has wholly retired with staged records left, and every phase of a deterministic one has been released. -/
structure ReadyToAppend (s : State) (g : Grid) : Prop where
  grid : g = s.gridAt s.ev.x
  failed : g.failed = false
  ended : g.ended = false
  retired : g.blocks ≤ g.retired
  released : g.det = true → ∀ p ∈ s.blocks, p.2.grid = s.ev.x → p.2.phase < p.2.relPhase
  staged : g.staged ≠ []

/-- The appends made, the page that they went to is sealed, and nothing is staged any more. -/
theorem stagedRecordAppend_seals {s : State} {g : Grid} (h : ReadyToAppend s g) {l : List StagedRec} (hl : g.staged.foldl (fun l r => insertStaged r l) [] = l)
    {a : AppendSt} (ha : l.foldl (fun o r => o.bind (fun a => appendStaged s.ev.x g.tailDie a r)) (some { s := s, pages := [], serials := [], frames := [] }) = some a)
    {p size : Nat} {page : APage} (hframes : a.frames = [(p, size)]) (hpage : kGet p a.s.pages = some page) (hpend : page.pending = 0) (hsize : page.size = size)
    (hnone : NoneWaits a.s (inPage p size)) :
    ∃ t, exec .stagedRecordAppend s = .next t ∧ (t.gridAt s.ev.x).staged = [] ∧ sameMem a.s t ∧
      kGet p t.pages = some { page with st := .sealed, recalled := [] } := by
  subst hl hsize
  obtain ⟨hmem, hpages⟩ := sealNow_noneWaits (g := page) hnone
  have hheld : (g.det && s.blocks.any (fun q => q.2.grid = s.ev.x && q.2.relPhase ≤ q.2.phase)) = false := by
    rw [Bool.and_eq_false_iff, or_iff_not_imp_left, Bool.not_eq_false, List.any_eq_false]
    intro hdet q hq
    have := h.released hdet q hq
    simp only [Bool.and_eq_true, decide_eq_true_eq]
    omega
  refine ⟨(sealNow a.s p page).modGrid s.ev.x (fun g => { g with staged := [] }), ?_, ?_, fun b => ?_, ?_⟩
  · rw [exec_stagedRecordAppend, execStagedRecordAppend, ← h.grid]
    simp only [h.ended, h.failed, h.staged, hheld, Nat.not_lt.mpr h.retired, ha, hframes, pageRec_of_kGet hpage, hpend, List.any_cons, List.any_nil,
      List.foldl_cons, List.foldl_nil, decide_false, Bool.or_false, Bool.false_eq_true, if_false, ne_eq, not_true_eq_false]
  · rw [State.modGrid, State.gridAt_setGrid_same]
  · rw [State.modGrid, State.setGrid_mem, hmem]
  · rw [State.modGrid, State.setGrid_pages, hpages, kGet_kPut_same]

theorem stagedRecordsAppended : StagedRecordsAppended := by
  intro s w r d e e2 g hg hstaged hfail hend hret hdesc hpages hsuper hpage hgone hrel hfits hx hw hnone hx2 he2 hwpages
  generalize hsize : pageSize (regionOf s g.tailDie g.asid d.tbase) = size at *
  have hready : ReadyToAppend s g := ⟨hg, hfail, hend, hret, hrel, by rw [hstaged]; exact List.cons_ne_nil _ _⟩
  have happ := appendStaged_first (gid := s.ev.x) (die := g.tailDie) (n := 0) (at0 := 0) (size := size) (r := r) (w := w) (e := e) (e1 := e2)
    (a := { s := s, pages := [], serials := [], frames := [] }) hg.symm hdesc hsize le_rfl (fun i _ hi => absurd hi (Nat.not_lt_zero i)) hpages
    (by simpa using hx) hgone hpage rfl (by simp) (by omega) (by simpa [supersededSerial, hsuper] using hw) (by simpa using hx2)
  have hwpage : kGet e.ppage w.pages = some { size := size, tail := 128, st := .opened, pending := 0, recalled := [] } := by rw [hwpages, kGet_kPut_same]
  exact stagedRecordAppend_seals hready (l := [r]) (by rw [hstaged]; rfl) happ (by simp [he2]) hwpage rfl rfl (noneWaits_inPage hnone)

/-! ### Two records in order (R327, R344) -/

/-- In whichever order they were staged, two records are taken in that of block, team and issue; those of one `fret` in the order staged. -/
theorem insertStaged_two {x y : StagedRec} {l : List StagedRec}
    (h : (stagedFirst x y ∧ (l = [x, y] ∨ l = [y, x])) ∨ (x.block = y.block ∧ x.team = y.team ∧ x.seq = y.seq ∧ l = [x, y])) :
    l.foldl (fun l r => insertStaged r l) [] = [x, y] := by
  have hxy : stagedBefore x y = true := by
    simp only [stagedBefore, Bool.or_eq_true, Bool.and_eq_true, decide_eq_true_eq]
    rcases h with ⟨h, -⟩ | ⟨hb, ht, hs, -⟩
    · rw [stagedFirst] at h
      omega
    · omega
  rcases h with ⟨hfirst, rfl | rfl⟩ | ⟨-, -, -, rfl⟩
  · simp [insertStaged, hxy]
  · have hyx : stagedBefore y x = false := by
      rw [stagedFirst] at hfirst
      simp only [stagedBefore, Bool.or_eq_false_iff, Bool.and_eq_false_iff, decide_eq_false_iff_not]
      omega
    simp [insertStaged, hyx]
  · simp [insertStaged, hxy]

theorem foldl_appendStaged_two {gid die : Nat} {a a1 a2 : AppendSt} {x y : StagedRec} (hx : appendStaged gid die a x = some a1)
    (hy : appendStaged gid die a1 y = some a2) : [x, y].foldl (fun o r => o.bind (fun a => appendStaged gid die a r)) (some a) = some a2 := by
  rw [List.foldl_cons, Option.bind_some, hx, List.foldl_cons, Option.bind_some, hy, List.foldl_nil]

/-- The appends so far, once the first record stands in page n of slot k, in the frame p, under its serial. -/
def afterFirst (x : StagedRec) (w : State) (k n size p serial : Nat) : AppendSt :=
  { s := w, pages := [(k, n)], serials := [(x.block, x.team, x.seq, k, some serial)], frames := [(p, size)] }

theorem afterFirst_page (x : StagedRec) (w : State) (k n size p serial : Nat) : kGetD k 0 (afterFirst x w k n size p serial).pages = n := by
  simp [afterFirst, kGetD, kGet]

/-- The second record supersedes what its own says, or the first of the same `fret`. -/
theorem supersededSerial_afterFirst {x y : StagedRec} {w : State} {k n size p serial sup : Nat} (hk : y.slot = k)
    (h : (y.superStaged = none ∧ sup = y.frec.super) ∨ (y.superStaged = some 0 ∧ x.block = y.block ∧ x.team = y.team ∧ x.seq = y.seq ∧ sup = serial)) :
    supersededSerial (afterFirst x w k n size p serial) y = sup := by
  rcases h with ⟨hnone, rfl⟩ | ⟨hzero, hb, ht, hs, rfl⟩
  · simp [supersededSerial, hnone]
  · simp [supersededSerial, afterFirst, hzero, hb, ht, hs, hk]

theorem stagedRecordsInOrder : StagedRecordsInOrder := by
  intro s w1 w2 x y d g page e e1 e2 n size at0 k sup hg hfail hend hret hrel hstaged hxk hyk hdesc hsize hin hpassed hx hgone hpage hst hpend hpsize hat hfits
    hxsuper hysuper hw1 hx1 he1 hgone1 hw2 hx2 he2 hnone
  have hready : ReadyToAppend s g := ⟨hg, hfail, hend, hret, hrel, fun h0 => by simp [h0] at hstaged⟩
  have hkeep1 : HomeKeeps (setPageRec s e.ppage { page with tail := at0 + 128 }) w1 := appendWrite_homeKeeps hw1
  have hkeep2 : HomeKeeps (setPageRec w1 e.ppage { page with tail := at0 + 256 }) w2 := appendWrite_homeKeeps hw2
  have hpage1 : kGet e1.ppage w1.pages = some { page with tail := at0 + 128 } := by
    rw [he1, hkeep1.pages_eq]
    exact kGet_kPut_same _ _ _
  have hpage2 : kGet e.ppage w2.pages = some { page with tail := at0 + 256 } := by
    rw [hkeep2.pages_eq]
    exact kGet_kPut_same _ _ _
  have hfirst := appendStaged_first (gid := s.ev.x) (die := g.tailDie) (r := x) (w := w1) (a := { s := s, pages := [], serials := [], frames := [] })
    hg.symm (by rw [hxk]; exact hdesc) hsize.symm (Nat.zero_le n) (fun i _ hi => hpassed i hi) hin hx hgone hpage hst hat (by omega)
    (by simpa [supersededSerial, hxsuper, hxk] using hw1) hx1
  rw [hxk, he1] at hfirst
  have hsize1 : pageSize (regionOf w1 g.tailDie g.asid d.tbase) = size := by
    rw [hkeep1.regionOf_eq, hsize]
    rfl
  have hgrid1 : w1.gridAt s.ev.x = g := by
    rw [hkeep1.gridAt_eq, hg]
    rfl
  have hserial : (n * size + (at0 + 128)) / 128 + 1 = (n * size + at0) / 128 + 2 := by omega
  have hnext : kGetD y.slot 0 (afterFirst x w1 k n size e.ppage ((n * size + at0) / 128 + 1)).pages = n := by rw [hyk, afterFirst_page]
  have hsecond := appendStaged_first (gid := s.ev.x) (die := g.tailDie) (at0 := at0 + 128) (r := y) (w := w2) (e := e1)
    (a := afterFirst x w1 k n size e.ppage ((n * size + at0) / 128 + 1)) hgrid1 (by rw [hyk]; exact hdesc) hsize1 hnext.le
    (fun i hi hlt => absurd hlt (by omega)) hin hx1 (by rw [he1]; exact hgone1) hpage1 hst (by simp only; omega) (by omega)
    (by rw [supersededSerial_afterFirst hyk hysuper, hserial, he1, hyk, ← Nat.add_assoc]; exact hw2) hx2
  exact stagedRecordAppend_seals hready (insertStaged_two hstaged) (foldl_appendStaged_two hfirst hsecond) (by simp [afterFirst, he2]) hpage2 hpend hpsize (noneWaits_inPage hnone)

/-- Settles O50: tickets and phases by `allLower_iff`, the decisions of a replay by `wake`; a staged record goes to the first open page (`appendStaged_first`), a second
one behind it since the first append leaves the tables alone (`HomeKeeps`), and the seal serves no request where none waits (`sealNow_noneWaits`). -/
theorem deterministicOrder : Obligations.DeterministicOrder :=
  ⟨ticketsGranted, phasesReleased, replayTriesAgain, stagedRecordsAppended, stagedRecordsInOrder⟩

end Sys2Proof.Machine
end

section
/-! Branches and calls (R115, R117, R118, R133). -/

namespace Sys2Proof.Machine

open Sys2Proof Sys2Proof.Safety Sys2Proof.Claims

/-! ### How an instruction of class X ends -/

section
variable (s : State) (u : Team)

/-- An instruction that goes on leaves the team as it made it, but for its place. -/
theorem finish_placed (x : Fields) (hp : u.pc = s.team.pc) (hr : u.rep = s.team.rep) (hi : u.inRep = s.team.inRep) (hc : u.clause = s.team.clause) :
    ∃ t, finish s u x = .next t ∧ OnlyTeam s t ∧ wentOn s.team t.team (lenOf x) ∧ placed s.team t.team = placed s.team u := by
  obtain ⟨t, ht, honly, hon, p, c, r, q, k, d, y, z, hteam⟩ := finish_spec s u x hp hr hi hc
  exact ⟨t, ht, honly, hon, by rw [hteam]; rfl⟩

/-- One that transfers control leaves it before the header at the target. -/
theorem transfer_placed (target : DWord) :
    ∃ t, transfer s u target = .next t ∧ OnlyTeam s t ∧ jumpedTo t.team target ∧ placed s.team t.team = placed s.team u := by
  obtain ⟨t, ht, honly, hteam⟩ := transfer_spec s u target
  exact ⟨t, ht, honly, by rw [hteam]; exact ⟨rfl, rfl, rfl, rfl⟩, by rw [hteam]; rfl⟩

end

/-- An instruction without an effect goes on. -/
theorem finish_unchanged (s : State) (x : Fields) :
    ∃ t, finish s s.team x = .next t ∧ OnlyTeam s t ∧ placed s.team t.team = s.team ∧ wentOn s.team t.team (lenOf x) := by
  obtain ⟨t, ht, honly, hon, hplaced⟩ := finish_placed s s.team x rfl rfl rfl rfl
  exact ⟨t, ht, honly, hplaced, hon⟩

/-- A branch changes the place alone. -/
theorem transfer_unchanged (s : State) (target : DWord) :
    ∃ t, transfer s s.team target = .next t ∧ OnlyTeam s t ∧ placed s.team t.team = s.team ∧ jumpedTo t.team target := by
  obtain ⟨t, ht, honly, hto, hplaced⟩ := transfer_placed s s.team target
  exact ⟨t, ht, honly, hplaced, hto⟩

/-! ### Label branches (R115, R117) -/

theorem laneSet_ne_zero_iff (m : LaneSet) : m ≠ 0 ↔ ∃ l, l < 1024 ∧ m.getLsbD l = true := by
  refine ⟨fun h => ?_, fun ⟨l, _, hl⟩ h0 => by simp [h0] at hl⟩
  by_contra hn
  exact h (BitVec.eq_of_getLsbD_eq fun l hl => by simpa using fun h => hn ⟨l, hl, h⟩)

/-- A set without the lanes of another is empty exactly when the other holds all of it. -/
theorem and_not_eq_zero_iff (m p : LaneSet) : m &&& ~~~p = 0 ↔ ∀ l, m.getLsbD l = true → p.getLsbD l = true := by
  refine ⟨fun h l hl => ?_, fun h => BitVec.eq_of_getLsbD_eq fun l hlt => ?_⟩
  · have hbit := congrArg (·.getLsbD l) h
    simpa [hl, BitVec.lt_of_getLsbD hl] using hbit
  · have hin := h l
    rw [BitVec.getLsbD_and, BitVec.getLsbD_not]
    cases hm : m.getLsbD l <;> simp_all

/-- Two sets share no lane. -/
theorem and_eq_zero_iff (m p : LaneSet) : m &&& p = 0 ↔ ∀ l, m.getLsbD l = true → p.getLsbD l = false := by
  refine ⟨fun h l hl => ?_, fun h => BitVec.eq_of_getLsbD_eq fun l _ => ?_⟩
  · have hbit := congrArg (·.getLsbD l) h
    simpa [hl] using hbit
  · have hin := h l
    rw [BitVec.getLsbD_and]
    cases hm : m.getLsbD l <;> simp_all

/-- A label branch transfers control under its condition, and else goes on. -/
theorem branchOp_spec {i : Instr} {s : State} {form : Form} {f : Fields} {taken : Team → Fields → Bool} {P : Prop} (he : encOf i = some (form, f))
    (hr : reaches s i = true) (hP : taken s.team f = true ↔ P) :
    ∃ t, branchOp i s taken = .next t ∧ OnlyTeam s t ∧ placed s.team t.team = s.team ∧
      (P → jumpedTo t.team (selfPc s.team + (immOf f).signExtend 64)) ∧ (¬P → wentOn s.team t.team (lenOf f)) := by
  rw [branchOp, issue_reaches _ he hr]
  by_cases hp : P
  · obtain ⟨t, ht, honly, hplaced, hto⟩ := transfer_unchanged s (labelOf s.team f)
    exact ⟨t, by rw [if_pos (hP.2 hp), ht], honly, hplaced, fun _ => hto, fun h => absurd hp h⟩
  · obtain ⟨t, ht, honly, hplaced, hon⟩ := finish_unchanged s f
    exact ⟨t, by rw [if_neg (mt hP.1 hp), ht], honly, hplaced, fun h => absurd h hp, fun _ => hon⟩

theorem labelBranches : LabelBranches := by
  intro row hrow f s hr
  simp only [branchRows, List.mem_cons, List.not_mem_nil, or_false] at hrow
  obtain rfl | rfl | rfl | rfl := hrow <;> dsimp only at hr ⊢
  · rw [exec_bra, execBra]
    exact branchOp_spec rfl hr (bne_iff_ne.trans (laneSet_ne_zero_iff _))
  · rw [exec_braAny, execBraAny]
    refine branchOp_spec rfl hr ((bne_iff_ne.trans (laneSet_ne_zero_iff _)).trans ?_)
    simp only [BitVec.getLsbD_and, Bool.and_eq_true]
  · rw [exec_braAll, execBraAll]
    refine branchOp_spec rfl hr ?_
    rw [Bool.and_eq_true, bne_iff_ne, beq_iff_eq, laneSet_ne_zero_iff]
    exact and_congr_right' (and_not_eq_zero_iff _ _)
  · rw [exec_braNone, execBraNone]
    refine branchOp_spec rfl hr ?_
    rw [Bool.and_eq_true, bne_iff_ne, beq_iff_eq, laneSet_ne_zero_iff]
    exact and_congr_right' (and_eq_zero_iff _ _)

/-! ### Register branches, calls and returns (R117, R118) -/

theorem lowBits_ne_zero_iff (v : DWord) : (v.extractLsb' 0 2 != 0) = true ↔ v.toNat % 4 ≠ 0 := by
  rw [bne_iff_ne, ne_eq, ← BitVec.toNat_inj]
  simp

/-- Below 32 entries there is room for one more. -/
theorem withPush_room {s : State} {t : Team} (h : t.stack.length < 32) (e : Entry) (k : Team → Out) : withPush s t e k = k { t with stack := e :: t.stack } :=
  if_neg (Nat.not_le.2 h)

/-- With room on the mask stack, a call goes to its target and leaves its entry there. -/
theorem call_spec {s : State} (f : Fields) (target : DWord) (h : s.team.stack.length < 32) :
    ∃ t, withPush s s.team (callEntry s.team f) (fun u => transfer s u target) = .next t ∧ OnlyTeam s t ∧
      { placed s.team t.team with stack := s.team.stack } = s.team ∧ jumpedTo t.team target ∧
      t.team.stack = { kind := .callK, save := s.team.mask, pend := 0, addr := s.team.pc + BitVec.ofNat 64 (lenOf f) } :: s.team.stack := by
  rw [withPush_room h]
  obtain ⟨t, ht, honly, hto, hplaced⟩ := transfer_placed s { s.team with stack := callEntry s.team f :: s.team.stack } target
  exact ⟨t, ht, honly, by rw [hplaced]; rfl, hto, congrArg Team.stack hplaced⟩

section
variable {f : Fields} {s : State}

theorem execBrx_reaches (hr : reaches s (.brx f) = true) : exec (.brx f) s =
    if s.team.mask = 0 then finish s s.team f
    else if (srcS64 s.team f.a.toNat 0).extractLsb' 0 2 != 0 then trapAll s (badTarget (srcS64 s.team f.a.toNat 0))
    else transfer s s.team (srcS64 s.team f.a.toNat 0) := by
  rw [exec_brx, execBrx, issue_reaches _ rfl hr]

theorem execCall_reaches (hr : reaches s (.call f) = true) : exec (.call f) s =
    if s.team.mask = 0 then finish s s.team f
    else withPush s s.team (callEntry s.team f) (fun u => transfer s u (labelOf s.team f)) := by
  rw [exec_call, execCall, issue_reaches _ rfl hr]

theorem execCallx_reaches (hr : reaches s (.callx f) = true) : exec (.callx f) s =
    if s.team.mask = 0 then finish s s.team f
    else if (srcS64 s.team f.a.toNat 0).extractLsb' 0 2 != 0 then trapAll s (badTarget (srcS64 s.team f.a.toNat 0))
    else withPush s s.team (callEntry s.team f) (fun u => transfer s u (srcS64 s.team f.a.toNat 0)) := by
  rw [exec_callx, execCallx, issue_reaches _ rfl hr]

theorem execRet_reaches (hr : reaches s .ret = true) : exec .ret s = match s.team.stack with
    | e :: r => if e.kind = .callK then transfer s { s.team with mask := e.save &&& s.team.live, stack := r } e.addr else stackTrap s s.team
    | [] => stackTrap s s.team := by
  rw [exec_ret]
  exact issue_reaches _ rfl hr

/-- A return takes the CALL entry off and resumes its mask. -/
theorem execRet_callK {e : Entry} {r : List Entry} (hr : reaches s .ret = true) (hst : s.team.stack = e :: r) (hk : e.kind = .callK) :
    ∃ t, exec .ret s = .next t ∧ OnlyTeam s t ∧ { placed s.team t.team with stack := s.team.stack, mask := s.team.mask } = s.team ∧ jumpedTo t.team e.addr ∧
      t.team.stack = r ∧ t.team.mask = e.save &&& s.team.live := by
  simp only [execRet_reaches hr, hst, if_pos hk]
  obtain ⟨t, ht, honly, hto, hplaced⟩ := transfer_placed s { s.team with mask := e.save &&& s.team.live, stack := r } e.addr
  exact ⟨t, ht, honly, by rw [← hst, hplaced]; rfl, hto, congrArg Team.stack hplaced, congrArg Team.mask hplaced⟩

end

theorem registerBranchesAndCalls : RegisterBranchesAndCalls := by
  intro f s
  have hodd := lowBits_ne_zero_iff (srcS64 s.team f.a.toNat 0)
  refine ⟨fun hr => ?_, fun i hi hr h0 => ?_, fun hr hm hbad => ?_, fun hr hm hroom => ?_, fun hr hm hroom hok => ?_, fun e r => execRet_callK⟩
  · rw [execBrx_reaches hr]
    refine ⟨fun h0 => ?_, fun hm hok => ?_, fun hm hbad => ?_⟩
    · rw [if_pos h0]
      exact finish_unchanged s f
    · rw [if_neg hm, if_neg (mt hodd.1 (not_not.2 hok))]
      exact transfer_unchanged s _
    · rw [if_neg hm, if_pos (hodd.2 hbad)]
      rfl
  · have hgo : exec i s = finish s s.team f := by
      simp only [List.mem_cons, List.not_mem_nil, or_false] at hi
      obtain rfl | rfl := hi
      · rw [execCall_reaches hr, if_pos h0]
      · rw [execCallx_reaches hr, if_pos h0]
    rw [hgo]
    exact finish_unchanged s f
  · rw [execCallx_reaches hr, if_neg hm, if_pos (hodd.2 hbad)]
    rfl
  · rw [execCall_reaches hr, if_neg hm]
    exact call_spec f _ hroom
  · rw [execCallx_reaches hr, if_neg hm, if_neg (mt hodd.1 (not_not.2 hok))]
    exact call_spec f _ hroom

/-- Settles O29: label branches by their condition, then the branches and calls that read a register or push an entry. -/
theorem branchesAndCalls : Obligations.BranchesAndCalls := ⟨labelBranches, registerBranchesAndCalls⟩

end Sys2Proof.Machine
end

section
/-! Structured control and the mask stack (R118-R120). -/

namespace Sys2Proof.Machine

open Sys2Proof Sys2Proof.Safety Sys2Proof.Claims

/-! ### The traps of the mask stack (R120) -/

theorem maskStack_eq (t : Team) (reason : Nat) : maskStack t reason = stackTrapOf reason t.stack := by
  have htop : t.topKind = topNum t.stack := by
    rw [Team.topKind]
    split
    · next h => rw [h]; rfl
    · next e r h => rw [h]; cases hk : e.kind <;> simp only [topNum, EKind.num, hk]
  rw [maskStack, stackTrapOf, htop]

theorem stackTrap_eq (s : State) : stackTrap s s.team = trapLanes s (stackTrapOf 2 s.team.stack) s.team.mask := by
  rw [stackTrap, maskStack_eq]
  rfl

/-- A 33rd entry traps. -/
theorem withPush_full {s : State} (h : 32 ≤ s.team.stack.length) (e : Entry) (k : Team → Out) :
    withPush s s.team e k = trapLanes s (stackTrapOf 1 s.team.stack) s.team.mask := by
  rw [withPush, if_pos (by exact h), maskStack_eq]
  rfl

/-! ### What each instruction does with the top of the stack (R119) -/

/-- A structured instruction that goes on has changed the mask and the stack alone. -/
theorem finish_maskAndStack (s : State) (x : Fields) (mask : LaneSet) (stack : List Entry) :
    ∃ t, finish s { s.team with mask := mask, stack := stack } x = .next t ∧ maskAndStack s t (lenOf x) mask stack := by
  obtain ⟨t, ht, honly, hon, hplaced⟩ := finish_placed s { s.team with mask := mask, stack := stack } x rfl rfl rfl rfl
  exact ⟨t, ht, honly, hon, by rw [hplaced]; rfl, congrArg Team.mask hplaced, congrArg Team.stack hplaced⟩

section
variable {s : State}

theorem execIfP_reaches {f : Fields} (hr : reaches s (.ifP f) = true) : exec (.ifP f) s =
    withPush s s.team { kind := .ifK, save := s.team.mask, pend := s.team.mask &&& ~~~(chosen s.team f), addr := 0 }
      (fun u => finish s { u with mask := chosen s.team f } f) := by
  rw [exec_ifP, execIfP, issue_reaches _ rfl hr]
  rfl

theorem execLoopP_reaches (hr : reaches s .loopP = true) : exec .loopP s =
    withPush s s.team { kind := .loopK, save := s.team.mask, pend := 0, addr := s.team.pc + BitVec.ofNat 64 (lenOf {}) } (fun u => finish s u {}) := by
  rw [exec_loopP]
  exact issue_reaches _ rfl hr

theorem execElseP_reaches (hr : reaches s .elseP = true) : exec .elseP s = match s.team.stack with
    | e :: r => if e.kind = .ifK then finish s { s.team with mask := e.pend, stack := { e with pend := 0, kind := .elseK } :: r } {} else stackTrap s s.team
    | [] => stackTrap s s.team := by
  rw [exec_elseP]
  exact issue_reaches _ rfl hr

theorem execEndifP_reaches (hr : reaches s .endifP = true) : exec .endifP s = match s.team.stack with
    | e :: r => if e.kind = .ifK || e.kind = .elseK then finish s { s.team with mask := e.save &&& s.team.live, stack := r } {} else stackTrap s s.team
    | [] => stackTrap s s.team := by
  rw [exec_endifP]
  exact issue_reaches _ rfl hr

theorem execEndloopP_reaches (hr : reaches s .endloopP = true) : exec .endloopP s = match s.team.stack with
    | e :: r =>
      if e.kind = .loopK then
        if (s.team.mask ||| e.pend) &&& s.team.live != 0 then
          transfer s { s.team with mask := (s.team.mask ||| e.pend) &&& s.team.live, stack := { e with pend := 0 } :: r } e.addr
        else finish s { s.team with mask := e.save &&& s.team.live, stack := r } {}
      else stackTrap s s.team
    | [] => stackTrap s s.team := by
  rw [exec_endloopP]
  exact issue_reaches _ rfl hr

theorem leaveOp_reaches {i : Instr} {form : Form} {f : Fields} (he : encOf i = some (form, f)) (hr : reaches s i = true) (keep : Bool) :
    leaveOp i s keep = match leaveLoop (chosen s.team f) keep s.team.stack with
      | none => stackTrap s s.team
      | some st => finish s { s.team with mask := s.team.mask &&& ~~~(chosen s.team f), stack := st } f :=
  issue_reaches _ he hr

end

/-! ### Leaving a loop (R119) -/

/-- An entry without the lanes of a set. -/
def withoutLanes (k : LaneSet) (e : Entry) : Entry := { e with save := e.save &&& ~~~k, pend := e.pend &&& ~~~k }

section
variable {k : LaneSet} {keep : Bool} {above rest : List Entry} (habove : ∀ x ∈ above, x.kind = .ifK ∨ x.kind = .elseK)
include habove

/-- The entries of `if` and `else` on top lose the lanes, and the search goes on below them. -/
theorem leaveLoop_above : leaveLoop k keep (above ++ rest) = (leaveLoop k keep rest).map (fun r => above.map (withoutLanes k) ++ r) := by
  induction above with
  | nil => simp
  | cons x above ih =>
    have hrest := ih fun y hy => habove y (List.mem_cons_of_mem _ hy)
    obtain ⟨kind, save, pend, addr⟩ := x
    obtain rfl | rfl : kind = .ifK ∨ kind = .elseK := habove _ List.mem_cons_self
    · rw [List.cons_append, leaveLoop, hrest, Option.map_map]
      rfl
    · rw [List.cons_append, leaveLoop, hrest, Option.map_map]
      rfl

theorem leaveLoop_loopK {e : Entry} {r : List Entry} (he : e.kind = .loopK) :
    leaveLoop k keep (above ++ e :: r) = some (above.map (withoutLanes k) ++ (if keep then { e with pend := e.pend ||| k } else e) :: r) := by
  rw [leaveLoop_above habove, leaveLoop, he]
  rfl

/-- Without a LOOP entry before the first CALL or FN entry there is no loop to leave. -/
theorem leaveLoop_none (hrest : rest = [] ∨ ∃ e r, rest = e :: r ∧ (e.kind = .callK ∨ e.kind = .fnK)) : leaveLoop k keep (above ++ rest) = none := by
  rw [leaveLoop_above habove]
  obtain rfl | ⟨e, r, rfl, he | he⟩ := hrest
  · rfl
  · rw [leaveLoop, he]
    rfl
  · rw [leaveLoop, he]
    rfl

end

/-! ### The claims -/

/-- A loop that still has lanes goes round. -/
theorem execEndloopP_again {s : State} {e : Entry} {r : List Entry} (hr : reaches s .endloopP = true) (hst : s.team.stack = e :: r) (hk : e.kind = .loopK)
    (hlanes : (s.team.mask ||| e.pend) &&& s.team.live ≠ 0) :
    ∃ t, exec .endloopP s = .next t ∧ OnlyTeam s t ∧ { placed s.team t.team with mask := s.team.mask, stack := s.team.stack } = s.team ∧
      jumpedTo t.team e.addr ∧ t.team.mask = (s.team.mask ||| e.pend) &&& s.team.live ∧ t.team.stack = { e with pend := 0 } :: r := by
  simp only [execEndloopP_reaches hr, hst, if_pos hk, if_pos (bne_iff_ne.2 hlanes)]
  obtain ⟨t, ht, honly, hto, hplaced⟩ := transfer_placed s { s.team with mask := (s.team.mask ||| e.pend) &&& s.team.live, stack := { e with pend := 0 } :: r } e.addr
  exact ⟨t, ht, honly, by rw [← hst, hplaced]; rfl, hto, congrArg Team.mask hplaced, congrArg Team.stack hplaced⟩

theorem structuredControl : StructuredControl := by
  intro f s
  refine ⟨fun hr hroom => ?_, fun e r hr hst hk => ?_, fun e r hr hst hk => ?_, fun hr hroom => ?_, fun e r => execEndloopP_again, fun e r hr hst hk h0 => ?_,
    fun above e r hr hst habove hk => ?_, fun above e r hr hst habove hk => ?_⟩
  · rw [execIfP_reaches hr, withPush_room hroom]
    exact finish_maskAndStack s f _ _
  · simp only [execElseP_reaches hr, hst, if_pos hk]
    exact finish_maskAndStack s {} _ _
  · simp only [execEndifP_reaches hr, hst]
    rw [if_pos (by simpa using hk)]
    exact finish_maskAndStack s {} _ _
  · rw [execLoopP_reaches hr, withPush_room hroom, show BitVec.ofNat 64 (lenOf {}) = 4 from rfl]
    exact finish_maskAndStack s {} _ _
  · simp only [execEndloopP_reaches hr, hst, if_pos hk]
    rw [if_neg (by simpa using h0)]
    exact finish_maskAndStack s {} _ _
  · rw [exec_breakP, execBreakP, leaveOp_reaches rfl hr, hst, leaveLoop_loopK habove hk]
    exact finish_maskAndStack s f _ _
  · rw [exec_contP, execContP, leaveOp_reaches rfl hr, hst, leaveLoop_loopK habove hk]
    exact finish_maskAndStack s f _ _

/-- Each instruction that needs an entry of a kind on top traps on an empty stack or below another entry. -/
theorem topRows_trap {s : State} {p : Instr × List EKind} (hp : p ∈ topRows) (hr : reaches s p.1 = true)
    (htop : s.team.stack = [] ∨ ∃ e r, s.team.stack = e :: r ∧ e.kind ∉ p.2) : exec p.1 s = stackTrap s s.team := by
  simp only [topRows, List.mem_cons, List.not_mem_nil, or_false] at hp
  obtain rfl | rfl | rfl | rfl := hp <;> obtain hst | ⟨e, r, hst, hk⟩ := htop
  · simp only [execElseP_reaches hr, hst]
  · simp only [execElseP_reaches hr, hst]
    exact if_neg (by simpa using hk)
  · simp only [execEndifP_reaches hr, hst]
  · simp only [execEndifP_reaches hr, hst]
    exact if_neg (by simpa using hk)
  · simp only [execEndloopP_reaches hr, hst]
  · simp only [execEndloopP_reaches hr, hst]
    exact if_neg (by simpa using hk)
  · simp only [execRet_reaches hr, hst]
  · simp only [execRet_reaches hr, hst]
    exact if_neg (by simpa using hk)

theorem maskStackTraps : MaskStackTraps := by
  refine ⟨fun f s hfull => ⟨fun i hi hr => ?_, fun hr hm => ?_, fun hr hm hok => ?_⟩, fun s p hp hr htop => ?_, fun f s above rest hst habove hrest i hi hr => ?_⟩
  · simp only [List.mem_cons, List.not_mem_nil, or_false] at hi
    obtain rfl | rfl := hi
    · rw [execIfP_reaches hr, withPush_full hfull]
    · rw [execLoopP_reaches hr, withPush_full hfull]
  · rw [execCall_reaches hr, if_neg hm, withPush_full hfull]
  · rw [execCallx_reaches hr, if_neg hm, if_neg (mt (lowBits_ne_zero_iff _).1 (not_not.2 hok)), withPush_full hfull]
  · rw [topRows_trap hp hr htop, stackTrap_eq]
  · have hnone (keep : Bool) : leaveLoop (chosen s.team f) keep s.team.stack = none := by rw [hst, leaveLoop_none habove hrest]
    simp only [List.mem_cons, List.not_mem_nil, or_false] at hi
    obtain rfl | rfl := hi
    · rw [exec_breakP, execBreakP, leaveOp_reaches rfl hr, hnone]
      exact stackTrap_eq s
    · rw [exec_contP, execContP, leaveOp_reaches rfl hr, hnone]
      exact stackTrap_eq s

/-- Settles O30: each instruction by the entry on top, `break` and `cont` by the search for their loop (`leaveLoop_above`). -/
theorem structuredControlAndMaskStack : Obligations.StructuredControlAndMaskStack := ⟨structuredControl, maskStackTraps⟩

end Sys2Proof.Machine
end

section
/-! Barriers (R127, R128). -/

namespace Sys2Proof.Machine

open Sys2Proof Sys2Proof.Safety Sys2Proof.Claims

/-- Teams 0 and 1 of a grid with a quad barrier, whose block 0 the table of blocks does not list. -/
def unlistedBlock : State :=
  let s := (placeWords State.reset .x []).modGrid 0 (fun g => { g with cohLvl := 1 })
  { s.setTeamAt 1 s.team with blocks := [] }

/-- The note of the team that completed the generation of the quad barrier, after an arrival. -/
def completedBy : Out → Option Nat
  | .next t => some (barrierOf t .quad).last
  | _ => none

/-- No listed block takes part in the barrier, so every participant has arrived. -/
theorem unlistedBlock_allArrived : allArrived unlistedBlock unlistedBlock.team.block (lvlNum .quad) ((barrierOf unlistedBlock .quad).arrived ++ [unlistedBlock.cur]) := by
  have hnone : barrierBlocks unlistedBlock unlistedBlock.team.block (lvlNum .quad) = [] := by decide +kernel
  intro k hk
  rw [hnone] at hk
  cases hk

/-- The release that the arrival is lists the block, and team 1 of it has not arrived: nobody is noted as the one that completed the generation. -/
theorem unlistedBlock_notCompleted : completedBy (exec (.bara .quad {}) unlistedBlock) = some 0 := by decide +kernel

/-- Refutes O32: of a block that the table of blocks does not list, the note of its release makes a participant of the barrier, so that the arrival which is the last by the
state before is not the last by the state after (`BarrierArrivals`). -/
theorem not_barriers : ¬ Obligations.Barriers := by
  rintro ⟨harrivals, -, -⟩
  have hquiet : Safety.quiet unlistedBlock := ⟨by decide +kernel, by decide +kernel, by decide +kernel, by decide +kernel⟩
  obtain ⟨hbara, -⟩ := harrivals .quad {} unlistedBlock (.inr (by decide +kernel))
  obtain ⟨t, ht, -, ⟨hlast, -⟩, -⟩ := hbara (by decide +kernel) hquiet (by decide +kernel)
  have hzero : (barrierOf t .quad).last = 0 := by
    have h := unlistedBlock_notCompleted
    rw [ht] at h
    exact Option.some.inj h
  exact absurd ((hlast unlistedBlock_allArrived).symm.trans hzero) (Nat.succ_ne_zero _)

end Sys2Proof.Machine
end

section
/-! A release of class X with nothing left to release (R194, R210, R233): what it leaves of teams, grids and blocks. -/

namespace Sys2Proof.Machine

open Sys2Proof Sys2Proof.Safety Sys2Proof.Claims

/-- Teams and grids stand as before; each block keeps its staged writes, and one that has released stays so. -/
structure TeamsStand (s w : State) : Prop where
  cur : w.cur = s.cur
  teams : w.teams = s.teams
  grids : w.grids = s.grids
  staged : ∀ k, (w.blockAt k).staged = (s.blockAt k).staged
  released : ∀ k, (s.blockAt k).released = true → (w.blockAt k).released = true

theorem TeamsStand.refl (s : State) : TeamsStand s s := ⟨rfl, rfl, rfl, fun _ => rfl, fun _ h => h⟩

section
variable {s w : State} (h : TeamsStand s w)
include h

theorem TeamsStand.team : w.team = s.team := by
  rw [State.team, State.teamAt, h.cur, h.teams]
  rfl

theorem TeamsStand.gridAt (k : Nat) : w.gridAt k = s.gridAt k := by
  rw [State.gridAt, h.grids]
  rfl

theorem TeamsStand.modDie (k : Nat) (f : Die → Die) : TeamsStand s (w.modDie k f) := ⟨h.cur, h.teams, h.grids, h.staged, h.released⟩

theorem TeamsStand.modCore (k : Nat) (f : Core → Core) : TeamsStand s (w.modCore k f) := ⟨h.cur, h.teams, h.grids, h.staged, h.released⟩

theorem TeamsStand.setBarrier (k : Nat) (b : Barrier) : TeamsStand s (w.setBarrier k b) := ⟨h.cur, h.teams, h.grids, h.staged, h.released⟩

theorem TeamsStand.modBlock (b : Nat) {f : Block → Block} (hs : ∀ x, (f x).staged = x.staged) (hr : ∀ x, x.released = true → (f x).released = true) :
    TeamsStand s (w.modBlock b f) := by
  refine ⟨h.cur, h.teams, h.grids, fun k => ?_, fun k hk => ?_⟩
  · by_cases he : k = b
    · rw [he, State.modBlock, State.blockAt_setBlock_same, hs, h.staged]
    · rw [State.modBlock, State.blockAt_setBlock_other _ _ _ _ he, h.staged]
  · by_cases he : k = b
    · rw [he, State.modBlock, State.blockAt_setBlock_same]
      exact hr _ (h.released b (he ▸ hk))
    · rw [State.modBlock, State.blockAt_setBlock_other _ _ _ _ he]
      exact h.released k hk

theorem TeamsStand.stashWrite (b a : Nat) (bs : List Byte) : TeamsStand s (stashWrite w b a bs) := h.modBlock b (fun _ => rfl) (fun _ h => h)

theorem TeamsStand.trans {v : State} (h2 : TeamsStand w v) : TeamsStand s v :=
  ⟨h2.cur.trans h.cur, h2.teams.trans h.teams, h2.grids.trans h.grids, fun k => (h2.staged k).trans (h.staged k), fun k hk => h2.released k (h.released k hk)⟩

theorem TeamsStand.pushDir (bid tile dir : Nat) : TeamsStand s (pushDir w bid tile dir) := by
  have hgone (d : Nat) (e : LogEntry) : TeamsStand s (logAt w d e) := h.modDie d _
  rw [Machine.pushDir]
  dsimp only
  split
  · exact h
  · split
    · exact h
    · split
      · exact hgone _ _
      · split
        · exact hgone _ _
        · split
          · exact hgone _ _
          · exact foldl_keeps (P := TeamsStand s) (fun _ _ h => h.stashWrite _ _ _) _ h

theorem TeamsStand.pushAll (bid : Nat) (sent : List (Nat × Nat)) : TeamsStand s (pushAll w bid sent) :=
  foldl_keeps (P := TeamsStand s) (fun _ _ h => foldl_keeps (P := TeamsStand s) (fun _ _ h => iteInduction (fun _ => h) (fun _ => h.pushDir _ _ _)) _ h) _ h

/-- A team that has ended leaves its watch entries, the fault stage and its barriers; its core, its die and its block change. -/
theorem TeamsStand.leaveStage (d tid : Nat) : TeamsStand s (leaveStage w d tid) := by
  obtain ⟨st, ps, he⟩ := leaveStage_eq w d tid
  rw [he]
  exact ⟨h.cur, h.teams, h.grids, h.staged, h.released⟩

theorem TeamsStand.endArrivals (tid : Nat) : TeamsStand s (endArrivals w tid) := by
  rw [Machine.endArrivals]
  split
  · exact (foldl_keeps (P := TeamsStand s) (fun _ _ h => h.setBarrier _ _) _ h).modBlock _ (fun _ => rfl) (fun _ h => h)
  · exact h

theorem TeamsStand.afterEnd (tid : Nat) : TeamsStand s (afterEnd w tid) := by
  rw [Machine.afterEnd]
  split
  · exact ((h.modCore _ _).leaveStage _ _).endArrivals _
  · exact h

end

/-- With no store buffered, a release notes itself in the block, pushes its tiles, and leaves memory alone. -/
theorem performRelease_noStores {s : State} {tid : Nat} (h : (s.coreAt (s.teamAt tid).core).sbuf = []) (scope : Nat) :
    ∃ r, performRelease s tid scope = some r ∧ TeamsStand s r ∧ r.mem = s.mem ∧ (r.blockAt (s.teamAt tid).block).released = true := by
  have hmark : TeamsStand s (s.modBlock (s.teamAt tid).block (fun b => { b with released := true })) := (TeamsStand.refl s).modBlock _ (fun _ => rfl) (fun _ _ => rfl)
  have hdone : ((s.modBlock (s.teamAt tid).block (fun b => { b with released := true })).blockAt (s.teamAt tid).block).released = true := by
    rw [State.modBlock, State.blockAt_setBlock_same]
  rw [performRelease]
  split
  · exact ⟨_, rfl, hmark, rfl, hdone⟩
  · rw [drainAll_empty (by exact h)]
    exact ⟨_, rfl, hmark.pushAll _ _, pushAll_mem _ _ _, ((TeamsStand.refl _).pushAll _ _).released _ hdone⟩

/-- With nothing left to release, an instruction goes on past its release. -/
theorem withRelease_performed {s r : State} (h : Safety.quiet s) {scope : Nat} (hr : performRelease s s.cur scope = some r) (k : State → Out) : withRelease s scope k = k r := by
  have hgate := releaseGate_quiet h
  obtain ⟨hmem, -⟩ := h
  have hdone : memDone s s.cur = true := by
    rw [memDone, show (s.teamAt s.cur).memQ = [] from hmem]
    rfl
  simp only [withRelease, withGate, hgate, hdone, hr]
  rfl

end Sys2Proof.Machine
end

section
/-! `exit`, `yield`, `sleep`, `fork` and `rdv` (R121-R126, R210, R263, R320). -/

namespace Sys2Proof.Machine

open Sys2Proof Sys2Proof.Safety Sys2Proof.Claims

/-! ### Lanes leave a team (R121, R126, R320) -/

theorem streamsOver_iff (t : Team) : t.streamsOver = true ↔ ∀ e k, t.stream e = some k → k.ended = true := by
  rw [Team.streamsOver, Bool.and_eq_true]
  refine ⟨fun ⟨ha, hc⟩ e k hk => ?_, fun h => ⟨?_, ?_⟩⟩
  · cases e with
    | mat => rwa [show t.streamA = some k from hk] at ha
    | copy => rwa [show t.streamC = some k from hk] at hc
  · cases ha : t.streamA with
    | none => rfl
    | some k => exact h .mat k ha
  · cases hc : t.streamC with
    | none => rfl
    | some k => exact h .copy k hc

theorem idle_iff (t : Team) : t.idle = true ↔ (∀ e k, t.stream e = some k → k.ended = true) ∧ t.matQ = [] := by
  rw [Team.idle, Bool.and_eq_true, streamsOver_iff, List.isEmpty_iff]

/-- A team that has lanes settles as it is. -/
theorem settle_of_live {t : Team} (h : t.live ≠ 0) : t.settle = t :=
  if_neg fun h0 => h (of_decide_eq_true (Bool.and_eq_true_iff.1 h0).1)

/-- A team without lanes leaves its clause, and ends where it is idle. -/
theorem settle_of_gone {t : Team} (h : t.live = 0) (hs : t.status = .live) :
    t.settle = { t with status := if t.idle then .ended else .live, clause := none, rep := 0, inRep := none } := if_pos (by simp [h, hs])

/-- What leaves of a team when its present lanes do. -/
theorem execExit_reaches {f : Fields} {s : State} (hr : reaches s (.exit f) = true) : exec (.exit f) s =
    if presentSet s.team (modOf .x f) = 0 then finish s s.team f
    else withRelease s (s.gridAt s.team.grid).lrec.cscope (fun s' =>
      match finish s' (s'.team.dropLanes (presentSet s.team (modOf .x f))) f with
      | .next u => .next (afterEnd (u.setTeam u.team.settle) u.cur)
      | o => o) := by
  rw [exec_exit, execExit]
  exact issue_reaches _ rfl hr

/-- Past its release, `exit` drops the lanes, goes on, and settles the team. -/
theorem execExit_drops {f : Fields} {s : State} (hr : reaches s (.exit f) = true) (hq : Safety.quiet s) (hk : presentSet s.team (modOf .x f) ≠ 0) :
    ∃ t u, exec (.exit f) s = .next t ∧ sameMem s t ∧ t.team = u.settle ∧ (t.blockAt s.team.block).released = true ∧ wentOn s.team u (lenOf f) ∧
      placed s.team u = s.team.dropLanes (presentSet s.team (modOf .x f)) := by
  have ⟨_, hsbuf, _, _⟩ := hq
  obtain ⟨r, hperf, hstand, hmem, hrel⟩ := performRelease_noStores hsbuf (s.gridAt s.team.grid).lrec.cscope
  obtain ⟨w, hw, honly, hon, hplaced⟩ := finish_placed r (r.team.dropLanes (presentSet s.team (modOf .x f))) f rfl rfl rfl rfl
  rw [hstand.team] at hw hon hplaced
  have hblocks : w.blocks = r.blocks := by rw [honly.team]; rfl
  have hend := (TeamsStand.refl (w.setTeam w.team.settle)).afterEnd w.cur
  refine ⟨afterEnd (w.setTeam w.team.settle) w.cur, w.team, ?_, fun a => ?_, ?_, ?_, hon, hplaced⟩
  · rw [execExit_reaches hr, if_neg hk, withRelease_performed hq hperf, hstand.team]
    simp only [hw]
  · rw [afterEnd_mem, State.setTeam_mem, honly.mem, hmem]
  · rw [hend.team, State.setTeam_eq, State.team_setTeamAt_cur]
  · refine hend.released _ ?_
    rw [State.setTeam_eq, State.blockAt_setTeamAt, State.blockAt, hblocks]
    exact hrel

theorem exitLeavesLanes : ExitLeavesLanes := by
  intro f s hr hlive
  refine ⟨fun h0 => ?_, fun hq hk => ?_⟩
  · rw [execExit_reaches hr, if_pos h0]
    exact finish_unchanged s f
  · obtain ⟨t, u, ht, hmem, hteam, hrel, hon, hplaced⟩ := execExit_drops hr hq hk
    obtain ⟨k, hkdef⟩ : ∃ k, k = presentSet s.team (modOf .x f) := ⟨_, rfl⟩
    rw [← hkdef] at hplaced ⊢
    have hulive : u.live = s.team.live &&& ~~~k := congrArg Team.live hplaced
    have hustatus : u.status = .live := (congrArg Team.status hplaced).trans hlive
    have hustream (e : Eng) : u.stream e = s.team.stream e := by
      cases e
      exacts [(congrArg Team.streamA hplaced :), (congrArg Team.streamC hplaced :)]
    have humatQ : u.matQ = s.team.matQ := (congrArg Team.matQ hplaced :)
    refine ⟨t, ht, hmem, ?_⟩
    rw [hteam]
    by_cases hgone : s.team.live &&& ~~~k = 0
    · rw [settle_of_gone (hulive.trans hgone) hustatus]
      refine ⟨?_, congrArg Team.mask hplaced, hulive, congrArg Team.stack hplaced, fun h => absurd hgone h, fun _ => ⟨rfl, rfl, rfl, fun hs hm => ?_, fun hbusy => ?_⟩, hrel⟩
      · show { placed s.team u with mask := s.team.mask, live := s.team.live, stack := s.team.stack, status := s.team.status } = s.team
        rw [hplaced]
        rfl
      · exact if_pos ((idle_iff u).2 ⟨fun e x he => hs e x ((hustream e).symm.trans he), humatQ.trans hm⟩)
      · refine if_neg fun hidle => ?_
        obtain ⟨hover, hempty⟩ := (idle_iff u).1 hidle
        obtain ⟨e, x, he, hrun⟩ | hm := hbusy
        · exact absurd (hover e x ((hustream e).trans he)) (by simp [hrun])
        · exact hm (humatQ.symm.trans hempty)
    · rw [settle_of_live (by rw [hulive]; exact hgone)]
      exact ⟨by rw [hplaced]; rfl, congrArg Team.mask hplaced, hulive, congrArg Team.stack hplaced, fun _ => ⟨hustatus, hon⟩, fun h => absurd h hgone, hrel⟩

/-! ### Giving way (R122, R123) -/

theorem yieldAndSleep : YieldAndSleep := by
  refine ⟨fun f s hr => ?_, fun f s hr => ?_, fun s till hw htill => ?_⟩
  · have hex : exec (.yield f) s = finish s { s.team with wait := if otherReady s s.cur = [] then s.team.wait else .yielded (otherReady s s.cur) } f := by
      rw [exec_yield, execYield, issue_reaches _ rfl hr]
      cases hl : otherReady s s.cur with
      | nil => rfl
      | cons q l => rfl
    obtain ⟨t, ht, honly, hon, hplaced⟩ := finish_placed s { s.team with wait := if otherReady s s.cur = [] then s.team.wait else .yielded (otherReady s s.cur) } f rfl rfl rfl rfl
    exact ⟨t, hex.trans ht, honly, hon, by rw [hplaced]; rfl, congrArg Team.wait hplaced⟩
  · obtain ⟨n, hn⟩ : ∃ n, n = (srcS s.team f.a.toNat (immOf f)).toNat := ⟨_, rfl⟩
    have hex : exec (.sleep f) s = finish s { s.team with wait := if n = 0 then s.team.wait else .sleep (s.cc + min n 1048576) } f := by
      rw [exec_sleep, execSleep, issue_reaches _ rfl hr, ← hn]
      by_cases h0 : n = 0
      · simp [h0]
      · simp [h0, sleepMax]
    obtain ⟨t, ht, honly, hon, hplaced⟩ := finish_placed s { s.team with wait := if n = 0 then s.team.wait else .sleep (s.cc + min n 1048576) } f rfl rfl rfl rfl
    have hwait : t.team.wait = if n = 0 then s.team.wait else .sleep (s.cc + min n 1048576) := congrArg Team.wait hplaced
    rw [← hn]
    exact ⟨t, hex.trans ht, honly, hon, by rw [hplaced]; rfl, fun hpos => hwait.trans (if_neg hpos.ne'), fun h0 => hwait.trans (if_pos h0)⟩
  · refine ⟨wake s s.ev.x none, ?_, fun a => by rw [wake_mem], ?_⟩
    · simp only [exec_sleepExpiry, execSleepExpiry, hw, if_pos htill]
    · rw [wake, State.modTeam, State.teamAt_setTeamAt_same]
      exact ⟨rfl, rfl⟩

/-! ### Forked streams (R124-R126) -/

theorem stream_setStream (t : Team) (e e' : Eng) (v : Option Stream) : (t.setStream e v).stream e' = if e' = e then v else t.stream e' := by
  cases e <;> cases e' <;> rfl

/-- An instruction that goes on after it has set a stream has changed that stream alone. -/
theorem finish_setStream (s : State) (x : Fields) (e : Eng) (v : Option Stream) :
    ∃ t, finish s (s.team.setStream e v) x = .next t ∧ OnlyTeam s t ∧ wentOn s.team t.team (lenOf x) ∧
      { placed s.team t.team with streamA := s.team.streamA, streamC := s.team.streamC } = s.team ∧ t.team.stream e = v ∧
      ∀ e', e' ≠ e → t.team.stream e' = s.team.stream e' := by
  have hset : ∃ a c, s.team.setStream e v = { s.team with streamA := a, streamC := c } := by
    cases e
    exacts [⟨_, _, rfl⟩, ⟨_, _, rfl⟩]
  obtain ⟨a, c, hac⟩ := hset
  obtain ⟨t, ht, honly, hon, hplaced⟩ := finish_placed s (s.team.setStream e v) x (by rw [hac]) (by rw [hac]) (by rw [hac]) (by rw [hac])
  have hstream (e' : Eng) : t.team.stream e' = (s.team.setStream e v).stream e' := by
    cases e'
    exacts [(congrArg Team.streamA hplaced :), (congrArg Team.streamC hplaced :)]
  refine ⟨t, ht, honly, hon, by rw [hplaced, hac]; rfl, ?_, fun e' he => ?_⟩
  · rw [hstream, stream_setStream, if_pos rfl]
  · rw [hstream, stream_setStream, if_neg he]

section
variable {f : Fields} {s : State}

theorem execFork_reaches (hr : reaches s (.fork f) = true) : exec (.fork f) s =
    if (s.team.stream (engOf f)).isSome then trapAll s (controlOrder 4 (engNum (engOf f)))
    else finish s (s.team.setStream (engOf f)
      (some { pc := labelOf s.team f, clause := none, mask := s.team.mask, rep := 0, inRep := none, wait := .none, ended := false })) f := by
  rw [exec_fork, execFork, issue_reaches _ rfl hr]

theorem execRdv_reaches (hr : reaches s (.rdv f) = true) : exec (.rdv f) s =
    match s.curStream with
    | some _ => finish s (s.team.setStream (engOf f) ((s.team.stream (engOf f)).map (fun k => { k with ended := true }))) f
    | none =>
      match s.team.stream (engOf f) with
      | none => finish s s.team f
      | some k => if k.ended then finish s (s.team.setStream (engOf f) none) f else .next (s.setTeam { s.team with wait := .rdv (engOf f) }) := by
  rw [exec_rdv, execRdv]
  exact issue_reaches _ rfl hr

end

/-- The trap of a second fork names the sequencer. -/
theorem controlOrder_engOf (f : Fields) : controlOrder 4 (engNum (engOf f)) = { cause := 0x05, i0 := 4, i1 := if f.b = 0 then 0 else 1 } := by
  by_cases hb : f.b = 0
  · rw [engOf, if_pos hb, if_pos hb]
    rfl
  · rw [engOf, if_neg hb, if_neg hb]
    rfl

theorem forkAndJoin : ForkAndJoin := by
  intro f s
  refine ⟨fun hr hnone => ?_, fun k hr hk => ?_, fun hr hown hnone => ?_, fun k hr hown hk hend => ?_, fun k hr hown hk hrun => ?_, fun e k hr hown hk => ?_⟩
  · rw [execFork_reaches hr, hnone]
    obtain ⟨t, ht, honly, hon, hframe, hset, hothers⟩ := finish_setStream s f (engOf f)
      (some { pc := labelOf s.team f, clause := none, mask := s.team.mask, rep := 0, inRep := none, wait := .none, ended := false })
    exact ⟨t, ht, honly, hon, hframe, hset, hothers⟩
  · rw [execFork_reaches hr, hk, controlOrder_engOf]
    rfl
  · simp only [execRdv_reaches hr, hown, hnone]
    exact finish_unchanged s f
  · simp only [execRdv_reaches hr, hown, hk, hend, if_true]
    obtain ⟨t, ht, honly, hon, hframe, hset, -⟩ := finish_setStream s f (engOf f) none
    exact ⟨t, ht, honly, hon, hset, hframe⟩
  · simp only [execRdv_reaches hr, hown, hk, hrun]
    rfl
  · simp only [execRdv_reaches hr, hown, hk, Option.map_some]
    obtain ⟨t, ht, honly, -, -, hset, -⟩ := finish_setStream s f (engOf f) (some { k with ended := true })
    exact ⟨t, ht, honly, hset⟩

/-- Settles O31: lanes that leave (`execExit_drops`, then `Team.settle`), waits, and streams. -/
theorem exitYieldForkJoin : Obligations.ExitYieldForkJoin := ⟨exitLeavesLanes, yieldAndSleep, forkAndJoin⟩

end Sys2Proof.Machine
end

section
/-! Ended teams free their slots, and pending traps are taken (R121, R125, R195, R202, R270, R276, R281, R295, R320). -/

namespace Sys2Proof.Machine

open Sys2Proof Sys2Proof.Safety Sys2Proof.Claims

/-! ### Tables -/

theorem kPut_self {α : Type} {k : Nat} {v : α} {m : KMap α} (hs : kSorted m = true) (h : kGet k m = some v) : kPut k v m = m := by
  rw [kSorted_iff] at hs
  induction m with
  | nil => cases h
  | cons p r ih =>
    obtain ⟨j, w⟩ := p
    obtain ⟨hfirst, hrest⟩ := List.pairwise_cons.1 hs
    by_cases he : k = j
    · rw [kGet, if_pos he] at h
      cases h
      rw [kPut, if_neg (by omega), if_pos he, he]
    · rw [kGet, if_neg he] at h
      have hlt : j < k := hfirst _ (mem_of_kGet h)
      rw [kPut, if_neg (by omega), if_neg he, ih hrest h]

theorem mem_kPut_iff {α : Type} {k : Nat} {v : α} {m : KMap α} (hs : kSorted m = true) (p : Nat × α) : p ∈ kPut k v m ↔ p = (k, v) ∨ (p ∈ m ∧ p.1 ≠ k) := by
  have hget : ∀ p : Nat × α, p ∈ kPut k v m ↔ kGet p.1 (kPut k v m) = some p.2 := fun p => ⟨kGet_of_mem (kSorted_kPut k v m hs), mem_of_kGet⟩
  rw [hget]
  by_cases hk : p.1 = k
  · rw [hk, kGet_kPut_same]
    exact ⟨fun h => .inl (Prod.ext hk (Option.some.inj h).symm), fun h => h.elim (fun e => by rw [e]) (fun e => absurd rfl e.2)⟩
  · rw [kGet_kPut_other _ _ _ _ hk]
    exact ⟨fun h => .inr ⟨mem_of_kGet h, hk⟩, fun h => h.elim (fun e => absurd (by rw [e]) hk) (fun e => kGet_of_mem hs e.1)⟩

/-! ### The slots of an ended team (R121, R195, R295) -/

/-- An event that changes nothing has no line to ask the channels for. -/
theorem noteFetches_self (s : State) (core cls : Nat) : noteFetches s core cls s = s := by
  have hnone : (s.dieAt (dieOf core)).l2.filter (fun p => (l2At s (dieOf core) p.1).isNone && !([] : List ChanReq).any (fun r => r.line = p.1)) = [] := by
    rw [List.filter_eq_nil_iff]
    rintro ⟨line, e⟩ hmem habsent
    have hin := kGet_isSome_of_mem hmem
    simp only [l2At, Bool.and_eq_true, Option.isNone_iff_eq_none] at habsent
    rw [habsent.1] at hin
    cases hin
  rw [noteFetches, List.drop_length]
  simp only [hnone, List.foldl_nil]

/-- An ended team without its slots, with the strike of a watch entry it still had. -/
def unslotted (s : State) (tid : Nat) (u : Team) : Team := { u with slots := [], struck := u.struck || (teamWatches s tid).any (fun w => w.st = .struck) }

/-- The machine once an ended team has left its matrix state, its watch entries and its slots. -/
def slotsFreed (s : State) (tid : Nat) : State :=
  let p := s.partAt (s.teamAt tid).partNo
  let w := if p.holder = some tid then s.setPart (s.teamAt tid).partNo { p with holder := none, mat := Matrix.cleared } else s
  (freeWatches w tid).modTeam tid (fun t => { t with slots := [] })

theorem execWarpSlotRelease_eq (s : State) : execWarpSlotRelease s = noteOut s (s.teamAt s.ev.x).core 2 (
    if !endedQuiet s (s.ev.x, s.teamAt s.ev.x) then .next s
    else if (blockTeams (slotsFreed s s.ev.x) (s.teamAt s.ev.x).block).all (fun p => p.2.status = .ended && p.2.slots = []) then
      match retireBlock (slotsFreed s s.ev.x) (s.teamAt s.ev.x).block with
      | none => .next s
      | some s2 => .next s2
    else .next (slotsFreed s s.ev.x)) := rfl

section
variable {s : State} {tid : Nat} {u : Team} (hu : kGet tid s.teams = some u) (hs : kSorted s.teams = true)
include hu hs

theorem slotsFreed_oneTeam : OneTeam s tid (unslotted s tid u) (slotsFreed s tid) := by
  have hself : OneTeam s tid u s := ⟨⟨s.parts, s.cores, by rw [kPut_self hs hu]⟩, fun _ => rfl⟩
  have hpart : OneTeam s tid u (if (s.partAt (s.teamAt tid).partNo).holder = some tid then
      s.setPart (s.teamAt tid).partNo { s.partAt (s.teamAt tid).partNo with holder := none, mat := Matrix.cleared } else s) :=
    iteInduction (fun _ => hself.setPart _ _) (fun _ => hself)
  have hwatch : teamWatches (if (s.partAt (s.teamAt tid).partNo).holder = some tid then
      s.setPart (s.teamAt tid).partNo { s.partAt (s.teamAt tid).partNo with holder := none, mat := Matrix.cleared } else s) tid = teamWatches s tid := by
    split <;> rfl
  have hfreed := hpart.freeWatches.modTeam (fun t => { t with slots := [] })
  rw [hwatch] at hfreed
  exact hfreed

/-- Of the block's teams the ended one alone has changed. -/
theorem mem_blockTeams_freed (p : Nat × Team) : p ∈ blockTeams (slotsFreed s tid) u.block ↔ p = (tid, unslotted s tid u) ∨ (p ∈ blockTeams s u.block ∧ p.1 ≠ tid) := by
  rw [blockTeams, (slotsFreed_oneTeam hu hs).teams, List.mem_filter, mem_kPut_iff hs, blockTeams, List.mem_filter]
  constructor
  · rintro ⟨rfl | ⟨hp, hne⟩, hblock⟩
    exacts [.inl rfl, .inr ⟨⟨hp, hblock⟩, hne⟩]
  · rintro (rfl | ⟨⟨hp, hblock⟩, hne⟩)
    exacts [⟨.inl rfl, decide_eq_true rfl⟩, ⟨.inr ⟨hp, hne⟩, hblock⟩]

end

theorem slotsFreed_watch (s : State) (tid : Nat) : ∀ w ∈ ((slotsFreed s tid).coreAt (s.teamAt tid).core).watch, w.tid ≠ tid := by
  have hcore : ((slotsFreed s tid).coreAt (s.teamAt tid).core).watch = (s.coreAt (s.teamAt tid).core).watch.filter (fun w => w.tid ≠ tid) := by
    rw [slotsFreed, freeWatches]
    split <;> simp [State.modTeam, State.modCore]
  intro w hw
  rw [hcore] at hw
  exact of_decide_eq_true (List.mem_filter.1 hw).2

/-- The matrix state that the team held is free. -/
theorem slotsFreed_holder {s : State} {tid : Nat} (h : (s.partAt (s.teamAt tid).partNo).holder = some tid) : ((slotsFreed s tid).partAt (s.teamAt tid).partNo).holder = none := by
  simp [slotsFreed, freeWatches, State.modTeam, State.modCore, h]

/-! ### A block retires (R202, R276) -/

theorem dropSlots_watch (s : State) (c gid k : Nat) : ((dropSlots s c gid).coreAt k).watch = (s.coreAt k).watch := by
  rw [dropSlots]
  split
  · rfl
  · by_cases hk : k = c
    · rw [hk, State.modCore, State.coreAt_setCore_same]
    · rw [State.modCore, State.coreAt_setCore_other _ _ _ _ hk]

/-- What a block that retires leaves of the machine. -/
structure BlockRetired (s : State) (bid : Nat) (w : State) : Prop where
  mem : w.mem = s.mem
  teams : w.teams = s.teams
  parts : w.parts = s.parts
  watch : ∀ k, (w.coreAt k).watch = (s.coreAt k).watch
  status : (w.blockAt bid).status = .retired
  counted : (w.gridAt (s.blockAt bid).grid).retired = (s.gridAt (s.blockAt bid).grid).retired + 1

/-- A block without windows, on a core with nothing buffered, retires. -/
theorem retireBlock_bare {s : State} {bid : Nat} (hw : (s.blockAt bid).windows = []) (hb : (s.coreAt (s.blockAt bid).core).sbuf = []) :
    ∃ w, retireBlock s bid = some w ∧ BlockRetired s bid w := by
  have hback : (if (s.gridAt (s.blockAt bid).grid).failed = true then some s else (drainAll s (s.blockAt bid).core).bind (fun s => writeBackBlock s bid)) = some s := by
    split
    · rfl
    · rw [drainAll_empty hb, Option.bind_some, writeBackBlock_noWindow hw]
  obtain ⟨v, hv⟩ : ∃ v, v = (s.modBlock bid (fun b => { b with status := .retired, windows := [], tiles := [] })).modGrid (s.blockAt bid).grid
    (fun g => { g with retired := g.retired + 1 }) := ⟨_, rfl⟩
  have hwatch := dropSlots_watch v (s.blockAt bid).core (s.blockAt bid).grid
  obtain ⟨cs, hcs, -⟩ := dropSlots_eq v (s.blockAt bid).core (s.blockAt bid).grid
  obtain ⟨p, hp⟩ := rung2Done_eq { v with cores := cs } bid
  rw [hcs] at hwatch
  refine ⟨{ v with cores := cs, plat := p }, ?_, ?_, ?_, ?_, fun k => (hwatch k).trans ?_, ?_, ?_⟩
  · rw [← hp, ← hcs, hv, retireBlock]
    simp only [hback]
    rfl
  · rw [hv]; rfl
  · rw [hv]; rfl
  · rw [hv]; rfl
  · rw [hv]; rfl
  · show (v.blockAt bid).status = .retired
    rw [hv, State.modGrid, State.blockAt_setGrid, State.modBlock, State.blockAt_setBlock_same]
  · show (v.gridAt (s.blockAt bid).grid).retired = _
    rw [hv, State.modGrid, State.gridAt_setGrid_same]
    rfl

/-! ### WARP_SLOT_RELEASE (R121, R202) -/

/-- An ended team has gone: itself, its core's watch entries and its partition have changed, and no byte of memory. -/
structure SlotsGone (s : State) (tid : Nat) (u : Team) (t : State) : Prop where
  mem : t.mem = s.mem
  teams : t.teams = kPut tid (unslotted s tid u) s.teams
  watch : ∀ w ∈ (t.coreAt u.core).watch, w.tid ≠ tid
  holder : (s.partAt u.partNo).holder = some tid → (t.partAt u.partNo).holder = none

theorem noteOut_next (s : State) (core cls : Nat) (w : State) : ∃ p, noteOut s core cls (.next w) = .next { w with plat := p } := by
  obtain ⟨p, hp⟩ := noteFetches_eq s core cls w
  exact ⟨p, by rw [noteOut, hp]⟩

section
variable {s : State} {u : Team} (hteam : u = s.teamAt s.ev.x) (hu : kGet s.ev.x s.teams = some u) (hs : kSorted s.teams = true)
include hteam

theorem execWarpSlotRelease_busy (h : endedQuiet s (s.ev.x, u) = false) : exec .warpSlotRelease s = .next s := by
  rw [hteam] at h
  rw [exec_warpSlotRelease, execWarpSlotRelease_eq, if_pos (by rw [h]; rfl), noteOut, noteFetches_self]

include hu hs

theorem slotsFreed_gone : SlotsGone s s.ev.x u (slotsFreed s s.ev.x) where
  mem := by
    obtain ⟨_, _, h⟩ := (slotsFreed_oneTeam hu hs).eq
    rw [h]
  teams := (slotsFreed_oneTeam hu hs).teams
  watch := by
    rw [hteam]
    exact slotsFreed_watch s s.ev.x
  holder := by
    rw [hteam]
    exact slotsFreed_holder

omit hteam in
theorem slotsFreed_blocks : (slotsFreed s s.ev.x).blocks = s.blocks ∧ (slotsFreed s s.ev.x).grids = s.grids := by
  obtain ⟨_, _, h⟩ := (slotsFreed_oneTeam hu hs).eq
  rw [h]
  exact ⟨rfl, rfl⟩

variable (hq : endedQuiet s (s.ev.x, u) = true)
include hq

/-- With its last team the block retires. -/
theorem execWarpSlotRelease_last (hw : (s.blockAt u.block).windows = []) (hb : (s.coreAt (s.blockAt u.block).core).sbuf = [])
    (hlast : ∀ p ∈ blockTeams s u.block, p.1 ≠ s.ev.x → p.2.status = .ended ∧ p.2.slots = []) :
    ∃ t, exec .warpSlotRelease s = .next t ∧ SlotsGone s s.ev.x u t ∧ (t.blockAt u.block).status = .retired ∧
      (t.gridAt (s.blockAt u.block).grid).retired = (s.gridAt (s.blockAt u.block).grid).retired + 1 := by
  have hended : u.status = .ended := by
    simp only [endedQuiet, Bool.and_eq_true, decide_eq_true_eq] at hq
    tauto
  have hall : (blockTeams (slotsFreed s s.ev.x) u.block).all (fun p => p.2.status = .ended && p.2.slots = []) = true := by
    rw [List.all_eq_true]
    intro p hp
    obtain rfl | ⟨hp, hne⟩ := (mem_blockTeams_freed hu hs p).1 hp
    · simp [unslotted, hended]
    · simpa using hlast p hp hne
  obtain ⟨hmem, hteams, hwatch, hholder⟩ := slotsFreed_gone hteam hu hs
  obtain ⟨hblocks, hgrids⟩ := slotsFreed_blocks hu hs
  have hblock : (slotsFreed s s.ev.x).blockAt u.block = s.blockAt u.block := congrArg (kGetD u.block Block.blank) hblocks
  obtain ⟨w, hretire, hret⟩ := retireBlock_bare (s := slotsFreed s s.ev.x) (bid := u.block) (by rw [hblock, hw]) (by rw [hblock, (slotsFreed_oneTeam hu hs).sbuf, hb])
  obtain ⟨p, hnote⟩ := noteOut_next s u.core 2 w
  have hcounted := hret.counted
  rw [hblock, State.gridAt, State.gridAt, hgrids] at hcounted
  refine ⟨{ w with plat := p }, ?_, ⟨hret.mem.trans hmem, hret.teams.trans hteams, fun x hx => ?_, fun h => ?_⟩, hret.status, hcounted⟩
  · rw [exec_warpSlotRelease, execWarpSlotRelease_eq, ← hteam, if_neg (by rw [hq]; decide), if_pos hall, hretire]
    exact hnote
  · exact hwatch x ((hret.watch u.core) ▸ hx)
  · show (w.partAt u.partNo).holder = none
    rw [State.partAt, hret.parts]
    exact hholder h

/-- While another team of the block stands, the block stays. -/
theorem execWarpSlotRelease_others (hmore : ∃ p ∈ blockTeams s u.block, p.1 ≠ s.ev.x ∧ (p.2.status ≠ .ended ∨ p.2.slots ≠ [])) :
    ∃ t, exec .warpSlotRelease s = .next t ∧ SlotsGone s s.ev.x u t ∧ t.blocks = s.blocks ∧ t.grids = s.grids := by
  have hstays : ¬ (blockTeams (slotsFreed s s.ev.x) u.block).all (fun p => p.2.status = .ended && p.2.slots = []) = true := by
    obtain ⟨p, hp, hne, hbusy⟩ := hmore
    rw [List.all_eq_true]
    intro h
    have hp' := h p ((mem_blockTeams_freed hu hs p).2 (.inr ⟨hp, hne⟩))
    simp only [Bool.and_eq_true, decide_eq_true_eq] at hp'
    tauto
  obtain ⟨hmem, hteams, hwatch, hholder⟩ := slotsFreed_gone hteam hu hs
  obtain ⟨hblocks, hgrids⟩ := slotsFreed_blocks hu hs
  obtain ⟨p, hnote⟩ := noteOut_next s u.core 2 (slotsFreed s s.ev.x)
  refine ⟨{ slotsFreed s s.ev.x with plat := p }, ?_, ⟨hmem, hteams, hwatch, hholder⟩, hblocks, hgrids⟩
  rw [exec_warpSlotRelease, execWarpSlotRelease_eq, ← hteam, if_neg (by rw [hq]; decide), if_neg hstays]
  exact hnote

end

theorem slotsReleased : SlotsReleased := by
  intro s u hteam hu hs
  refine ⟨execWarpSlotRelease_busy hteam, fun hq hw hb => ?_⟩
  have hteamAt {t : State} (ht : SlotsGone s s.ev.x u t) : t.teamAt s.ev.x = unslotted s s.ev.x u ∧ ∀ k, k ≠ s.ev.x → t.teamAt k = s.teamAt k := by
    refine ⟨by rw [State.teamAt, ht.teams, kGetD_kPut_same], fun k hk => ?_⟩
    rw [State.teamAt, ht.teams, kGetD_kPut_other _ _ _ _ _ hk]
    rfl
  by_cases hlast : ∀ p ∈ blockTeams s u.block, p.1 ≠ s.ev.x → p.2.status = .ended ∧ p.2.slots = []
  · obtain ⟨t, ht, hgone, hretired, hcounted⟩ := execWarpSlotRelease_last hteam hu hs hq hw hb hlast
    obtain ⟨hsame, hother⟩ := hteamAt hgone
    refine ⟨t, ht, fun a => by rw [hgone.mem], hsame, hgone.watch, hother, hgone.holder, fun _ => ⟨hretired, hcounted⟩, ?_⟩
    rintro ⟨p, hp, hne, hbusy⟩
    obtain ⟨hended, hslots⟩ := hlast p hp hne
    exact absurd hbusy (by simp [hended, hslots])
  · have hmore : ∃ p ∈ blockTeams s u.block, p.1 ≠ s.ev.x ∧ (p.2.status ≠ .ended ∨ p.2.slots ≠ []) := by
      push Not at hlast
      obtain ⟨p, hp, hne, hbusy⟩ := hlast
      exact ⟨p, hp, hne, Classical.or_iff_not_imp_left.2 fun h => hbusy (not_not.1 h)⟩
    obtain ⟨t, ht, hgone, hblocks, hgrids⟩ := execWarpSlotRelease_others hteam hu hs hq hmore
    obtain ⟨hsame, hother⟩ := hteamAt hgone
    exact ⟨t, ht, fun a => by rw [hgone.mem], hsame, hgone.watch, hother, hgone.holder, fun h => absurd h hlast, fun _ => ⟨hblocks, hgrids⟩⟩

/-! ### Pending traps (R125, R224, R270, R310) -/

/-- A trap that is no claimant's fault of an absent page stands as it was raised (R281, R283). -/
theorem mergedTrap_self {s : State} {tid : Nat} {tr : Trap} (h : tr.cause ≠ 0x12 ∨ tr.i3 ≠ 1 ∨ (s.dieAt (dieOf (s.teamAt tid).core)).stage = []) : mergedTrap s tid tr = tr := by
  rw [mergedTrap]
  split
  · next hc =>
    simp only [Bool.and_eq_true, decide_eq_true_eq] at hc
    obtain h | h | h := h
    · exact absurd hc.1 h
    · exact absurd hc.2 h
    · simp [claimed, h]
  · rfl

section
variable {s : State}

theorem execPendingTrapTaken_stays (h : (s.teamAt s.ev.x).trap.sup = true ∨ (s.teamAt s.ev.x).live = 0 ∨ leavable (s.teamAt s.ev.x).wait = false) : exec .pendingTrapTaken s = .next s := by
  have hno : takePending s s.ev.x = none := if_pos (by simp only [Bool.or_eq_true, decide_eq_true_eq, Bool.not_eq_true']; tauto)
  rw [exec_pendingTrapTaken, execPendingTrapTaken, hno]
  rfl

theorem execPendingTrapTaken_takes {p : PendTrap} {v : Team} (hlive : (s.teamAt s.ev.x).status = .live) (hsup : (s.teamAt s.ev.x).trap.sup = false)
    (hlanes : (s.teamAt s.ev.x).live ≠ 0) (hwait : leavable (s.teamAt s.ev.x).wait = true) (hp : pendingOf (s.teamAt s.ev.x) = some (p, v)) :
    exec .pendingTrapTaken s = .next (enterTrap (s.setTeamAt s.ev.x v) s.ev.x
      (mergedTrap s s.ev.x { cause := p.cause, i0 := p.i0, i1 := p.i1, i2 := p.i2, i3 := p.i3 }) (s.teamAt s.ev.x).mask (s.teamAt s.ev.x).pc p.strm) := by
  rw [exec_pendingTrapTaken, execPendingTrapTaken, takePending, if_neg ?_, hp]
  · rfl
  · simp only [Bool.or_eq_true, decide_eq_true_eq, Bool.not_eq_true', not_or]
    exact ⟨⟨⟨not_not.2 hlive, hlanes⟩, by simp [hsup]⟩, by simp [hwait]⟩

end

theorem pendingTrapsTaken : PendingTrapsTaken := by
  intro s u p hteam hlive
  subst hteam
  refine ⟨fun h => ?_, fun va acc hw => ?_, fun hsup hlanes hwait => ?_, fun tr h => mergedTrap_self h⟩
  · exact execPendingTrapTaken_stays (by tauto)
  · exact execPendingTrapTaken_stays (by rw [hw]; exact .inr (.inr rfl))
  · have hleave : leavable (s.teamAt s.ev.x).wait = true := by
      obtain hw | ⟨_, _, _, hw⟩ | ⟨_, hw⟩ | hw | ⟨_, hw⟩ | ⟨_, _, hw⟩ := hwait <;> rw [hw] <;> rfl
    refine ⟨fun r hst => ?_, fun hst hc => ?_, fun r hst hc hm => ?_⟩ <;> refine execPendingTrapTaken_takes hlive hsup hlanes hleave ?_ <;> rw [pendingOf]
    · rw [hst]
    · rw [hst, hc]
    · rw [hst, hc, hm]

/-- Settles O56: a team that leaves its slots (`slotsFreed`) and the block that retires with it; then the traps that stand pending. -/
theorem slotsAndPendingTraps : Obligations.SlotsAndPendingTraps := ⟨slotsReleased, pendingTrapsTaken⟩

end Sys2Proof.Machine
end

section
/-! What a load leaves of teams, grids and blocks (R189, R201, R242, R351-R363). -/

namespace Sys2Proof.Machine

open Sys2Proof Sys2Proof.Safety Sys2Proof.Claims

/-! ### A line is gained by memory and dies alone (R351-R363) -/

section
variable {s w : State} (h : HomeKeeps s w)
include h

theorem HomeKeeps.mscRoom (k line : Nat) : HomeKeeps s (mscRoom w k line) := by
  rw [Machine.mscRoom]
  split
  · exact h
  · split
    · exact h
    · exact h.evictMsc _ _

theorem HomeKeeps.enterMsc (k line : Nat) : HomeKeeps s (enterMsc w k line) := by
  rw [Machine.enterMsc]
  split
  · exact h
  · split
    · exact h.modDie _ fun _ => rfl
    · refine HomeKeeps.setDir (HomeKeeps.modDie ?_ _ ?_) _ _ _
      · exact h.mscRoom _ _
      · exact fun _ => rfl

theorem HomeKeeps.takeWb (k die line : Nat) : HomeKeeps s (takeWb w k die line) := by
  rw [Machine.takeWb]
  dsimp only
  split
  · exact h
  · refine HomeKeeps.modDie ?_ _ fun _ => rfl
    split
    · exact (h.homeWrite _ _ _).setDir _ _ _
    · exact h

theorem HomeKeeps.sendWb (die line : Nat) : HomeKeeps s (sendWb w die line) := by
  rw [Machine.sendWb]
  split
  · exact h
  · dsimp only
    split
    · exact h.setDir _ _ _
    · exact h.takeWb _ _ _

theorem HomeKeeps.dropL2 (die line : Nat) : HomeKeeps s (dropL2 w die line) := h.modDie _ fun _ => rfl

theorem HomeKeeps.setL2 (die line : Nat) (e : L2Line) : HomeKeeps s (setL2 w die line e) := h.modDie _ fun _ => rfl

theorem HomeKeeps.evictLine (die line : Nat) : HomeKeeps s (evictLine w die line) := by
  rw [Machine.evictLine]
  split
  · exact h
  · dsimp only
    split
    · refine HomeKeeps.sendWb (HomeKeeps.modDie ?_ _ ?_) _ _
      · exact h.dropL2 _ _
      · exact fun _ => rfl
    · exact h.dropL2 _ _

theorem HomeKeeps.l2Room (die : Nat) : HomeKeeps s (l2Room w die) := by
  rw [Machine.l2Room]
  split
  · exact h
  · rw [Machine.makeRoom]
    split
    · exact h
    · exact h.evictLine _ _

theorem HomeKeeps.grantLine (die line : Nat) (st : L2St) (d : Line) (ver : BitVec 16) : HomeKeeps s (grantLine w die line st d ver) := by
  rw [Machine.grantLine]
  refine HomeKeeps.modDie ?_ _ fun _ => rfl
  split
  · exact h
  · exact h.l2Room _

theorem HomeKeeps.keepFor (die line : Nat) : HomeKeeps s (keepFor w die line) := by
  rw [Machine.keepFor]
  split
  · exact h.setL2 _ _ _
  · exact h

theorem HomeKeeps.grantExclusive (k die line : Nat) : HomeKeeps s (grantExclusive w k die line) := by
  rw [Machine.grantExclusive]
  refine HomeKeeps.keepFor (HomeKeeps.setDir ?_ _ _ _) _ _
  split
  · exact h.setL2 _ _ _
  · exact h.grantLine _ _ _ _ _

theorem HomeKeeps.grantShared (k die line : Nat) : HomeKeeps s (grantShared w k die line) := by
  rw [Machine.grantShared]
  split
  · exact (h.grantLine _ _ _ _ _).setDir _ _ _
  · exact (h.grantLine _ _ _ _ _).setDir _ _ _

theorem HomeKeeps.takeReq (k line : Nat) (r : Req) : HomeKeeps s (takeReq w k line r) := by
  rw [Machine.takeReq]
  have henter := h.enterMsc k line
  split
  · exact h
  · dsimp only
    split
    · exact henter.takeWb _ _ _
    · split
      · exact henter.setDir _ _ _
      · exact henter.grantShared _ _ _
    · split
      · exact henter.setDir _ _ _
      · split
        · exact henter.grantExclusive _ _ _
        · exact henter.setDir _ _ _

omit h in
theorem HomeKeeps.serveLine (k line n : Nat) {w : State} (h : HomeKeeps s w) : HomeKeeps s (serveLine k line n w) := by
  induction n generalizing w with
  | zero => exact h
  | succ n ih =>
    rw [Machine.serveLine]
    split
    · exact h
    · split
      · exact h
      · exact ih ((h.setDir _ _ _).takeReq _ _ _)

theorem HomeKeeps.sendReq (line : Nat) (r : Req) : HomeKeeps s (sendReq w line r) := by
  rw [Machine.sendReq]
  split
  · exact h
  · exact (h.setDir _ _ _).serveLine _ _ _

theorem HomeKeeps.answerFwd (line : Nat) (kind : TrKind) : HomeKeeps s (answerFwd w line kind) := by
  rw [Machine.answerFwd]
  split
  · exact h
  · dsimp only
    split
    · exact h
    · split
      · exact h
      · split
        · exact h
        · split
          · exact h.setDir _ _ _
          · split
            · exact (h.setDir _ _ _).setL2 _ _ _
            · exact (h.setDir _ _ _).dropL2 _ _

theorem HomeKeeps.answerInv (die line : Nat) : HomeKeeps s (answerInv w die line) := by
  rw [Machine.answerInv]
  split
  · exact h
  · dsimp only
    split
    · exact h
    · split
      · exact (h.dropL2 _ _).setDir _ _ _
      · exact h

theorem HomeKeeps.refuseReq (k line : Nat) (t : Trans) : HomeKeeps s (refuseReq w k line t) := by
  rw [Machine.refuseReq]
  refine HomeKeeps.setDir ?_ _ _ _
  split
  · exact h.homeWrite _ _ _
  · exact h

theorem HomeKeeps.completeReq (k line : Nat) (t : Trans) : HomeKeeps s (completeReq w k line t) := by
  rw [Machine.completeReq]
  dsimp only
  split
  · exact h.refuseReq _ _ _
  · split
    · refine HomeKeeps.setDir (HomeKeeps.grantLine ?_ _ _ _ _ _) _ _ _
      split
      · exact h.homeWrite _ _ _
      · exact h
    · exact (h.setDir _ _ _).grantShared _ _ _
    · exact ((h.grantLine _ _ _ _ _).setDir _ _ _).keepFor _ _
    · exact ((h.grantLine _ _ _ _ _).setDir _ _ _).keepFor _ _
    · exact h.grantExclusive _ _ _

theorem HomeKeeps.snoopDone (line : Nat) : HomeKeeps s (snoopDone w line) := by
  rw [Machine.snoopDone]
  split
  · exact h
  · dsimp only
    split
    · exact h
    · split
      · exact (h.completeReq _ _ _).serveLine _ _ _
      · exact h

theorem HomeKeeps.settleLine (line : Nat) : HomeKeeps s (settleLine w line) :=
  (foldl_keeps (P := HomeKeeps s) (fun _ _ h => h.answerInv _ _) _ ((h.answerFwd _ _).answerFwd _ _)).snoopDone _

theorem HomeKeeps.gainLine (die line : Nat) (excl : Bool) : Yields (HomeKeeps s) (gainLine w die line excl) := by
  rw [Machine.gainLine]
  split
  · split
    · exact .some (h.setL2 _ _ _)
    · split
      · exact .some ((h.sendReq _ _).settleLine _)
      · exact .none
  · split
    · exact .some ((h.sendReq _ _).settleLine _)
    · exact .none

end

/-! ### A load (R189, R201, R242) -/

theorem HomeKeeps.teamsStand {s w : State} (h : HomeKeeps s w) : TeamsStand s w := by
  obtain ⟨⟨m, ds, rfl⟩, -⟩ := h
  exact ⟨rfl, rfl, rfl, fun _ => rfl, fun _ h => h⟩

section
variable {s w : State} (h : TeamsStand s w)
include h

theorem TeamsStand.mapWindows (c : Nat) (g : Window → Window) : TeamsStand s (mapWindows w c g) :=
  foldl_keeps (P := TeamsStand s) (fun _ p h => h.modBlock p.1 (f := fun b => { b with windows := b.windows.map g }) (fun _ => rfl) (fun _ h => h)) _ h

theorem TeamsStand.setL1 (c line : Nat) (x : L1Copy) : TeamsStand s (setL1 w c line x) := h.modCore _ _

theorem TeamsStand.putWLine (b off i : Nat) (l : WLine) : TeamsStand s (putWLine w b off i l) := by
  refine h.modBlock b ?_ ?_
  · exact fun _ => rfl
  · exact fun _ hx => hx

theorem TeamsStand.setPts (c : Nat) (v : BitVec 16) : TeamsStand s (setPts w c v) := by
  rw [Machine.setPts]
  split
  · exact h
  · exact (h.modCore _ _).mapWindows _ _

/-- The L2 serves a load. -/
theorem TeamsStand.l2Serve (c line lease : Nat) : Yields (fun p => TeamsStand s p.1) (l2Serve w c line lease) := by
  rw [Machine.l2Serve]
  dsimp only
  split
  · exact .none
  · next v hv =>
    have hgain := h.trans ((HomeKeeps.refl w).gainLine _ _ _ v hv).teamsStand
    split
    · exact .none
    · exact .some ((hgain.modDie _ _).setPts _ _)

theorem TeamsStand.fetchCopy (c line lease : Nat) : Yields (fun p => TeamsStand s p.1) (fetchCopy w c line lease) := by
  rw [Machine.fetchCopy]
  dsimp only
  split
  · exact .none
  · next v e le hv => exact .some (TeamsStand.setL1 (h.l2Serve _ _ _ _ hv) _ _ _)

theorem TeamsStand.fillWindow (c b : Nat) (win : Window) (i line : Nat) : Yields (TeamsStand s) (fillWindow w c b win i line) := by
  have hput {v : State} (hv : TeamsStand s v) (l : WLine) (d : Line) :
      TeamsStand s ((Machine.putWLine (Machine.stashWrite v b (win.off + 64 * i) (lineBytes d)) b win.off i l).modCore c (fun k => { k with l1 := kDel line k.l1 })) :=
    ((hv.stashWrite _ _ _).putWLine _ _ _ _).modCore _ _
  rw [Machine.fillWindow]
  split
  · exact .some (hput h _ _)
  · split
    · exact .some (hput h _ _)
    · exact .map (h.l2Serve _ _ _) fun r hr => hput hr _ _

theorem TeamsStand.loadLine (c line lease : Nat) : Yields (fun p => TeamsStand s p.1) (loadLine w c line lease) := by
  rw [Machine.loadLine]
  split
  · exact .some h
  · refine .map (P := fun p => TeamsStand s p.1) ?_ fun p hp => hp
    split
    · split
      · exact .some h
      · exact .map (h.fillWindow _ _ _ _ _) fun v hv => hv
    · split
      · split
        · exact .some h
        · exact h.fetchCopy _ _ _
      · exact h.fetchCopy _ _ _

end

end Sys2Proof.Machine
end

section
/-! `trap`, `chkw` and `tail` (R130-R132, R271-R273). -/

namespace Sys2Proof.Machine

open Sys2Proof Sys2Proof.Safety Sys2Proof.Claims

/-! ### A trap that a handler takes (R131, R271, R273) -/

/-- The team in its handler. -/
def handlerTeam (t : Team) (tr : Trap) (lanes : LaneSet) (tpc : DWord) (strm : Bool) : Team := { t with
  rep := 0, inRep := none, mask := lanes, pc := t.trap.tvec, clause := none, wait := .none, xlat := [], walkFault := []
  trap := { t.trap with
    sup := true, tpc := tpc, tcause := BitVec.ofNat 32 (tr.cause + (if strm then 2 ^ 31 else 0)), tinfo0 := tr.i0, tinfo1 := tr.i1, tinfo2 := tr.i2
    tinfo3 := tr.i3, tmask := lanes, tpcWritten := false, savedClause := t.clause, savedWait := t.wait } }

/-- With no result of the special-function unit under way, a trap that a handler takes changes the stash, the unit's queue and the team. -/
theorem enterTrap_handled {s : State} {tid : Nat} (hsup : (s.teamAt tid).trap.sup = false) (hvec : (s.teamAt tid).trap.tvec ≠ 0)
    (hq : (s.partAt (s.teamAt tid).partNo).sfuQ = []) (tr : Trap) (lanes : LaneSet) (tpc : DWord) (strm : Bool) :
    (enterTrap s tid tr lanes tpc strm).cur = s.cur ∧ (enterTrap s tid tr lanes tpc strm).teamAt tid = handlerTeam (s.teamAt tid) tr lanes tpc strm := by
  have hdrain : (drainSfu s tid).teamAt tid = s.teamAt tid := by
    rw [drainSfu, State.teamAt_setPart, State.teamAt_setTeamAt_same, hq]
    rfl
  rw [enterTrap, if_neg (by simp only [hsup, Bool.false_or, decide_eq_true_eq]; exact hvec)]
  refine ⟨rfl, ?_⟩
  simp only [State.teamAt_setTeamAt_same, hdrain]
  rfl

section
variable {f : Fields} {s : State}

/-- The team that `trap` leaves: past its clause, issued. -/
def trappedTeam (s : State) : Team := { s.team.issued s.cc with clause := none, inRep := none }

/-- With a handler set, `trap` enters it with the Software trap. -/
theorem execTrap_enters (hr : reaches s (.trap f) = true) (hsup : s.team.trap.sup = false) (hvec : s.team.trap.tvec ≠ 0) (hq : (s.partAt s.team.partNo).sfuQ = []) :
    ∃ t, exec (.trap f) s = .next t ∧ sameMem s t ∧
      t.team = handlerTeam (trappedTeam s) { cause := 0x06, i0 := immOf f } s.team.mask (s.team.pc + BitVec.ofNat 64 (lenOf f)) false := by
  have hteam : (s.setTeam (trappedTeam s)).teamAt s.cur = trappedTeam s := State.teamAt_setTeamAt_same _ _ _
  have henter := enterTrap_handled (s := s.setTeam (trappedTeam s)) (tid := s.cur)
  rw [hteam] at henter
  obtain ⟨hcur, hin⟩ := henter hsup hvec hq { cause := 0x06, i0 := immOf f } s.team.mask (s.team.pc + BitVec.ofNat 64 (lenOf f)) false
  refine ⟨enterTrap (s.setTeam (trappedTeam s)) s.cur { cause := 0x06, i0 := immOf f } s.team.mask (s.team.pc + BitVec.ofNat 64 (lenOf f)) false, ?_, fun a => ?_, ?_⟩
  · rw [exec_trap, execTrap, issue_reaches _ rfl hr]
    rfl
  · rw [enterTrap_mem, State.setTeam_mem]
  · rw [State.team, hcur]
    exact hin

/-- The core without the team's watch entries. -/
def watchesCleared (s : State) : State := s.modCore s.team.core (fun k => { k with watch := k.watch.filter (fun w => w.tid != s.cur) })

theorem execChkw_reaches (hr : reaches s (.chkw f) = true) : exec (.chkw f) s =
    match releaseGate s s.cur with
    | .wait => .next (s.setTeam { s.team with wait := .watch })
    | g =>
      if s.team.mask = 0 then finish s s.team f
      else if g = .struck then transfer (watchesCleared s) { s.team with struck := false } (labelOf s.team f)
      else finish (watchesCleared s) { s.team with struck := false } f := by
  rw [exec_chkw, execChkw]
  exact issue_reaches _ rfl hr

end

/-! ### The watch check (R132) -/

/-- A team whose release is clear has no strike. -/
theorem not_struck_of_clear {s : State} {tid : Nat} (h : releaseGate s tid = .clear) : (s.teamAt tid).struck = false := by
  rw [releaseGate] at h
  split at h
  · cases h
  · split at h
    · cases h
    · next hn =>
      rw [Bool.or_eq_true, not_or] at hn
      exact Bool.eq_false_iff.2 hn.1

/-- What changes the team alone leaves the core without the team's watch entries. -/
theorem onlyTeam_watchesCleared {s t : State} (h : OnlyTeam (watchesCleared s) t) : sameMem s t ∧ ∀ w ∈ (t.coreAt s.team.core).watch, w.tid ≠ s.cur := by
  refine ⟨h.mem, fun w hw => ?_⟩
  rw [h.team, State.setTeam_eq, State.coreAt_setTeamAt, watchesCleared, State.modCore, State.coreAt_setCore_same] at hw
  exact bne_iff_ne.1 (List.mem_filter.1 hw).2

theorem softwareTrapAndWatchCheck : SoftwareTrapAndWatchCheck := by
  intro f s
  refine ⟨fun hr hsup hvec hq => ?_, fun hr hm hclear => ?_, fun hr hm hstruck => ?_, fun hr hwait => ?_⟩
  · obtain ⟨t, ht, hmem, hteam⟩ := execTrap_enters hr hsup hvec hq
    exact ⟨t, ht, hmem, by rw [hteam]; exact ⟨rfl, rfl, rfl, rfl, rfl, rfl, rfl, rfl, rfl⟩⟩
  · obtain ⟨t, ht, honly, hon, hplaced⟩ := finish_placed (watchesCleared s) { s.team with struck := false } f rfl rfl rfl rfl
    obtain ⟨hmem, hwatch⟩ := onlyTeam_watchesCleared honly
    have hnot : s.team.struck = false := not_struck_of_clear hclear
    refine ⟨t, ?_, hmem, hon, ?_, hwatch⟩
    · simp only [execChkw_reaches hr, hclear, if_neg hm]
      exact ht
    · refine Eq.trans (b := placed s.team { s.team with struck := false }) hplaced ?_
      rw [← hnot]
      rfl
  · obtain ⟨t, ht, honly, hto, hplaced⟩ := transfer_placed (watchesCleared s) { s.team with struck := false } (labelOf s.team f)
    obtain ⟨hmem, hwatch⟩ := onlyTeam_watchesCleared honly
    have hframe : placed s.team t.team = placed s.team { s.team with struck := false } := hplaced
    refine ⟨t, ?_, hmem, hto, by rw [hframe]; rfl, congrArg Team.struck hframe, hwatch⟩
    simp only [execChkw_reaches hr, hstruck, if_neg hm]
    exact ht
  · simp only [execChkw_reaches hr, hwait]

/-! ### Tail records (R130) -/

/-- The launch record that `tail` keeps with its grid, unless the grid has failed. -/
def keepRecord (s q : State) (line : Nat) (d : Line) : State := q.modGrid s.team.grid (fun g => if g.failed then g else { g with
  tails := g.tails ++ [{ block := (q.blockAt s.team.block).idx, seq := g.tails.length, bytes := lineBytes (stagedLine q s.team.block line d) }] })

section
variable {f : Fields} {s : State} (hr : reaches s (.tail f) = true)
include hr

theorem execTail_reaches : exec (.tail f) s =
    if (srcS64 s.team f.a.toNat 0).toNat % 64 ≠ 0 then trapAll s (controlOrder 7 0)
    else if 256 ≤ (s.gridAt s.team.grid).tails.length then trapAll s (controlOrder 5 0)
    else withGather s accR (gather [(0, (srcS64 s.team f.a.toNat 0).toNat, checkGlobal s s.cur (srcS64 s.team f.a.toNat 0).toNat 1 wantRead)]) (fun _ => s.team.mask) (fun accs =>
      match accs with
      | [] => .next s
      | a :: _ => if poisonIn s a.addr 64 && !servedByCopy s s.team.core (a.addr / 64) then .next (endTeamBad s s.cur 2)
        else withRelease s (s.gridAt s.team.grid).lrec.cscope (fun r =>
          match loadLine r s.team.core (a.addr / 64) a.lease with
          | none => .next s
          | some (q, d) => finish (keepRecord s q (a.addr / 64) d) (keepRecord s q (a.addr / 64) d).team f)) := by
  rw [exec_tail, execTail, issue_reaches _ rfl hr]
  rfl

/-- An aligned address that passes its checks, with nothing left to release: the line read there becomes the record. -/
theorem execTail_keeps {pa lease cls : Nat} {r q : State} {d : Line} (hal : (srcS64 s.team f.a.toNat 0).toNat % 64 = 0) (hroom : (s.gridAt s.team.grid).tails.length < 256)
    (hcheck : checkGlobal s s.cur (srcS64 s.team f.a.toNat 0).toNat 1 wantRead = .ok none pa lease cls) (hpoison : poisonIn s pa 64 = false) (hq : Safety.quiet s)
    (hrel : performRelease s s.cur (s.gridAt s.team.grid).lrec.cscope = some r) (hload : loadLine r s.team.core (pa / 64) lease = some (q, d)) :
    exec (.tail f) s = finish (keepRecord s q (pa / 64) d) (keepRecord s q (pa / 64) d).team f := by
  have hgather : gather [(0, (srcS64 s.team f.a.toNat 0).toNat, Chk.ok none pa lease cls)] = .go
      [{ lane := 0, blk := none, addr := pa, va := (srcS64 s.team f.a.toNat 0).toNat, data := 0, data2 := 0, lease := lease, mclass := cls }] :=
    gather_ok [{ lane := 0, blk := none, addr := pa, va := (srcS64 s.team f.a.toNat 0).toNat, data := 0, data2 := 0, lease := lease, mclass := cls }] (by simp)
  rw [execTail_reaches hr, if_neg (not_not.2 hal), if_neg (Nat.not_le.2 hroom), hcheck, hgather]
  simp only [withGather, hpoison, Bool.false_and, Bool.false_eq_true, if_false, withRelease_performed hq hrel, hload]

end

theorem keepRecord_tails {s q : State} (hfail : (q.gridAt s.team.grid).failed = false) (hstaged : (q.blockAt s.team.block).staged = []) (line : Nat) (d : Line) :
    ((keepRecord s q line d).gridAt s.team.grid).tails = (q.gridAt s.team.grid).tails ++
      [{ block := (q.blockAt s.team.block).idx, seq := (q.gridAt s.team.grid).tails.length, bytes := lineBytes d }] := by
  have hline : stagedLine q s.team.block line d = d := if_pos hstaged
  rw [keepRecord, State.modGrid, State.gridAt_setGrid_same, hline, if_neg (by rw [hfail]; decide)]

theorem tailRecords : TailRecords := by
  intro f s hr
  refine ⟨fun hbad => ?_, fun hal hfull => ?_, fun pa lease cls r q d hal hroom hfail hcheck hpoison hq hstaged hrel hload => ?_⟩
  · rw [execTail_reaches hr, if_pos hbad]
    rfl
  · rw [execTail_reaches hr, if_neg (not_not.2 hal), if_pos hfull]
    rfl
  · have ⟨_, hsbuf, _, _⟩ := hq
    obtain ⟨r', hr', hstand, -⟩ := performRelease_noStores hsbuf (s.gridAt s.team.grid).lrec.cscope
    obtain rfl : r = r' := Option.some.inj (hrel.symm.trans hr')
    have hq' : TeamsStand s q := hstand.loadLine _ _ _ _ hload
    obtain ⟨t, ht, honly, hon, hplaced⟩ := finish_placed (keepRecord s q (pa / 64) d) (keepRecord s q (pa / 64) d).team f rfl rfl rfl rfl
    rw [show (keepRecord s q (pa / 64) d).team = s.team from hq'.team] at hon hplaced
    refine ⟨t, (execTail_keeps hr hal hroom hcheck hpoison hq hrel hload).trans ht, hon, hplaced, ?_⟩
    rw [honly.team, State.setTeam_eq, State.gridAt_setTeamAt]
    exact keepRecord_tails (by rw [hq'.gridAt, hfail]) (by rw [hq'.staged, hstaged]) _ _

/-- Settles O33: `trap` enters its handler (`execTrap_enters`), `chkw` goes by its gate; `tail` reads a line, which leaves teams, grids and staged writes
alone (`TeamsStand.loadLine`), and adds it to its grid (`keepRecord`). -/
theorem trapsAndTail : Obligations.TrapsAndTail := ⟨softwareTrapAndWatchCheck, tailRecords⟩

end Sys2Proof.Machine
end

section
/-! What class V instructions write within a lane: registers, predicates, and the pair of `unpk` (R137, R147-R155, R158, R161). -/

namespace Sys2Proof.Machine

open Sys2Proof Sys2Proof.Safety Sys2Proof.Claims

/-! ### Register results (R147-R154) -/

/-- Settles O2: each row computes what its rule says (`vectorRows_run`), and an instruction of that form writes its result in the present lanes alone
(`RunsVecWrite.written`). -/
theorem vectorIntegerResults : Obligations.VectorIntegerResults :=
  fun row hrow _ _ hw hr => RunsVecWrite.written (vectorRows_run row hrow) hw hr

/-- A conversion, `pack` or `sel` has the form of an instruction that writes a vector result, whatever HOLD keeps of its operands. -/
theorem convRows_runVecWrite : ∀ row ∈ convRows, ∃ a b, RunsVecWrite (row.1, a, b, row.2) := by
  intro row hrow
  rw [← List.take_append_drop 6 convRows, List.mem_append] at hrow
  obtain hcvt | hrest := hrow
  · exact ⟨_, _, convRows_run row hcvt⟩
  · simp only [convRows, List.drop_succ_cons, List.drop_zero, List.mem_cons, List.not_mem_nil, or_false] at hrest
    obtain rfl | rfl := hrest
    · exact ⟨_, _, runsVecWrite_pack⟩
    · exact ⟨_, _, runsVecWrite_sel⟩

/-- Settles O3: the rows' results lane by lane (`floatRows_run`, `packedRows_run`, `convRows_runVecWrite`), then their write. -/
theorem vectorFloatAndConversionResults : Obligations.VectorFloatAndConversionResults := by
  intro row hrow f s hw hr
  simp only [List.mem_append] at hrow
  obtain (hfloat | hpacked) | hconv := hrow
  · exact (floatRows_run row hfloat).written hw hr
  · exact (packedRows_run row hpacked).written hw hr
  · obtain ⟨a, b, hrun⟩ := convRows_runVecWrite row hconv
    exact hrun.written hw hr

/-! ### Predicate results (R149, R151, R158, R161) -/

theorem Team.lane_lt {t : Team} {l : Nat} (hw : t.warps ≤ 32) (hl : l < t.lanes) : l < 1024 := by
  unfold Team.lanes at hl
  omega

/-- Only the lanes of the team count of what is written to a predicate. -/
theorem predWritten_setPred_of {t : Team} (hw : t.warps ≤ 32) (p : Nat) {set v : LaneSet} {written res : Nat → Bool}
    (hset : ∀ l < t.lanes, set.getLsbD l = written l) (hres : ∀ l < t.lanes, v.getLsbD l = res l) : predWritten t (t.setPred p set v) p written res := by
  intro q l hl
  rw [Team.pred_setPred t p q set v l (Team.lane_lt hw hl), hset l hl, hres l hl]

/-- An instruction that ends with a predicate result goes on and leaves the rest alone. -/
theorem finishHold_pred {s : State} (hw : s.team.warps ≤ 32) (x : Fields) (row : Option (KMap Word)) (p : Nat) (set : LaneSet) {v : LaneSet} {res : Nat → Bool}
    (hres : ∀ l < s.team.lanes, v.getLsbD l = res l) :
    ∃ t, finishHold s (s.team.setPred p set v) x row = .next t ∧ OnlyTeam s t ∧ wentOn s.team t.team (lenOf x) ∧
      { placed s.team t.team with preds := s.team.preds } = s.team ∧ predWritten s.team t.team p (fun l => set.getLsbD l) res := by
  have hwritten : predWritten s.team (s.team.setPred p set v) p (fun l => set.getLsbD l) res := predWritten_setPred_of hw p (fun _ _ => rfl) hres
  obtain ⟨r, hr⟩ := setPred_preds s.team p set v
  rw [hr] at hwritten ⊢
  obtain ⟨t, ht, honly, hon, -, p, c, e, q, k, g, y, z, hteam⟩ := finishHold_spec s { s.team with preds := r } x row rfl rfl rfl rfl
  refine ⟨t, ht, honly, hon, ?_, ?_⟩ <;> rw [hteam]
  · rfl
  · exact hwritten

/-- A row of instructions with a predicate result: the lane set that it writes holds its value in every lane of the team. -/
def RunsPredRow (row : PredRow) : Prop :=
  ∀ (f : Fields) (s : State), s.team.warps ≤ 32 → reaches s (row.1 f) = true →
    ∃ a b v, exec (row.1 f) s = predWrite s s.team f a b v ∧ ∀ l < s.team.lanes, v.getLsbD l = row.2 s.team f l

theorem RunsPredRow.written {row : PredRow} (h : RunsPredRow row) {f : Fields} {s : State} (hw : s.team.warps ≤ 32) (hr : reaches s (row.1 f) = true) :
    ∃ t, exec (row.1 f) s = .next t ∧ OnlyTeam s t ∧ wentOn s.team t.team (lenOf f) ∧ { placed s.team t.team with preds := s.team.preds } = s.team ∧
      predWritten s.team t.team f.d.toNat (fun l => (presentSet s.team (modOf .v f)).getLsbD l) (row.2 s.team f) := by
  obtain ⟨a, b, v, hexec, hv⟩ := h f s hw hr
  rw [hexec]
  exact finishHold_pred hw f _ _ _ hv

theorem getLsbD_laneSetOf_lanes {t : Team} (hw : t.warps ≤ 32) (test : Nat → Bool) : ∀ l < t.lanes, (laneSetOf t.lanes test).getLsbD l = test l := by
  intro l hl
  have hlanes : t.lanes ≤ 1024 := by
    unfold Team.lanes
    omega
  rw [getLsbD_laneSetOf _ _ _ hlanes, decide_eq_true hl, Bool.true_and]

/-- A row whose lane set is given by a test on lanes. -/
theorem runsPredRow_of {con : Fields → Instr} {a b : Team → Fields → Nat → Word} {test test' : Team → Fields → Nat → Bool} (henc : EncodesItself con)
    (hexec : ∀ f s, exec (con f) s = issue (con f) s (fun t _ x => predWrite s t x (a t x) (b t x) (laneSetOf t.lanes (test t x))))
    (htest : ∀ t f l, test t f l = test' t f l) : RunsPredRow (con, test') := by
  intro f s hw hr
  refine ⟨_, _, _, (hexec f s).trans (henc.issue_eq hr), fun l hl => ?_⟩
  rw [getLsbD_laneSetOf_lanes hw _ l hl, htest]

theorem cmpWord_ne (a b : Word) : cmpWord .ne a b = (a != b) := decide_not

theorem runsPredRow_cmp {con : Fields → Instr} {sg : Bool} {c : Cmp} {fn : Word → Word → Bool} (henc : EncodesItself con)
    (hexec : ∀ f s, exec (con f) s = vecCmp (con f) s sg c) (hfn : ∀ a b, cmpWord c a b = fn a b) :
    RunsPredRow (con, fun t f l => fn (vA t f sg l) (vB t f sg l)) :=
  runsPredRow_of henc hexec fun _ _ _ => hfn _ _

theorem runsPredRow_fcmp {con : Fields → Instr} {c : FCmp} (henc : EncodesItself con) (hexec : ∀ f s, exec (con f) s = floatCmp (con f) s c) :
    RunsPredRow (con, fun t f l => fcmpVal c (ofF32 (fA t f l)) (ofF32 (fB t f l))) :=
  runsPredRow_of henc hexec fun _ _ _ => rfl

/-- A row of predicate logic: its lane set is made of whole predicates, each lane apart. -/
theorem runsPredRow_logic {con : Fields → Instr} {set : Team → Fields → LaneSet} {test : Team → Fields → Nat → Bool} (henc : EncodesItself con)
    (hexec : ∀ f s, exec (con f) s = issue (con f) s (fun t _ x => predWrite s t x (fun _ => 0) (fun _ => 0) (set t x)))
    (hset : ∀ t f l, l < 1024 → (set t f).getLsbD l = test t f l) : RunsPredRow (con, test) := by
  intro f s hw hr
  refine ⟨_, _, _, (hexec f s).trans (henc.issue_eq hr), fun l hl => hset _ _ _ (Team.lane_lt hw hl)⟩

/-- A vote: some contributor of the segment, or every one, has the predicate. -/
theorem runsPredRow_vote {con : Fields → Instr} {decideSeg : List Bool → Bool} {test : Team → Fields → Nat → Bool} (henc : EncodesItself con)
    (hexec : ∀ f s, exec (con f) s = vote (con f) s decideSeg)
    (htest : ∀ t f l, decideSeg (((segLanes (segWidth t t.seg) (segFirst (segWidth t t.seg) l)).filter (fun k => (presentSet t (modOf .v f)).getLsbD k)).map
      (fun k => (t.pred f.a.toNat).getLsbD k)) = test t f l) : RunsPredRow (con, test) :=
  runsPredRow_of henc hexec htest

theorem vectorCmpRows_runPred : ∀ r ∈ vectorCmpRows, RunsPredRow (r.1, fun t f l => r.2.2 (vA t f r.2.1 l) (vB t f r.2.1 l)) := by
  simp only [vectorCmpRows, List.forall_mem_cons, List.not_mem_nil, false_implies, implies_true, and_true]
  exact ⟨runsPredRow_cmp (fun _ => ⟨_, rfl⟩) exec_icmpEq fun _ _ => rfl,
    runsPredRow_cmp (fun _ => ⟨_, rfl⟩) exec_icmpNe cmpWord_ne, runsPredRow_cmp (fun _ => ⟨_, rfl⟩) exec_icmpLtI32 fun _ _ => rfl,
    runsPredRow_cmp (fun _ => ⟨_, rfl⟩) exec_icmpLeI32 fun _ _ => rfl, runsPredRow_cmp (fun _ => ⟨_, rfl⟩) exec_icmpLtZ32 fun _ _ => rfl,
    runsPredRow_cmp (fun _ => ⟨_, rfl⟩) exec_icmpLeZ32 fun _ _ => rfl⟩

theorem predRows_run : ∀ row ∈ predRows, RunsPredRow row := by
  simp only [predRows, List.forall_mem_append, List.forall_mem_map]
  refine ⟨vectorCmpRows_runPred, ?_⟩
  simp only [List.forall_mem_cons, List.not_mem_nil, false_implies, implies_true, and_true]
  exact ⟨runsPredRow_fcmp (fun _ => ⟨_, rfl⟩) exec_fcmpEq, runsPredRow_fcmp (fun _ => ⟨_, rfl⟩) exec_fcmpLt, runsPredRow_fcmp (fun _ => ⟨_, rfl⟩) exec_fcmpLe,
    runsPredRow_fcmp (fun _ => ⟨_, rfl⟩) exec_fcmpUn, runsPredRow_fcmp (fun _ => ⟨_, rfl⟩) exec_fcmpNe,
    runsPredRow_logic (fun _ => ⟨_, rfl⟩) exec_pand fun _ _ _ _ => BitVec.getLsbD_and, runsPredRow_logic (fun _ => ⟨_, rfl⟩) exec_por fun _ _ _ _ => BitVec.getLsbD_or,
    runsPredRow_logic (fun _ => ⟨_, rfl⟩) exec_pxor fun _ _ _ _ => BitVec.getLsbD_xor,
    runsPredRow_logic (fun _ => ⟨_, rfl⟩) exec_pnot fun t f l hl => by rw [BitVec.getLsbD_not, decide_eq_true hl, Bool.true_and],
    runsPredRow_logic (fun _ => ⟨_, rfl⟩) exec_pmov fun _ _ _ _ => rfl,
    runsPredRow_vote (fun _ => ⟨_, rfl⟩) exec_voteAny fun _ _ _ => by rw [segLanes, List.filter_map, List.map_map, List.any_map, List.any_filter]; rfl,
    runsPredRow_vote (fun _ => ⟨_, rfl⟩) exec_voteAll fun _ _ _ => by rw [segLanes, List.filter_map, List.map_map, List.all_map, List.all_filter]; rfl⟩

theorem vectorPredicateResults : VectorPredicateResults := fun row hrow _ _ hw hr => (predRows_run row hrow).written hw hr

/-! ### The pair of `unpk` (R155) -/

/-- An instruction that reaches its effect has passed the static part of check 4: each of its codes is one that its field accepts (R75). -/
theorem reaches_check4Static {i : Instr} {s : State} {fm : Form} {x : Fields} (he : encOf i = some (fm, x)) (h : reaches s i = true) : check4Static fm x = true := by
  simp only [reaches, he, Bool.and_eq_true, Option.isNone_iff_eq_none] at h
  obtain ⟨⟨⟨-, htrap⟩, -⟩, -⟩ := h
  by_contra hbad
  rw [encodingTrap, Bool.eq_false_of_not_eq_true hbad, Bool.not_false, Bool.true_or, if_pos rfl] at htrap
  split at htrap <;> cases htrap

theorem reaches_acceptsD {i : Instr} {s : State} {fm : Form} {x : Fields} (he : encOf i = some (fm, x)) (h : reaches s i = true) :
    kindAccepts (kindD fm x) x.d.toNat = true := by
  have hcodes := reaches_check4Static he h
  simp only [check4Static, Bool.and_eq_true] at hcodes
  obtain ⟨⟨⟨⟨hd, -⟩, -⟩, -⟩, -⟩ := hcodes
  exact hd

/-- The destination of `unpk` is a pair of vector registers, or 120. -/
theorem unpk_pairD {s : State} {f : Fields} (hr : reaches s (.unpk f) = true) (hd : f.d.toNat < 88) : f.d.toNat + 1 < 88 := by
  have hkind : kindAccepts .v64d f.d.toNat = true := reaches_acceptsD (i := .unpk f) rfl hr
  simp only [kindAccepts, Bool.or_eq_true, Bool.and_eq_true, decide_eq_true_eq] at hkind
  omega

/-- A team after writes to both registers of a pair, in the lanes of a set. -/
def withPair (t : Team) (d : Nat) (set : LaneSet) (lo hi : Nat → Word) : Team :=
  if d < 88 then (t.setV d set lo).setV (d + 1) set hi else t.setV d set lo

theorem withPair_regs (t : Team) (d : Nat) (set : LaneSet) (lo hi : Nat → Word) : ∃ r, withPair t d set lo hi = { t with regs := r } := by
  obtain ⟨r, hr⟩ := setV_regs t d set lo
  rw [withPair, hr]
  split
  · exact setV_regs { t with regs := r } (d + 1) set hi
  · exact ⟨r, rfl⟩

theorem vWord_setV (t : Team) (d n : Nat) (set : LaneSet) (val : Nat → Word) : (t.setV d set val).vWord n = t.vWord n := by
  obtain ⟨r, hr⟩ := setV_regs t d set val
  rw [hr]
  rfl

theorem word_withPair {t : Team} {d l : Nat} (set : LaneSet) (lo hi : Nat → Word) (q : Nat) (hw : t.warps ≤ 32) (hl : l < t.lanes) (hd : d < 88 → d + 1 < 88) :
    (withPair t d set lo hi).word q l =
      if d < 88 ∧ set.getLsbD l = true ∧ q = t.vWord d then lo l
      else if d < 88 ∧ set.getLsbD l = true ∧ q = t.vWord (d + 1) then hi l
      else t.word q l := by
  obtain ⟨r, hr⟩ := setV_regs t d set lo
  have hlo := Team.word_setV t d set lo q l hw hl
  have hne : t.vWord d ≠ t.vWord (d + 1) := by
    unfold Team.vWord
    omega
  by_cases h : d < 88
  · have hboth : (withPair t d set lo hi).word q l = if d + 1 < 88 ∧ q = (t.setV d set lo).vWord (d + 1) ∧ set.getLsbD l = true then hi l else (t.setV d set lo).word q l := by
      rw [withPair, if_pos h]
      exact Team.word_setV _ _ _ _ _ _ (by rw [hr]; exact hw) (by rw [hr]; exact hl)
    rw [hboth, hlo, vWord_setV]
    by_cases hq : q = t.vWord d
    · simp [h, hq, hne]
    · simp [h, hd h, hq, and_comm]
  · rw [withPair, if_neg h, hlo]
    simp [h]

/-- A subfield of the source of `unpk` in a lane, extended as its literal says. -/
def unpkVal (t : Team) (f : Fields) (c l : Nat) : Word := widenInt (f.b.toNat == 1) c (srcV t f.a.toNat (immOf f) l)

/-- What `unpk` makes of its team. -/
def unpkTeam (t : Team) (f : Fields) : Team :=
  withPair t f.d.toNat (presentSet t (modOf .v f)) (unpkVal t f (mAsub (modOf .v f))) (unpkVal t f (mAsub (modOf .v f) + 1))

theorem exec_unpk_reaches {f : Fields} {s : State} (hr : reaches s (.unpk f) = true) : ∃ row, exec (.unpk f) s = finishHold s (unpkTeam s.team f) f row :=
  ⟨_, (exec_unpk f s).trans (issue_reaches _ rfl hr)⟩

theorem unpackWritesPair : UnpackWritesPair := by
  intro f s hw hr
  obtain ⟨row, hexec⟩ := exec_unpk_reaches hr
  have hword : ∀ q l, l < s.team.lanes → (unpkTeam s.team f).word q l = _ := fun q l hl => word_withPair _ _ _ q hw hl (unpk_pairD hr)
  obtain ⟨r, hregs⟩ : ∃ r, unpkTeam s.team f = { s.team with regs := r } := withPair_regs _ _ _ _ _
  rw [hregs] at hexec hword
  obtain ⟨t, ht, honly, hon, -, p, c, e, q, k, g, y, z, hteam⟩ := finishHold_spec s { s.team with regs := r } f row rfl rfl rfl rfl
  refine ⟨t, hexec.trans ht, honly, hon, ?_, ?_⟩ <;> rw [hteam]
  · rfl
  · exact hword

/-- Settles O22: the rows' values lane by lane (`predRows_run`), then the two registers of `unpk` (`word_withPair`). -/
theorem vectorPredicatesAndUnpack : Obligations.VectorPredicatesAndUnpack := ⟨vectorPredicateResults, unpackWritesPair⟩

end Sys2Proof.Machine
end

section
/-! Class S (R139-R146): what its instructions write to scalar registers and to predicates. -/

namespace Sys2Proof.Machine

open Sys2Proof Sys2Proof.Safety Sys2Proof.Claims

/-! ### Arithmetic, logic, shifts, bits and fields (R140, R141) -/

/-- Code 120 writes no register, so that nothing depends on what a destination without a register would get. -/
theorem scalarWritten_congr {a b : Team} {d : Nat} {v v' : Word} (h : scalarWritten a b d v) (hv : d < 64 → v = v') : scalarWritten a b d v' := by
  intro n hn
  rw [h n hn]
  split_ifs with hd
  · exact hv (hd ▸ hn)
  · rfl

/-- What a class S instruction with a scalar result does. -/
def WritesScalar (s : State) (f : Fields) (o : Out) (v : Word) : Prop :=
  ∃ t, o = .next t ∧ OnlyTeam s t ∧ wentOn s.team t.team (lenOf f) ∧ { placed s.team t.team with sregs := s.team.sregs } = s.team ∧
    scalarWritten s.team t.team f.d.toNat v

/-- A row of the integer instructions of class S: its result narrowed into the destination's subfield. -/
def RunsScalarRow (r : IntRow) : Prop :=
  ∀ (f : Fields) (s : State), reaches s (r.1 f) = true → WritesScalar s f (exec (r.1 f) s)
    (narrowInt r.2.1 (mSat (modOf .s f)) (mDnar (modOf .s f)) (s.team.sreg f.d.toNat) (r.2.2 (sA s.team f r.2.1) (sB s.team f r.2.1) (s.team.sreg f.d.toNat)))

theorem runsScalarRow_of {con : Fields → Instr} {sg : Bool} {fn fn' : Word → Word → Word → Word} (henc : EncodesItself con)
    (hexec : ∀ f s, exec (con f) s = scalarOp (con f) s sg fn) (hfn : ∀ a b c, fn a b c = fn' a b c) : RunsScalarRow (con, sg, fn') := by
  obtain rfl : fn = fn' := funext fun a => funext fun b => funext fun c => hfn a b c
  intro f s hr
  obtain ⟨t, ht, honly, hon, hframe, hwritten⟩ := finish_setSdst s f.d.toNat (narrowInt sg (mSat (modOf .s f)) (mDnar (modOf .s f)) (srcS s.team f.d.toNat 0)
    (fn (sA s.team f sg) (sB s.team f sg) (srcS s.team f.d.toNat 0))) f
  refine ⟨t, ((hexec f s).trans (henc.issue_eq hr)).trans ht, honly, hon, hframe, scalarWritten_congr hwritten fun hd => ?_⟩
  rw [srcS, if_pos hd]

theorem scalarRows_run : ∀ r ∈ scalarRows, RunsScalarRow r := by
  simp only [scalarRows, List.forall_mem_cons, List.not_mem_nil, false_implies, implies_true, and_true]
  exact ⟨runsScalarRow_of (fun _ => ⟨_, rfl⟩) exec_smov fun _ _ _ => rfl,
    runsScalarRow_of (fun _ => ⟨_, rfl⟩) exec_sadd fun _ _ _ => rfl,
    runsScalarRow_of (fun _ => ⟨_, rfl⟩) exec_ssub fun _ _ _ => rfl,
    runsScalarRow_of (fun _ => ⟨_, rfl⟩) exec_smul fun _ _ _ => rfl,
    runsScalarRow_of (fun _ => ⟨_, rfl⟩) exec_smulhiI32 fun a b _ => mulhiI_eq_spec a b,
    runsScalarRow_of (fun _ => ⟨_, rfl⟩) exec_smulhiZ32 fun a b _ => mulhiZ_eq_spec a b,
    runsScalarRow_of (fun _ => ⟨_, rfl⟩) exec_smad fun _ _ _ => rfl,
    runsScalarRow_of (fun _ => ⟨_, rfl⟩) exec_sshl fun a b _ => shlW_eq_spec a b,
    runsScalarRow_of (fun _ => ⟨_, rfl⟩) exec_sshr fun a b _ => shrW_eq_spec a b,
    runsScalarRow_of (fun _ => ⟨_, rfl⟩) exec_ssra fun a b _ => sraW_eq_spec a b,
    runsScalarRow_of (fun _ => ⟨_, rfl⟩) exec_sand fun _ _ _ => rfl,
    runsScalarRow_of (fun _ => ⟨_, rfl⟩) exec_sor fun _ _ _ => rfl,
    runsScalarRow_of (fun _ => ⟨_, rfl⟩) exec_sxor fun _ _ _ => rfl,
    runsScalarRow_of (fun _ => ⟨_, rfl⟩) exec_snot fun _ _ _ => rfl,
    runsScalarRow_of (fun _ => ⟨_, rfl⟩) exec_sminI32 fun a b _ => minI_eq_spec a b,
    runsScalarRow_of (fun _ => ⟨_, rfl⟩) exec_sminZ32 fun a b _ => minZ_eq_spec a b,
    runsScalarRow_of (fun _ => ⟨_, rfl⟩) exec_smaxI32 fun a b _ => maxI_eq_spec a b,
    runsScalarRow_of (fun _ => ⟨_, rfl⟩) exec_smaxZ32 fun a b _ => maxZ_eq_spec a b,
    runsScalarRow_of (fun _ => ⟨_, rfl⟩) exec_spopc fun a _ _ => popcW_eq_spec a,
    runsScalarRow_of (fun _ => ⟨_, rfl⟩) exec_sclz fun a _ _ => clzW_eq_spec a,
    runsScalarRow_of (fun _ => ⟨_, rfl⟩) exec_sbfeZ32 fun a b _ => bfeZ_eq_spec a b,
    runsScalarRow_of (fun _ => ⟨_, rfl⟩) exec_sbfeI32 fun a b _ => bfeI_eq_spec a b⟩

theorem scalarArithmeticResults : ScalarArithmeticResults := scalarRows_run

/-! ### Pairs (R142) -/

/-- An instruction that ends with a write to a pair of scalar registers. -/
theorem finish_setSpair (s : State) (d : Nat) (v : DWord) (x : Fields) :
    ∃ t, finish s (s.team.setSpair d v) x = .next t ∧ OnlyTeam s t ∧ wentOn s.team t.team (lenOf x) ∧ { placed s.team t.team with sregs := s.team.sregs } = s.team ∧
      t.team.spair d = v ∧ ∀ n, n ≠ d → n ≠ d + 1 → t.team.sreg n = s.team.sreg n := by
  obtain ⟨t, ht, honly, hon, hframe, hregs⟩ := finish_sregs s (s.team.setSpair d v).sregs x
  have hsreg (n : Nat) : t.team.sreg n = (s.team.setSpair d v).sreg n := by rw [Team.sreg, Team.sreg, hregs]
  refine ⟨t, ht, honly, hon, hframe, ?_, fun n hlo hhi => ?_⟩
  · rw [Team.spair, hsreg, hsreg]
    exact spair_setSpair s.team d v
  · rw [hsreg]
    exact sreg_setSpair_other s.team v hlo hhi

theorem exec_sadd64_reaches {f : Fields} {s : State} (hr : reaches s (.sadd64 f) = true) :
    exec (.sadd64 f) s = finish s (s.team.setSpair f.d.toNat (srcS64 s.team f.a.toNat (immOf f) + srcS64 s.team f.b.toNat (immOf f))) f := by
  rw [exec_sadd64, execSadd64, scalarOp64, issue_reaches _ rfl hr]

theorem exec_ssub64_reaches {f : Fields} {s : State} (hr : reaches s (.ssub64 f) = true) :
    exec (.ssub64 f) s = finish s (s.team.setSpair f.d.toNat (srcS64 s.team f.a.toNat (immOf f) - srcS64 s.team f.b.toNat (immOf f))) f := by
  rw [exec_ssub64, execSsub64, scalarOp64, issue_reaches _ rfl hr]

/-- The third source of `smad64` is the pair that its D names, a register pair always. -/
theorem smad64_third {f : Fields} {s : State} (hr : reaches s (.smad64 f) = true) : srcS64 s.team f.d.toNat 0 = s.team.spair f.d.toNat := by
  have hkind : kindAccepts .s64d f.d.toNat = true := reaches_acceptsD (i := .smad64 f) rfl hr
  simp only [kindAccepts, Bool.and_eq_true, decide_eq_true_eq] at hkind
  rw [srcS64, if_pos (by omega)]

theorem exec_smad64_reaches {f : Fields} {s : State} (hr : reaches s (.smad64 f) = true) :
    exec (.smad64 f) s = finish s (s.team.setSpair f.d.toNat ((srcS s.team f.a.toNat (immOf f)).signExtend 64 * (srcS s.team f.b.toNat (immOf f)).signExtend 64 +
      s.team.spair f.d.toNat)) f := by
  rw [exec_smad64, execSmad64, issue_reaches _ rfl hr, smad64_third hr]

theorem scalarPairResults : ScalarPairResults := by
  intro row hrow f s hr
  simp only [List.mem_cons, List.not_mem_nil, or_false] at hrow
  obtain rfl | rfl | rfl := hrow <;> dsimp only at hr ⊢
  · rw [exec_sadd64_reaches hr]
    exact finish_setSpair _ _ _ _
  · rw [exec_ssub64_reaches hr]
    exact finish_setSpair _ _ _ _
  · rw [exec_smad64_reaches hr]
    exact finish_setSpair _ _ _ _

/-! ### Comparisons (R143) -/

/-- One value of a predicate in every lane of the team, active or not. -/
theorem setPred_full_written {t : Team} (hw : t.warps ≤ 32) (p : Nat) (v : Bool) :
    predWritten t (t.setPred p (fullMask t.warps) (if v then fullMask t.warps else 0)) p (fun _ => true) (fun _ => v) := by
  have hfull (l : Nat) (hl : l < t.lanes) : (fullMask t.warps).getLsbD l = true := getLsbD_fullMask _ _ hw hl
  refine predWritten_setPred_of hw p hfull fun l hl => ?_
  cases v with
  | false => exact BitVec.getLsbD_zero
  | true => exact hfull l hl

/-- An instruction that ends with a write to a predicate. -/
theorem finish_setPred {s : State} {p : Nat} {set v : LaneSet} {written res : Nat → Bool} (x : Fields)
    (h : predWritten s.team (s.team.setPred p set v) p written res) :
    ∃ t, finish s (s.team.setPred p set v) x = .next t ∧ OnlyTeam s t ∧ wentOn s.team t.team (lenOf x) ∧
      { placed s.team t.team with preds := s.team.preds } = s.team ∧ predWritten s.team t.team p written res := by
  obtain ⟨r, hr⟩ := setPred_preds s.team p set v
  rw [hr] at h ⊢
  obtain ⟨t, ht, honly, hon, p, c, e, q, k, g, y, z, hteam⟩ := finish_spec s { s.team with preds := r } x rfl rfl rfl rfl
  refine ⟨t, ht, honly, hon, ?_, ?_⟩ <;> rw [hteam]
  · rfl
  · exact h

/-- A comparison of class S: one result in every lane of the team. -/
def RunsScalarCmp (row : CmpRow) : Prop :=
  ∀ (f : Fields) (s : State), s.team.warps ≤ 32 → reaches s (row.1 f) = true →
    ∃ t, exec (row.1 f) s = .next t ∧ OnlyTeam s t ∧ wentOn s.team t.team (lenOf f) ∧ { placed s.team t.team with preds := s.team.preds } = s.team ∧
      predWritten s.team t.team f.d.toNat (fun _ => true) (fun _ => row.2.2 (sA s.team f row.2.1) (sB s.team f row.2.1))

theorem runsScalarCmp_of {con : Fields → Instr} {sg : Bool} {c : Cmp} {fn : Word → Word → Bool} (henc : EncodesItself con)
    (hexec : ∀ f s, exec (con f) s = scalarCmp (con f) s sg c) (hfn : ∀ a b, cmpWord c a b = fn a b) : RunsScalarCmp (con, sg, fn) := by
  obtain rfl : cmpWord c = fn := funext fun a => funext fun b => hfn a b
  intro f s hw hr
  rw [hexec, scalarCmp, henc.issue_eq hr]
  exact finish_setPred f (setPred_full_written hw _ _)

theorem scalarCompareResults : ScalarCompareResults := by
  have hrows : ∀ row ∈ scalarCmpRows, RunsScalarCmp row := by
    simp only [scalarCmpRows, List.forall_mem_cons, List.not_mem_nil, false_implies, implies_true, and_true]
    exact ⟨runsScalarCmp_of (fun _ => ⟨_, rfl⟩) exec_scmpEq fun _ _ => rfl, runsScalarCmp_of (fun _ => ⟨_, rfl⟩) exec_scmpNe cmpWord_ne,
      runsScalarCmp_of (fun _ => ⟨_, rfl⟩) exec_scmpLtI32 fun _ _ => rfl, runsScalarCmp_of (fun _ => ⟨_, rfl⟩) exec_scmpLeI32 fun _ _ => rfl,
      runsScalarCmp_of (fun _ => ⟨_, rfl⟩) exec_scmpLtZ32 fun _ _ => rfl, runsScalarCmp_of (fun _ => ⟨_, rfl⟩) exec_scmpLeZ32 fun _ _ => rfl⟩
  exact hrows

/-- Settles O21: the rows of one register by the write of D (`finish_setSdst`), those of a pair by `finish_setSpair`, the comparisons by the write of every lane. -/
theorem scalarArithmeticAndCompares : Obligations.ScalarArithmeticAndCompares := ⟨scalarArithmeticResults, scalarPairResults, scalarCompareResults⟩

/-! ### Selection, lane reads and special registers (R143, R145, R146) -/

theorem lowestPred_lane {t : Team} {l : Nat} (h : lowestLane t.lanes t.mask = some l) (p : Nat) (neg : Bool) : lowestPred t p neg = ((t.pred p).getLsbD l != neg) := by
  simp only [lowestPred, h]

theorem lowestPred_empty {t : Team} (h : lowestLane t.lanes t.mask = none) (p : Nat) (neg : Bool) : lowestPred t p neg = false := by
  simp only [lowestPred, h]

section
variable {f : Fields} {s : State}

theorem exec_ssel_reaches (hr : reaches s (.ssel f) = true) : exec (.ssel f) s = finish s (s.team.setSdst f.d.toNat
    (if lowestPred s.team ((immOf f).extractLsb' 0 5).toNat ((immOf f).getLsbD 5) then srcS s.team f.a.toNat 0 else srcS s.team f.b.toNat 0)) f := by
  rw [exec_ssel, execSsel, issue_reaches _ rfl hr]
  dsimp only
  rw [sel_bit, sel_code]

theorem ssel_writes (hr : reaches s (.ssel f) = true) : WritesScalar s f (exec (.ssel f) s)
    (match lowestLane s.team.lanes s.team.mask with
     | some l => if (s.team.pred ((immOf f).extractLsb' 0 5).toNat).getLsbD l != (immOf f).getLsbD 5 then srcS s.team f.a.toNat 0 else srcS s.team f.b.toNat 0
     | none => srcS s.team f.b.toNat 0) := by
  rw [exec_ssel_reaches hr]
  cases hlane : lowestLane s.team.lanes s.team.mask with
  | none =>
    rw [lowestPred_empty hlane]
    exact finish_setSdst s _ _ f
  | some l =>
    rw [lowestPred_lane hlane]
    exact finish_setSdst s _ _ f

theorem rlane_writes (hr : reaches s (.rlane f) = true) : WritesScalar s f (exec (.rlane f) s)
    (if (srcS s.team f.b.toNat (immOf f)).toNat < 32 * s.team.warps then s.team.word (s.team.vWord f.a.toNat) (srcS s.team f.b.toNat (immOf f)).toNat else 0) := by
  rw [exec_rlane, execRlane, issue_reaches _ rfl hr]
  exact finish_setSdst s _ _ f

/-- An instruction that ends with a scalar result and one value of a predicate in every lane. -/
theorem finish_scalarPred (hw : s.team.warps ≤ 32) (v : Word) (p : Nat) (b : Bool) :
    ∃ t, finish s ((s.team.setSdst f.d.toNat v).setPred p (fullMask s.team.warps) (if b then fullMask s.team.warps else 0)) f = .next t ∧ OnlyTeam s t ∧
      wentOn s.team t.team (lenOf f) ∧ { placed s.team t.team with sregs := s.team.sregs, preds := s.team.preds } = s.team ∧
      scalarWritten s.team t.team f.d.toNat v ∧ predWritten s.team t.team p (fun _ => true) (fun _ => b) := by
  have hscalar : scalarWritten s.team (s.team.setSdst f.d.toNat v) f.d.toNat v := fun n hn => Team.sreg_setSdst s.team f.d.toNat n v hn
  obtain ⟨g, hg⟩ := Team.setSdst_sregs s.team f.d.toNat v
  rw [hg] at hscalar ⊢
  have hpred := setPred_full_written (t := { s.team with sregs := g }) hw p b
  obtain ⟨r, hr⟩ := setPred_preds { s.team with sregs := g } p (fullMask s.team.warps) (if b then fullMask s.team.warps else 0)
  rw [hr] at hpred ⊢
  obtain ⟨t, ht, honly, hon, p, c, e, q, k, d, y, z, hteam⟩ := finish_spec s { s.team with sregs := g, preds := r } f rfl rfl rfl rfl
  refine ⟨t, ht, honly, hon, ?_, ?_, ?_⟩ <;> rw [hteam]
  · rfl
  · exact hscalar
  · exact hpred

/-- What `rfa` reads: the lowest active lane's word, and whether there is such a lane. -/
def firstActive (t : Team) (f : Fields) : Word × Bool :=
  match lowestLane t.lanes t.mask with
  | some l => (t.word (t.vWord f.a.toNat) l, true)
  | none => (0, false)

theorem exec_rfa_reaches (hr : reaches s (.rfa f) = true) : exec (.rfa f) s = finish s ((s.team.setSdst f.d.toNat (firstActive s.team f).1).setPred f.b.toNat
    (fullMask s.team.warps) (if (firstActive s.team f).2 then fullMask s.team.warps else 0)) f := by
  rw [exec_rfa, execRfa, issue_reaches _ rfl hr, firstActive]
  cases lowestLane s.team.lanes s.team.mask <;> rfl

theorem rfa_writes (hw : s.team.warps ≤ 32) (hr : reaches s (.rfa f) = true) :
    ∃ t, exec (.rfa f) s = .next t ∧ OnlyTeam s t ∧ wentOn s.team t.team (lenOf f) ∧
      { placed s.team t.team with sregs := s.team.sregs, preds := s.team.preds } = s.team ∧
      (∀ l, lowestLane s.team.lanes s.team.mask = some l →
        scalarWritten s.team t.team f.d.toNat (s.team.word (s.team.vWord f.a.toNat) l) ∧ predWritten s.team t.team f.b.toNat (fun _ => true) (fun _ => true)) ∧
      (lowestLane s.team.lanes s.team.mask = none →
        scalarWritten s.team t.team f.d.toNat 0 ∧ predWritten s.team t.team f.b.toNat (fun _ => true) (fun _ => false)) := by
  obtain ⟨t, ht, honly, hon, hframe, hwritten⟩ := finish_scalarPred (f := f) hw (firstActive s.team f).1 f.b.toNat (firstActive s.team f).2
  refine ⟨t, (exec_rfa_reaches hr).trans ht, honly, hon, hframe, fun l hl => ?_, fun hnone => ?_⟩
  · rw [firstActive, hl] at hwritten
    exact hwritten
  · rw [firstActive, hnone] at hwritten
    exact hwritten

end

/-- A read of a special register: a word, or the pair of `%tpc` or `%tvec`. -/
theorem finish_readSpecial (s : State) (code dst warp : Nat) (x : Fields) :
    ∃ t, finish s (readSpecial s s.team code dst warp) x = .next t ∧ OnlyTeam s t ∧ wentOn s.team t.team (lenOf x) ∧
      { placed s.team t.team with sregs := s.team.sregs } = s.team ∧
      (code ≠ 0x20 → code ≠ 0x21 → scalarWritten s.team t.team dst ((specialVal s s.team code warp).extractLsb' 0 32)) ∧
      (code = 0x20 → dst < 64 → t.team.spair dst = s.team.trap.tpc) ∧ (code = 0x21 → dst < 64 → t.team.spair dst = s.team.trap.tvec) ∧
      (code = 0x20 ∨ code = 0x21 → ∀ n, n < 64 → ¬(dst < 64 ∧ (n = dst ∨ n = dst + 1)) → t.team.sreg n = s.team.sreg n) := by
  by_cases hpair : code = 0x20 ∨ code = 0x21
  · obtain ⟨t, ht, honly, hon, hframe, hread, hother⟩ := finish_readSpecial_pair s dst warp x hpair
    refine ⟨t, ht, honly, hon, hframe, fun htpc htvec => absurd hpair (not_or.2 ⟨htpc, htvec⟩), fun htpc hd => ?_, fun htvec hd => ?_, fun _ => hother⟩
    · rw [hread hd, htpc, specialVal]
    · rw [hread hd, htvec, specialVal]
  · obtain ⟨htpc, htvec⟩ := not_or.1 hpair
    obtain ⟨t, ht, honly, hon, hframe, hread⟩ := finish_readSpecial_word s dst warp x htpc htvec
    exact ⟨t, ht, honly, hon, hframe, fun _ _ => hread, fun h => absurd h htpc, fun h => absurd h htvec, fun h => absurd h hpair⟩

/-- Settles O1: `ssel`, `rlane` and `rfa` by what they write, `rfa` with a predicate beside it; `srd` by what its code reads. -/
theorem scalarSelectAndLaneReads : Obligations.ScalarSelectAndLaneReads := by
  refine fun f s hw => ⟨ssel_writes, rlane_writes, rfa_writes hw, fun hr => ?_⟩
  rw [exec_srd_reaches hr]
  exact finish_readSpecial s _ _ _ f

end Sys2Proof.Machine
end

section
/-! `sld`, fences and prefetches at issue (R144, R196, R197, R199), and class M with no present lane (R180). -/

namespace Sys2Proof.Machine

open Sys2Proof Sys2Proof.Safety Sys2Proof.Claims

/-! ### Operations enter the memory queue -/

/-- A queued operation stands last in its team's queue, in the team's phase; nothing else changes. -/
theorem enqueueOp_queued (s : State) (f : Fields) (o : MemOp) (hold : Option (KMap Word)) :
    ∃ t, enqueueOp s s.team f o hold = .next t ∧ queuedOp s t f { o with phase := teamPhase s s.cur } := by
  obtain ⟨t, ht, honly, hon, hqueue, -, hflags, hframe⟩ := enqueueOp_spec s f o hold
  exact ⟨t, ht, honly, hon, hqueue, hflags, hframe⟩

/-- A team-wide instruction with a present lane is its own part. -/
theorem teamWide_present {con : Fields → Instr} {f : Fields} {s : State} (k : Team → Fields → LaneSet → Out) (henc : EncodesItself con)
    (hr : reaches s (con f) = true) (hpresent : presentSet s.team (modOf .m f) ≠ 0) :
    teamWide (con f) s k = k s.team f (presentSet s.team (modOf .m f)) := by
  rw [teamWide, henc.issue_eq hr]
  exact if_neg hpresent

/-- One check that passes leads to its access. -/
theorem withOne_passes (s : State) (set : LaneSet) (va : Nat) (w : Want) (blk : Option Nat) (pa lease mclass : Nat) (k : LaneAcc → Out) :
    withOne s set va w (.ok blk pa lease mclass) k = k { lane := 0, blk := blk, addr := pa, va := va, data := 0, data2 := 0, lease := lease, mclass := mclass } := by
  have hgather := gather_ok [{ lane := 0, blk := blk, addr := pa, va := va, data := 0, data2 := 0, lease := lease, mclass := mclass }] (by simp)
  rw [List.map_singleton] at hgather
  rw [withOne, hgather]
  rfl

section
variable {f : Fields} {s : State}

theorem sld_queued (hr : reaches s (.sld f) = true) {pa lease cls : Nat}
    (hcheck : checkGlobal s s.cur (srcS64 s.team f.a.toNat 0 + (immOf f).signExtend 64).toNat 4 wantRead = .ok none pa lease cls) :
    ∃ t, exec (.sld f) s = .next t ∧ queuedOp s t f { opBase s 0 .sload with
      dst := if f.d.toNat < 64 then some f.d.toNat else none
      accs := [{ lane := 0, blk := none, addr := pa, va := (srcS64 s.team f.a.toNat 0 + (immOf f).signExtend 64).toNat, data := 0, data2 := 0, lease := lease, mclass := cls }]
      flag := selFlag s.team (modOf .s f) } := by
  rw [exec_sld, execSld, issue_reaches _ rfl hr]
  dsimp only
  rw [hcheck, withOne_passes]
  exact enqueueOp_queued s f _ none

theorem fence_queued (hr : reaches s (.fence f) = true) (hpresent : presentSet s.team (modOf .m f) ≠ 0) (hgate : mSem (modOf .m f) < 2 ∨ watchesClear s) :
    ∃ t, exec (.fence f) s = .next t ∧ queuedOp s t f (opBase s (modOf .m f) .fence) := by
  rw [exec_fence, execFence, teamWide_present _ (fun _ => ⟨_, rfl⟩) hr hpresent]
  dsimp only
  rw [withGate_clear (hgate.imp_left fun h => decide_eq_false (Nat.not_le.mpr h))]
  exact enqueueOp_queued s f _ none

theorem fenceq_queued (hr : reaches s (.fenceq f) = true) (hpresent : presentSet s.team (modOf .m f) ≠ 0) :
    ∃ t, exec (.fenceq f) s = .next t ∧ queuedOp s t f (opBase s (modOf .m f) (.fenceq (immOf f).toNat)) := by
  rw [exec_fenceq, execFenceq, teamWide_present _ (fun _ => ⟨_, rfl⟩) hr hpresent]
  exact enqueueOp_queued s f _ none

theorem pref_queued (hr : reaches s (.pref f) = true) (hpresent : presentSet s.team (modOf .m f) ≠ 0) :
    ∃ t, exec (.pref f) s = .next t ∧ queuedOp s t f { opBase s (modOf .m f) (.pref (f.d.toNat = 1)) with
      accs := (laneList s.team.lanes (presentSet s.team (modOf .m f))).map (fun l =>
        { lane := l, blk := none, addr := 0, va := laneEa s.team f l % 2 ^ 64, data := 0, data2 := 0, lease := 0, mclass := 0 }) } := by
  rw [exec_pref, execPref, issue_reaches _ rfl hr]
  dsimp only
  rw [if_neg hpresent]
  exact enqueueOp_queued s f _ _

end

/-! ### No present lane (R180) -/

/-- With no present lane the instruction only holds and goes on. -/
def SkipsAbsent (con : Fields → Instr) : Prop :=
  ∀ (f : Fields) (s : State), reaches s (con f) = true → presentSet s.team (modOf .m f) = 0 → exec (con f) s = finishHold s s.team f (mHold s.team f)

theorem RunsLane.skipsAbsent {row : (Fields → Instr) × Nat × Want} (h : RunsLane row) : SkipsAbsent row.1 := fun f s hr => (h f s hr).1

theorem skipsAbsent_teamWide {con : Fields → Instr} {k : State → Team → Fields → LaneSet → Out} (henc : EncodesItself con)
    (hexec : ∀ f s, exec (con f) s = teamWide (con f) s (k s)) : SkipsAbsent con := by
  intro f s hr hnone
  rw [hexec, teamWide, henc.issue_eq hr]
  exact if_pos hnone

theorem skipsAbsent_pref : SkipsAbsent .pref := by
  intro f s hr hnone
  rw [exec_pref, execPref, issue_reaches _ rfl hr]
  exact if_pos hnone

/-- Class M instructions that act for the whole team, and `pref`. -/
def teamRows : List (Fields → Instr) := [.fence, .fenceq, .pref, .append, .sealPage, .smap, .sunmap, .sflush, .hdecl, .hpush]

theorem teamRows_skipAbsent : ∀ con ∈ teamRows, SkipsAbsent con := by
  simp only [teamRows, List.forall_mem_cons, List.not_mem_nil, false_implies, implies_true, and_true]
  exact ⟨skipsAbsent_teamWide (fun _ => ⟨_, rfl⟩) exec_fence, skipsAbsent_teamWide (fun _ => ⟨_, rfl⟩) exec_fenceq, skipsAbsent_pref,
    skipsAbsent_teamWide (fun _ => ⟨_, rfl⟩) exec_append, skipsAbsent_teamWide (fun _ => ⟨_, rfl⟩) exec_sealPage,
    skipsAbsent_teamWide (fun _ => ⟨_, rfl⟩) exec_smap, skipsAbsent_teamWide (fun _ => ⟨_, rfl⟩) exec_sunmap, skipsAbsent_teamWide (fun _ => ⟨_, rfl⟩) exec_sflush,
    skipsAbsent_teamWide (fun _ => ⟨_, rfl⟩) exec_hdecl, skipsAbsent_teamWide (fun _ => ⟨_, rfl⟩) exec_hpush⟩

theorem SkipsAbsent.unchanged {con : Fields → Instr} (h : SkipsAbsent con) {f : Fields} {s : State} (hr : reaches s (con f) = true)
    (hnone : presentSet s.team (modOf .m f) = 0) :
    ∃ t, exec (con f) s = .next t ∧ OnlyTeam s t ∧ wentOn s.team t.team (lenOf f) ∧ placed s.team t.team = s.team := by
  obtain ⟨t, ht, honly, hon, -, p, c, r, q, k, d, y, z, hteam⟩ := finishHold_spec s s.team f (mHold s.team f) rfl rfl rfl rfl
  exact ⟨t, (h f s hr hnone).trans ht, honly, hon, by rw [hteam]; rfl⟩

/-- Every class M instruction: the rows of one access in each lane, then those for the whole team. -/
theorem classM_skipsAbsent {f : Fields} {i : Instr} (hi : i ∈ loadRows.map (fun r => r.1 f) ++ storeRows.map (fun r => r.1 f) ++ atomRows.map (fun r => r.1 f) ++
    [.fence f, .fenceq f, .pref f, .append f, .sealPage f, .smap f, .sunmap f, .sflush f, .hdecl f, .hpush f]) : ∃ con, i = con f ∧ SkipsAbsent con := by
  have hteam : [.fence f, .fenceq f, .pref f, .append f, .sealPage f, .smap f, .sunmap f, .sflush f, .hdecl f, .hpush f] = teamRows.map (fun con => con f) := rfl
  rw [hteam] at hi
  simp only [List.mem_append, List.mem_map] at hi
  obtain ((⟨r, hrow, rfl⟩ | ⟨r, hrow, rfl⟩) | ⟨r, hrow, rfl⟩) | ⟨con, hcon, rfl⟩ := hi
  · exact ⟨_, rfl, (loadRows_run r hrow).skipsAbsent⟩
  · exact ⟨_, rfl, (storeRows_run r hrow).skipsAbsent⟩
  · exact ⟨_, rfl, RunsLane.skipsAbsent (atomRows_run r hrow)⟩
  · exact ⟨con, rfl, teamRows_skipAbsent con hcon⟩

/-- Settles O5: what each of the four queues, then class M with no present lane. -/
theorem fencesPrefetchesScalarLoad : Obligations.FencesPrefetchesScalarLoad := by
  refine fun f s => ⟨fun hr _ _ _ hcheck => sld_queued hr hcheck, fence_queued, fenceq_queued, pref_queued, fun i hi hr hnone => ?_⟩
  obtain ⟨con, rfl, hskip⟩ := classM_skipsAbsent hi
  exact hskip.unchanged hr hnone

end Sys2Proof.Machine
end

section
/-! Class C at issue (R180, R217-R220): what each copy puts into its partition's queue, the trap of a quad out of range, and a copy without lanes. -/

namespace Sys2Proof.Machine

open Sys2Proof Sys2Proof.Safety Sys2Proof.Claims

/-! ### The quads in range (R218) -/

theorem shapeOk_iff (t : Team) (f : Fields) : shapeOk t f = true ↔ shapeFits t f := by
  rw [shapeOk, Bool.and_eq_true, decide_eq_true_eq, decide_eq_true_eq]
  exact Iff.rfl

theorem gatherOk_iff (t : Team) (f : Fields) : gatherOk t f = true ↔ gatherFits t f := List.contains_iff_mem

theorem planeOk_iff (t : Team) (f : Fields) : planeOk t f = true ↔ planeFits t f := by
  have hdiv (w : Nat) : w / 32 = 0 ↔ w < 32 := Nat.div_eq_zero_iff_lt (by decide)
  simp only [planeOk, Bool.and_eq_true, decide_eq_true_eq, hdiv, and_assoc]
  exact Iff.rfl

/-! ### A copy enters its queue, or is skipped -/

/-- A queued copy stands last in its partition's queue, counted on its flag or waited for at its label; nothing else changes. -/
theorem enqueueCopy_queued (s : State) (f : Fields) (o : CopyOp) (hold : Option (KMap Word)) :
    ∃ t, enqueueCopy s s.team f o hold = .next t ∧ queuedCopy s t f o := by
  obtain ⟨fl, hfl⟩ := s.team.flagUp_rest o.flag
  have hwait (u : Team) (w : Wait) : (if o.cont then { u with wait := w } else u) = { u with wait := if o.cont then w else u.wait } := by
    cases o.cont <;> rfl
  obtain ⟨t, ht, ⟨honly, -⟩, hon, -, p, c, r, q, k, d, y, z, hteam⟩ := finishHold_spec
    (s.modPart s.team.partNo (fun p => { p with copyQ := p.copyQ ++ [o] }))
    { s.team with flags := fl, nextOp := s.team.nextOp + 1, wait := if o.cont then .cont (labelOf s.team f) s.team.mask else s.team.wait } f hold rfl rfl rfl rfl
  have hparts : t.parts = (s.modPart s.team.partNo (fun p => { p with copyQ := p.copyQ ++ [o] })).parts := by rw [honly]; rfl
  refine ⟨t, ?_, ?_, hon, ?_, fun j hj => ?_, ?_, ?_, ?_⟩
  · rw [enqueueCopy, hfl]
    exact (congrArg (fun u => finishHold _ u f hold) (hwait { s.team with flags := fl, nextOp := s.team.nextOp + 1 } _)).trans ht
  · rw [hparts]; exact honly
  · rw [State.partAt, hparts]; exact State.partAt_setPart_same ..
  · rw [State.partAt, hparts]; exact State.partAt_setPart_other _ _ _ _ hj
  · rw [hteam, hfl]
  · rw [hteam]
  · rw [hteam]; rfl

/-- A team that leaves for a header, with what HOLD asks, is otherwise as it was. -/
theorem placed_issued_jump (t : Team) (cc : Nat) (target : DWord) (hold : Option (KMap Word)) :
    placed t ((match hold with
      | some r => (t.issued cc).holdRow r
      | none => t.issued cc).jump target) = t := by
  cases hold <;> rfl

/-- A skipped copy leaves its team as it was but for its place: the next instruction, or the label. -/
theorem skipCopy_unchanged (s : State) (f : Fields) (cont : Bool) (hold : Option (KMap Word)) :
    ∃ t, skipCopy s s.team f cont hold = .next t ∧ OnlyTeam s t ∧ placed s.team t.team = s.team ∧ (cont = false → wentOn s.team t.team (lenOf f)) ∧
      (cont = true → t.team.pc = labelOf s.team f ∧ t.team.clause = none ∧ t.team.rep = 0 ∧ t.team.inRep = none) := by
  cases cont with
  | false =>
    obtain ⟨t, ht, honly, hon, -, p, c, r, q, k, d, y, z, hteam⟩ := finishHold_spec s s.team f hold rfl rfl rfl rfl
    exact ⟨t, ht, honly, by rw [hteam]; rfl, fun _ => hon, fun h => by cases h⟩
  | true =>
    refine ⟨_, rfl, OnlyTeam_setTeam _ _, ?_, fun h => (by cases h), fun _ => ?_⟩ <;> rw [State.setTeam_eq, State.team_setTeamAt_cur]
    · exact placed_issued_jump s.team s.cc _ hold
    · exact ⟨rfl, rfl, rfl, rfl⟩

/-! ### The rows of class C -/

/-- A row's instruction is a copy whose check is the row's range and whose operation is the row's. -/
def RunsCopyRow (row : (Fields → Instr) × CKind × (Team → Fields → Prop) × (Team → Fields → CopyOp → CopyOp)) : Prop :=
  EncodesItself row.1 ∧ ∃ ok mk, (∀ t f, ok t f = true ↔ row.2.2.1 t f) ∧ (∀ f s, exec (row.1 f) s = copyOp (row.1 f) s ok mk row.2.1) ∧
    ∀ (s : State) f, mk s.team f (newCopy s s.team row.2.1 (modOf .c f)) (presentSet s.team (modOf .c f)) =
      row.2.2.2 s.team f (copyBase s (modOf .c f) row.2.1)

theorem copyRows_run : ∀ row ∈ copyRows, RunsCopyRow row := by
  simp only [copyRows, List.forall_mem_cons, List.not_mem_nil, false_implies, implies_true, and_true]
  exact ⟨⟨fun _ => ⟨_, rfl⟩, _, _, shapeOk_iff, exec_cpG2s, fun _ _ => rfl⟩, ⟨fun _ => ⟨_, rfl⟩, _, _, shapeOk_iff, exec_cpS2g, fun _ _ => rfl⟩,
    ⟨fun _ => ⟨_, rfl⟩, _, _, shapeOk_iff, exec_cpG2g, fun _ _ => rfl⟩, ⟨fun _ => ⟨_, rfl⟩, _, _, shapeOk_iff, exec_cpFill, fun _ _ => rfl⟩,
    ⟨fun _ => ⟨_, rfl⟩, _, _, gatherOk_iff, exec_cpGath, fun _ _ => rfl⟩, ⟨fun _ => ⟨_, rfl⟩, _, _, gatherOk_iff, exec_cpScat, fun _ _ => rfl⟩,
    ⟨fun _ => ⟨_, rfl⟩, _, _, planeOk_iff, exec_cpPlane, fun _ _ => rfl⟩,
    ⟨fun _ => ⟨_, rfl⟩, fun _ _ => true, _, fun _ _ => iff_of_true rfl trivial, exec_cpTlr, fun _ _ => rfl⟩⟩

/-- Settles O11: every row of class C is one shared copy at issue, which queues, traps or skips. -/
theorem copiesEnterQueue : Obligations.CopiesEnterQueue := by
  intro row hrow f s hr
  obtain ⟨henc, ok, mk, hok, hexec, hmk⟩ := copyRows_run row hrow
  rw [hexec f s, copyOp_reaches _ _ _ henc hr]
  refine ⟨fun hpresent hfits => ?_, fun hpresent hfits => ?_, fun hnone => ?_⟩
  · rw [if_neg hpresent, (hok s.team f).mpr hfits, hmk]
    exact enqueueCopy_queued s f _ _
  · rw [if_neg hpresent, Bool.eq_false_iff.mpr (mt (hok s.team f).mp hfits)]
    rfl
  · rw [if_pos hnone]
    exact skipCopy_unchanged s f _ _

end Sys2Proof.Machine
end

section
/-! Watch entries answered, residency schedules loaded, and marked window lines evicted (R193, R204, R206). -/

namespace Sys2Proof.Machine

open Sys2Proof Sys2Proof.Safety Sys2Proof.Claims

/-! ### Every window of a core's blocks changed -/

/-- What a change makes true of a window holds of every window of the core's blocks. -/
theorem windows_mapWindows {s : State} {c : Nat} {g : Window → Window} {Q : Window → Prop} (hg : ∀ w, Q (g w)) {p : Nat × Block} (hp : p ∈ onCore s c) :
    ∀ w ∈ ((mapWindows s c g).blockAt p.1).windows, Q w := by
  have hstep (u : State) (q : Nat × Block) (h : q.1 = p.1 ∨ ∀ w ∈ (u.blockAt p.1).windows, Q w) :
      ∀ w ∈ ((u.modBlock q.1 (fun b => { b with windows := b.windows.map g })).blockAt p.1).windows, Q w := by
    by_cases he : p.1 = q.1
    · rw [he, State.modBlock, State.blockAt_setBlock_same]
      intro w hw
      obtain ⟨v, -, rfl⟩ := List.mem_map.mp hw
      exact hg v
    · rw [State.modBlock, State.blockAt_setBlock_other _ _ _ _ he]
      exact h.resolve_left (Ne.symm he)
  have hfold : ∀ (l : KMap Block) (u : State), (p ∈ l ∨ ∀ w ∈ (u.blockAt p.1).windows, Q w) →
      ∀ w ∈ ((l.foldl (fun s q => s.modBlock q.1 (fun b => { b with windows := b.windows.map g })) u).blockAt p.1).windows, Q w := by
    intro l
    induction l with
    | nil => exact fun u h => h.resolve_left List.not_mem_nil
    | cons q l ih =>
      refine fun u h => ih _ ?_
      by_cases hq : p ∈ l
      · exact .inl hq
      · refine .inr (hstep u q (h.imp_left fun hm => ?_))
        rw [(List.mem_cons.mp hm).resolve_right hq]
  exact hfold _ s (.inl hp)

/-! ### Watch entries (R193) -/

theorem watchConfirmed_iff (s : State) (c : Nat) (w : Watch) :
    watchConfirmed s c w = true ↔ (∀ e ∈ (s.coreAt c).sbuf, e.line ≠ w.line) ∧ ∃ e, l2At s (dieOf c) w.line = some e ∧ e.wts = w.wts ∧ e.ver = w.ver ∧
      e.arr = w.arr ∧ ((e.rts - w.fetched).toNat < 2 ^ 15 → (e.rts - w.fetched).toNat ≤ 2 ^ 14) := by
  rw [watchConfirmed, Bool.and_eq_true, List.all_eq_true]
  simp only [bne_iff_ne]
  cases l2At s (dieOf c) w.line with
  | none => simp
  | some e =>
    simp only [Bool.and_eq_true, decide_eq_true_eq, Bool.not_eq_true', Bool.and_eq_false_imp, decide_eq_false_iff_not, Nat.not_lt, and_assoc, Option.some.injEq,
      exists_eq_left']

/-- The entry that the coherence point answers for. -/
def answered (s : State) (c : Nat) (w : Watch) : Watch := { w with st := if watchConfirmed s c w then .confirmed else .struck }

theorem watch_answered {s : State} {w : Watch} (hw : w ∈ (s.coreAt s.ev.x).watch) (hid : w.id = s.ev.y) (hst : w.st = .pending) :
    ∃ t, exec .watchValidation s = .next t ∧ sameMem s t ∧ t.teams = s.teams ∧ answered s s.ev.x w ∈ (t.coreAt s.ev.x).watch := by
  have hnamed : (decide (w.id = s.ev.y) && decide (w.st = .pending)) = true := by rw [hid, hst]; simp
  rw [exec_watchValidation, execWatchValidation]
  rw [if_pos (List.any_eq_true.mpr ⟨w, hw, hnamed⟩)]
  refine ⟨_, rfl, fun _ => rfl, rfl, ?_⟩
  rw [State.coreAt_setCore_same]
  exact List.mem_map.mpr ⟨w, hw, if_pos hnamed⟩

/-! ### Residency schedules (R204) -/

theorem residencyScheduleLoad_refused {s : State} (h : (∃ p ∈ s.grids, p.2.ended = false ∧ p.2.diesMask.testBit s.ev.x = true) ∨
    (∃ n ∈ s.ev.nums.take 256, schedOk (BitVec.ofNat 128 n) = false)) : exec .residencyScheduleLoad s = .next s := by
  rw [exec_residencyScheduleLoad, execResidencyScheduleLoad]
  refine if_pos ?_
  rw [Bool.or_eq_true, Bool.not_eq_true', List.any_eq_true, List.all_eq_false]
  refine h.imp (fun ⟨p, hp, hend, hdie⟩ => ⟨p, hp, ?_⟩) (fun ⟨n, hn, hbad⟩ => ⟨n, hn, ?_⟩)
  · rw [hend, hdie]; rfl
  · rw [hbad]; decide

theorem residencyScheduleLoad_loaded {s : State} (hfree : ∀ p ∈ s.grids, p.2.ended = true ∨ p.2.diesMask.testBit s.ev.x = false)
    (hok : ∀ n ∈ s.ev.nums.take 256, schedOk (BitVec.ofNat 128 n) = true) :
    ∃ t, exec .residencyScheduleLoad s = .next t ∧ sameMem s t ∧ t.teams = s.teams ∧ (t.dieAt s.ev.x).sched = (s.ev.nums.take 256).map (BitVec.ofNat 128) := by
  have hnone : s.grids.any (fun p => !p.2.ended && p.2.diesMask.testBit s.ev.x) = false := List.any_eq_false.mpr fun p hp => by
    rcases hfree p hp with h | h <;> simp [h]
  rw [exec_residencyScheduleLoad, execResidencyScheduleLoad]
  rw [hnone, List.all_eq_true.mpr hok]
  exact ⟨_, rfl, fun _ => rfl, rfl, by rw [State.modDie, State.dieAt_setDie_same]⟩

/-! ### Marked lines (R206) -/

theorem writeBackLine_clean (s : State) (c b off i : Nat) {l : WLine} (h : l.dirty = 0) : writeBackLine s c b off i l = some s := if_pos h

/-- A window without a line. -/
def Window.without (line : Nat) (w : Window) : Window := { w with lines := w.lines.filter (fun p => p.2.pa ≠ line) }

theorem residencyEviction_clean {s : State} (hmarked : s.ev.y ∈ (s.coreAt s.ev.x).evictQ) (hbuf : (s.coreAt s.ev.x).sbuf = [])
    (hclean : ∀ b w i, (b, w, i) ∈ winsOf s s.ev.x s.ev.y → ∀ l, kGet i w.lines = some l → l.dirty = 0) :
    exec .residencyEviction s = .next ((mapWindows s s.ev.x (Window.without s.ev.y)).modCore s.ev.x
      (fun k => { k with evictQ := k.evictQ.filter (fun l => l ≠ s.ev.y) })) := by
  rw [exec_residencyEviction, execResidencyEviction]
  dsimp only
  rw [List.contains_iff_mem.mpr hmarked, drainTo_none (by simp [hbuf]), foldl_eq_self]
  · refine congrArg Host.Outcome.next (noteFetches_sameL2 _ ?_)
    rw [State.dieAt, State.modCore, State.setCore_dies, mapWindows_dies]
    rfl
  · rintro ⟨b, w, i⟩ hwin
    rw [Option.bind_some]
    split
    · next l hl => exact writeBackLine_clean _ _ _ _ _ (hclean b w i hwin l hl)
    · rfl

theorem residencyEviction_evicts {s : State} (hmarked : s.ev.y ∈ (s.coreAt s.ev.x).evictQ) (hbuf : (s.coreAt s.ev.x).sbuf = [])
    (hclean : ∀ b w i, (b, w, i) ∈ winsOf s s.ev.x s.ev.y → ∀ l, kGet i w.lines = some l → l.dirty = 0) :
    ∃ t, exec .residencyEviction s = .next t ∧ sameMem s t ∧ t.teams = s.teams ∧
      (t.coreAt s.ev.x).evictQ = (s.coreAt s.ev.x).evictQ.filter (fun l => l ≠ s.ev.y) ∧
      ∀ p ∈ onCore s s.ev.x, ∀ w ∈ (t.blockAt p.1).windows, ∀ q ∈ w.lines, q.2.pa ≠ s.ev.y := by
  refine ⟨_, residencyEviction_clean hmarked hbuf hclean, fun a => ?_, ?_, ?_, fun p hp => ?_⟩
  · obtain ⟨bs, h, -⟩ := mapWindows_eq s s.ev.x (Window.without s.ev.y)
    rw [h]; rfl
  · obtain ⟨bs, h, -⟩ := mapWindows_eq s s.ev.x (Window.without s.ev.y)
    rw [h]; rfl
  · obtain ⟨bs, h, -⟩ := mapWindows_eq s s.ev.x (Window.without s.ev.y)
    rw [State.modCore, State.coreAt_setCore_same, h]; rfl
  · rw [State.modCore, State.blockAt_setCore]
    refine windows_mapWindows (fun w q hq => ?_) hp
    simpa using (List.mem_filter.mp hq).2

/-- Settles O10: the entry that is answered, the schedule that is loaded or not, and the line that leaves every window. -/
theorem watchesAndResidency : Obligations.WatchesAndResidency := by
  refine ⟨fun s w hw hid hst => ?_, fun s h => residencyScheduleLoad_refused h, fun s hfree hok => residencyScheduleLoad_loaded hfree hok,
    fun s hmarked hbuf hclean => residencyEviction_evicts hmarked hbuf hclean⟩
  obtain ⟨t, ht, hmem, hteams, hans⟩ := watch_answered hw hid hst
  refine ⟨t, ht, hmem, hteams, answered s s.ev.x w, hans, rfl, ?_, ?_⟩
  · rw [← watchConfirmed_iff, answered]
    cases watchConfirmed s s.ev.x w <;> simp
  · rw [answered]
    cases watchConfirmed s s.ev.x w <;> simp

end Sys2Proof.Machine
end

section
/-! Append pages, windows and tiles at issue (R187, R188, R200, R203, R208, R210). -/

namespace Sys2Proof.Machine

open Sys2Proof Sys2Proof.Safety Sys2Proof.Claims

/-- The bytes that D gives a lane, as the model reads them (R181). -/
theorem dData_eq (t : Team) (d n l : Nat) : dData t d n l = dBytes t d n l := by
  rw [dBytes]
  by_cases hd : d < 88
  · by_cases hn : n ≤ 4
    · simp only [dData, hn, hd, if_true, srcV]
    · simp only [dData, hn, hd, if_true, if_false]
  · rw [if_neg hd]

section
variable {f : Fields} {s : State}

/-! ### Append pages (R187, R188) -/

theorem append_queued (hr : reaches s (.append f) = true) (hpresent : presentSet s.team (modOf .m f) ≠ 0) (hgate : mSem (modOf .m f) < 2 ∨ watchesClear s)
    {pa lease cls size : Nat} (hsize : size = pageSize (regionOf s (dieOf s.team.core) (s.gridAt s.team.grid).asid (srcBase s.team f.a.toNat).toNat))
    (hcheck : checkGlobal s s.cur (srcBase s.team f.a.toNat).toNat 1 wantAppend = .ok none pa lease cls) :
    ∃ t, exec (.append f) s = .next t ∧ queuedOp s t f { opBase s (modOf .m f) (.append (2 ^ (immOf f).toNat) (pa / size * size) size false) with
      dst := dstOf s f
      pdst := f.b.toNat
      accs := (laneList s.team.lanes (presentSet s.team (modOf .m f))).map (fun l => {
        lane := l, blk := none, addr := pa, va := (srcBase s.team f.a.toNat).toNat
        data := dBytes s.team f.d.toNat (2 ^ (immOf f).toNat) l, data2 := 0, lease := lease, mclass := cls })
      overflow := treatment s s.cur (2 ^ (immOf f).toNat * (laneList s.team.lanes (presentSet s.team (modOf .m f))).length) = .hold } := by
  subst hsize
  rw [exec_append, execAppend, teamWide_present _ (fun _ => ⟨_, rfl⟩) hr hpresent]
  dsimp only
  rw [hcheck, withOne_passes, withGate_clear (hgate.imp_left fun h => decide_eq_false (Nat.not_le.mpr h))]
  simp only [dData_eq]
  exact enqueueOp_queued s f _ none

theorem sealPage_queued (hr : reaches s (.sealPage f) = true) (hpresent : presentSet s.team (modOf .m f) ≠ 0) (hclear : watchesClear s)
    {pa lease cls size : Nat} (hsize : size = pageSize (regionOf s (dieOf s.team.core) (s.gridAt s.team.grid).asid (srcBase s.team f.a.toNat).toNat))
    (hcheck : checkGlobal s s.cur (srcBase s.team f.a.toNat).toNat 1 wantAppend = .ok none pa lease cls) :
    ∃ t, exec (.sealPage f) s = .next t ∧ queuedOp s t f { opBase s (modOf .m f) (.sealPg (pa / size * size) size) with rel := true, scope := 6 } := by
  subst hsize
  rw [exec_sealPage, execSealPage, teamWide_present _ (fun _ => ⟨_, rfl⟩) hr hpresent]
  dsimp only
  rw [hcheck, withOne_passes, withGate_clear (.inr hclear)]
  exact enqueueOp_queued s f _ none

/-! ### Windows (R200, R203) -/

/-- The access of a page of a window whose check passes. -/
def pageAcc (s : State) (va : Nat) (p : Nat × Nat) : LaneAcc :=
  match checkGlobal s s.cur p.1 1 wantMap with
  | .ok b a lease cls => { lane := p.1 - va, blk := b, addr := a, va := p.1, data := 0, data2 := 0, lease := lease, mclass := cls }
  | _ => { lane := p.1 - va, blk := none, addr := 0, va := p.1, data := 0, data2 := 0, lease := 0, mclass := 0 }

theorem pageAcc_lane (s : State) (va : Nat) (p : Nat × Nat) : (pageAcc s va p).lane = p.1 - va := by
  rw [pageAcc]
  split <;> rfl

/-- Pages that all pass lead to their accesses. -/
theorem gather_pages {va : Nat} {ps : List (Nat × Nat)} (h : ∀ p ∈ ps, ∃ pa lease cls, checkGlobal s s.cur p.1 1 wantMap = .ok none pa lease cls) :
    gather (ps.map (fun p => (p.1 - va, p.1, checkGlobal s s.cur p.1 1 wantMap))) = .go (ps.map (pageAcc s va)) := by
  have hzero : ∀ a ∈ ps.map (pageAcc s va), a.data = 0 ∧ a.data2 = 0 := by
    intro a ha
    obtain ⟨p, -, rfl⟩ := List.mem_map.mp ha
    rw [pageAcc]
    split <;> exact ⟨rfl, rfl⟩
  rw [← gather_ok _ hzero, List.map_map]
  refine congrArg gather (List.map_congr_left fun p hp => ?_)
  obtain ⟨pa, lease, cls, hok⟩ := h p hp
  simp only [Function.comp, pageAcc, hok]

theorem smap_queued (hr : reaches s (.smap f) = true) (hpresent : presentSet s.team (modOf .m f) ≠ 0)
    (hok : windowOk s s.team (srcU s.team f.d.toNat 0).toNat (srcBase s.team f.a.toNat).toNat (immOf f).toNat = true)
    (hpages : ∀ p ∈ pagesOf s s.team (srcBase s.team f.a.toNat).toNat (immOf f).toNat, ∃ pa lease cls, checkGlobal s s.cur p.1 1 wantMap = .ok none pa lease cls) :
    ∃ t o, exec (.smap f) s = .next t ∧ queuedOp s t f o ∧
      ∃ maps, o.kind = .smap (srcU s.team f.d.toNat 0).toNat (srcBase s.team f.a.toNat).toNat (immOf f).toNat maps ∧
        maps.map (fun m => m.1) = (pagesOf s s.team (srcBase s.team f.a.toNat).toNat (immOf f).toNat).map (fun p => p.1 - (srcBase s.team f.a.toNat).toNat) ∧
        maps.map (fun m => m.1) = o.accs.map (fun a => a.lane) ∧ maps.map (fun m => m.2.1) = o.accs.map (fun a => a.addr) := by
  have hexec : exec (.smap f) s = _ := (exec_smap f s).trans (teamWide_present _ (fun _ => ⟨_, rfl⟩) hr hpresent)
  dsimp only at hexec
  rw [hok, Bool.not_true, if_neg Bool.false_ne_true, gather_pages hpages] at hexec
  obtain ⟨t, ht, hq⟩ := enqueueOp_queued s f _ none
  refine ⟨t, _, hexec.trans ht, hq, _, rfl, ?_, ?_, ?_⟩
  · rw [List.map_map, List.map_map]
    exact List.map_congr_left fun p _ => pageAcc_lane s _ p
  · exact List.map_map ..
  · exact List.map_map ..

theorem smap_badWindow (hr : reaches s (.smap f) = true) (hpresent : presentSet s.team (modOf .m f) ≠ 0)
    (hbad : windowOk s s.team (srcU s.team f.d.toNat 0).toNat (srcBase s.team f.a.toNat).toNat (immOf f).toNat = false) :
    exec (.smap f) s = trapLanes s { cause := 0x10, i0 := loWord (srcU s.team f.d.toNat 0).toNat, i3 := 4 } (presentSet s.team (modOf .m f)) := by
  rw [exec_smap, execSmap, teamWide_present _ (fun _ => ⟨_, rfl⟩) hr hpresent]
  dsimp only
  rw [hbad]
  rfl

/-- A window that the team's next window operation will find starts at an offset. -/
theorem windowsAhead_any_iff (off : Nat) : (windowsAhead s s.cur).any (fun w => w.1 = off) = true ↔ ∃ n, (off, n) ∈ windowsAhead s s.cur := by
  simp only [List.any_eq_true, decide_eq_true_eq, Prod.exists]
  exact ⟨fun ⟨_, n, h, he⟩ => ⟨n, he ▸ h⟩, fun ⟨n, h⟩ => ⟨off, n, h, rfl⟩⟩

theorem sunmap_queued (hr : reaches s (.sunmap f) = true) (hpresent : presentSet s.team (modOf .m f) ≠ 0)
    (hstarts : ∃ n, ((srcU s.team f.d.toNat 0).toNat, n) ∈ windowsAhead s s.cur) :
    ∃ t, exec (.sunmap f) s = .next t ∧ queuedOp s t f (opBase s (modOf .m f) (.sunmap (srcU s.team f.d.toNat 0).toNat)) := by
  rw [exec_sunmap, execSunmap, teamWide_present _ (fun _ => ⟨_, rfl⟩) hr hpresent]
  dsimp only
  rw [if_pos ((windowsAhead_any_iff _).mpr hstarts)]
  exact enqueueOp_queued s f _ none

theorem sunmap_noWindow (hr : reaches s (.sunmap f) = true) (hpresent : presentSet s.team (modOf .m f) ≠ 0)
    (hnone : ∀ n, ((srcU s.team f.d.toNat 0).toNat, n) ∉ windowsAhead s s.cur) :
    exec (.sunmap f) s = trapLanes s { cause := 0x10, i0 := loWord (srcU s.team f.d.toNat 0).toNat, i3 := 5 } (presentSet s.team (modOf .m f)) := by
  rw [exec_sunmap, execSunmap, teamWide_present _ (fun _ => ⟨_, rfl⟩) hr hpresent]
  exact if_neg (mt (windowsAhead_any_iff _).mp fun ⟨n, hn⟩ => hnone n hn)

theorem sflush_queued (hr : reaches s (.sflush f) = true) (hpresent : presentSet s.team (modOf .m f) ≠ 0) :
    ∃ t, exec (.sflush f) s = .next t ∧ queuedOp s t f (opBase s (modOf .m f) .sflush) := by
  rw [exec_sflush, execSflush, teamWide_present _ (fun _ => ⟨_, rfl⟩) hr hpresent]
  exact enqueueOp_queued s f _ none

/-! ### Tiles (R208, R210) -/

theorem hpush_queued (hr : reaches s (.hpush f) = true) (hpresent : presentSet s.team (modOf .m f) ≠ 0) :
    ∃ t, exec (.hpush f) s = .next t ∧ queuedOp s t f { opBase s (modOf .m f) (.hpush f.d.toNat) with pdst := 0 } := by
  rw [exec_hpush, execHpush, teamWide_present _ (fun _ => ⟨_, rfl⟩) hr hpresent]
  exact enqueueOp_queued s f _ none

/-- The address of a descriptor (R207). -/
def descriptorEa (s : State) (f : Fields) : Nat := exactEa (((srcBase s.team f.a.toNat).toNat : Int) + (immOf f).toInt)

/-- The tiles of a block once a descriptor is bound to an id (R208). -/
def bindTile (id : Nat) (d : Tile) (b : Block) : Block := { b with tiles := if d.rows = 0 then kDel id b.tiles else kPut id d b.tiles }

/-- With nothing of the team's queue before it, `hdecl` reads its descriptor, and binds it or traps. -/
theorem hdecl_reads (hr : reaches s (.hdecl f) = true) (hpresent : presentSet s.team (modOf .m f) ≠ 0) {a lease cls : Nat} {q : State} {bs : List Byte}
    (hcheck : checkStash s s.cur 1 (descriptorEa s f) 32 1 false = .ok (some s.team.block) a lease cls) (hidle : s.team.memQ = [])
    (hfill : fillBad s s.team.block a 32 = false) (hload : classLoad s (mSclsV (modOf .m f)) s.team.block a 32 = some (q, bs)) :
    exec (.hdecl f) s = if !tileOk q s.team f.d.toNat (tileOf bs).1 (tileOf bs).2
      then trapLanes q { cause := 0x10, i0 := loWord (descriptorEa s f), i3 := 6 } (presentSet s.team (modOf .m f))
      else enqueueOp (q.modBlock s.team.block (bindTile f.d.toNat (tileOf bs).1)) (q.modBlock s.team.block (bindTile f.d.toNat (tileOf bs).1)).team f
        { newOp s.team .hdecl (modOf .m f) with performed := true } none := by
  have hidle' : (s.teamAt s.cur).memQ = [] := hidle
  rw [exec_hdecl, execHdecl, teamWide_present _ (fun _ => ⟨_, rfl⟩) hr hpresent]
  dsimp only
  rw [show exactEa (((srcBase s.team f.a.toNat).toNat : Int) + (immOf f).toInt) = descriptorEa s f from rfl, hcheck, withOne_passes]
  dsimp only
  rw [if_neg (by simp [opReady, isStagedSeal, heldByFenceq, newOp, hidle']), hfill, if_neg Bool.false_ne_true, hload]
  rfl

theorem hdecl_binds (hr : reaches s (.hdecl f) = true) (hpresent : presentSet s.team (modOf .m f) ≠ 0) {a lease cls : Nat} {q : State} {bs : List Byte}
    (hcheck : checkStash s s.cur 1 (descriptorEa s f) 32 1 false = .ok (some s.team.block) a lease cls) (hidle : s.team.memQ = [])
    (hfill : fillBad s s.team.block a 32 = false) (hload : classLoad s (mSclsV (modOf .m f)) s.team.block a 32 = some (q, bs))
    (hok : tileOk q s.team f.d.toNat (tileOf bs).1 (tileOf bs).2 = true) :
    ∃ t, exec (.hdecl f) s = .next t ∧ wentOn q.team t.team (lenOf f) ∧
      t.blockAt s.team.block = bindTile f.d.toNat (tileOf bs).1 (q.blockAt s.team.block) ∧ (∀ b, b ≠ s.team.block → t.blockAt b = q.blockAt b) ∧
      { placed q.team t.team with memQ := q.team.memQ, nextOp := q.team.nextOp, flags := q.team.flags } = q.team := by
  obtain ⟨t, ht, ⟨honly, -⟩, hon, -, -, -, hframe⟩ := enqueueOp_spec (q.modBlock s.team.block (bindTile f.d.toNat (tileOf bs).1)) f
    { newOp s.team .hdecl (modOf .m f) with performed := true } none
  refine ⟨t, ?_, hon, ?_, fun b hb => ?_, hframe⟩
  · rw [hdecl_reads hr hpresent hcheck hidle hfill hload, hok]
    exact ht
  · rw [honly, State.setTeam_eq, State.blockAt_setTeamAt, State.modBlock, State.blockAt_setBlock_same]
  · rw [honly, State.setTeam_eq, State.blockAt_setTeamAt, State.modBlock, State.blockAt_setBlock_other _ _ _ _ hb]

end

/-- Settles O6: what each instruction puts into the queue, the windows and descriptors that are refused, and the tile that `hdecl` binds. -/
theorem pagesWindowsAndTilesEnterQueue : Obligations.PagesWindowsAndTilesEnterQueue := by
  refine fun f s hpresent => ⟨fun hr hgate pa lease cls size hsize hcheck => append_queued hr hpresent hgate hsize hcheck,
    fun hr hclear pa lease cls size hsize hcheck => sealPage_queued hr hpresent hclear hsize hcheck, fun hr hok hpages => smap_queued hr hpresent hok hpages,
    fun hr hbad => smap_badWindow hr hpresent hbad, fun hr hstarts => sunmap_queued hr hpresent hstarts, fun hr hnone => sunmap_noWindow hr hpresent hnone,
    fun hr => sflush_queued hr hpresent, fun hr => hpush_queued hr hpresent, fun hr a lease cls q bs hcheck hidle hfill hload => ⟨fun hok => ?_, fun hbad => ?_⟩⟩
  · exact hdecl_binds hr hpresent hcheck hidle hfill hload hok
  · rw [hdecl_reads hr hpresent hcheck hidle hfill hload, hbad]
    rfl

end Sys2Proof.Machine
end

section
/-! The checks of an access (R172-R175, R207, R211, R267, R281), and the first fault of an instruction's lanes (R176, R277). -/

namespace Sys2Proof.Machine

open Sys2Proof Sys2Proof.Safety Sys2Proof.Claims

/-! ### Halo cells (R207, R211) -/

/-- A byte of a row of cells lies in one cell: its row and column by division. -/
theorem cell_of_byte {W e d : Nat} : d = (d / (W * e) * W + d % (W * e) / e) * e + d % (W * e) % e := by
  have hrow := Nat.div_add_mod d (W * e)
  have hcell := Nat.div_add_mod (d % (W * e)) e
  calc d = W * e * (d / (W * e)) + (e * (d % (W * e) / e) + d % (W * e) % e) := by rw [hcell, hrow]
    _ = _ := by ring

theorem byte_of_cell {W e r c k : Nat} (hc : c < W) (hk : k < e) : ((r * W + c) * e + k) / (W * e) = r ∧ ((r * W + c) * e + k) % (W * e) / e = c := by
  have he : 0 < e := Nat.zero_lt_of_lt hk
  have hlt : c * e + k < W * e := calc c * e + k < c * e + e := Nat.add_lt_add_left hk _
    _ = (c + 1) * e := by ring
    _ ≤ W * e := Nat.mul_le_mul_right e hc
  have hsplit : (r * W + c) * e + k = W * e * r + (c * e + k) := by ring
  rw [hsplit, Nat.mul_add_div (Nat.zero_lt_of_lt hlt), Nat.mul_add_mod, Nat.div_eq_of_lt hlt, Nat.mod_eq_of_lt hlt, Nat.mul_comm c e, Nat.mul_add_div he,
    Nat.div_eq_of_lt hk]
  exact ⟨rfl, rfl⟩

theorem Tile.halo_iff (t : Tile) (x : Nat) :
    t.halo x = true ↔ ∃ r c, r < t.rows + 2 * t.h ∧ c < t.cols + 2 * t.h ∧ (r < t.h ∨ t.h + t.rows ≤ r ∨ c < t.h ∨ t.h + t.cols ≤ c) ∧
      t.off + (r * (t.cols + 2 * t.h) + c) * t.elem ≤ x ∧ x < t.off + (r * (t.cols + 2 * t.h) + c) * t.elem + t.elem := by
  simp only [Tile.halo, Bool.and_eq_true, Bool.or_eq_true, decide_eq_true_eq, or_assoc]
  simp only [Tile.bytes, Tile.pitch]
  constructor
  · rintro ⟨⟨hlo, hhi⟩, hborder⟩
    have hlt : x - t.off < (t.rows + 2 * t.h) * ((t.cols + 2 * t.h) * t.elem) := by omega
    have hpitch : 0 < (t.cols + 2 * t.h) * t.elem := Nat.pos_of_ne_zero fun h0 => by rw [h0, Nat.mul_zero] at hlt; exact absurd hlt (Nat.not_lt_zero _)
    have helem : 0 < t.elem := Nat.pos_of_mul_pos_left hpitch
    have hcell := cell_of_byte (W := t.cols + 2 * t.h) (e := t.elem) (d := x - t.off)
    have hrest := Nat.mod_lt ((x - t.off) % ((t.cols + 2 * t.h) * t.elem)) helem
    refine ⟨_, _, Nat.div_lt_of_lt_mul (by rwa [Nat.mul_comm]), Nat.div_lt_of_lt_mul ((Nat.mod_lt _ hpitch).trans_eq (Nat.mul_comm _ _)), hborder, ?_, ?_⟩ <;> omega
  · rintro ⟨r, c, hr, hc, hborder, hlo, hhi⟩
    obtain ⟨k, rfl⟩ : ∃ k, x = t.off + ((r * (t.cols + 2 * t.h) + c) * t.elem + k) := ⟨x - t.off - (r * (t.cols + 2 * t.h) + c) * t.elem, by omega⟩
    have hk : k < t.elem := by omega
    obtain ⟨hrow, hcol⟩ := byte_of_cell (r := r) hc hk
    have hlt : (r * (t.cols + 2 * t.h) + c) * t.elem + k < (t.rows + 2 * t.h) * ((t.cols + 2 * t.h) * t.elem) :=
      (Nat.div_lt_iff_lt_mul (Nat.mul_pos (Nat.zero_lt_of_lt hc) (Nat.zero_lt_of_lt hk))).mp (hrow.symm ▸ hr)
    rw [Nat.add_sub_cancel_left, hrow, hcol]
    exact ⟨⟨Nat.le_add_right _ _, Nat.add_lt_add_left hlt _⟩, hborder⟩

theorem haloHit_iff (b : Block) (a n : Nat) : haloHit b a n = true ↔ touchesHalo b a n := by
  simp only [haloHit, List.any_eq_true, List.mem_range, Tile.halo_iff, touchesHalo]
  exact ⟨fun ⟨p, hp, i, hi, r, c, hcell⟩ => ⟨p, hp, i, r, c, hi, hcell⟩, fun ⟨p, hp, i, r, c, hi, hcell⟩ => ⟨p, hp, i, hi, r, c, hcell⟩⟩

/-! ### The stash (R173-R175) -/

section
variable {s : State}

theorem lostLine_noWindow {b : Block} (h : b.windows = []) (off : Nat) : lostLine s b off = false := by
  rw [lostLine, winAt, h]
  rfl

/-- An access in range of a block's stash has the outcome that the rules name. -/
theorem checkInStash_inStash (s : State) (k ea off n : Nat) (w : Want) : inStash s k ea off n w (checkInStash s k ea off n n w.write) := by
  rw [inStash, checkInStash]
  refine ⟨fun h => if_pos h, fun haligned hwindows => ?_⟩
  have hlost : (lineStarts off n).any (lostLine s (s.blockAt k)) = false := List.any_eq_false.mpr fun _ _ => by rw [lostLine_noWindow hwindows]; decide
  rw [if_neg (not_not.mpr haligned), hlost, if_neg Bool.false_ne_true, ← haloHit_iff, ← Bool.and_eq_true]
  exact ⟨fun h => if_pos h, fun h => if_neg h⟩

theorem checkStash_high {space ea n align : Nat} {write : Bool} (h : 2 ^ 32 ≤ ea) : checkStash s s.cur space ea n align write = stashRefused ea 1 := by
  rw [checkStash]
  exact if_pos h

/-- A team's own accesses within the first 2^32 bytes. -/
theorem checkStash_own {ea n align : Nat} {write : Bool} (h : ea < 2 ^ 32) :
    checkStash s s.cur 1 ea n align write =
      if 2 ^ 22 ≤ ea ∨ ownLimit s < ea + n then stashRefused ea 1 else checkInStash s s.team.block ea ea n align write := by
  have hlimit : stashLimit s (s.teamAt s.cur) = ownLimit s := by
    rw [stashLimit, ownLimit, State.team]
    cases (s.teamAt s.cur).trap.sup <;> rfl
  have hrange : (decide (ea / 2 ^ 22 ≠ 0) || decide (ownLimit s < ea + n)) = true ↔ 2 ^ 22 ≤ ea ∨ ownLimit s < ea + n := by
    rw [Bool.or_eq_true, decide_eq_true_eq, decide_eq_true_eq]
    exact or_congr_left (by omega)
  rw [checkStash]
  dsimp only
  rw [if_neg (Nat.not_le.mpr h), if_pos (by decide), hlimit]
  exact if_congr hrange rfl rfl

/-- A peer access within the first 2^32 bytes, past the number of peers. -/
theorem checkStash_peer {ea n align first count : Nat} {write : Bool} (h : ea < 2 ^ 32)
    (hgroup : (first, count) = levelGroup (s.gridAt s.team.grid) 1 (s.blockAt s.team.block).idx) (hcoh : (s.gridAt s.team.grid).cohLvl ≠ 0) :
    checkStash s s.cur 2 ea n align write =
      if count ≤ ea / 2 ^ 22 then stashRefused ea 2
      else match blockBy s s.team.grid (first + ea / 2 ^ 22) with
        | none => stashRefused ea 7
        | some p => if p.2.status = .retired then stashRefused ea 7 else if p.2.stashBytes < ea % 2 ^ 22 + n then stashRefused ea 1
          else checkInStash s p.1 ea (ea % 2 ^ 22) n align write := by
  have hgroup' : levelGroup (s.gridAt (s.teamAt s.cur).grid) 1 (s.blockAt (s.teamAt s.cur).block).idx = (first, count) := hgroup.symm
  have hcoh' : (s.gridAt (s.teamAt s.cur).grid).cohLvl ≠ 0 := hcoh
  rw [checkStash]
  dsimp only
  rw [if_neg (Nat.not_le.mpr h), if_neg (by decide), if_neg hcoh', hgroup']
  rfl

theorem checkStash_noPeers {ea n align : Nat} {write : Bool} (h : ea < 2 ^ 32) (hcoh : (s.gridAt s.team.grid).cohLvl = 0) :
    checkStash s s.cur 2 ea n align write = stashRefused ea 3 := by
  rw [checkStash]
  dsimp only
  rw [if_neg (Nat.not_le.mpr h), if_neg (by decide)]
  exact if_pos hcoh

theorem blockBy_some {gid idx : Nat} {p : Nat × Block} (h : blockBy s gid idx = some p) : p ∈ s.blocks ∧ p.2.grid = gid ∧ p.2.idx = idx := by
  rw [blockBy] at h
  have hp := List.find?_some h
  rw [Bool.and_eq_true, decide_eq_true_eq, decide_eq_true_eq] at hp
  exact ⟨List.mem_of_find?_eq_some h, hp⟩

/-- The one block of a grid with an index is found by it. -/
theorem blockBy_unique {gid idx k : Nat} {b : Block} (hk : kGet k s.blocks = some b) (hgrid : b.grid = gid) (hidx : b.idx = idx)
    (honly : ∀ j c, (j, c) ∈ s.blocks → c.grid = gid → c.idx = idx → j = k ∧ c = b) : blockBy s gid idx = some (k, b) := by
  cases h : blockBy s gid idx with
  | none =>
    have := List.find?_eq_none.mp h (k, b) (mem_of_kGet hk)
    simp [hgrid, hidx] at this
  | some p =>
    obtain ⟨hp, hg, hi⟩ := blockBy_some h
    obtain ⟨rfl, rfl⟩ := honly p.1 p.2 hp hg hi
    rfl

theorem checkAccess_stash {space ea n : Nat} {w : Want} (h : space ≠ 0) : checkAccess s s.cur space ea n w = checkStash s s.cur space ea n n w.write := if_neg h

theorem stashChecks : StashChecks := by
  intro s ea n w _
  have hown : checkAccess s s.cur 1 ea n w = checkStash s s.cur 1 ea n n w.write := checkAccess_stash (by decide)
  have hpeer : checkAccess s s.cur 2 ea n w = checkStash s s.cur 2 ea n n w.write := checkAccess_stash (by decide)
  refine ⟨fun space h0 hhigh => (checkAccess_stash h0).trans (checkStash_high hhigh), fun hea hout => ?_, fun hea hin => ?_,
    fun hea hcoh => hpeer.trans (checkStash_noPeers hea hcoh), fun first count hgroup hea hcoh => ?_⟩
  · rw [hown, checkStash_own hea, if_pos hout]
  · rw [hown, checkStash_own (by omega), if_neg (by omega)]
    exact checkInStash_inStash ..
  rw [hpeer, checkStash_peer hea hgroup hcoh]
  refine ⟨fun hq => if_pos hq, fun hq => ?_⟩
  rw [if_neg (Nat.not_le.mpr hq)]
  refine ⟨fun hgone => ?_, fun k b hk hgrid hidx hlive honly => ?_⟩
  · cases h : blockBy s s.team.grid (first + ea / 2 ^ 22) with
    | none => rfl
    | some p =>
      obtain ⟨hp, hg, hi⟩ := blockBy_some h
      exact if_pos (hgone p.1 p.2 hp hg hi)
  · rw [blockBy_unique hk hgrid hidx honly]
    dsimp only
    rw [if_neg hlive]
    refine ⟨fun hout => if_pos hout, fun hin => ?_⟩
    rw [if_neg (Nat.not_lt.mpr hin)]
    exact checkInStash_inStash ..

/-! ### Global memory (R172, R175, R186, R281) -/

/-- What a translation of the acting team answers when its walks have found nothing. -/
theorem translate_clean {va acc : Nat} (hva : va < 2 ^ 57) (hvalid : rfValid (regionOf s (dieOf s.team.core) (s.gridAt s.team.grid).asid va) = true)
    (hfault : s.team.walkFault = []) (hxlat : s.team.xlat = []) :
    translate s s.cur va acc = match findTlb (s.coreAt s.team.core).tlb (s.gridAt s.team.grid).asid va with
      | none => .miss
      | some e => if !permOk e acc then .bad 3 (leafLevel (rfPsz (regionOf s (dieOf s.team.core) (s.gridAt s.team.grid).asid va))) acc 1
        else if isWriteAcc acc && !e.dirty then .miss else .ok (e.ppage + (va - e.vpage)) e := by
  have hvalid' : rfValid (regionOf s (dieOf (s.teamAt s.cur).core) (s.gridAt (s.teamAt s.cur).grid).asid va) = true := hvalid
  have hfault' : (s.teamAt s.cur).walkFault = [] := hfault
  have hxlat' : (s.teamAt s.cur).xlat = [] := hxlat
  rw [translate, hvalid', decide_eq_false (Nat.not_le.mpr hva), hfault', hxlat']
  rfl

theorem checkGlobal_translated {va n pa : Nat} {w : Want} {e : TlbEntry} (haligned : va % n = 0) (hx : translate s s.cur va w.bits = .ok pa e) (hback : backed s pa = true) :
    checkGlobal s s.cur va n w =
      if extentGone s pa && (w.bits != accR || !servedByCopy s s.team.core (pa / 64)) then .bad 4 (globalFault 0x13 va)
      else if w.cls = 1 && e.mclass ≠ 1 then .bad 5 (globalFault 0x14 va)
      else if w.cls = 2 && e.mclass ≠ 0 && e.mclass ≠ 3 then .bad 5 (globalFault 0x14 va)
      else match if w.write then sealOf s e.mclass pa else none with
        | some .opened => .bad 7 (globalFault 0x16 va)
        | some _ => .bad 6 (globalFault 0x15 va)
        | none => .ok none pa e.lease e.mclass := by
  rw [checkGlobal, if_neg (not_not.mpr haligned), hx]
  dsimp only
  rw [hback]
  rfl

/-- A page of the class that the access asks for passes to the seal state. -/
theorem checkGlobal_fits {va n pa : Nat} {w : Want} {e : TlbEntry} (haligned : va % n = 0) (hx : translate s s.cur va w.bits = .ok pa e) (hback : backed s pa = true)
    (hgone : extentGone s pa = false) (hfits : classFits w e.mclass) :
    checkGlobal s s.cur va n w = match if w.write then sealOf s e.mclass pa else none with
      | some .opened => .bad 7 (globalFault 0x16 va)
      | some _ => .bad 6 (globalFault 0x15 va)
      | none => .ok none pa e.lease e.mclass := by
  rw [checkGlobal_translated haligned hx hback, hgone, Bool.false_and, if_neg Bool.false_ne_true, if_neg, if_neg]
  · obtain h | ⟨h, -⟩ | ⟨h, hc | hc⟩ := hfits <;> simp_all
  · obtain h | ⟨h, hc⟩ | ⟨h, -⟩ := hfits <;> simp_all

theorem sealOf_some {mclass pa : Nat} {p : Nat × APage} (h : pageOf s pa = some p) : sealOf s mclass pa = some p.2.st := by rw [sealOf, h]

theorem sealOf_none {mclass pa : Nat} (h : pageOf s pa = none) : sealOf s mclass pa = if mclass = 1 then some .opened else none := by rw [sealOf, h]

theorem checkAccess_global (ea n : Nat) (w : Want) : checkAccess s s.cur 0 ea n w = checkGlobal s s.cur (ea % 2 ^ 64) n w := if_pos rfl

theorem globalChecks : GlobalChecks := by
  intro s ea n va w _ hva
  rw [checkAccess_global, ← hva]
  refine ⟨fun hmis => if_pos hmis, fun haligned hhigh => ?_, fun haligned hlow hvalid hfault hxlat => ⟨fun hnone => ?_, ?_⟩⟩
  · have hx : translate s s.cur va w.bits = .bad 2 5 w.bits 1 := by
      rw [translate]
      exact if_pos (by rw [decide_eq_true hhigh]; rfl)
    rw [checkGlobal, if_neg (not_not.mpr haligned), hx]
    rfl
  · rw [checkGlobal, if_neg (not_not.mpr haligned), translate_clean hlow hvalid hfault hxlat, hnone]
  intro e pa htlb hperm hdirty rfl hback
  have hx : translate s s.cur va w.bits = .ok (e.ppage + (va - e.vpage)) e := by
    rw [translate_clean hlow hvalid hfault hxlat, htlb]
    dsimp only
    rw [hperm, if_neg (by decide), if_neg]
    rw [Bool.and_eq_true, Bool.not_eq_true', not_and, Bool.not_eq_false]
    exact hdirty
  refine ⟨fun hgone hbits => ?_, fun hgone hfits hcls => ?_, fun hgone hfits => ?_⟩
  · rw [checkGlobal_translated haligned hx hback, if_pos]
    rw [hgone, show (w.bits != accR) = true from bne_iff_ne.mpr hbits]
    rfl
  · rw [checkGlobal_translated haligned hx hback, hgone, Bool.false_and, if_neg Bool.false_ne_true]
    rw [classFits, not_or, not_or] at hfits
    obtain ⟨h0, h1, h2⟩ := hfits
    obtain hc | hc : w.cls = 1 ∨ w.cls = 2 := by omega
    · rw [if_pos (by simpa [hc] using h1)]
    · rw [if_neg (by simp [hc]), if_pos (by simpa [hc] using h2)]
  · rw [checkGlobal_fits haligned hx hback hgone hfits]
    refine ⟨fun hread => ?_, fun hwrite hpage hcls => ?_, fun hwrite hpage hcls => ?_, fun p hwrite hpage => ⟨fun hopen => ?_, fun hsealed => ?_⟩⟩
    · rw [hread]; rfl
    · rw [hwrite, if_pos rfl, sealOf_none hpage, if_neg hcls]
    · rw [hwrite, if_pos rfl, sealOf_none hpage, if_pos hcls]
    · rw [hwrite, if_pos rfl, sealOf_some hpage, hopen]
    · rw [hwrite, if_pos rfl, sealOf_some hpage]
      cases hst : p.2.st with
      | opened => exact absurd hst hsealed
      | sealing => rfl
      | sealed => rfl

end

end Sys2Proof.Machine
end

section
/-! The first fault of an instruction's lanes (R176, R277); loads, stores, atomics and reductions at issue (R181, R183, R192, R194); releases that wait (R194, R233). -/

namespace Sys2Proof.Machine

open Sys2Proof Sys2Proof.Safety Sys2Proof.Claims

/-! ### The outcome of an instruction's lanes (R176) -/

theorem foldl_min_ge {k : Nat} {l : List Nat} (h : ∀ x ∈ l, k ≤ x) {m : Nat} (hm : k ≤ m) : k ≤ l.foldl min m := by
  induction l generalizing m with
  | nil => exact hm
  | cons x r ih =>
    rw [List.forall_mem_cons] at h
    exact ih h.2 (le_min hm h.1)

theorem foldl_min_le (l : List Nat) (m : Nat) : l.foldl min m ≤ m ∧ ∀ x ∈ l, l.foldl min m ≤ x := by
  induction l generalizing m with
  | nil => exact ⟨le_rfl, fun _ h => absurd h List.not_mem_nil⟩
  | cons x r ih =>
    obtain ⟨hm, hr⟩ := ih (min m x)
    exact ⟨hm.trans (min_le_left _ _), List.forall_mem_cons.mpr ⟨hm.trans (min_le_right _ _), hr⟩⟩

theorem order_eq_some {c : Chk} {o : Nat} : c.order = some o ↔ ∃ v, c = .bad o v := by
  cases c <;> simp [Chk.order]

/-- The least order of the faults among the lanes' outcomes; 99 with none. -/
def leastOrder (rs : List (Nat × Nat × Chk)) : Nat := (rs.filterMap (fun r => r.2.2.order)).foldl min 99

theorem mem_orders {rs : List (Nat × Nat × Chk)} {o : Nat} : o ∈ rs.filterMap (fun r => r.2.2.order) ↔ ∃ x ∈ rs, ∃ v, x.2.2 = .bad o v := by
  simp only [List.mem_filterMap, order_eq_some]

theorem leastOrder_ge {rs : List (Nat × Nat × Chk)} {k : Nat} (hk : k ≤ 99) (h : ∀ x ∈ rs, ∀ o v, x.2.2 = .bad o v → k ≤ o) : k ≤ leastOrder rs := by
  refine foldl_min_ge (fun o ho => ?_) hk
  obtain ⟨x, hx, v, hv⟩ := mem_orders.mp ho
  exact h x hx o v hv

theorem leastOrder_firstFault {rs : List (Nat × Nat × Chk)} {o : Nat} {tr : Trap} (h : firstFault rs o tr) : leastOrder rs = o := by
  obtain ⟨ho, ⟨pre, r, post, rfl, hr, -⟩, hleast, -⟩ := h
  exact Nat.le_antisymm ((foldl_min_le _ _).2 o (mem_orders.mpr ⟨r, by simp, tr, hr⟩)) (leastOrder_ge (by omega) hleast)

/-- The lanes of an instruction whose fault is of an order, as a set. -/
def faultLanes (rs : List (Nat × Nat × Chk)) (o : Nat) : LaneSet :=
  BitVec.ofNat 1024 ((rs.filter (fun r => r.2.2.order = some o)).foldl (fun a r => a + 2 ^ r.1) 0)

/-- The first of an instruction's faults is what the check of its lanes leads to. -/
theorem gather_firstFault {rs : List (Nat × Nat × Chk)} {o : Nat} {tr : Trap} (h : firstFault rs o tr) : gather rs = .trap tr (faultLanes rs o) := by
  have hleast : (rs.filterMap (fun r => r.2.2.order)).foldl min 99 = o := leastOrder_firstFault h
  obtain ⟨ho, ⟨pre, ⟨l, ea, c⟩, post, hrs, rfl, hpre⟩, -, hmiss⟩ := h
  have hfaulty : rs.filter (fun r => r.2.2.order = some o) = (l, ea, .bad o tr) :: post.filter (fun r => r.2.2.order = some o) := by
    have hnone : pre.filter (fun r => r.2.2.order = some o) = [] := by
      rw [List.filter_eq_nil_iff]
      intro x hx
      rw [decide_eq_true_eq, order_eq_some]
      exact fun ⟨v, hv⟩ => hpre x hx v hv
    rw [hrs, List.filter_append, hnone, List.nil_append, List.filter_cons_of_pos (a := (l, ea, Chk.bad o tr)) (decide_eq_true rfl)]
  rw [gather, hleast, faultLanes, hfaulty]
  by_cases ho2 : o ≤ 2
  · exact if_pos ho2
  · have hfind : rs.find? (fun r => r.2.2 = .miss) = none := by
      rw [List.find?_eq_none]
      exact fun x hx => by simpa using hmiss (by omega) x hx
    rw [if_neg ho2, hfind]
    exact if_pos (by omega)

/-- With no fault of range or alignment, the first lane without a translation has the team walk for it. -/
theorem gather_firstMiss {pre post : List (Nat × Nat × Chk)} {l ea : Nat} (hpre : ∀ x ∈ pre, x.2.2 ≠ .miss)
    (hbad : ∀ x ∈ pre ++ (l, ea, .miss) :: post, ∀ o v, x.2.2 = .bad o v → 3 ≤ o) : gather (pre ++ (l, ea, .miss) :: post) = .walk (ea % 2 ^ 64) := by
  have hleast : 3 ≤ ((pre ++ (l, ea, Chk.miss) :: post).filterMap (fun r => r.2.2.order)).foldl min 99 := leastOrder_ge (by decide) hbad
  have hfind : (pre ++ (l, ea, Chk.miss) :: post).find? (fun r => r.2.2 = .miss) = some (l, ea, .miss) := by
    rw [List.find?_append, List.find?_eq_none.mpr fun x hx => by simpa using hpre x hx]
    rfl
  rw [gather, if_neg (Nat.not_le.mpr hleast), hfind]

/-- Powers of two of distinct numbers, summed, are the set of the numbers. -/
theorem testBit_sumTwoPow {ls : List Nat} (hnd : ls.Nodup) {v : Nat} (hv : ∀ l ∈ ls, v.testBit l = false) (j : Nat) :
    (ls.foldl (fun a l => a + 2 ^ l) v).testBit j = (v.testBit j || decide (j ∈ ls)) := by
  induction ls generalizing v with
  | nil => simp
  | cons l r ih =>
    rw [List.nodup_cons] at hnd
    rw [List.forall_mem_cons] at hv
    obtain ⟨hl, hr⟩ := hnd
    obtain ⟨hvl, hvr⟩ := hv
    have hv' (x : Nat) (hx : x ∈ r) : (v + 2 ^ l).testBit x = false := by
      rw [testBit_add_two_pow hvl, hvr x hx, decide_eq_false (ne_of_mem_of_not_mem hx hl)]
      rfl
    rw [List.foldl_cons, ih hr hv', testBit_add_two_pow hvl, Bool.or_comm (decide _), Bool.or_assoc]
    simp only [List.mem_cons, Bool.decide_or]

theorem getLsbD_faultLanes {rs : List (Nat × Nat × Chk)} (hnd : (rs.map (fun r => r.1)).Nodup) (o : Nat) {l : Nat} (hl : l < 1024) :
    (faultLanes rs o).getLsbD l = true ↔ ∃ ea v, (l, ea, Chk.bad o v) ∈ rs := by
  have hnd' : ((rs.filter (fun r => r.2.2.order = some o)).map (fun r => r.1)).Nodup := hnd.sublist (List.filter_sublist.map _)
  have hbit := testBit_sumTwoPow hnd' (v := 0) (fun _ _ => Nat.zero_testBit _) l
  rw [List.foldl_map, Nat.zero_testBit, Bool.false_or] at hbit
  rw [faultLanes, BitVec.getLsbD_ofNat, hbit, decide_eq_true hl, Bool.true_and, decide_eq_true_eq, List.mem_map]
  constructor
  · rintro ⟨⟨k, ea, c⟩, hx, rfl⟩
    obtain ⟨hmem, hc⟩ := List.mem_filter.mp hx
    obtain ⟨v, rfl⟩ := order_eq_some.mp (of_decide_eq_true hc)
    exact ⟨ea, v, hmem⟩
  · rintro ⟨ea, v, hmem⟩
    exact ⟨_, List.mem_filter.mpr ⟨hmem, decide_eq_true rfl⟩, rfl⟩

/-! ### The rows -/

/-- The instructions that a list names run as a shared operation. -/
theorem loadRows_exec : ∀ r ∈ loadRows, EncodesItself r.1 ∧ ∀ f s, exec (r.1 f) s = loadOp (r.1 f) s r.2.1 r.2.2.1 r.2.2.2 := by
  simp only [loadRows, List.forall_mem_cons, List.not_mem_nil, false_implies, implies_true, and_true]
  exact ⟨⟨fun _ => ⟨_, rfl⟩, exec_ld8I⟩, ⟨fun _ => ⟨_, rfl⟩, exec_ld8Z⟩, ⟨fun _ => ⟨_, rfl⟩, exec_ld16I⟩, ⟨fun _ => ⟨_, rfl⟩, exec_ld16Z⟩,
    ⟨fun _ => ⟨_, rfl⟩, exec_ld32⟩, ⟨fun _ => ⟨_, rfl⟩, exec_ld64⟩, ⟨fun _ => ⟨_, rfl⟩, exec_ld128⟩, ⟨fun _ => ⟨_, rfl⟩, exec_ldw32⟩,
    ⟨fun _ => ⟨_, rfl⟩, exec_ldw64⟩, ⟨fun _ => ⟨_, rfl⟩, exec_ldw128⟩⟩

theorem storeRows_exec : ∀ r ∈ storeRows, EncodesItself r.1 ∧ ∀ f s, exec (r.1 f) s = storeOp (r.1 f) s r.2 := by
  simp only [storeRows, List.forall_mem_cons, List.not_mem_nil, false_implies, implies_true, and_true]
  exact ⟨⟨fun _ => ⟨_, rfl⟩, exec_st8⟩, ⟨fun _ => ⟨_, rfl⟩, exec_st16⟩, ⟨fun _ => ⟨_, rfl⟩, exec_st32⟩, ⟨fun _ => ⟨_, rfl⟩, exec_st64⟩,
    ⟨fun _ => ⟨_, rfl⟩, exec_st128⟩⟩

theorem atomRows_exec : ∀ r ∈ atomRows, EncodesItself r.1 ∧ ∀ f s, exec (r.1 f) s = atomOp (r.1 f) s r.2.1 r.2.2 := by
  simp only [atomRows, List.forall_mem_cons, List.not_mem_nil, false_implies, implies_true, and_true]
  exact ⟨⟨fun _ => ⟨_, rfl⟩, exec_atomAdd⟩, ⟨fun _ => ⟨_, rfl⟩, exec_atomMinI32⟩, ⟨fun _ => ⟨_, rfl⟩, exec_atomMinZ32⟩, ⟨fun _ => ⟨_, rfl⟩, exec_atomMaxI32⟩,
    ⟨fun _ => ⟨_, rfl⟩, exec_atomMaxZ32⟩, ⟨fun _ => ⟨_, rfl⟩, exec_atomAnd⟩, ⟨fun _ => ⟨_, rfl⟩, exec_atomOr⟩, ⟨fun _ => ⟨_, rfl⟩, exec_atomXor⟩,
    ⟨fun _ => ⟨_, rfl⟩, exec_atomXchg⟩, ⟨fun _ => ⟨_, rfl⟩, exec_atomCas⟩, ⟨fun _ => ⟨_, rfl⟩, exec_atomFadd⟩, ⟨fun _ => ⟨_, rfl⟩, exec_atomFmin⟩,
    ⟨fun _ => ⟨_, rfl⟩, exec_atomFmax⟩, ⟨fun _ => ⟨_, rfl⟩, exec_mRedAdd⟩, ⟨fun _ => ⟨_, rfl⟩, exec_mRedMinI32⟩, ⟨fun _ => ⟨_, rfl⟩, exec_mRedMinZ32⟩,
    ⟨fun _ => ⟨_, rfl⟩, exec_mRedMaxI32⟩, ⟨fun _ => ⟨_, rfl⟩, exec_mRedMaxZ32⟩, ⟨fun _ => ⟨_, rfl⟩, exec_mRedAnd⟩, ⟨fun _ => ⟨_, rfl⟩, exec_mRedOr⟩,
    ⟨fun _ => ⟨_, rfl⟩, exec_mRedXor⟩, ⟨fun _ => ⟨_, rfl⟩, exec_mRedFadd⟩, ⟨fun _ => ⟨_, rfl⟩, exec_mRedFmin⟩, ⟨fun _ => ⟨_, rfl⟩, exec_mRedFmax⟩⟩

/-- Every instruction of one access in each lane checks its lanes alike. -/
theorem laneRows_exec : ∀ row ∈ laneRows, EncodesItself row.1 ∧ ∀ f s, ∃ k, exec (row.1 f) s = perLane (row.1 f) s row.2.1 row.2.2 k := by
  simp only [laneRows, List.forall_mem_append, List.forall_mem_map]
  exact ⟨⟨fun r hr => (loadRows_exec r hr).imp_right fun h f s => ⟨_, h f s⟩, fun r hr => (storeRows_exec r hr).imp_right fun h f s => ⟨_, h f s⟩⟩,
    fun r hr => (atomRows_exec r hr).imp_right fun h f s => ⟨_, h f s⟩⟩

section
variable {f : Fields} {s : State}

theorem perLane_gathers {i : Instr} {fm : Form} {n : Nat} {w : Want} (k : Team → Fields → List LaneAcc → Out) (he : encOf i = some (fm, f)) (hr : reaches s i = true)
    (hpresent : presentSet s.team (modOf .m f) ≠ 0) : perLane i s n w k = withGather s w.bits (gather (laneOutcomes s f n w)) id (k s.team f) := by
  rw [perLane, issue_reaches _ he hr]
  exact if_neg hpresent

theorem laneOutcomes_nodup (n : Nat) (w : Want) : ((laneOutcomes s f n w).map (fun r => r.1)).Nodup := by
  rw [laneOutcomes, List.map_map, show (fun r : Nat × Nat × Chk => r.1) ∘ _ = id from rfl, List.map_id]
  exact List.nodup_range.filter _

theorem laneFaults : LaneFaults := by
  intro row hrow f s hr hpresent
  obtain ⟨henc, hexec⟩ := laneRows_exec row hrow
  obtain ⟨fm, he⟩ := henc f
  obtain ⟨k, hk⟩ := hexec f s
  rw [hk, perLane_gathers k he hr hpresent]
  refine ⟨fun o tr hfirst => ⟨_, ?_, fun l hl => getLsbD_faultLanes (laneOutcomes_nodup _ _) o hl⟩, fun pre l ea post hsplit hpre hbad => ?_⟩
  · rw [gather_firstFault hfirst]
    rfl
  · rw [hsplit] at hbad ⊢
    rw [gather_firstMiss hpre hbad]
    rfl

/-! ### Operations that enter the queue (R181, R183, R192) -/

theorem loadsEnterQueue : LoadsEnterQueue := by
  intro row hrow f s hr hpresent accs hpass
  obtain ⟨henc, hexec⟩ := loadRows_exec row hrow
  obtain ⟨fm, he⟩ := henc f
  rw [hexec, loadOp, perLane_passes _ he hr hpresent hpass]
  exact enqueueOp_queued s f _ _

theorem storeOp_passes {con : Fields → Instr} {n : Nat} {accs : List LaneAcc} (henc : EncodesItself con) (hr : reaches s (con f) = true)
    (hpresent : presentSet s.team (modOf .m f) ≠ 0) (hpass : lanesPass s f n wantWrite accs) :
    storeOp (con f) s n = withGate s (2 ≤ mSem (modOf .m f)) (enqueueOp s s.team f
      { newOp s.team (.store n) (modOf .m f) with accs := accs.map (fun a => { a with data := dData s.team f.d.toNat n a.lane }) } (mHold s.team f)) := by
  obtain ⟨fm, he⟩ := henc f
  rw [storeOp, perLane_passes _ he hr hpresent hpass]

/-- The operation of an atomic or reduction at issue. -/
def atomOpOf (s : State) (f : Fields) (op : AOp) (ret : Bool) (accs : List LaneAcc) : MemOp :=
  { newOp s.team (.atom op ret) (modOf .m f) with
    dst := if ret then dstWord s.team f.d.toNat else none
    scope := if mScope (modOf .m f) = 0 then 6 else mScope (modOf .m f)
    accs := accs.map (fun a => { a with
      data := dData s.team f.d.toNat 4 a.lane
      data2 := if op = .cas && f.d.toNat < 88 then (s.team.word (s.team.vWord f.d.toNat + 1) a.lane).toNat else 0 }) }

/-- An atomic whose turn it is goes on to the watch rule and the log. -/
theorem atomOp_passes {row : (Fields → Instr) × AOp × Bool} {accs : List LaneAcc} (henc : EncodesItself row.1) (hr : reaches s (row.1 f) = true)
    (hpresent : presentSet s.team (modOf .m f) ≠ 0) (hturn : inTurn s f row) (hpass : lanesPass s f 4 (if row.2.2 then wantAtom else wantWrite) accs) :
    atomOp (row.1 f) s row.2.1 row.2.2 = withGate s (2 ≤ mSem (modOf .m f))
      (withReplay s 1 (decisionKeys s (atomOpOf s f row.2.1 row.2.2 accs)) (enqueueOp s s.team f (atomOpOf s f row.2.1 row.2.2 accs) (mHold s.team f))) := by
  obtain ⟨fm, he⟩ := henc f
  have hfloat : row.2.1 ∉ [AOp.fadd, .fmin, .fmax] → row.2.1.float = false := by cases row.2.1 <;> decide
  have hgo : ¬(row.2.2 && (s.gridAt s.team.grid).det && (mSpace (modOf .m f) = 0 || row.2.1.float) && !ticketTurn s s.cur) = true := by
    obtain h | h | ⟨hspace, hop⟩ | h := hturn
    · simp [h]
    · simp [h]
    · simp [hspace, hfloat hop]
    · simp [h]
  rw [atomOp, perLane_passes _ he hr hpresent hpass]
  exact if_neg hgo

theorem storesAndAtomicsEnterQueue : StoresAndAtomicsEnterQueue := by
  refine ⟨fun row hrow f s hr hpresent hgate accs hpass => ?_, fun row hrow f s hr hpresent hgate hreplay hturn accs hpass => ?_⟩
  · obtain ⟨henc, hexec⟩ := storeRows_exec row hrow
    rw [hexec, storeOp_passes henc hr hpresent hpass, withGate_clear (hgate.imp_left fun h => decide_eq_false (Nat.not_le.mpr h))]
    simp only [dData_eq]
    exact enqueueOp_queued s f _ _
  · obtain ⟨henc, hexec⟩ := atomRows_exec row hrow
    rw [hexec, atomOp_passes henc hr hpresent hturn hpass, withGate_clear (hgate.imp_left fun h => decide_eq_false (Nat.not_le.mpr h)), withReplay, if_pos (by simp [hreplay])]
    simp only [atomOpOf, dData_eq, Bool.and_eq_true, decide_eq_true_eq]
    exact enqueueOp_queued s f _ _

/-! ### Releases that wait (R194, R233) -/

theorem pendingWatch_iff (st : WState) : (teamWatches s s.cur).any (fun w => w.st = st) = true ↔ ∃ w ∈ (s.coreAt s.team.core).watch, w.tid = s.cur ∧ w.st = st := by
  rw [teamWatches, List.any_eq_true]
  simp only [List.mem_filter, decide_eq_true_eq, and_assoc]
  rfl

theorem releaseGate_open (h : watchesOpen s) : releaseGate s s.cur = .wait := by
  have hopen : (pendingWatched s.team || (teamWatches s s.cur).any (fun w => w.st = .pending)) = true := by
    rwa [Bool.or_eq_true, pendingWatch_iff]
  rw [releaseGate]
  exact if_pos hopen

theorem releaseGate_struck (h : watchesStruck s) : releaseGate s s.cur = .struck := by
  obtain ⟨hopen, hstruck⟩ := h
  have hresolved : ¬(pendingWatched s.team || (teamWatches s s.cur).any (fun w => w.st = .pending)) = true := by
    rwa [Bool.or_eq_true, pendingWatch_iff]
  have hsome : (s.team.struck || (teamWatches s s.cur).any (fun w => w.st = .struck)) = true := by
    rwa [Bool.or_eq_true, pendingWatch_iff]
  rw [releaseGate]
  exact (if_neg hresolved).trans (if_pos hsome)

/-- What the watch rule holds back of a releasing instruction. -/
theorem heldBack_of_gate {i : Instr} {rel : Bool} {k : Out} (h : exec i s = withGate s rel k) (hrel : rel = true) : heldBack s i := by
  rw [heldBack, h, hrel, withGate]
  refine ⟨fun hopen => ?_, fun hstruck => ?_⟩
  · rw [releaseGate_open hopen]
    rfl
  · rw [releaseGate_struck hstruck]
    rfl

/-- A release of class X is held back by the watch rule, then by the team's own accesses. -/
theorem heldBack_of_release {i : Instr} {scope : Nat} {k : State → Out} (h : exec i s = withRelease s scope k) :
    heldBack s i ∧ (watchesClear s → mustWait s → exec i s = .next s) := by
  refine ⟨heldBack_of_gate h rfl, fun hclear hwait => ?_⟩
  obtain ⟨o, ho, hperf, hfmap, hfenceq, hstaged⟩ := hwait
  have hdone : memDone s s.cur = false := List.all_eq_false.mpr ⟨o, ho, by simp [hperf, hfmap, hfenceq, hstaged]⟩
  rw [h, withRelease, withGate_clear (.inr hclear), hdone]
  rfl

theorem withLevel_passes {l : Lvl} (h : levelOk s l) (k : Out) : withLevel s s.team (lvlNum l) k = k := by
  refine if_neg ?_
  rw [Bool.and_eq_true, decide_eq_true_eq, decide_eq_true_eq]
  exact fun ⟨h0, hlt⟩ => Nat.not_le.mpr hlt (h.resolve_left h0)

theorem bareDiverges_none (h : (s.gridAt s.team.grid).replay = false) (lvl gen : Nat) : bareDiverges s s.team lvl gen = none := by
  rw [bareDiverges]
  exact if_pos (by rw [h]; rfl)

theorem bara_releases {l : Lvl} (hl : levelOk s l) (hnone : kGet (lvlNum l) s.team.arrivals = none) (hr : reaches s (.bara l f) = true) :
    ∃ k, exec (.bara l f) s = withRelease s (lvlNum l + 1) k := by
  obtain ⟨fm, he⟩ : ∃ fm, encOf (.bara l f) = some (fm, f) := by cases l <;> exact ⟨_, rfl⟩
  rw [exec_bara, execBara, issue_reaches _ he hr, withLevel_passes hl, hnone]
  exact ⟨_, rfl⟩

theorem bar_releases {l : Lvl} (hl : levelOk s l) (hnone : kGet (lvlNum l) s.team.arrivals = none) (hr : reaches s (.bar l f) = true) :
    ∃ k, exec (.bar l f) s = withRelease s (lvlNum l + 1) k := by
  obtain ⟨fm, he⟩ : ∃ fm, encOf (.bar l f) = some (fm, f) := by cases l <;> exact ⟨_, rfl⟩
  rw [exec_bar, execBar, issue_reaches _ he hr, withLevel_passes hl, hnone]
  exact ⟨_, rfl⟩

theorem bare_releases {l : Lvl} (hl : levelOk s l) (hnone : kGet (lvlNum l) s.team.arrivals = none) (hr : reaches s (.bare l f) = true)
    (hreplay : (s.gridAt s.team.grid).replay = false) : ∃ k, exec (.bare l f) s = withGate s true (withRelease s (lvlNum l + 1) k) := by
  obtain ⟨fm, he⟩ : ∃ fm, encOf (.bare l f) = some (fm, f) := by cases l <;> exact ⟨_, rfl⟩
  rw [exec_bare, execBare, issue_reaches _ he hr, withLevel_passes hl]
  dsimp only
  rw [bareDiverges_none hreplay, hnone]
  exact ⟨_, rfl⟩

/-- A gate before a gate is one gate. -/
theorem withGate_withRelease (scope : Nat) (k : State → Out) : withGate s true (withRelease s scope k) = withRelease s scope k := by
  rw [withRelease, withGate, withGate]
  cases releaseGate s s.cur <;> rfl

theorem exit_releases (hr : reaches s (.exit f) = true) (hpresent : presentSet s.team (modOf .x f) ≠ 0) :
    ∃ k, exec (.exit f) s = withRelease s (s.gridAt s.team.grid).lrec.cscope k :=
  ⟨_, (execExit_reaches hr).trans (if_neg hpresent)⟩

theorem barriers_wait {l : Lvl} (hl : levelOk s l) (hnone : kGet (lvlNum l) s.team.arrivals = none) (hreplay : (s.gridAt s.team.grid).replay = false) :
    ∀ i ∈ [.bara l f, .bar l f, .bare l f], reaches s i = true → ∃ k, exec i s = withRelease s (lvlNum l + 1) k := by
  simp only [List.forall_mem_cons, List.not_mem_nil, false_implies, implies_true, and_true]
  refine ⟨bara_releases hl hnone, bar_releases hl hnone, fun hr => ?_⟩
  obtain ⟨k, hk⟩ := bare_releases hl hnone hr hreplay
  exact ⟨k, hk.trans (withGate_withRelease _ _)⟩

theorem releasesWait : ReleasesWait := by
  intro f s
  refine ⟨fun row hrow hr hpresent hrel accs hpass => ?_, fun row hrow hr hpresent hrel hturn accs hpass => ?_, fun hr hpresent hrel => ?_, fun hr hpresent => ?_,
    fun l hl hnone i hi hr hreplay => ?_⟩
  · obtain ⟨henc, hexec⟩ := storeRows_exec row hrow
    exact heldBack_of_gate ((hexec f s).trans (storeOp_passes henc hr hpresent hpass)) (decide_eq_true hrel)
  · obtain ⟨henc, hexec⟩ := atomRows_exec row hrow
    exact heldBack_of_gate ((hexec f s).trans (atomOp_passes henc hr hpresent hturn hpass)) (decide_eq_true hrel)
  · have hexec : exec (.fence f) s = withGate s (2 ≤ mSem (modOf .m f)) (enqueueOp s s.team f (newOp s.team .fence (modOf .m f)) none) := by
      rw [exec_fence, execFence, teamWide_present _ (fun _ => ⟨_, rfl⟩) hr hpresent]
    exact heldBack_of_gate hexec (decide_eq_true hrel)
  · obtain ⟨k, hk⟩ := exit_releases hr hpresent
    exact heldBack_of_release hk
  · obtain ⟨k, hk⟩ := barriers_wait hl hnone hreplay i hi hr
    exact heldBack_of_release hk

end

/-- Settles O38: an access's outcome by the order of its checks, an instruction's from those of its lanes, and what each row queues or waits for by the shared operation
that it runs as. -/
theorem loadsStoresAndAtomicsEnterQueue : Obligations.LoadsStoresAndAtomicsEnterQueue :=
  ⟨stashChecks, globalChecks, laneFaults, loadsEnterQueue, storesAndAtomicsEnterQueue, releasesWait⟩

end Sys2Proof.Machine
end

section
/-! A halo push (R207, R209, R211). -/

namespace Sys2Proof.Machine

open Sys2Proof Sys2Proof.Safety Sys2Proof.Claims

/-! ### Bytes of a stash -/

theorem stashRead_length (s : State) (b a n : Nat) : (stashRead s b a n).length = n := by
  rw [stashRead, bRead_eq, List.length_map, List.length_range]

/-- A byte of a range of a stash, read. -/
theorem stashRead_getD (s : State) (b a : Nat) {n i : Nat} (h : i < n) : (stashRead s b a n).getD i 0 = bGet (s.blockAt b).stash (a + i) := by
  have hkeep : bGet ((s.blockAt b).stash.filter (fun p => a ≤ p.1 && p.1 < a + n)) (a + i) = bGet (s.blockAt b).stash (a + i) := by
    rw [bGet, bGet, kGetD, kGetD, kGet_filter (fun j => decide (a ≤ j) && decide (j < a + n)), if_pos (by simp [h])]
  rw [stashRead, bRead_eq, List.getD_eq_getElem _ _ (by simpa using h), List.getElem_map, List.getElem_range, hkeep]

/-- A byte of a stash after a write of consecutive bytes. -/
theorem bGet_stashWrite (s : State) (b a : Nat) (bs : List Byte) (j : Nat) :
    bGet ((stashWrite s b a bs).blockAt b).stash j = if a ≤ j ∧ j < a + bs.length then bs.getD (j - a) 0 else bGet (s.blockAt b).stash j := by
  rw [stashWrite, State.modBlock, State.blockAt_setBlock_same, bGet_bWrite]

theorem blockAt_stashWrite_other (s : State) {b m : Nat} (h : m ≠ b) (a : Nat) (bs : List Byte) : (stashWrite s b a bs).blockAt m = s.blockAt m :=
  State.blockAt_setBlock_other _ _ _ _ h

/-! ### Rows copied from one stash to another -/

/-- Copy n rows of w bytes from a block's stash to another's, from and to the addresses that two functions name. -/
def copyRows (s : State) (src dst : Nat) (from_ to_ : Nat → Nat) (w n : Nat) : State :=
  (List.range n).foldl (fun s r => stashWrite s dst (to_ r) (stashRead s src (from_ r) w)) s

/-- What copied rows leave: the rows where they go, and everything else as it was. -/
structure RowsCopied (s t : State) (src dst : Nat) (from_ to_ : Nat → Nat) (w n : Nat) : Prop where
  mem : sameMem s t
  others : ∀ m, m ≠ dst → t.blockAt m = s.blockAt m
  rest : { t.blockAt dst with stash := (s.blockAt dst).stash } = s.blockAt dst
  rows : ∀ r i, r < n → i < w → bGet (t.blockAt dst).stash (to_ r + i) = bGet (s.blockAt src).stash (from_ r + i)
  keeps : ∀ a, (∀ r i, r < n → i < w → a ≠ to_ r + i) → bGet (t.blockAt dst).stash a = bGet (s.blockAt dst).stash a

/-- One more row, apart from those before it. -/
theorem RowsCopied.row {s t : State} {src dst : Nat} {from_ to_ : Nat → Nat} {w n : Nat} (h : RowsCopied s t src dst from_ to_ w n) (hne : src ≠ dst)
    (hapart : ∀ r, r < n → to_ r + w ≤ to_ n) :
    RowsCopied s (stashWrite t dst (to_ n) (stashRead t src (from_ n) w)) src dst from_ to_ w (n + 1) := by
  have hread (i : Nat) (hi : i < w) : (stashRead t src (from_ n) w).getD i 0 = bGet (s.blockAt src).stash (from_ n + i) := by
    rw [stashRead_getD _ _ _ hi, h.others _ hne]
  refine ⟨h.mem, fun m hm => (blockAt_stashWrite_other _ hm _ _).trans (h.others m hm), ?_, fun r i hr hi => ?_, fun a ha => ?_⟩
  · rw [stashWrite, State.modBlock, State.blockAt_setBlock_same]
    exact h.rest
  · rw [bGet_stashWrite, stashRead_length]
    obtain hr | rfl := Nat.lt_succ_iff_lt_or_eq.mp hr
    · have := hapart r hr
      rw [if_neg (by omega), h.rows r i hr hi]
    · rw [if_pos (by omega), Nat.add_sub_cancel_left, hread i hi]
  · have hlast : ¬(to_ n ≤ a ∧ a < to_ n + w) := fun ⟨hlo, hhi⟩ => ha n (a - to_ n) (Nat.lt_succ_self n) (by omega) (by omega)
    rw [bGet_stashWrite, stashRead_length, if_neg hlast]
    exact h.keeps a fun r i hr hi => ha r i (Nat.lt_succ_of_lt hr) hi

theorem copyRows_copied {s : State} {src dst : Nat} {from_ to_ : Nat → Nat} {w : Nat} (hne : src ≠ dst) (hapart : ∀ r r', r < r' → to_ r + w ≤ to_ r') (n : Nat) :
    RowsCopied s (copyRows s src dst from_ to_ w n) src dst from_ to_ w n := by
  induction n with
  | zero => exact ⟨fun _ => rfl, fun _ _ => rfl, rfl, fun _ _ h => absurd h (Nat.not_lt_zero _), fun _ _ => rfl⟩
  | succ n ih =>
    rw [copyRows, List.range_succ, List.foldl_append]
    exact ih.row hne fun r hr => hapart r n hr

/-! ### One push -/

section
variable {s : State}

/-- The strip of the model is the one that R209 names. -/
theorem strip_eq (k : Tile) {dir : Nat} (h : dir < 4) :
    strip k dir = ((stripOf k dir).2.2.1, (stripOf k dir).1, (stripOf k dir).2.2.2.1, (stripOf k dir).2.1, (stripOf k dir).2.2.2.2) := by
  obtain rfl | rfl | rfl | rfl : dir = 0 ∨ dir = 1 ∨ dir = 2 ∨ dir = 3 := by omega
  all_goals rfl

/-- A row of a strip is no wider than a row of its tile. -/
theorem stripOf_width (k : Tile) (dir : Nat) : (stripOf k dir).2.1 * k.elem ≤ k.pitch := by
  refine Nat.mul_le_mul_right _ ?_
  rw [stripOf]
  split_ifs <;> dsimp only <;> omega

theorem pushDir_noNeighbour {bid tile dir : Nat} {k : Tile} (hk : kGet tile (s.blockAt bid).tiles = some k) (hn : k.nbr.getD dir 0xFFFF = 0xFFFF) :
    pushDir s bid tile dir = s := by
  rw [pushDir, hk]
  exact if_pos hn

/-- Towards a neighbour whose tile is of the same shape, the strip's rows are copied. -/
theorem pushDir_copies {bid tile dir nb : Nat} {k d : Tile} {b : Block} (hk : kGet tile (s.blockAt bid).tiles = some k) (hdir : dir < 4)
    (hn : k.nbr.getD dir 0xFFFF ≠ 0xFFFF) (hnb : neighbour s bid k dir = some (nb, b)) (hlive : b.status ≠ .retired) (hd : kGet tile b.tiles = some d)
    (hshape : sameShape d k) :
    pushDir s bid tile dir = copyRows s bid nb (fun r => stripFrom k dir r 0) (fun r => stripTo k d dir r 0) ((stripOf k dir).2.1 * k.elem) (stripOf k dir).1 := by
  rw [neighbour] at hnb
  obtain ⟨hrows, hcols, helem, hh⟩ := hshape
  rw [pushDir, hk]
  dsimp only
  rw [if_neg hn, hnb]
  dsimp only
  rw [hd]
  dsimp only
  rw [if_neg (by simp [hlive, hrows, hcols, helem, hh]), strip_eq k hdir, copyRows, helem]
  rfl

/-- Where no tile of the same shape is there to take it, the strip is discarded and the die's log says so. -/
theorem pushDir_discards {bid tile dir : Nat} {k : Tile} (hk : kGet tile (s.blockAt bid).tiles = some k) (hn : k.nbr.getD dir 0xFFFF ≠ 0xFFFF)
    (hnone : ∀ nb b, neighbour s bid k dir = some (nb, b) → b.status = .retired ∨ ∀ d, kGet tile b.tiles = some d → ¬sameShape d k) :
    pushDir s bid tile dir = logAt s (dieOf (s.blockAt bid).core) (.pushDiscard (s.blockAt bid).idx tile) := by
  rw [pushDir, hk]
  dsimp only
  rw [if_neg hn]
  cases hnb : neighbour s bid k dir with
  | none =>
    rw [neighbour] at hnb
    rw [hnb]
  | some p =>
    have hgone := hnone p.1 p.2 hnb
    rw [neighbour] at hnb
    rw [hnb]
    dsimp only
    cases hd : kGet tile p.2.tiles with
    | none => rfl
    | some d =>
      refine if_pos ?_
      obtain hretired | hshape := hgone
      · simp [hretired]
      · have hdiff := hshape d hd
        rw [sameShape, not_and_or, not_and_or, not_and_or] at hdiff
        simpa [or_assoc] using Or.inr hdiff

/-- The push that heads its team's queue is the one performed. -/
theorem execHaloPush_head {tid : Nat} {u : Team} {rest : KMap Team} {o : MemOp} {q : List MemOp}
    (hts : s.teams.filter (fun p => p.2.block = s.ev.x && p.2.status = .live) = (tid, u) :: rest) (hq : u.memQ = o :: q) (hkind : o.kind = .hpush s.ev.y)
    (hperf : o.performed = false) (hdir : s.ev.z < 4) (hpdst : o.pdst.testBit s.ev.z = false) (hready : opReady s tid o = true) :
    exec .haloPush s = .next (putOp (pushDir s s.ev.x s.ev.y s.ev.z) tid { o with pdst := o.pdst + 2 ^ s.ev.z }) := by
  have hpick : (o :: q).find? (fun o => o.kind = .hpush s.ev.y && !o.performed && !o.pdst.testBit s.ev.z && opReady s tid o) = some o :=
    List.find?_cons_of_pos (by rw [decide_eq_true hkind, hperf, hpdst, hready]; rfl)
  rw [exec_haloPush, execHaloPush, if_neg (Nat.not_le.mpr hdir), hts, List.findSome?_cons, hq, hpick]
  rfl

theorem haloPushCopies {tile nb : Nat} {k d : Tile} {b : Block} (hdir : s.ev.z < 4) (hk : kGet tile (s.blockAt s.ev.x).tiles = some k)
    (hn : k.nbr.getD s.ev.z 0xFFFF ≠ 0xFFFF) (hnb : neighbour s s.ev.x k s.ev.z = some (nb, b)) (hne : nb ≠ s.ev.x) (hlive : b.status ≠ .retired)
    (hd : kGet tile b.tiles = some d) (hshape : sameShape d k) :
    RowsCopied s (pushDir s s.ev.x tile s.ev.z) s.ev.x nb (fun r => stripFrom k s.ev.z r 0) (fun r => stripTo k d s.ev.z r 0)
      ((stripOf k s.ev.z).2.1 * k.elem) (stripOf k s.ev.z).1 := by
  rw [pushDir_copies hk hdir hn hnb hlive hd hshape]
  refine copyRows_copied hne.symm (fun r r' hr => ?_) _
  obtain ⟨-, hcols, helem, hh⟩ := hshape
  have hpitch : d.pitch = k.pitch := by rw [Tile.pitch, Tile.pitch, hcols, helem, hh]
  have hwidth := stripOf_width k s.ev.z
  have hrow : ((stripOf k s.ev.z).2.2.2.2.1 + r) * d.pitch + d.pitch ≤ ((stripOf k s.ev.z).2.2.2.2.1 + r') * d.pitch := by
    rw [← Nat.succ_mul]
    exact Nat.mul_le_mul_right _ (by omega)
  simp only [stripTo]
  omega

end

/-- Settles O8: the head push of a live team is performed; towards a tile of the same shape it copies rows that lie apart, and else it leaves every block as it is. -/
theorem haloPushCopiesStrip : Obligations.HaloPushCopiesStrip := by
  intro s tid u rest o q k hts hq hkind hperf hdir hpdst hready hk
  rw [execHaloPush_head hts hq hkind hperf hdir hpdst hready]
  refine ⟨fun hn => ⟨_, rfl, ?_⟩, fun nb b d hn hnb hb hne hlive hd hshape _ _ _ => ⟨_, rfl, ?_⟩, fun hn hnone => ⟨_, rfl, ?_⟩⟩
  · rw [pushDir_noNeighbour hk hn]
    exact ⟨fun _ => rfl, rfl⟩
  · have hcopied := haloPushCopies hdir hk hn hnb hne hlive hd hshape
    rw [← blockAt_of_kGet hb]
    exact ⟨hcopied.mem, hcopied.others, hcopied.rest, hcopied.rows, hcopied.keeps⟩
  · rw [pushDir_discards hk hn hnone]
    refine ⟨fun _ => rfl, rfl, ?_⟩
    exact congrArg Die.log (State.dieAt_setDie_same s _ _)

end Sys2Proof.Machine
end

section
/-! Loads, stores and fences performed (R182, R185, R196, R201, R229, R237). -/

namespace Sys2Proof.Machine

open Sys2Proof Sys2Proof.Safety Sys2Proof.Claims

section
variable {s : State} {o : MemOp} {a : LaneAcc}

/-! ### An operation that nothing holds -/

/-- An operation that may be performed, and does so without a fetch, is put back as it stands then. -/
theorem exec_performed {u : State} {o' : MemOp} (h : mayPerform s o) (hop : performOp s s.ev.x o = some (u, o')) (hdies : u.dies = s.dies) :
    exec .variableLatencyCompletion s = .next (putOp u s.ev.x o') := by
  obtain ⟨hnames, hperf, hready, hfenceq, hlost, hdiv, hpoison⟩ := h
  have hfind : findOp s s.ev.x s.ev.y = some o := hnames
  have hstep : stepOp s s.ev.x o = noteOut s (s.teamAt s.ev.x).core (opClass o) (.next (putOp u s.ev.x o')) := by
    rw [stepOp, hperf, hready, hfenceq, hlost, hdiv, hpoison, hop, Bool.and_false]
    rfl
  have hl2 : (u.dieAt (dieOf (s.teamAt s.ev.x).core)).l2 = (s.dieAt (dieOf (s.teamAt s.ev.x).core)).l2 := by rw [State.dieAt, State.dieAt, hdies]
  rw [exec_variableLatencyCompletion, execVariableLatencyCompletion, hfind]
  dsimp only
  rw [hstep, noteOut]
  exact congrArg Host.Outcome.next (noteFetches_sameL2 _ hl2)

theorem releaseOp_none (h : o.rel = false) (tid : Nat) : releaseOp s tid o = some (s, o) := by
  rw [releaseOp, h]
  rfl

/-- The team of an event after its operation is put back. -/
theorem evTeam_putOp {u : State} {o' : MemOp} (hteam : u.teamAt s.ev.x = s.teamAt s.ev.x) : evTeam s (putOp u s.ev.x o') = withOp (s.teamAt s.ev.x) o' := by
  rw [evTeam, putOp, State.modTeam, State.teamAt_setTeamAt_same, hteam]
  rfl

theorem putOp_only (u : State) (tid : Nat) (o' : MemOp) : putOp u tid o' = u.setTeamAt tid ((putOp u tid o').teamAt tid) := by
  rw [putOp, State.modTeam, State.teamAt_setTeamAt_same]

/-! ### Loads (R182, R201, R229, R242) -/

/-- With no window on the line, a valid copy of the core serves a load, under the core's own buffered stores. -/
theorem loadLine_ownCopy {c line lease : Nat} {x : L1Copy} (hseal : sealedLine s line = false) (hwins : winsOf s c line = []) (hx : l1At s c line = some x)
    (hvalid : copyValid s c x = true) : loadLine s c line lease = some (s, overlay s c line x.data) := by
  rw [loadLine, hseal, filledWin, hwins, List.find?_nil, hx]
  dsimp only
  rw [hvalid]
  rfl

theorem bindLoads_ownCopy {n : Nat} {x : L1Copy} (hblk : a.blk = none) (hstaged : (s.blockAt (s.teamAt s.ev.x).block).staged = [])
    (hload : ∀ lease, loadLine s (s.teamAt s.ev.x).core (a.addr / 64) lease = some (s, overlay s (s.teamAt s.ev.x).core (a.addr / 64) x.data)) :
    bindLoads s s.ev.x n false [a] =
      some (s, [{ a with data := lineNat (overlay s (s.teamAt s.ev.x).core (a.addr / 64) x.data) (a.addr % 64) n }]) := by
  have hleases : lineLeases [a] = [(a.addr / 64, a.lease)] := by
    rw [lineLeases, List.foldl_cons, hblk]
    rfl
  have hbring : bringLines s s.ev.x false [(a.addr / 64, a.lease)] = some (s, [(a.addr / 64, overlay s (s.teamAt s.ev.x).core (a.addr / 64) x.data)]) := by
    rw [bringLines, List.foldl_cons, Option.bind_some, if_neg Bool.false_ne_true, hload]
    rfl
  have hunstaged (d : Line) : stagedLine s (s.teamAt s.ev.x).block (a.addr / 64) d = d := by
    rw [stagedLine]
    exact if_pos hstaged
  rw [bindLoads, hleases, hbring]
  dsimp only
  rw [List.foldl_cons, Option.bind_some, hblk]
  dsimp only
  rw [hunstaged]
  simp [kGetD, kGet]

/-! ### The stash (R173, R185) -/

/-- Bytes within one 64-byte piece are one piece. -/
theorem pieces64_single {p n : Nat} (hn : 0 < n) (hfit : p % 64 + n ≤ 64) : pieces64 p n = [(p, n)] := by
  have hcount : (p % 64 + n + 63) / 64 = 1 := by omega
  have hlen : min (p + n) ((p / 64 + 0 + 1) * 64) - p = n := by omega
  rw [pieces64, hcount]
  exact congrArg (fun m => [(p, m)]) hlen

theorem winAt_noWindow {b : Block} (h : b.windows = []) (off : Nat) : winAt b off = none := by
  rw [winAt, h]
  rfl

theorem stashLoad_plain {b p n : Nat} (hwin : (s.blockAt b).windows = []) (hn : 0 < n) (hfit : p % 64 + n ≤ 64) : stashLoad s b p n = some (s, stashRead s b p n) := by
  have htouch : stashTouch s b p = some s := by rw [stashTouch, winAt_noWindow hwin]
  have hpiece : stashPiece s b p n = stashRead s b p n := by rw [stashPiece, winAt_noWindow hwin]
  rw [stashLoad, pieces64_single hn hfit, List.foldl_cons, Option.bind_some, htouch, List.foldl_nil]
  dsimp only
  rw [List.flatMap_singleton, hpiece]

theorem stashStore_plain {b p : Nat} {bs : List Byte} (hwin : (s.blockAt b).windows = []) (hn : 0 < bs.length) (hfit : p % 64 + bs.length ≤ 64) :
    stashStore s b p bs = some (stashWrite s b p bs) := by
  rw [stashStore, pieces64_single hn hfit, List.foldl_cons, Option.bind_some, List.foldl_nil, stashStorePiece, winAt_noWindow hwin, Nat.sub_self, List.drop_zero,
    List.take_length]

theorem bindLoads_stash {n b : Nat} {w : Bool} (hblk : a.blk = some b) (hwin : (s.blockAt b).windows = []) (hn : 0 < n) (hfit : a.addr % 64 + n ≤ 64) :
    bindLoads s s.ev.x n w [a] = some (s, [{ a with data := leNat (stashRead s b a.addr n) }]) := by
  have hleases : lineLeases [a] = [] := by
    rw [lineLeases, List.foldl_cons, hblk]
    rfl
  rw [bindLoads, hleases]
  dsimp only [bringLines, List.foldl_nil]
  rw [List.foldl_cons, Option.bind_some, hblk]
  dsimp only
  rw [stashLoad_plain hwin hn hfit]
  rfl

/-- A load whose data is bound at once is performed, and the machine stands. -/
theorem exec_load {n : Nat} {sg w : Bool} {accs : List LaneAcc} (h : mayPerform s o) (hacq : o.acq = false) (hrel : o.rel = false) (hkind : o.kind = .load n sg w)
    (hbind : bindLoads s s.ev.x n (w && !(s.gridAt (s.teamAt s.ev.x).grid).det) o.accs = some (s, accs)) :
    ∃ t, exec .variableLatencyCompletion s = .next t ∧ t = s.setTeamAt s.ev.x (t.teamAt s.ev.x) ∧
      evTeam s t = withOp (s.teamAt s.ev.x) { o with performed := true, accs := accs } := by
  have hop : performOp s s.ev.x o = some (s, { o with performed := true, accs := accs }) := by
    rw [performOp, releaseOp_none hrel]
    dsimp only
    rw [hkind]
    dsimp only
    rw [hbind, Option.map_some, hacq]
    rfl
  exact ⟨_, exec_performed h hop rfl, putOp_only _ _ _, evTeam_putOp rfl⟩

/-! ### Stores (R181, R229) -/

/-- The store buffer entry of one lane. -/
def laneEntry (s : State) (o : MemOp) (a : LaneAcc) (n : Nat) : SBuf :=
  { tid := s.ev.x, line := a.addr / 64, mask := maskOf (a.addr % 64) n
    data := mergeLine 0 (maskOf (a.addr % 64) n) (lineData (a.addr % 64) (leBytes n a.data)), cls := o.scls, va := a.va }

theorem performStore_global {n : Nat} (haccs : o.accs = [a]) (hblk : a.blk = none) (hdet : (s.gridAt (s.teamAt s.ev.x).grid).det = false) :
    performStore s s.ev.x o n = some (s.modCore (s.teamAt s.ev.x).core (fun k => { k with sbuf := k.sbuf ++ [laneEntry s o a n] })) := by
  have hstash : stashStores s n [a] = some s := by
    rw [stashStores, List.foldl_cons, Option.bind_some, hblk]
    rfl
  have hmask : (0 : ByteMask) ||| maskOf (a.addr % 64) n = maskOf (a.addr % 64) n := BitVec.zero_or
  have hlines : storeLines n [a] = [(a.addr / 64, maskOf (a.addr % 64) n, mergeLine 0 (maskOf (a.addr % 64) n) (lineData (a.addr % 64) (leBytes n a.data)))] := by
    rw [storeLines, List.foldl_cons, hblk]
    exact congrArg (fun k => [(a.addr / 64, k, mergeLine 0 (maskOf (a.addr % 64) n) (lineData (a.addr % 64) (leBytes n a.data)))]) hmask
  have hplace : treatment s s.ev.x (n * [a].length) = .inPlace := by
    rw [treatment, hdet]
    rfl
  have hva : ((([a] : List LaneAcc).find? (fun x => x.blk.isNone && x.addr / 64 = a.addr / 64)).map (fun x => x.va)).getD 0 = a.va := by
    rw [List.find?_cons_of_pos (by simp [hblk])]
    rfl
  rw [performStore, haccs, hstash]
  dsimp only
  rw [if_neg (by simp [hblk]), treated, hplace, hlines]
  simp only [List.map_cons, List.map_nil, hva]
  rfl

theorem performStore_stash {n b : Nat} (haccs : o.accs = [a]) (hblk : a.blk = some b) (hwin : (s.blockAt b).windows = []) (hn : 0 < n) (hfit : a.addr % 64 + n ≤ 64) :
    performStore s s.ev.x o n = some (stashWrite s b a.addr (leBytes n a.data)) := by
  have hstore : stashStore s b a.addr (leBytes n a.data) = some (stashWrite s b a.addr (leBytes n a.data)) :=
    stashStore_plain hwin (by rwa [leBytes_length]) (by rwa [leBytes_length])
  rw [performStore, haccs, stashStores, List.foldl_cons, Option.bind_some, hblk]
  dsimp only
  rw [hstore]
  exact if_pos (by simp [hblk])

/-- A store performed at once leaves the state of its effect. -/
theorem exec_store {n : Nat} {u : State} (h : mayPerform s o) (hacq : o.acq = false) (hrel : o.rel = false) (hkind : o.kind = .store n)
    (hstore : performStore s s.ev.x o n = some u) (hdies : u.dies = s.dies) :
    exec .variableLatencyCompletion s = .next (putOp u s.ev.x { o with performed := true }) := by
  refine exec_performed h ?_ hdies
  rw [performOp, releaseOp_none hrel]
  dsimp only
  rw [hkind]
  dsimp only
  rw [hstore, Option.map_some, hacq]
  rfl

theorem memoryOperationsPerform : MemoryOperationsPerform := by
  intro s o a h hacq hrel hstaged
  refine ⟨fun n sg c hkind haccs hblk hseal hwins hc hvalid => ?_, fun n sg w b hkind haccs hblk hwin hn hfit => ?_, fun n hkind haccs hblk hdet => ?_,
    fun n b hkind haccs hblk hwin hn hfit => ?_⟩
  · refine exec_load h hacq hrel hkind ?_
    rw [Bool.false_and, haccs]
    exact bindLoads_ownCopy hblk hstaged fun _ => loadLine_ownCopy hseal hwins hc hvalid
  · refine exec_load h hacq hrel hkind ?_
    rw [haccs]
    exact bindLoads_stash hblk hwin hn hfit
  · refine ⟨_, exec_store h hacq hrel hkind (performStore_global haccs hblk hdet) rfl, ?_, evTeam_putOp rfl, ?_, fun c hc => ?_⟩
    · exact (putOp_only _ _ _).trans rfl
    · exact State.coreAt_setCore_same _ _ _
    · exact State.coreAt_setCore_other _ _ _ _ hc
  · refine ⟨_, exec_store h hacq hrel hkind (performStore_stash haccs hblk hwin hn hfit) rfl, ?_, evTeam_putOp rfl, ?_, fun i => ?_, fun k hk => ?_⟩
    · exact (putOp_only _ _ _).trans rfl
    · change ({ (stashWrite s b a.addr (leBytes n a.data)).blockAt b with stash := _ } : Block) = _
      rw [stashWrite, State.modBlock, State.blockAt_setBlock_same]
    · exact (bGet_stashWrite s b a.addr _ i).trans (by rw [leBytes_length])
    · exact blockAt_stashWrite_other s hk _ _

/-! ### Fences (R196, R237) -/

/-- A change to a core's windows changes nothing else of a block. -/
theorem mapWindows_frame (s : State) (c : Nat) (g : Window → Window) (b : Nat) :
    { (mapWindows s c g).blockAt b with windows := (s.blockAt b).windows } = s.blockAt b := by
  have hstep (u : State) (p : Nat) (hu : { u.blockAt b with windows := (s.blockAt b).windows } = s.blockAt b) :
      { (u.modBlock p (fun k => { k with windows := k.windows.map g })).blockAt b with windows := (s.blockAt b).windows } = s.blockAt b := by
    rw [State.modBlock]
    by_cases hb : b = p
    · rw [← hb, State.blockAt_setBlock_same]
      exact hu
    · rw [State.blockAt_setBlock_other _ _ _ _ hb]
      exact hu
  rw [mapWindows]
  exact foldl_keeps (P := fun u : State => ({ u.blockAt b with windows := (s.blockAt b).windows } : Block) = s.blockAt b) (fun u p => hstep u p.1) _ rfl

/-- A copy of a line is its core's own write that the die's L2 still holds. -/
def currentOwn (s : State) (c line : Nat) (x : L1Copy) : Bool :=
  x.own && (match l2At s (dieOf c) line with
    | some e => e.wts = x.wts && e.ver = x.ver && e.arr = x.arr
    | none => false)

theorem currentOwn_iff (s : State) (c line : Nat) (x : L1Copy) :
    currentOwn s c line x = true ↔ x.own = true ∧ ∃ e, l2At s (dieOf c) line = some e ∧ e.wts = x.wts ∧ e.ver = x.ver ∧ e.arr = x.arr := by
  rw [currentOwn, Bool.and_eq_true]
  cases l2At s (dieOf c) line with
  | none => simp
  | some e => simp [and_assoc]

/-- The copies of a core as an acquire leaves them. -/
def expireCopies (s : State) (c : Nat) : State :=
  s.modCore c (fun k => { k with l1 := k.l1.map (fun p => (p.1, { p.2 with expired := p.2.expired || !currentOwn s c p.1 p.2 })) })

theorem acquireAt_wide {c scope : Nat} (h : 2 ≤ scope) :
    acquireAt s c scope = mapWindows (expireCopies s c) c (fun w => { w with lines := w.lines.filter (fun p => p.2.dirty != 0) }) := by
  rw [acquireAt]
  exact if_neg (by omega)

theorem l1At_expireCopies (c line : Nat) :
    l1At (expireCopies s c) c line = (l1At s c line).map (fun x => { x with expired := x.expired || !currentOwn s c line x }) := by
  rw [l1At, expireCopies, State.modCore, State.coreAt_setCore_same]
  exact kGet_mapEntries (fun line (x : L1Copy) => { x with expired := x.expired || !currentOwn s c line x }) _ _

theorem fencePerforms : FencePerforms := by
  intro s o h hkind hrel
  have hop : performOp s s.ev.x o = some (if o.acq then acquireAt s (s.teamAt s.ev.x).core o.scope else s, { o with performed := true }) := by
    rw [performOp, releaseOp_none hrel]
    dsimp only
    rw [hkind]
  by_cases hwide : o.acq = true ∧ 2 ≤ o.scope
  · obtain ⟨hacq, hscope⟩ := hwide
    obtain ⟨bs, hbs, -⟩ := mapWindows_eq (expireCopies s (s.teamAt s.ev.x).core) (s.teamAt s.ev.x).core (fun w => { w with lines := w.lines.filter (fun p => p.2.dirty != 0) })
    have hframe := mapWindows_frame (expireCopies s (s.teamAt s.ev.x).core) (s.teamAt s.ev.x).core (fun w => { w with lines := w.lines.filter (fun p => p.2.dirty != 0) })
    have hdirty : ∀ p ∈ onCore s (s.teamAt s.ev.x).core, _ := fun p hp => windows_mapWindows (s := expireCopies s (s.teamAt s.ev.x).core) (c := (s.teamAt s.ev.x).core)
      (g := fun w => { w with lines := w.lines.filter (fun p => p.2.dirty != 0) }) (Q := fun w => ∀ q ∈ w.lines, q.2.dirty ≠ 0)
      (fun w q hq => bne_iff_ne.mp (List.mem_filter.mp hq).2) (p := p) hp
    rw [if_pos hacq, acquireAt_wide hscope] at hop
    rw [hbs] at hop hframe hdirty
    refine ⟨_, exec_performed h hop rfl, ?_, evTeam_putOp rfl, fun c hc => State.coreAt_setCore_other _ _ _ _ hc, ?_, hframe,
      fun hno => hno.elim (fun h => Bool.noConfusion (hacq.symm.trans h)) fun h => absurd h (Nat.not_le.mpr hscope), fun _ _ => hdirty, fun _ _ line c hc => ?_⟩
    · exact (putOp_only _ _ _).trans rfl
    · change ({ (expireCopies s _).coreAt _ with l1 := _ } : Core) = _
      rw [expireCopies, State.modCore, State.coreAt_setCore_same]
    · refine ⟨_, (l1At_expireCopies (s := s) _ line).trans (congrArg (Option.map _) hc), rfl, ?_⟩
      rw [Bool.or_eq_false_iff, Bool.not_eq_false', currentOwn_iff]
  · have hstand : (if o.acq then acquireAt s (s.teamAt s.ev.x).core o.scope else s) = s := by
      by_cases hacq : o.acq = true
      · rw [if_pos hacq, acquireAt, if_pos (Nat.not_lt.mp fun h => hwide ⟨hacq, h⟩)]
      · exact if_neg hacq
    rw [hstand] at hop
    exact ⟨_, exec_performed h hop rfl, putOp_only _ _ _, evTeam_putOp rfl, fun _ _ => rfl, rfl, fun _ => rfl, fun _ => ⟨rfl, rfl⟩,
      fun hacq hscope => absurd ⟨hacq, hscope⟩ hwide, fun hacq hscope => absurd ⟨hacq, hscope⟩ hwide⟩

end

/-- Settles O39: an operation that nothing holds is put back performed, with the data of the core's copy or of the stash, or with its bytes buffered or written; an acquire
expires copies and drops clean window lines. -/
theorem memoryOperationsAndFencesPerform : Obligations.MemoryOperationsAndFencesPerform := ⟨memoryOperationsPerform, fencePerforms⟩

end Sys2Proof.Machine
end

section
/-! Append pages at their home, and frames taken and freed (R186-R190, R361). -/

namespace Sys2Proof.Machine

open Sys2Proof Sys2Proof.Safety Sys2Proof.Claims

/-! ### Reservations (R187) -/

/-- The accesses of an `append` that all fit, each at its offset in lane order. -/
def placedFrom (start e : Nat) (accs : List LaneAcc) : List LaneAcc := accs.zipIdx.map (fun q => { q.1 with addr := start + e * q.2 })

theorem placedFrom_cons (start e : Nat) (a : LaneAcc) (accs : List LaneAcc) :
    placedFrom start e (a :: accs) = { a with addr := start } :: placedFrom (start + e) e accs := by
  simp only [placedFrom, List.zipIdx_cons, List.zipIdx_succ, List.map_cons, List.map_map]
  refine congrArg (_ :: ·) (List.map_congr_left fun q _ => ?_)
  simp only [Function.comp, LaneAcc.mk.injEq, true_and, and_true]
  rw [Nat.mul_succ]
  omega

/-- Offsets are given in lane order while they fit the page. -/
theorem offsets_fit {e size : Nat} (accs : List LaneAcc) {start : Nat} (hfit : start + e * accs.length ≤ size) (out : List LaneAcc) :
    accs.foldl (fun (r : Nat × List LaneAcc) a =>
      if size < r.1 + e then (r.1, r.2 ++ [{ a with addr := appendFail }]) else (r.1 + e, r.2 ++ [{ a with addr := r.1 }])) (start, out) =
    (start + e * accs.length, out ++ placedFrom start e accs) := by
  induction accs generalizing start out with
  | nil => simp [placedFrom]
  | cons a accs ih =>
    rw [List.length_cons, Nat.mul_succ] at hfit
    have hsum : start + e + e * accs.length = start + e * (a :: accs).length := by
      rw [List.length_cons, Nat.mul_succ]
      omega
    have hstep : ¬size < start + e := by
      have := Nat.zero_le (e * accs.length)
      omega
    rw [List.foldl_cons, if_neg hstep, ih (by omega), hsum, placedFrom_cons, List.append_assoc]
    rfl

section
variable {s : State} {o : MemOp}

theorem reserveAppend_fits {e p size start : Nat} {g : APage} (hg : kGet p s.pages = some g) (hopen : g.st = .opened) (hsome : o.accs ≠ [])
    (hstart : start = (g.tail + e - 1) / e * e) (hfit : start + e * o.accs.length ≤ size) (hsize : size ≤ 2 ^ 30) :
    reserveAppend s o e p size = (setPageRec s p { g with tail := start + e * o.accs.length, pending := g.pending + 1 },
      { o with kind := .append e p size true, accs := placedFrom start e o.accs }) := by
  have hany : (placedFrom start e o.accs).any (fun a => a.addr ≠ appendFail) = true := by
    obtain ⟨a, accs, haccs⟩ := List.exists_cons_of_ne_nil hsome
    have hne : start ≠ appendFail := by
      rw [show appendFail = 2 ^ 32 - 1 from rfl]
      have := Nat.zero_le (e * o.accs.length)
      omega
    rw [haccs, placedFrom_cons, List.any_cons, decide_eq_true hne, Bool.true_or]
  rw [reserveAppend, pageRec_of_kGet hg, hopen, ← hstart]
  dsimp only
  rw [if_neg (by decide), offsets_fit _ hfit, List.nil_append]
  dsimp only
  rw [if_pos hany]

theorem reserveAppend_closed {e p size : Nat} {g : APage} (hg : kGet p s.pages = some g) (hclosed : g.st ≠ .opened) :
    reserveAppend s o e p size = (s, { o with kind := .append e p size true, accs := o.accs.map (fun a => { a with addr := appendFail }) }) := by
  rw [reserveAppend, pageRec_of_kGet hg]
  exact if_pos (bne_iff_ne.mpr hclosed)

/-- An `append` that is not staged, and has its turn where it needs one, takes its reservation. -/
theorem exec_reserves {e p size : Nat} (h : mayPerform s o) (hrel : o.rel = false) (hkind : o.kind = .append e p size false) (hstaged : isStagedAppend s s.ev.x o = false)
    (hturn : (s.gridAt (s.teamAt s.ev.x).grid).det = false ∨ o.turn s s.ev.x = true) (hfits : o.overflow = false) :
    exec .appendHomeReservation s = .next (putOp (reserveAppend s o e p size).1 s.ev.x (reserveAppend s o e p size).2) := by
  obtain ⟨hnames, hperf, hready, hfenceq, -⟩ := h
  have hfind : findOp s s.ev.x s.ev.y = some o := hnames
  have hwaits : ((s.gridAt (s.teamAt s.ev.x).grid).det && !((s.blockAt (s.teamAt s.ev.x).block).inPlace && o.turn s s.ev.x)) = false := by
    obtain hdet | hturn := hturn
    · rw [hdet, Bool.false_and]
    · rw [isStagedAppend, hkind, hfits] at hstaged
      rw [hturn, Bool.and_true]
      simpa using hstaged
  rw [exec_appendHomeReservation, execAppendHomeReservation, hfind]
  dsimp only
  rw [hkind]
  dsimp only
  rw [hperf, hready, hfenceq, hstaged, hwaits, releaseOp_none hrel]
  rfl

/-! ### A page's copies leave the dies (R188, R361) -/

/-- What one entry of a list brings about and none undoes holds once the list is worked through. -/
theorem foldl_gains {α β : Type} {P : α → Prop} {g : α → β → α} (hkeep : ∀ a b, P a → P (g a b)) {b : β} (hb : ∀ a, P (g a b)) {l : List β} (hl : b ∈ l) (a : α) :
    P (l.foldl g a) := by
  obtain ⟨pre, post, rfl⟩ := List.append_of_mem hl
  rw [List.foldl_append, List.foldl_cons]
  exact foldl_keeps hkeep post (hb _)

theorem recallSealed_rest (s : State) (die : Nat) (lines : Nat → Bool) : ∃ bs cs ds, recallSealed s die lines = { s with blocks := bs, cores := cs, dies := ds } := by
  rw [recallSealed]
  refine foldl_keeps (P := fun u : State => ∃ bs cs ds, u = { s with blocks := bs, cores := cs, dies := ds }) ?_ _ ⟨s.blocks, s.cores, _, rfl⟩
  rintro u p ⟨bs, cs, ds, rfl⟩
  obtain ⟨bs', hbs, -⟩ := mapWindows_eq ({ s with blocks := bs, cores := cs, dies := ds }.modCore p.1 (fun k => { k with l1 := k.l1.filter (fun q => !lines q.1) })) p.1
    (fun w => { w with lines := w.lines.filter (fun q => !lines q.2.pa) })
  exact ⟨bs', _, ds, hbs⟩

theorem recallSealed_teams (s : State) (die : Nat) (lines : Nat → Bool) : (recallSealed s die lines).teams = s.teams := by
  obtain ⟨bs, cs, ds, h⟩ := recallSealed_rest s die lines
  rw [h]

theorem dieAt_recallSealed_same (s : State) (die : Nat) (lines : Nat → Bool) :
    (recallSealed s die lines).dieAt die = { s.dieAt die with l2 := (s.dieAt die).l2.filter (fun p => !lines p.1) } := by
  rw [State.dieAt, recallSealed_dies, kGetD, kGet_kPut_same]
  rfl

theorem dieAt_recallSealed_other (s : State) {die k : Nat} (h : k ≠ die) (lines : Nat → Bool) : (recallSealed s die lines).dieAt k = s.dieAt k := by
  rw [State.dieAt, recallSealed_dies, kGetD, kGet_kPut_other _ _ _ _ h]
  rfl

/-- A die that is asked for lines holds none of them any more, and the rest as before. -/
theorem l2At_recallSealed (s : State) (die line : Nat) (lines : Nat → Bool) :
    l2At (recallSealed s die lines) die line = if lines line then none else l2At s die line := by
  rw [l2At, dieAt_recallSealed_same]
  dsimp only
  rw [kGet_filter (fun l => !lines l)]
  cases lines line <;> rfl

theorem recallPage_rest (s : State) (p size : Nat) : ∃ bs cs ds, recallPage s p size = { s with blocks := bs, cores := cs, dies := ds } := by
  rw [recallPage]
  refine foldl_keeps (P := fun u : State => ∃ bs cs ds, u = { s with blocks := bs, cores := cs, dies := ds }) ?_ _ ⟨s.blocks, s.cores, s.dies, rfl⟩
  rintro u d ⟨bs, cs, ds, rfl⟩
  obtain ⟨bs', cs', ds', h⟩ := recallSealed_rest { s with blocks := bs, cores := cs, dies := ds } d (inPage p size)
  exact ⟨bs', cs', ds', h⟩

theorem recallPage_teams (s : State) (p size : Nat) : (recallPage s p size).teams = s.teams := by
  obtain ⟨bs, cs, ds, h⟩ := recallPage_rest s p size
  rw [h]

theorem l2At_recallPage (s : State) {p size d line : Nat} (hd : d < 8) (hline : inPage p size line = true) : l2At (recallPage s p size) d line = none := by
  rw [recallPage]
  refine foldl_gains (P := fun u : State => l2At u d line = none) (fun u k hu => ?_) (b := d) (fun u => ?_) (List.mem_range.mpr hd) s
  · by_cases hk : d = k
    · rw [← hk, l2At_recallSealed, if_pos hline]
    · rw [l2At, dieAt_recallSealed_other u hk]
      exact hu
  · rw [l2At_recallSealed, if_pos hline]

theorem dir_recallPage (s : State) (p size d : Nat) : ((recallPage s p size).dieAt d).dir = (s.dieAt d).dir := by
  rw [recallPage]
  refine foldl_keeps (P := fun u : State => (u.dieAt d).dir = (s.dieAt d).dir) (fun u k hu => ?_) _ rfl
  by_cases hk : d = k
  · rw [hk, dieAt_recallSealed_same]
    exact hk ▸ hu
  · rw [dieAt_recallSealed_other u hk, hu]

theorem kGetD_mapEntries {α : Type} (f : α → α) {d : α} (hd : f d = d) (m : KMap α) (k : Nat) : kGetD k d (m.map (fun p => (p.1, f p.2))) = f (kGetD k d m) := by
  rw [kGetD, kGetD, kGet_mapEntries (fun _ => f)]
  cases kGet k m with
  | none => exact hd.symm
  | some v => rfl

theorem dieAt_sealCleared (s : State) (p : Nat) (g : APage) (d : Nat) : (sealCleared s p g).dieAt d = clearDir p g.size ((recallPage s p g.size).dieAt d) :=
  kGetD_mapEntries (clearDir p g.size) rfl _ d

/-- A line of the sealed page has its entry cleared. -/
theorem dirAt_sealCleared {p : Nat} {g : APage} (h : NoneWaits s (inPage p g.size)) (d : Nat) {line : Nat} (hline : inPage p g.size line = true) :
    dirAt (sealCleared s p g) d line = Dir.reset := by
  have hentries (m : KMap Dir) : m.map (fun e => if inPage p g.size e.1 then (e.1, { Dir.reset with waiting := e.2.waiting }) else e) =
      m.map (fun e => (e.1, if inPage p g.size e.1 then { Dir.reset with waiting := e.2.waiting } else e.2)) := by
    refine List.map_congr_left fun e _ => ?_
    split <;> rfl
  rw [dirAt, dieAt_sealCleared, clearDir]
  dsimp only
  rw [dir_recallPage, hentries, kGetD, kGet_mapEntries (fun l (e : Dir) => if inPage p g.size l then { Dir.reset with waiting := e.waiting } else e)]
  cases he : kGet line (s.dieAt d).dir with
  | none => rfl
  | some e =>
    have hwait : e.waiting = [] := h.dieAt d _ (mem_of_kGet he) hline
    rw [Option.map_some, if_pos hline, hwait]
    rfl

theorem sealNow_cleared {p : Nat} {g : APage} (h : NoneWaits s (inPage p g.size)) : sealNow s p g = sealCleared s p g := by
  have hnone := sealCleared_noneWaits h
  rw [sealNow_eq, foldl_eq_self]
  intro q hq
  rw [List.filter_eq_nil_iff.mpr, List.foldl_nil]
  intro l hl
  simp only [Bool.and_eq_true, decide_eq_true_eq, not_and, not_not]
  exact hnone q hq l hl

theorem inPage_iff {p size l : Nat} : inPage p size l = true ↔ p ≤ 64 * l ∧ 64 * l < p + size := by
  rw [inPage, Bool.and_eq_true, decide_eq_true_eq, decide_eq_true_eq]

theorem pageAtRest_iff {p size : Nat} : pageAtRest s p size = true ↔ ∀ d ∈ s.dies, ∀ e ∈ d.2.dir, p ≤ 64 * e.1 → 64 * e.1 < p + size → e.2.tr = none := by
  simp only [pageAtRest, List.all_eq_true, Bool.or_eq_true, Bool.not_eq_true', Bool.and_eq_false_iff, decide_eq_false_iff_not, Option.isNone_iff_eq_none]
  refine forall₂_congr fun d _ => forall₂_congr fun e _ => ⟨fun h hlo hhi => h.resolve_left ?_, fun h => ?_⟩
  · exact not_or.mpr ⟨not_not.mpr hlo, not_not.mpr hhi⟩
  · by_cases hlo : p ≤ 64 * e.1
    · by_cases hhi : 64 * e.1 < p + size
      · exact .inr (h hlo hhi)
      · exact .inl (.inr hhi)
    · exact .inl (.inl hlo)

theorem sealRecall_takes {p : Nat} {g : APage} (hp : pageOf s (64 * s.ev.y) = some (p, g)) (hst : g.st = .sealing) (hpend : g.pending = 0) :
    exec .sealRecall s =
      .next (setPageRec (recallSealed s s.ev.x (fun l => l = s.ev.y)) p { g with recalled := g.recalled ++ [(s.ev.x, s.ev.y)] }) := by
  rw [exec_sealRecall, execSealRecall, hp]
  exact if_pos (by rw [hst, hpend]; rfl)

theorem sealCompletion_rests {g : APage} (hg : kGet s.ev.x s.pages = some g) (hst : g.st = .sealing) (hpend : g.pending = 0) :
    exec .sealCompletion s = if pageAtRest s s.ev.x g.size then .next (sealNow s s.ev.x g) else .next s := by
  rw [exec_sealCompletion, execSealCompletion, hg]
  dsimp only
  rw [hst, hpend]
  rfl

end

theorem appendAndSealAtHome : AppendAndSealAtHome := by
  intro s
  refine ⟨fun o e p size h hrel hkind hstaged hturn hfits hsize => ?_, fun p g hp hst hpend => ⟨_, sealRecall_takes hp hst hpend, ?_⟩,
    fun g hg hst hpend hbusy => ?_, fun g hg hst hpend hrest => ?_⟩
  · rw [exec_reserves h hrel hkind hstaged hturn hfits]
    refine ⟨fun g start hg hopen hsome hstart hfit => ⟨_, rfl, ?_⟩, fun g hg hclosed => ⟨_, rfl, ?_⟩⟩
    · rw [reserveAppend_fits hg hopen hsome hstart hfit hsize]
      exact ⟨fun _ => rfl, kGet_kPut_same _ _ _, State.teamAt_setTeamAt_same _ _ _⟩
    · rw [reserveAppend_closed hg hclosed]
      exact ⟨fun _ => rfl, rfl, State.teamAt_setTeamAt_same _ _ _⟩
  · have hl2 (line : Nat) := l2At_recallSealed s s.ev.x line (fun l => l = s.ev.y)
    exact ⟨fun a => congrArg (bGet · a) (recallSealed_mem s _ _), (hl2 _).trans (if_pos (decide_eq_true rfl)), recallSealed_teams s _ _,
      fun line hne => (hl2 line).trans (if_neg fun he => hne (of_decide_eq_true he))⟩
  · rw [sealCompletion_rests hg hst hpend, if_neg]
    obtain ⟨d, hd, e, he, hlo, hhi, htr⟩ := hbusy
    exact fun hat => htr (pageAtRest_iff.mp hat d hd e he hlo hhi)
  · have hnone : NoneWaits s (inPage s.ev.x g.size) := noneWaits_inPage fun q hq l hl hlo hhi => (hrest q hq l hl hlo hhi).2
    have hat : pageAtRest s s.ev.x g.size = true := pageAtRest_iff.mpr fun d hd e he hlo hhi => (hrest d hd e he hlo hhi).1
    obtain ⟨hmem, hpages⟩ := sealNow_noneWaits hnone
    rw [sealCompletion_rests hg hst hpend, if_pos hat]
    refine ⟨_, rfl, fun a => by rw [hmem], ?_, by rw [hpages, kGet_kPut_same], fun d line hd hlo hhi => ?_⟩
    · rw [sealNow_cleared hnone]
      exact recallPage_teams s _ _
    · have hline : inPage s.ev.x g.size line = true := inPage_iff.mpr ⟨hlo, hhi⟩
      rw [sealNow_cleared hnone]
      refine ⟨?_, dirAt_sealCleared hnone d hline⟩
      rw [l2At, dieAt_sealCleared]
      exact l2At_recallPage s hd hline

/-! ### Frames (R186, R190) -/

section
variable {s : State}

/-- What is left of free ranges lies apart from the range taken. -/
theorem takeRange_apart {f n : Nat} {l : List (Nat × Nat)} : ∀ r ∈ takeRange f n l, r.1 + r.2 ≤ f ∨ f + n ≤ r.1 := by
  intro r hr
  obtain ⟨q, -, hq⟩ := List.mem_flatMap.mp hr
  by_cases hapart : (decide (f + n ≤ q.1) || decide (q.1 + q.2 ≤ f)) = true
  · rw [if_pos hapart, List.mem_singleton] at hq
    rw [Bool.or_eq_true, decide_eq_true_eq, decide_eq_true_eq] at hapart
    rw [hq]
    exact hapart.symm
  · rw [if_neg hapart, List.mem_append] at hq
    obtain hlow | hhigh := hq
    · obtain ⟨hlt, rfl⟩ : q.1 < f ∧ r = (q.1, f - q.1) := by
        split at hlow
        · exact ⟨‹_›, List.mem_singleton.mp hlow⟩
        · cases hlow
      exact .inl (by dsimp only; omega)
    · obtain ⟨-, rfl⟩ : f + n < q.1 + q.2 ∧ r = (f + n, q.1 + q.2 - f - n) := by
        split at hhigh
        · exact ⟨‹_›, List.mem_singleton.mp hhigh⟩
        · cases hhigh
      exact .inr le_rfl

theorem frame_taken (hsize : s.ev.y ≠ 0) (halign : s.ev.x % s.ev.y = 0) (hlow : backed s s.ev.x = true) (hhigh : backed s (s.ev.x + s.ev.y - 1) = true)
    (hfree : ∀ p ∈ s.pages, s.ev.x + s.ev.y ≤ p.1 ∨ p.1 + p.2.size ≤ s.ev.x) :
    exec .appendFrameAlloc s = .next
      { setPageRec (zeroFrame s s.ev.x s.ev.y) s.ev.x { size := s.ev.y, tail := 0, st := .opened, pending := 0, recalled := [] } with
        pools := kPut s.ev.z (takeRange s.ev.x s.ev.y (kGetD s.ev.z [] s.pools)) s.pools } := by
  have hnone : s.pages.any (fun p => p.1 < s.ev.x + s.ev.y && s.ev.x < p.1 + p.2.size) = false := List.any_eq_false.mpr fun p hp => by
    rw [Bool.and_eq_true, decide_eq_true_eq, decide_eq_true_eq]
    have := hfree p hp
    omega
  rw [exec_appendFrameAlloc, execAppendFrameAlloc]
  dsimp only
  rw [hlow, hhigh, hnone, decide_eq_false hsize, decide_eq_false (not_not.mpr halign)]
  rfl

theorem HomeKeeps.agentLineWrite {w : State} (h : HomeKeeps s w) (die line : Nat) (m : ByteMask) (d : Line) : Yields (HomeKeeps s) (agentLineWrite w die line m d) := by
  rw [Machine.agentLineWrite]
  split
  · exact .some (h.modDie _ fun _ => rfl)
  · split
    · exact .none
    · next u hu =>
      have hgain := h.gainLine die line true u hu
      split
      · exact .none
      · refine .some ?_
        rw [l2Put]
        split
        · exact hgain
        · exact hgain.setL2 _ _ _

/-- A write by an agent changes memory and what the dies hold of lines alone. -/
theorem agentWrite_homeKeeps {u : State} {die pa : Nat} {bs : List Byte} (h : agentWrite s die pa bs = some u) : HomeKeeps s u :=
  Yields.foldl (P := HomeKeeps s) (fun _ p h => h.agentLineWrite die p.1 p.2.1 p.2.2) _ (.some (.refl s)) u h

/-- A translation reaches no byte of a frame. -/
def clearOf (f n : Nat) (e : TlbEntry) : Bool := !(decide (e.ppage < f + n) && decide (f < e.ppage + e.size))

theorem clearOf_iff {f n : Nat} {e : TlbEntry} : clearOf f n e = true ↔ e.ppage + e.size ≤ f ∨ f + n ≤ e.ppage := by
  rw [clearOf, Bool.not_eq_true', Bool.and_eq_false_iff, decide_eq_false_iff_not, decide_eq_false_iff_not, Nat.not_lt, Nat.not_lt]
  exact or_comm

/-- A state without a frame: its record, its copies and its translations are gone, and a pool has it. -/
def frameFreed (s : State) (f size pool : Nat) : State :=
  { recallPage s f size with
    pages := kDel f (recallPage s f size).pages
    pools := kPut pool (kGetD pool [] (recallPage s f size).pools ++ [(f, size)]) (recallPage s f size).pools
    cores := (recallPage s f size).cores.map (fun p => (p.1, { p.2 with tlb := p.2.tlb.filter (clearOf f size) }))
    teams := (recallPage s f size).teams.map (fun p => (p.1, { p.2 with xlat := p.2.xlat.filter (clearOf f size) })) }

theorem execPageFree_frees {g : APage} {a : Nat} {u : State} (hg : kGet s.ev.x s.pages = some g) (hst : g.st = .sealed)
    (hleaf : leafOf s s.ev.w.toNat s.ev.u s.ev.y s.ev.x = some a) (hwrite : agentWrite s s.ev.w.toNat a (leBytes 8 0) = some u) :
    exec .pageFree s = .next (frameFreed u s.ev.x g.size s.ev.z) := by
  obtain ⟨⟨m, ds, hu⟩, -⟩ := agentWrite_homeKeeps hwrite
  obtain ⟨bs, cs, ds', hrecall⟩ := recallPage_rest u s.ev.x g.size
  have hpool : (recallPage u s.ev.x g.size).ev.z = s.ev.z := by rw [hrecall, hu]
  have hfold : (List.range Config.dies).foldl (fun v d => recallSealed v d (fun l => s.ev.x ≤ 64 * l && 64 * l < s.ev.x + g.size)) u = recallPage u s.ev.x g.size := by
    rw [recallPage]
    rfl
  rw [exec_pageFree, execPageFree]
  dsimp only
  rw [hg, hleaf]
  dsimp only
  rw [if_neg (not_not.mpr hst), hwrite]
  dsimp only
  rw [hfold, hpool, frameFreed]
  rfl

theorem execPageFree_stands {g : APage} (hg : kGet s.ev.x s.pages = some g) (hst : g.st ≠ .sealed) : exec .pageFree s = .next s := by
  rw [exec_pageFree, execPageFree]
  dsimp only
  rw [hg]
  cases leafOf s s.ev.w.toNat s.ev.u s.ev.y s.ev.x with
  | none => rfl
  | some a => exact if_pos hst

theorem execPageFree_noLeaf (h : leafOf s s.ev.w.toNat s.ev.u s.ev.y s.ev.x = none) : exec .pageFree s = .next s := by
  rw [exec_pageFree, execPageFree]
  dsimp only
  rw [h]
  cases kGet s.ev.x s.pages <;> rfl

end

theorem framesTakenAndFreed : FramesTakenAndFreed := by
  intro s
  refine ⟨fun hsize halign hlow hhigh hfree => ⟨_, frame_taken hsize halign hlow hhigh hfree, ?_⟩,
    fun g a u hg hst hleaf hwrite _ => ⟨_, execPageFree_frees hg hst hleaf hwrite, ?_⟩, fun g hg hst => execPageFree_stands hg hst, execPageFree_noLeaf⟩
  · have hbyte (a : Nat) := bGet_zeroFrame s s.ev.x s.ev.y a
    refine ⟨kGet_kPut_same _ _ _, fun p hp => kGet_kPut_other _ _ _ _ hp, rfl, fun a hlo hhi => (hbyte a).trans (if_pos ⟨hlo, hhi⟩),
      fun a hout => (hbyte a).trans (if_neg (by omega)), ?_⟩
    rw [kGetD, kGet_kPut_same]
    exact takeRange_apart
  · obtain ⟨bs, cs, ds, hrecall⟩ := recallPage_rest u s.ev.x g.size
    refine ⟨fun a => ?_, by rw [frameFreed, kGet_kDel, if_pos rfl], fun p hp => ?_, ?_, fun k e he => ?_, fun c e he => ?_, fun d line hd hlo hhi => ?_⟩
    · exact congrArg (bGet · a) (show (recallPage u s.ev.x g.size).mem = u.mem by rw [hrecall])
    · rw [frameFreed, kGet_kDel, if_neg hp, hrecall]
    · rw [frameFreed, kGetD, kGet_kPut_same]
      exact List.mem_append_right _ (List.mem_singleton.mpr rfl)
    · have hteam : (frameFreed u s.ev.x g.size s.ev.z).teamAt k = _ :=
        kGetD_mapEntries (fun t : Team => { t with xlat := t.xlat.filter (clearOf s.ev.x g.size) }) rfl (recallPage u s.ev.x g.size).teams k
      rw [hteam] at he
      exact clearOf_iff.mp (List.mem_filter.mp he).2
    · have hcore : (frameFreed u s.ev.x g.size s.ev.z).coreAt c = _ :=
        kGetD_mapEntries (fun k : Core => { k with tlb := k.tlb.filter (clearOf s.ev.x g.size) }) rfl (recallPage u s.ev.x g.size).cores c
      rw [hcore] at he
      exact clearOf_iff.mp (List.mem_filter.mp he).2
    · exact l2At_recallPage u hd (inPage_iff.mpr ⟨hlo, hhi⟩)

/-- Settles O40: an `append`'s offsets by induction over its lanes, a seal and a freed page by what recalling a page's lines takes from each die, a frame by what a write
of zeros and a taken range leave. -/
theorem appendPagesAndFrames : Obligations.AppendPagesAndFrames := ⟨appendAndSealAtHome, framesTakenAndFreed⟩

end Sys2Proof.Machine
end

section
/-! Copies of encrypted tensors (R214, R215). -/

namespace Sys2Proof.Machine

open Sys2Proof Sys2Proof.Safety Sys2Proof.Claims

/-- A row of 60 bytes of the stash, to 0x1104 within the unit at 0x1100. -/
def unitRow : CopyOp :=
  { id := 0, tid := 0, kind := .s2g, src := 0x40, dst := 0x1104, space := 1, rows := 1, rowBytes := 60, strideS := 0, strideD := 0, pattern := 0
    offs := [], elem := 1, nl := 0, pbits := 1, orient := 0, scope := 1, scls := 2, flag := none, cont := false, strm := false, pos := 0, paused := false
    svc := none }

/-- The page of the unit: writable, dirty, of an encrypted tensor. -/
def tensorPage : TlbEntry := { placedEntry with mclass := 2 }

/-- The row at the head of its partition's queue, in a team without bindings; an open append page of 4 bytes at 0x1104, as `appendFrameAlloc` makes one of any size at a
multiple of it. -/
def pageInUnit : State :=
  let s := (placeWords State.reset .c []).modBlock 0 (fun b => { b with stashBytes := 4096 })
  let s := (s.setPart 0 { s.partAt 0 with copyQ := [unitRow] }).modCore 0 (fun k => { k with tlb := [tensorPage] })
  { s with pages := [(0x1104, { size := 4, tail := 0, st := .opened, pending := 0, recalled := [] })] }

theorem pageInUnit_head : headCopy pageInUnit unitRow [] := by
  unfold headCopy
  decide +kernel

theorem pageInUnit_cryptSide : cryptSide pageInUnit unitRow 0x1104 60 0x1100 tensorPage := by
  unfold cryptSide
  decide +kernel

/-- No append page holds the first byte of the unit. -/
theorem pageInUnit_mayWrite : mayWrite pageInUnit unitRow 0x1100 tensorPage := by
  unfold mayWrite
  decide +kernel

theorem pageInUnit_stashSide : stashSideOk pageInUnit unitRow 0x40 60 := by
  unfold stashSideOk
  decide +kernel

/-- The cause of the fault that a copy has left to team 0. -/
def copyFaultCause : Out → Option Nat
  | .next t => (t.teamAt 0).pendCopy.map (fun p => p.cause)
  | _ => none

/-- The page that holds the row's first byte is an append page: the fault is Not-At-Tail. -/
theorem pageInUnit_notAtTail : copyFaultCause (exec .copySegment pageInUnit) = some 0x16 := by decide +kernel

/-- Refutes O45: of a unit whose first byte lies in no append page (`mayWrite`), while the row's first byte does, a write leaves the Not-At-Tail fault, and not the Key Access
fault that `EncryptedCopiesMove` names for a unit in no binding. -/
theorem not_copiesMoveAndComplete : ¬ Obligations.CopiesMoveAndComplete := by
  rintro ⟨-, -, hcrypt, -, -⟩
  obtain ⟨-, hwrite⟩ := hcrypt pageInUnit unitRow [] 0x1104 0x1100 tensorPage pageInUnit_head rfl rfl pageInUnit_cryptSide
  obtain ⟨-, hunbound, -⟩ := hwrite rfl rfl pageInUnit_mayWrite pageInUnit_stashSide
  obtain ⟨t, ht, -, -, -, -, hteam⟩ := hunbound (by decide +kernel) (by decide +kernel)
  have hkey : copyFaultCause (exec .copySegment pageInUnit) = some 0x18 := by
    rw [ht, copyFaultCause, show t.teamAt 0 = _ from hteam]
    rfl
  exact absurd (pageInUnit_notAtTail.symm.trans hkey) (by decide)

end Sys2Proof.Machine
end

section
/-! Ticks, broadcasts and visits (R241, R242, R244): how logical time moves, and which copies and lines that changes. -/

namespace Sys2Proof.Machine

open Sys2Proof Sys2Proof.Safety Sys2Proof.Claims

/-! ### A core's logical time is set (R242) -/

/-- A core whose logical time has become v. -/
def coreWithPts (k : Core) (v : BitVec 16) : Core :=
  { k with pts := v, l1 := k.l1.map (fun p => (p.1, { p.2 with expired := p.2.expired || !leaseOk p.2.le v })) }

section
variable (s : State) (c : Nat) {v : BitVec 16}

/-- A time that moves changes its core, and of the rest of the machine only the blocks' windows. -/
theorem setPts_moves (h : v ≠ (s.coreAt c).pts) : ∃ bs, setPts s c v = { s.setCore c (coreWithPts (s.coreAt c) v) with blocks := bs } := by
  obtain ⟨bs, hbs, -⟩ := mapWindows_eq (s.setCore c (coreWithPts (s.coreAt c) v)) c
    (fun w => { w with lines := w.lines.map (fun p => (p.1, { p.2 with expired := p.2.expired || !leaseOk p.2.le v })) })
  exact ⟨bs, (if_neg h).trans hbs⟩

theorem coreAt_setPts_same (h : v ≠ (s.coreAt c).pts) : (setPts s c v).coreAt c = coreWithPts (s.coreAt c) v := by
  obtain ⟨bs, hbs⟩ := setPts_moves s c h
  rw [hbs]
  exact State.coreAt_setCore_same _ _ _

theorem pts_setPts_same (v : BitVec 16) : ((setPts s c v).coreAt c).pts = v := by
  by_cases h : v = (s.coreAt c).pts
  · rw [setPts, if_pos h, h]
  · rw [coreAt_setPts_same s c h, coreWithPts]

theorem coreAt_setPts_other (v : BitVec 16) {j : Nat} (hj : j ≠ c) : (setPts s c v).coreAt j = s.coreAt j := by
  by_cases h : v = (s.coreAt c).pts
  · rw [setPts, if_pos h]
  · obtain ⟨bs, hbs⟩ := setPts_moves s c h
    rw [hbs]
    exact State.coreAt_setCore_other _ _ _ _ hj

theorem setPts_dies (v : BitVec 16) : (setPts s c v).dies = s.dies := by
  by_cases h : v = (s.coreAt c).pts
  · rw [setPts, if_pos h]
  · obtain ⟨bs, hbs⟩ := setPts_moves s c h
    rw [hbs]
    rfl

end

/-- A copy is expired once time has passed its lease end, or time is more than the longest lease before it. -/
theorem passedLease_iff (x : L1Copy) (v : BitVec 16) : (x.expired || !leaseOk x.le v) = true ↔ x.expired = true ∨ 255 < (x.le - v).toNat := by
  rw [Bool.or_eq_true, leaseOk, Bool.not_eq_true', decide_eq_false_iff_not, Nat.not_le]

/-! ### Ticks (R244) -/

section
variable (s : State) (c : Nat)

theorem coreAt_tickCore_same : (tickCore s c).coreAt c = { coreWithPts (s.coreAt c) ((s.coreAt c).pts + 1) with ticked := spanOf s.cc } := by
  have hmoves : (s.coreAt c).pts + 1 ≠ (s.coreAt c).pts := by simp
  rw [tickCore, State.modCore, State.coreAt_setCore_same, coreAt_setPts_same s c hmoves]

theorem coreAt_tickCore_other {j : Nat} (hj : j ≠ c) : (tickCore s c).coreAt j = s.coreAt j := by
  rw [tickCore, State.modCore, State.coreAt_setCore_other _ _ _ _ hj, coreAt_setPts_other s c _ hj]

theorem tickCore_keeps : TimeKeeps s (tickCore s c) := ((TimeKeeps.refl s).setPts c _).setCore c _

theorem l1At_tickCore (line : Nat) :
    l1At (tickCore s c) c line = (l1At s c line).map (fun x => { x with expired := x.expired || !leaseOk x.le ((s.coreAt c).pts + 1) }) := by
  rw [l1At, coreAt_tickCore_same]
  exact kGet_map (fun x : L1Copy => { x with expired := x.expired || !leaseOk x.le ((s.coreAt c).pts + 1) }) _ _

end

theorem exec_ptsTick_again {s : State} (h : (s.coreAt s.ev.x).ticked = spanOf s.cc) : exec .ptsTick s = .next s := if_pos h

theorem exec_ptsTick_first {s : State} (h : (s.coreAt s.ev.x).ticked ≠ spanOf s.cc) : exec .ptsTick s = .next (tickCore s s.ev.x) := if_neg h

/-! ### The highest of a die's times (R241, R244) -/

/-- Two times neither of which is ahead of the other are the same. -/
theorem tsLe_antisymm {a b : BitVec 16} (hab : tsLe a b = true) (hba : tsLe b a = true) : a = b := by
  rw [tsLe, decide_eq_true_eq] at hab hba
  bv_omega

theorem tsMax_of_le {a b : BitVec 16} (h : tsLe a b = true) : tsMax a b = b := if_pos h

theorem tsMax_of_ge {a b : BitVec 16} (h : tsLe b a = true) : tsMax a b = a := by
  by_cases hab : tsLe a b = true
  · rw [tsMax_of_le hab, tsLe_antisymm hab h]
  · exact if_neg hab

/-- A time of a list that no time of it is ahead of is what the maximum over the list comes to, though the comparison of R241 is not transitive. -/
theorem foldl_tsMax_leader {m : BitVec 16} {l : List (BitVec 16)} (hl : ∀ x ∈ l, tsLe x m = true) {a : BitVec 16} (ha : tsLe a m = true) (hm : m = a ∨ m ∈ l) :
    l.foldl tsMax a = m := by
  induction l generalizing a with
  | nil => exact (hm.resolve_right List.not_mem_nil).symm
  | cons b l ih =>
    obtain ⟨hb, hrest⟩ := List.forall_mem_cons.mp hl
    rw [List.foldl_cons]
    have hmax : tsLe (tsMax a b) m = true := by
      rw [tsMax]
      split
      · exact hb
      · exact ha
    refine ih hrest hmax ?_
    rcases hm with hma | hm
    · exact .inl (hma ▸ (tsMax_of_ge (hma ▸ hb)).symm)
    · exact (List.mem_cons.mp hm).imp_left fun hmb : m = b => hmb ▸ (tsMax_of_le (hmb ▸ ha)).symm

/-- The cores whose times a die's broadcast looks at: its enabled ones. -/
def timedCores (s : State) (die : Nat) : KMap Core := s.cores.filter (fun p => p.2.enabled && dieOf p.1 = die)

theorem mem_timedCores_iff {s : State} {die : Nat} {p : Nat × Core} : p ∈ timedCores s die ↔ p ∈ s.cores ∧ p.2.enabled = true ∧ dieOf p.1 = die := by
  rw [timedCores, List.mem_filter, Bool.and_eq_true, decide_eq_true_eq]

theorem highestPts_of_cons {s : State} {die : Nat} {a : BitVec 16} {r : List (BitVec 16)} (h : (timedCores s die).map (fun p => p.2.pts) = a :: r) :
    highestPts s die = some (r.foldl tsMax a) := by
  rw [timedCores] at h
  rw [highestPts, h]

theorem highestPts_leader {s : State} {die : Nat} {q : Nat × Core} (hq : q ∈ timedCores s die) (hlead : ∀ p ∈ timedCores s die, tsLe p.2.pts q.2.pts = true) :
    highestPts s die = some q.2.pts := by
  have hmem : q.2.pts ∈ (timedCores s die).map (fun p => p.2.pts) := List.mem_map_of_mem hq
  have hle : ∀ x ∈ (timedCores s die).map (fun p => p.2.pts), tsLe x q.2.pts = true := List.forall_mem_map.mpr hlead
  cases hl : (timedCores s die).map (fun p => p.2.pts) with
  | nil => exact absurd (hl ▸ hmem) List.not_mem_nil
  | cons a r =>
    rw [hl] at hmem hle
    obtain ⟨ha, hr⟩ := List.forall_mem_cons.mp hle
    rw [highestPts_of_cons hl, foldl_tsMax_leader hr ha (List.mem_cons.mp hmem)]

/-! ### Cores that lag are raised (R244) -/

/-- A core, with its time before the broadcast, is raised to 1,024 behind a value that it lags by more. -/
def raiseCore (v : BitVec 16) (s : State) (p : Nat × Core) : State :=
  if tsLe p.2.pts v && 1024 < (v - p.2.pts).toNat then setPts s p.1 (v - 1024) else s

theorem coreAt_raiseCore_other (v : BitVec 16) (s : State) (p : Nat × Core) {j : Nat} (hj : j ≠ p.1) : (raiseCore v s p).coreAt j = s.coreAt j := by
  rw [raiseCore]
  split
  · exact coreAt_setPts_other s p.1 _ hj
  · rfl

theorem pts_raiseCore_same {v : BitVec 16} {s : State} {p : Nat × Core} (hle : tsLe p.2.pts v = true) (hpts : (s.coreAt p.1).pts = p.2.pts) :
    ((raiseCore v s p).coreAt p.1).pts = if 1024 < (v - p.2.pts).toNat then v - 1024 else p.2.pts := by
  rw [raiseCore, hle, Bool.true_and]
  by_cases h : 1024 < (v - p.2.pts).toNat
  · rw [if_pos h, if_pos (decide_eq_true h), pts_setPts_same]
  · rw [if_neg h, if_neg (mt of_decide_eq_true h), hpts]

theorem raiseCore_dies (v : BitVec 16) (s : State) (p : Nat × Core) : (raiseCore v s p).dies = s.dies := by
  rw [raiseCore]
  split
  · exact setPts_dies s p.1 _
  · rfl

theorem raiseCores_dies (v : BitVec 16) (l : KMap Core) (s : State) : (l.foldl (raiseCore v) s).dies = s.dies :=
  foldl_keeps (P := fun u : State => u.dies = s.dies) (fun u p hu => (raiseCore_dies v u p).trans hu) l rfl

theorem coreAt_raiseCores_other (v : BitVec 16) {l : KMap Core} {j : Nat} (hj : j ∉ l.map (fun p => p.1)) (s : State) :
    (l.foldl (raiseCore v) s).coreAt j = s.coreAt j := by
  induction l generalizing s with
  | nil => rfl
  | cons q l ih =>
    rw [List.map_cons, List.mem_cons, not_or] at hj
    rw [List.foldl_cons, ih hj.2, coreAt_raiseCore_other v s q hj.1]

/-- Each core of a list is raised by its own entry alone. -/
theorem pts_raiseCores {v : BitVec 16} {l : KMap Core} (hnd : (l.map (fun p => p.1)).Nodup) {p : Nat × Core} (hp : p ∈ l) (hle : tsLe p.2.pts v = true) {s : State}
    (hpts : (s.coreAt p.1).pts = p.2.pts) :
    ((l.foldl (raiseCore v) s).coreAt p.1).pts = if 1024 < (v - p.2.pts).toNat then v - 1024 else p.2.pts := by
  induction l generalizing s with
  | nil => cases hp
  | cons q l ih =>
    obtain ⟨hfresh, hnd⟩ := List.nodup_cons.mp hnd
    rw [List.foldl_cons]
    rcases List.mem_cons.mp hp with rfl | hp
    · rw [coreAt_raiseCores_other v hfresh, pts_raiseCore_same hle hpts]
    · have hne : p.1 ≠ q.1 := fun h => hfresh (List.mem_map.mpr ⟨p, hp, h⟩)
      exact ih hnd hp ((congrArg Core.pts (coreAt_raiseCore_other v s q hne)).trans hpts)

/-! ### Broadcasts (R244) -/

/-- A die as a broadcast leaves it: the value, and the span that it was made in. -/
def broadcastDie (s : State) (v : BitVec 16) (d : Die) : Die := { d with bcast := v, told := spanOf s.cc }

theorem tellPts_of_highest {s : State} {die : Nat} {v : BitVec 16} (h : highestPts s die = some v) :
    tellPts s die = (timedCores s die).foldl (raiseCore v) (s.modDie die (broadcastDie s v)) := by
  rw [tellPts, h]
  rfl

section
variable {s : State} {die : Nat} {v : BitVec 16} (hv : highestPts s die = some v)
include hv

theorem dieAt_tellPts_same : (tellPts s die).dieAt die = broadcastDie s v (s.dieAt die) := by
  rw [tellPts_of_highest hv, State.dieAt, raiseCores_dies]
  exact State.dieAt_setDie_same _ _ _

theorem dieAt_tellPts_other {d : Nat} (hd : d ≠ die) : (tellPts s die).dieAt d = s.dieAt d := by
  rw [tellPts_of_highest hv, State.dieAt, raiseCores_dies]
  exact State.dieAt_setDie_other _ _ _ _ hd

variable (hs : kSorted s.cores = true)
include hs

theorem pts_tellPts {p : Nat × Core} (hp : p ∈ timedCores s die) (hle : tsLe p.2.pts v = true) :
    ((tellPts s die).coreAt p.1).pts = if 1024 < (v - p.2.pts).toNat then v - 1024 else p.2.pts := by
  have hcore : s.coreAt p.1 = p.2 := congrArg (Option.getD · Core.reset) (kGet_of_mem hs (mem_timedCores_iff.mp hp).1)
  rw [tellPts_of_highest hv]
  exact pts_raiseCores (kSorted_nodup (kSorted_filter _ _ hs)) hp hle (congrArg Core.pts hcore)

theorem coreAt_tellPts_other {c : Nat} (hc : (s.coreAt c).enabled = false ∨ dieOf c ≠ die) : (tellPts s die).coreAt c = s.coreAt c := by
  rw [tellPts_of_highest hv]
  refine coreAt_raiseCores_other v (fun hmem => ?_) _
  obtain ⟨p, hp, rfl⟩ := List.mem_map.mp hmem
  obtain ⟨hcores, hen, hdie⟩ := mem_timedCores_iff.mp hp
  have hcore : s.coreAt p.1 = p.2 := congrArg (Option.getD · Core.reset) (kGet_of_mem hs hcores)
  rw [hcore, hen] at hc
  exact hc.elim Bool.noConfusion (absurd hdie)

end

theorem exec_ptsBroadcast_again {s : State} (h : (s.dieAt s.ev.x).told = spanOf s.cc) : exec .ptsBroadcast s = .next s := if_pos h

theorem exec_ptsBroadcast_first {s : State} (h : (s.dieAt s.ev.x).told ≠ spanOf s.cc) : exec .ptsBroadcast s = .next (tellPts s s.ev.x) := if_neg h

section
variable {s : State} {c : Nat} {k : Core} (h : leads s c k)
include h

/-- No enabled core of the die is ahead of one that leads. -/
theorem leads_tsLe {p : Nat × Core} (hp : p ∈ timedCores s s.ev.x) : tsLe p.2.pts k.pts = true := by
  obtain ⟨-, -, -, hlead⟩ := h
  obtain ⟨hcores, hen, hdie⟩ := mem_timedCores_iff.mp hp
  exact decide_eq_true (hlead p hcores hen hdie)

theorem leads_highestPts : highestPts s s.ev.x = some k.pts := by
  have hle := fun p hp => leads_tsLe h (p := p) hp
  obtain ⟨hk, hen, hdie, -⟩ := h
  exact highestPts_leader (q := (c, k)) (mem_timedCores_iff.mpr ⟨mem_of_kGet hk, hen, hdie⟩) hle

end

/-! ### Visits of lines and copies (R242, R244) -/

theorem l2At_setL2_same (s : State) (d line : Nat) (e : L2Line) : l2At (setL2 s d line e) d line = some e := by
  rw [l2At, setL2, State.modDie, State.dieAt_setDie_same, kGet_kPut_same]

theorem l1At_setL1_same (s : State) (c line : Nat) (x : L1Copy) : l1At (setL1 s c line x) c line = some x := by
  rw [l1At, setL1, State.modCore, State.coreAt_setCore_same, kGet_kPut_same]

theorem visitLine_eq (b : BitVec 16) (e : L2Line) :
    visitLine b e = if (b - e.rts).toNat < 2 ^ 15 ∧ 16384 < (b - e.rts).toNat then { e with wts := b - 16384, rts := b - 16384 } else e := by
  simp only [visitLine, tsLe, Bool.and_eq_true, decide_eq_true_eq]
  rfl

section
variable {s : State}

theorem exec_l2LineSweep_of_some {e : L2Line} (h : l2At s s.ev.x s.ev.y = some e) :
    exec .l2LineSweep s = .next (setL2 s s.ev.x s.ev.y (visitLine (s.dieAt s.ev.x).bcast e)) := by
  rw [exec_l2LineSweep, execL2LineSweep, h]

theorem exec_leaseExpiry_of_some {x : L1Copy} (h : l1At s s.ev.x s.ev.y = some x) :
    exec .leaseExpiry s = .next (setL1 s s.ev.x s.ev.y (markCopy s s.ev.x x)) := by
  rw [exec_leaseExpiry, execLeaseExpiry, h]

/-- A core's copies, each visited. -/
def copiesVisited (s : State) (c : Nat) : State := s.modCore c (fun k => { k with l1 := k.l1.map (fun p => (p.1, markCopy s c p.2)) })

theorem l1At_copiesVisited (c line : Nat) : l1At (copiesVisited s c) c line = (l1At s c line).map (markCopy s c) := by
  rw [l1At, copiesVisited, State.modCore, State.coreAt_setCore_same]
  exact kGet_map _ _ _

end

/-! ### The events -/

section
variable (s : State)

theorem tickMovesTime (h : (s.coreAt s.ev.x).ticked ≠ spanOf s.cc) :
    ∃ t, exec .ptsTick s = .next t ∧ sameMem s t ∧ t.teams = s.teams ∧ (t.coreAt s.ev.x).pts = (s.coreAt s.ev.x).pts + 1 ∧
      (∀ c, c ≠ s.ev.x → t.coreAt c = s.coreAt c) ∧
      ∀ line c, l1At s s.ev.x line = some c → ∃ k, l1At t s.ev.x line = some k ∧ k = { c with expired := k.expired } ∧
        (k.expired = true ↔ c.expired = true ∨ 255 < (c.le - ((s.coreAt s.ev.x).pts + 1)).toNat) := by
  have hkeeps := tickCore_keeps s s.ev.x
  refine ⟨_, exec_ptsTick_first h, fun a => by rw [hkeeps.mem], hkeeps.teams, ?_, fun c hc => coreAt_tickCore_other s _ hc, fun line x hx => ?_⟩
  · rw [coreAt_tickCore_same, coreWithPts]
  · exact ⟨_, (l1At_tickCore s _ line).trans (congrArg (Option.map _) hx), rfl, passedLease_iff x _⟩

theorem broadcastRaisesCores {c : Nat} {k : Core} (hs : kSorted s.cores = true) (htold : (s.dieAt s.ev.x).told ≠ spanOf s.cc) (hlead : leads s c k) :
    ∃ t, exec .ptsBroadcast s = .next t ∧ sameMem s t ∧ t.teams = s.teams ∧ (t.dieAt s.ev.x).bcast = k.pts ∧
      (∀ p ∈ s.cores, p.2.enabled = true → dieOf p.1 = s.ev.x → (t.coreAt p.1).pts = if 1024 < (k.pts - p.2.pts).toNat then k.pts - 1024 else p.2.pts) ∧
      (∀ c, (s.coreAt c).enabled = false ∨ dieOf c ≠ s.ev.x → t.coreAt c = s.coreAt c) ∧ ∀ d, d ≠ s.ev.x → t.dieAt d = s.dieAt d := by
  have hv := leads_highestPts hlead
  have hkeeps := (TimeKeeps.refl s).tellPts s.ev.x
  refine ⟨_, exec_ptsBroadcast_first htold, fun a => by rw [hkeeps.mem], hkeeps.teams, ?_, fun p hp hen hdie => ?_, fun c hc => coreAt_tellPts_other hv hs hc,
    fun d hd => dieAt_tellPts_other hv hd⟩
  · rw [dieAt_tellPts_same hv, broadcastDie]
  · have hmem := mem_timedCores_iff.mpr ⟨hp, hen, hdie⟩
    exact pts_tellPts hv hs hmem (leads_tsLe hlead hmem)

theorem visitRaisesLine {e : L2Line} (h : l2At s s.ev.x s.ev.y = some e) :
    ∃ t, exec .l2LineSweep s = .next t ∧ sameMem s t ∧
      l2At t s.ev.x s.ev.y = some (if ((s.dieAt s.ev.x).bcast - e.rts).toNat < 2 ^ 15 ∧ 16384 < ((s.dieAt s.ev.x).bcast - e.rts).toNat
        then { e with wts := (s.dieAt s.ev.x).bcast - 16384, rts := (s.dieAt s.ev.x).bcast - 16384 } else e) := by
  refine ⟨_, exec_l2LineSweep_of_some h, fun _ => rfl, ?_⟩
  rw [l2At_setL2_same, visitLine_eq]

theorem visitMarksCopies {line : Nat} {x : L1Copy} (h : l1At s s.ev.x line = some x) :
    (∃ t, exec .l1LeaseSweep s = .next t ∧ sameMem s t ∧ l1At t s.ev.x line = some (markCopy s s.ev.x x)) ∧
      (s.ev.y = line → ∃ t, exec .leaseExpiry s = .next t ∧ sameMem s t ∧ l1At t s.ev.x line = some (markCopy s s.ev.x x)) := by
  refine ⟨⟨copiesVisited s s.ev.x, rfl, fun _ => rfl, ?_⟩, ?_⟩
  · rw [l1At_copiesVisited, h, Option.map_some]
  · rintro rfl
    exact ⟨_, exec_leaseExpiry_of_some h, fun _ => rfl, l1At_setL1_same _ _ _ _⟩

end

/-- Settles O9: a tick by what setting a core's time leaves, a broadcast by induction over the die's cores, first for the highest of their times and then for the cores
raised, and the visits by what they write. -/
theorem logicalTimeEvents : Obligations.LogicalTimeEvents :=
  ⟨fun _ => exec_ptsTick_again, tickMovesTime, fun _ => exec_ptsBroadcast_again, fun s _ _ => broadcastRaisesCores s, fun s _ => visitRaisesLine s,
    fun s _ _ => visitMarksCopies s⟩

end Sys2Proof.Machine
end

section
/-! Privileged instructions (R267, R289, R290, R293): the Privilege trap of user mode, and `halt`, `fmap` and `tlbinv` in supervisor mode. -/

namespace Sys2Proof.Machine

open Sys2Proof Sys2Proof.Safety Sys2Proof.Claims

/-! ### The mode decides (R267) -/

theorem supervised_user {s : State} (h : s.team.trap.sup = false) (k : Out) : supervised s k = trapLanes s { cause := 0x07 } s.team.mask :=
  if_neg (by rw [h]; decide)

theorem supervised_supervisor {s : State} (h : s.team.trap.sup = true) (k : Out) : supervised s k = k := if_pos h

section
variable {f : Fields} {s : State}

theorem exec_tret_reaches (hr : reaches s .tret = true) : exec .tret s = supervised s (.next (returnTrap (retryCopies s s.cur) s.cur)) := by
  rw [exec_tret, execTret]
  exact issue_reaches _ rfl hr

theorem exec_halt_reaches (hr : reaches s (.halt f) = true) : exec (.halt f) s = supervised s (.next (endTeamBad s s.cur 1)) := by
  rw [exec_halt, execHalt]
  exact issue_reaches _ rfl hr

/-- What `fmap` queues. -/
def fmapOp (t : Team) (f : Fields) : MemOp :=
  { newOp t (.fmap (srcS64 t f.a.toNat 0).toNat false) 0 with
    dst := if f.d.toNat < 64 then some f.d.toNat else none
    flag := selFlag t (modOf .y f) }

theorem exec_fmap_reaches (hr : reaches s (.fmap f) = true) :
    exec (.fmap f) s = supervised s (if s.team.mask = 0 then finish s s.team f else enqueueOp s s.team f (fmapOp s.team f) none) := by
  rw [exec_fmap, execFmap]
  exact issue_reaches _ rfl hr

/-! ### `tlbinv` (R284, R290) -/

/-- The page that `tlbinv` names, if any. -/
def invPage (t : Team) (f : Fields) : Option Nat := if f.a.toNat = 120 then none else some (srcS64 t f.a.toNat 0).toNat

/-- The entries that stay. -/
def keptEntry (s : State) (f : Fields) (e : TlbEntry) : Bool :=
  !droppedEntry s (dieOf s.team.core) (s.gridAt s.team.grid).asid (invPage s.team f) e

/-- A team of the named cores and of the context. -/
def namedTeam (s : State) (f : Fields) (u : Team) : Bool :=
  namedCore f.d.toNat s.team.core u.core && (s.gridAt u.grid).asid = (s.gridAt s.team.grid).asid

/-- The machine without the entries, in the named cores' TLBs and in what their teams have gathered. -/
def invalidated (s : State) (f : Fields) : State := { s with
  cores := s.cores.map (fun p => if namedCore f.d.toNat s.team.core p.1 then (p.1, { p.2 with tlb := p.2.tlb.filter (keptEntry s f) }) else p)
  teams := s.teams.map (fun p => if namedTeam s f p.2 then (p.1, { p.2 with xlat := p.2.xlat.filter (keptEntry s f) }) else p) }

/-- An access of the named cores' teams that still rests on a translation of the context. -/
def restsOnTlb (s : State) (f : Fields) : Bool :=
  s.teams.any (fun p => namedTeam s f p.2 && (p.2.memQ.any translatedOp || p.2.matQ.any translatedMat)) ||
    s.blocks.any (fun p => namedCore f.d.toNat s.team.core p.2.core && stagedOf s (s.gridAt s.team.grid).asid p.2)

/-- The named cores whose store buffers hold stores. -/
def bufferedCores (s : State) (f : Fields) : KMap Core := s.cores.filter (fun p => namedCore f.d.toNat s.team.core p.1 && p.2.sbuf ≠ [])

theorem exec_tlbinv_invalidates (hr : reaches s (.tlbinv f) = true) (hsup : s.team.trap.sup = true) (hrest : restsOnTlb s f = false) (hbuf : bufferedCores s f = []) :
    exec (.tlbinv f) s = finish (invalidated s f) (invalidated s f).team f := by
  rw [exec_tlbinv, execTlbinv, issue_reaches _ rfl hr, supervised_supervisor hsup]
  refine (if_neg (ne_true_of_eq_false hrest)).trans ?_
  rw [show s.cores.filter _ = [] from hbuf]
  rfl

theorem restsOnTlb_eq_false
    (hteams : ∀ p ∈ s.teams, namedCore f.d.toNat s.team.core p.2.core = true → (s.gridAt p.2.grid).asid = (s.gridAt s.team.grid).asid →
      p.2.memQ.any translatedOp = false ∧ p.2.matQ.any translatedMat = false)
    (hblocks : ∀ p ∈ s.blocks, namedCore f.d.toNat s.team.core p.2.core = true → (s.gridAt p.2.grid).asid = (s.gridAt s.team.grid).asid → p.2.staged = []) :
    restsOnTlb s f = false := by
  rw [restsOnTlb, Bool.or_eq_false_iff, List.any_eq_false, List.any_eq_false]
  refine ⟨fun p hp hany => ?_, fun p hp hany => ?_⟩
  · simp only [namedTeam, Bool.and_eq_true, decide_eq_true_eq] at hany
    obtain ⟨⟨hcore, hasid⟩, hrests⟩ := hany
    obtain ⟨hmem, hmat⟩ := hteams p hp hcore hasid
    rw [hmem, hmat] at hrests
    cases hrests
  · simp only [stagedOf, Bool.and_eq_true, decide_eq_true_eq] at hany
    obtain ⟨hcore, hstaged, hasid⟩ := hany
    exact hstaged (hblocks p hp hcore hasid)

theorem bufferedCores_eq_nil (h : ∀ p ∈ s.cores, namedCore f.d.toNat s.team.core p.1 = true → p.2.sbuf = []) : bufferedCores s f = [] := by
  rw [bufferedCores, List.filter_eq_nil_iff]
  intro p hp hbuf
  simp only [Bool.and_eq_true, decide_eq_true_eq] at hbuf
  exact hbuf.2 (h p hp hbuf.1)

/-- A team, and a core, without the entries. -/
def invalidTeam (s : State) (f : Fields) (u : Team) : Team := if namedTeam s f u then { u with xlat := u.xlat.filter (keptEntry s f) } else u

def invalidCore (s : State) (f : Fields) (c : Nat) (k : Core) : Core :=
  if namedCore f.d.toNat s.team.core c then { k with tlb := k.tlb.filter (keptEntry s f) } else k

theorem invalidated_teams (s : State) (f : Fields) : (invalidated s f).teams = s.teams.map (fun p => (p.1, invalidTeam s f p.2)) := by
  refine List.map_congr_left fun p _ => ?_
  rw [invalidTeam]
  split <;> rfl

theorem invalidated_cores (s : State) (f : Fields) : (invalidated s f).cores = s.cores.map (fun p => (p.1, invalidCore s f p.1 p.2)) := by
  refine List.map_congr_left fun p _ => ?_
  rw [invalidCore]
  split <;> rfl

/-- The acting team loses gathered translations alone. -/
theorem invalidated_team (s : State) (f : Fields) (x : List TlbEntry) : { (invalidated s f).team with xlat := x } = { s.team with xlat := x } := by
  rw [State.team, State.teamAt, invalidated_teams]
  refine view_mapTeams (fun u => { u with xlat := x }) (fun _ => invalidTeam s f) s.teams s.cur fun u => ?_
  rw [invalidTeam]
  split <;> rfl

theorem invalidated_tlb {c : Nat} {k : Core} (h : kGet c s.cores = some k) :
    ((invalidated s f).coreAt c).tlb = if namedCore f.d.toNat s.team.core c = true then k.tlb.filter (keptEntry s f) else k.tlb := by
  rw [State.coreAt, invalidated_cores, kGetD, kGet_mapEntries (invalidCore s f), h]
  exact apply_ite Core.tlb _ _ _

end

/-! ### The two claims -/

theorem privilegeTraps : PrivilegeTraps := by
  intro f s hsup
  constructor
  · simp only [List.forall_mem_cons, List.not_mem_nil, false_imp_iff, implies_true, and_true]
    refine ⟨fun hr => ?_, fun hr => ?_, fun hr => ?_, fun hr => ?_⟩
    · exact (exec_tret_reaches hr).trans (supervised_user hsup _)
    · exact (exec_halt_reaches hr).trans (supervised_user hsup _)
    · exact (exec_fmap_reaches hr).trans (supervised_user hsup _)
    · rw [exec_tlbinv, execTlbinv, issue_reaches _ rfl hr, supervised_user hsup]
  · intro hr hd
    rw [exec_srw, execSrw, issue_reaches _ rfl hr]
    dsimp only
    rw [if_pos (by simpa [or_assoc] using hd), supervised_user hsup]

theorem supervisorInstructions : SupervisorInstructions := by
  refine fun f s hsup => ⟨fun hr => ?_, fun hr hmask => ?_, fun hr hmask => ?_, fun hr hteams hblocks hcores => ?_⟩
  · obtain ⟨r, g, hteam⟩ := endTeamBad_team s s.cur 1
    have hat : (endTeamBad s s.cur 1).team = _ := (congrArg _ (endTeamBad_cur s s.cur 1)).trans hteam
    refine ⟨_, (exec_halt_reaches hr).trans (supervised_supervisor hsup _), fun a => by rw [endTeamBad_mem], by rw [hat], by rw [hat], ?_⟩
    rw [State.gridAt, endTeamBad_grids]
    exact congrArg Grid.failed (kGetD_kPut_same _ _ _ _)
  · obtain ⟨t, ht, honly, hplaced, hon⟩ := finish_unchanged s f
    exact ⟨t, by rw [exec_fmap_reaches hr, supervised_supervisor hsup, if_pos hmask, ht], honly, hon, hplaced⟩
  · obtain ⟨t, ht, honly, hon, hqueue, -, hflags, hframe⟩ := enqueueOp_spec s f (fmapOp s.team f) none
    exact ⟨t, _, by rw [exec_fmap_reaches hr, supervised_supervisor hsup, if_neg hmask, ht], honly, hon, hframe, hqueue, hflags, rfl, rfl, rfl, rfl, rfl⟩
  · obtain ⟨t, ht, honly, hon, -⟩ := finish_spec (invalidated s f) (invalidated s f).team f rfl rfl rfl rfl
    have hteam := invalidated_team s f []
    refine ⟨t, (exec_tlbinv_invalidates hr hsup (restsOnTlb_eq_false hteams hblocks) (bufferedCores_eq_nil hcores)).trans ht, honly.mem, wentOn_congr hon ?_ ?_ ?_ ?_, fun c k hk => ?_⟩
    · exact (congrArg Team.pc hteam :)
    · exact (congrArg Team.rep hteam :)
    · exact (congrArg Team.inRep hteam :)
    · exact (congrArg Team.clause hteam :)
    · rw [honly.team]
      exact invalidated_tlb hk

/-- Settles O37: each of these instructions is `supervised`; in supervisor mode `tlbinv` drops entries once nothing rests on them (`exec_tlbinv_invalidates`). -/
theorem privilegeAndSupervisor : Obligations.PrivilegeAndSupervisor := ⟨privilegeTraps, supervisorInstructions⟩

end Sys2Proof.Machine
end

section
/-! Translation (R279-R283): the entries that a walk reads, where it ends, and the service of a page that is not present. -/

namespace Sys2Proof.Machine

open Sys2Proof Sys2Proof.Safety Sys2Proof.Claims

/-! ### Indexes and entries (R279, R280) -/

theorem walkIndexes : WalkIndexes := fun _ =>
  ⟨fun _ _ => rfl, fun _ _ => rfl, fun _ _ => rfl, fun _ _ => rfl, rfl, rfl⟩

theorem leafLevel_eq_specLeaf : ∀ psz < 4, leafLevel psz = specLeaf psz := by decide

theorem pszBits_eq_specBits : ∀ psz < 4, pszBits psz = specBits psz := by decide

/-- A bit field of a number is nonzero when one of its bits is set. -/
theorem field_ne_zero_iff (e lo n : Nat) : e / 2 ^ lo % 2 ^ n ≠ 0 ↔ ∃ i, lo ≤ i ∧ i < lo + n ∧ e.testBit i = true := by
  constructor
  · intro h
    obtain ⟨j, hj⟩ := Nat.exists_testBit_of_ne_zero h
    rw [Nat.testBit_mod_two_pow, Nat.testBit_div_two_pow, Bool.and_eq_true, decide_eq_true_eq] at hj
    exact ⟨j + lo, by omega, by omega, hj.2⟩
  · rintro ⟨i, hlo, hhi, hi⟩ h
    have hbit : (e / 2 ^ lo % 2 ^ n).testBit (i - lo) = true := by
      rw [Nat.testBit_mod_two_pow, Nat.testBit_div_two_pow, Nat.sub_add_cancel hlo, hi, Bool.and_true, decide_eq_true_eq]
      omega
    rw [h, Nat.zero_testBit] at hbit
    cases hbit

theorem leNat_lt (bs : List Byte) : leNat bs < 256 ^ bs.length := by
  induction bs with
  | nil => decide
  | cons b r ih =>
    have hb := b.isLt
    rw [leNat, List.length_cons, pow_succ']
    omega

theorem viewNat_lt (s : State) (pa n : Nat) : viewNat s pa n < 256 ^ n :=
  (leNat_lt _).trans_le (Nat.pow_le_pow_right (by decide) (List.length_take_le _ _))

/-- The reserved bits of an entry: 2, 8 to 11, and 52 to 63. -/
theorem reserved_iff {e : Nat} (he : e < 2 ^ 64) : (e / 2 ^ 52 ≠ 0 ∨ e / 2 ^ 8 % 2 ^ 4 ≠ 0) ∨ e.testBit 2 = true ↔
    ∃ i, (i = 2 ∨ (8 ≤ i ∧ i < 12) ∨ (52 ≤ i ∧ i < 64)) ∧ e.testBit i = true := by
  have htop := field_ne_zero_iff e 52 12
  rw [Nat.mod_eq_of_lt (by omega)] at htop
  rw [htop, field_ne_zero_iff e 8 4]
  constructor
  · rintro ((⟨i, hlo, hhi, hi⟩ | ⟨i, hlo, hhi, hi⟩) | hi)
    · exact ⟨i, .inr (.inr ⟨hlo, hhi⟩), hi⟩
    · exact ⟨i, .inr (.inl ⟨hlo, hhi⟩), hi⟩
    · exact ⟨2, .inl rfl, hi⟩
  · rintro ⟨i, rfl | ⟨hlo, hhi⟩ | ⟨hlo, hhi⟩, hi⟩
    · exact .inr hi
    · exact .inl (.inr ⟨i, hlo, hhi, hi⟩)
    · exact .inl (.inl ⟨i, hlo, hhi, hi⟩)

/-- LEAF is at the wrong level. -/
theorem leafBit_ne_iff (b : Bool) (p : Prop) [Decidable p] : b ≠ decide p ↔ (b = true ↔ ¬p) := by
  by_cases hp : p <;> cases b <;> simp [hp]

/-- What the walk calls a bad entry is what R280 does. -/
theorem pteBad_iff_badEntry {psz level e : Nat} (hpsz : psz < 4) (he : e < 2 ^ 64) : pteBad psz level e = true ↔ badEntry psz level e := by
  have hbits : 12 ≤ specBits psz := by
    rw [← pszBits_eq_specBits psz hpsz, pszBits]
    split_ifs <;> decide
  have hlow := field_ne_zero_iff e 12 (specBits psz - 12)
  rw [Nat.add_sub_cancel' hbits] at hlow
  rw [pteBad, leafLevel_eq_specLeaf psz hpsz, pszBits_eq_specBits psz hpsz]
  simp only [Bool.or_eq_true, Bool.and_eq_true, bne_iff_ne, Bool.not_eq_true', decide_eq_false_iff_not, decide_eq_true_eq]
  rw [leafBit_ne_iff, show e / 8 % 32 ≠ 0 ↔ _ from field_ne_zero_iff e 3 5, show e / 4096 % 2 ^ (specBits psz - 12) ≠ 0 ↔ _ from hlow,
    show (e / 2 ^ 52 ≠ 0 ∨ e / 2 ^ 8 % 16 ≠ 0) ∨ e.testBit 2 = true ↔ _ from reserved_iff he, badEntry, or_assoc, or_assoc]

/-- One level of a descent, from a table that lies in memory. -/
theorem descend_backed {s : State} {psz va n base e : Nat} (hb : backed s (base + 8 * walkIndex psz (n + 1) va) = true)
    (he : e = viewNat s (base + 8 * walkIndex psz (n + 1) va) 8) :
    descend s psz va (n + 1) base =
      if e % 2 = 0 then .bad 1 (n + 1) (base + 8 * walkIndex psz (n + 1) va)
      else if pteBad psz (n + 1) e then .bad 4 (n + 1) (base + 8 * walkIndex psz (n + 1) va)
      else if n + 1 = leafLevel psz then .leaf (base + 8 * walkIndex psz (n + 1) va) e else descend s psz va n (ptePpn e) := by
  rw [descend, he]
  exact if_neg (by rw [hb]; decide)

theorem walkEntries : WalkEntries := by
  intro s psz va n base e hpsz _ hb he
  have hbad : pteBad psz (n + 1) e = true ↔ badEntry psz (n + 1) e := pteBad_iff_badEntry hpsz (he ▸ viewNat_lt s _ 8)
  have hvalid : e.testBit 0 = true → e % 2 ≠ 0 := fun h => by
    rw [Nat.testBit_zero, decide_eq_true_eq] at h
    omega
  rw [descend_backed hb he, leafLevel_eq_specLeaf psz hpsz]
  refine ⟨fun h => ?_, fun h hbe => ?_, fun h hok hleaf => ?_, fun h hok hleaf => ?_⟩
  · rw [Nat.testBit_zero, decide_eq_false_iff_not] at h
    exact if_pos (by omega)
  · rw [if_neg (hvalid h), if_pos (hbad.2 hbe)]
  · rw [if_neg (hvalid h), if_neg (mt hbad.1 hok), if_pos hleaf]
  · rw [if_neg (hvalid h), if_neg (mt hbad.1 hok), if_neg hleaf]
    rfl

/-! ### Where a walk ends (R279-R281) -/

section
variable {s : State} {va acc : Nat}

theorem walk_noRegion (h : 2 ^ 57 ≤ va ∨ rfValid (regionOf s (evDie s) (evAsid s) va) = false) : walk s (evDie s) (evAsid s) va acc = .bad 2 5 :=
  if_pos (by simpa using h)

theorem walk_badEntry {level addr : Nat} (h : endsAt s va (.bad 4 level addr)) : walk s (evDie s) (evAsid s) va acc = .bad 4 level := by
  obtain ⟨hvalid, hva, hdescend⟩ := h
  rw [walk, walkIn]
  dsimp only
  rw [if_neg (by simpa [hvalid] using hva), hdescend]

section
variable {addr e : Nat} (hleaf : leafAt s va addr e)
include hleaf

theorem walk_refused (hperm : permOk (entryOf (regionOf s (evDie s) (evAsid s) va) (evAsid s) va e) acc = false) :
    walk s (evDie s) (evAsid s) va acc = .bad 3 (leafLevel (rfPsz (regionOf s (evDie s) (evAsid s) va))) := by
  obtain ⟨hvalid, hva, hdescend⟩ := hleaf
  rw [walk, walkIn]
  dsimp only
  rw [if_neg (by simpa [hvalid] using hva), hdescend]
  exact if_pos (by rw [hperm]; rfl)

/-- A leaf that permits the access, with A and D as the access needs them, is not written. -/
theorem walk_permitted {x : TlbEntry} (hx : x = entryOf (regionOf s (evDie s) (evAsid s) va) (evAsid s) va e) (hperm : permOk x acc = true)
    (hback : backed s x.ppage = true) (hset : e ||| 64 ||| (if isWriteAcc acc then 128 else 0) = e) :
    walk s (evDie s) (evAsid s) va acc = .ok (obtainFrame s x) x := by
  obtain ⟨hvalid, hva, hdescend⟩ := hleaf
  subst hx
  rw [walk, walkIn]
  dsimp only
  rw [if_neg (by simpa [hvalid] using hva), hdescend]
  dsimp only
  rw [if_neg (by rw [hperm]; decide), if_neg (by rw [hback]; decide), if_pos hset]

end

theorem obtainFrame_recorded {x : TlbEntry} (h : x.mclass = 1 → ∃ p ∈ s.pages, p.1 ≤ x.ppage ∧ x.ppage < p.1 + p.2.size) : obtainFrame s x = s := by
  refine if_neg fun hnew => ?_
  simp only [Bool.and_eq_true, decide_eq_true_eq, Bool.not_eq_true', List.any_eq_false] at hnew
  obtain ⟨p, hp, hin⟩ := h hnew.1
  exact hnew.2 p hp hin

/-! ### The team after its walk (R281, R282) -/

/-- Noting a walk's reads changes the channels' record alone. -/
theorem noteWalk_eq (s : State) (core asid va : Nat) (w : State) : ∃ p, noteWalk s core asid va w = { w with plat := p } := by
  refine List.foldlRecOn (motive := fun v => ∃ p, v = { w with plat := p }) _ _ ⟨w.plat, rfl⟩ ?_
  rintro _ ⟨p, rfl⟩ a _
  split
  · obtain ⟨q, hq⟩ := chanRequest_eq { w with plat := p } 0 core (a / 64)
    exact ⟨q, hq⟩
  · exact ⟨p, rfl⟩

theorem noteWalk_teamAt (s : State) (core asid va : Nat) (w : State) (k : Nat) : (noteWalk s core asid va w).teamAt k = w.teamAt k := by
  obtain ⟨p, hp⟩ := noteWalk_eq s core asid va w
  rw [hp]
  rfl

theorem noteWalk_coreAt (s : State) (core asid va : Nat) (w : State) (c : Nat) : (noteWalk s core asid va w).coreAt c = w.coreAt c := by
  obtain ⟨p, hp⟩ := noteWalk_eq s core asid va w
  rw [hp]
  rfl

/-- A team whose own stream waits as a test asks is found by that stream. -/
theorem waiter_own {t : Team} {p : Wait → Bool} (h : p t.wait = true) : t.waiter p = some none := List.find?_cons_of_pos h

theorem waiter_walking (h : walking s va acc) : (s.teamAt s.ev.x).waiter isWalkWait = some none :=
  waiter_own (by rw [show (s.teamAt s.ev.x).wait = .walk va acc from h]; rfl)

/-- The walk's team, ready with what its walk found. -/
def walkedTo (w : State) (tid : Nat) (found : Team → Team) : State := wake (w.modTeam tid found) tid none

theorem exec_pageWalk_translated (h : walking s va acc) {w : State} {x : TlbEntry} (hw : walk s (evDie s) (evAsid s) va acc = .ok w x) : exec .pageWalk s =
    .next (noteWalk s (s.teamAt s.ev.x).core (evAsid s) va
      (walkedTo (tlbPut w (s.teamAt s.ev.x).core x) s.ev.x (fun t => { t with xlat := x :: t.xlat }))) := by
  have hwait : (s.teamAt s.ev.x).waitOf none = .walk va acc := h
  rw [exec_pageWalk, execPageWalk, waiter_walking h]
  dsimp only
  rw [hwait]
  dsimp only
  rw [← evDie, ← evAsid, hw]
  rfl

/-- The fault that a walk leaves for the instruction to take. -/
def foundFault (s : State) (va acc kind level : Nat) : WalkFault :=
  { va := pageBase (regionOf s (evDie s) (evAsid s) va) va, acc := acc, kind := kind, level := level, waiters := 1 }

theorem exec_pageWalk_fault (h : walking s va acc) {kind level : Nat} (hk : kind ≠ 1) (hw : walk s (evDie s) (evAsid s) va acc = .bad kind level) : exec .pageWalk s =
    .next (noteWalk s (s.teamAt s.ev.x).core (evAsid s) va
      (walkedTo s s.ev.x (fun t => { t with walkFault := t.walkFault ++ [foundFault s va acc kind level] }))) := by
  have hwait : (s.teamAt s.ev.x).waitOf none = .walk va acc := h
  rw [exec_pageWalk, execPageWalk, waiter_walking h]
  dsimp only
  rw [hwait]
  dsimp only
  rw [← evDie, ← evAsid, hw]
  split
  next heq => cases heq
  next heq => cases heq
  next heq => cases heq
  next heq => exact absurd (WalkRes.bad.inj heq).1 hk
  next heq =>
    obtain ⟨rfl, rfl⟩ := WalkRes.bad.inj heq
    rfl

theorem walkedTo_teamAt (w : State) (tid : Nat) (found : Team → Team) : (walkedTo w tid found).teamAt tid =
    { found (w.teamAt tid) with wait := .none, sched := { (found (w.teamAt tid)).sched with readySince := w.cc } } := by
  rw [walkedTo, wake, State.modTeam, State.teamAt_setTeamAt_same, State.modTeam, State.teamAt_setTeamAt_same]
  rfl

/-- A walk that ends in a fault of its own makes the team ready with it. -/
theorem pageWalk_faults (h : walking s va acc) {kind level : Nat} (hk : kind ≠ 1) (hw : walk s (evDie s) (evAsid s) va acc = .bad kind level) :
    ∃ t, exec .pageWalk s = .next t ∧ sameMem s t ∧ (t.teamAt s.ev.x).wait = .none ∧
      (t.teamAt s.ev.x).walkFault = (s.teamAt s.ev.x).walkFault ++ [foundFault s va acc kind level] := by
  refine ⟨_, exec_pageWalk_fault h hk hw, fun a => ?_, ?_⟩
  · rw [noteWalk_mem]
    rfl
  · rw [noteWalk_teamAt, walkedTo_teamAt]
    exact ⟨rfl, rfl⟩

end

/-- The translation of a page covers the address that was walked. -/
theorem entryOf_covers (r : BitVec 128) (asid va e : Nat) :
    (entryOf r asid va e).vpage ≤ va ∧ va < (entryOf r asid va e).vpage + (entryOf r asid va e).size := by
  have hpos : 0 < pageSize r := Nat.two_pow_pos _
  exact ⟨Nat.div_mul_le_self _ _, Nat.lt_div_mul_add hpos⟩

theorem findTlb_head {x : TlbEntry} (l : List TlbEntry) {va : Nat} (h : x.vpage ≤ va ∧ va < x.vpage + x.size) : findTlb (x :: l) x.asid va = some x :=
  List.find?_cons_of_pos (by simpa using h)

theorem walkedTo_coreAt (w : State) (tid : Nat) (found : Team → Team) (c : Nat) : (walkedTo w tid found).coreAt c = w.coreAt c := rfl

theorem findTlb_tlbPut (s : State) (c : Nat) {x : TlbEntry} {va : Nat} (h : x.vpage ≤ va ∧ va < x.vpage + x.size) :
    findTlb ((tlbPut s c x).coreAt c).tlb x.asid va = some x := by
  rw [tlbPut, State.modCore, State.coreAt_setCore_same]
  exact findTlb_head _ h

/-- A walk that ends in a translation gives it to the team and to its core's TLB. -/
theorem pageWalk_translates {s : State} {va acc : Nat} {x : TlbEntry} (h : walking s va acc) (hw : walk s (evDie s) (evAsid s) va acc = .ok s x)
    (hasid : x.asid = evAsid s) (hin : x.vpage ≤ va ∧ va < x.vpage + x.size) :
    ∃ t, exec .pageWalk s = .next t ∧ sameMem s t ∧ (t.teamAt s.ev.x).wait = .none ∧ (t.teamAt s.ev.x).xlat = x :: (s.teamAt s.ev.x).xlat ∧
      findTlb (t.coreAt (s.teamAt s.ev.x).core).tlb (evAsid s) va = some x := by
  refine ⟨_, exec_pageWalk_translated h hw, fun a => ?_, ?_⟩
  · rw [noteWalk_mem]
    rfl
  · rw [noteWalk_teamAt, noteWalk_coreAt, walkedTo_teamAt, walkedTo_coreAt, ← hasid, findTlb_tlbPut s _ hin]
    exact ⟨rfl, rfl, rfl⟩

theorem pageWalks : PageWalks := by
  intro s va acc h
  have hlevel : leafLevel (rfPsz (regionOf s (evDie s) (evAsid s) va)) = specLeaf (rfPsz (regionOf s (evDie s) (evAsid s) va)) :=
    leafLevel_eq_specLeaf _ (BitVec.isLt _)
  refine ⟨fun addr e x hleaf hx hperm hback hset hframe => ?_, fun addr e hleaf hperm => ?_, fun level addr hbad => ?_, fun hnone => ?_⟩
  · have hw := walk_permitted hleaf hx hperm hback hset
    rw [obtainFrame_recorded hframe] at hw
    exact pageWalk_translates h hw (by rw [hx]; rfl) (by rw [hx]; exact entryOf_covers _ _ _ _)
  · rw [← hlevel]
    exact pageWalk_faults h (by decide) (walk_refused hleaf hperm)
  · exact pageWalk_faults h (by decide) (walk_badEntry hbad)
  · exact pageWalk_faults h (by decide) (walk_noRegion hnone)

/-! ### Waiters of a page become ready (R283) -/

/-- What waking leaves of a state: everything but one team's waits and the time since which it is ready. -/
structure Woken (tid : Nat) (s w : State) : Prop where
  dies : w.dies = s.dies
  others : ∀ k, k ≠ tid → w.teamAt k = s.teamAt k
  walkFault : (w.teamAt tid).walkFault = (s.teamAt tid).walkFault

theorem Woken.trans {tid : Nat} {s v w : State} (h : Woken tid s v) (h' : Woken tid v w) : Woken tid s w :=
  ⟨h'.dies.trans h.dies, fun k hk => (h'.others k hk).trans (h.others k hk), h'.walkFault.trans h.walkFault⟩

theorem setWait_walkFault (t : Team) (e : Option Eng) (w : Wait) : (t.setWait e w).walkFault = t.walkFault := by
  rcases e with _ | _ | _ <;> rfl

theorem wake_woken (s : State) (tid : Nat) (e : Option Eng) : Woken tid s (wake s tid e) where
  dies := rfl
  others := fun k hk => State.teamAt_setTeamAt_other _ _ _ _ hk
  walkFault := by
    rw [wake, State.modTeam, State.teamAt_setTeamAt_same]
    exact setWait_walkFault _ _ _

/-- One stream of a team is woken where its wait passes the test. -/
def wakeIf (tid : Nat) (p : Wait → Bool) (s : State) (e : Option Eng) : State := if p ((s.teamAt tid).waitOf e) then wake s tid e else s

theorem wakeIf_woken (tid : Nat) (p : Wait → Bool) (s : State) (e : Option Eng) : Woken tid s (wakeIf tid p s e) := by
  rw [wakeIf]
  split
  · exact wake_woken s tid e
  · exact ⟨rfl, fun _ _ => rfl, rfl⟩

theorem wakeAll_eq (s : State) (tid : Nat) (p : Wait → Bool) : wakeAll s tid p = wakeIf tid p (wakeIf tid p (wakeIf tid p s none) (some .mat)) (some .copy) := rfl

theorem wakeAll_woken (s : State) (tid : Nat) (p : Wait → Bool) : Woken tid s (wakeAll s tid p) := by
  rw [wakeAll_eq]
  exact ((wakeIf_woken tid p s none).trans (wakeIf_woken tid p _ _)).trans (wakeIf_woken tid p _ _)

/-- Waking a forked stream leaves the team's own wait. -/
theorem wakeIf_stream_wait (tid : Nat) (p : Wait → Bool) (s : State) (e : Eng) : ((wakeIf tid p s (some e)).teamAt tid).wait = (s.teamAt tid).wait := by
  rw [wakeIf]
  split
  · rw [wake, State.modTeam, State.teamAt_setTeamAt_same]
    cases e <;> rfl
  · rfl

theorem wakeAll_wait {s : State} {tid : Nat} {p : Wait → Bool} (h : p (s.teamAt tid).wait = true) : ((wakeAll s tid p).teamAt tid).wait = .none := by
  rw [wakeAll_eq, wakeIf_stream_wait, wakeIf_stream_wait, wakeIf, if_pos (by exact h), wake, State.modTeam, State.teamAt_setTeamAt_same]
  rfl

theorem isServiceOf_own (die asid page : Nat) : isServiceOf die asid page (.service die asid page) = true := by simp [isServiceOf]

/-! ### The service of a page has ended -/

/-- A merge of the page that is served and has the team among its waiters. -/
def servedFor (asid page tid : Nat) (m : Merge) : Bool := m.asid = asid && m.page = page && m.served && m.waiters.contains tid

/-- A die's stage once the team has left the served merges of the page. -/
def stageWithout (asid page tid : Nat) (l : List Merge) : List Merge :=
  (l.map (fun m => if servedFor asid page tid m then { m with waiters := m.waiters.filter (fun k => k != tid) } else m)).filter (fun m => !m.served || m.waiters != [])

theorem exec_faultWaiterReplay_served {s : State} {die asid page : Nat} (hwait : (s.teamAt s.ev.x).wait = .service die asid page)
    (hserved : (s.dieAt die).stage.any (servedFor asid page s.ev.x) = true) : exec .faultWaiterReplay s =
      .next (wakeAll (s.setDie die { s.dieAt die with stage := stageWithout asid page s.ev.x (s.dieAt die).stage }) s.ev.x (isServiceOf die asid page)) := by
  have hown : (s.teamAt s.ev.x).waitOf none = .service die asid page := hwait
  rw [exec_faultWaiterReplay, execFaultWaiterReplay, waiter_own (by rw [hwait])]
  dsimp only
  rw [hown]
  exact if_pos hserved

theorem mem_stageWithout {asid page tid : Nat} {l : List Merge} {k : Merge} (hk : k ∈ stageWithout asid page tid l) (hasid : k.asid = asid) (hpage : k.page = page)
    (hserved : k.served = true) : tid ∉ k.waiters := by
  obtain ⟨m, -, rfl⟩ := List.mem_map.1 (List.mem_of_mem_filter hk)
  by_cases hm : servedFor asid page tid m = true
  · simp [if_pos hm]
  · rw [if_neg hm] at hasid hpage hserved ⊢
    intro hw
    exact hm (by simp [servedFor, hasid, hpage, hserved, hw])

theorem replayedWaiter {s : State} {die asid page : Nat} {m : Merge} (hwait : (s.teamAt s.ev.x).wait = .service die asid page) (hm : m ∈ (s.dieAt die).stage)
    (hasid : m.asid = asid) (hpage : m.page = page) (hserved : m.served = true) (hin : s.ev.x ∈ m.waiters) :
    ∃ t, exec .faultWaiterReplay s = .next t ∧ sameMem s t ∧ (t.teamAt s.ev.x).wait = .none ∧
      ∀ k ∈ (t.dieAt die).stage, k.asid = asid → k.page = page → k.served = true → s.ev.x ∉ k.waiters := by
  have hfor : servedFor asid page s.ev.x m = true := by simp [servedFor, hasid, hpage, hserved, hin]
  refine ⟨_, exec_faultWaiterReplay_served hwait (List.any_eq_true.2 ⟨m, hm, hfor⟩), fun a => by rw [wakeAll_mem]; rfl, ?_, fun k hk => ?_⟩
  · refine wakeAll_wait ?_
    rw [State.teamAt_setDie, hwait]
    exact isServiceOf_own die asid page
  · rw [State.dieAt, (wakeAll_woken _ _ _).dies, ← State.dieAt, State.dieAt_setDie_same] at hk
    exact mem_stageWithout hk

/-! ### The host's answer (R283) -/

/-- A merge that waits for the host's answer for a page. -/
def asksHost (asid page : Nat) (m : Merge) : Bool := m.asid = asid && m.page = page && !m.ft && !m.served

/-- A waiter of a refused page takes the fault of kind 1 and is ready. -/
def refuseWaiter (die asid page : Nat) (m : Merge) (s : State) (tid : Nat) : State :=
  if ((s.teamAt tid).waiter (isServiceOf die asid page)).isNone then s
  else
    let s := s.modTeam tid (fun t => { t with walkFault := t.walkFault ++ [{ va := page, acc := m.acc, kind := 1, level := m.level, waiters := m.count }] })
    wakeAll s tid (isServiceOf die asid page)

/-- The machine after the host's answer for a page that no copy waits for, but for the answers to forwarded `fmap`s. -/
def hostAnswered (s : State) (m : Merge) : State :=
  if s.ev.ok then endService s s.ev.x (asksHost s.ev.y s.ev.z)
  else m.waiters.foldl (refuseWaiter s.ev.x s.ev.y s.ev.z m)
    (s.setDie s.ev.x { s.dieAt s.ev.x with stage := (s.dieAt s.ev.x).stage.filter (fun m => !asksHost s.ev.y s.ev.z m) })

/-- A forwarded `fmap` of the page has its answer. -/
def answeredOp (page : Nat) (ok : Bool) (o : MemOp) : MemOp :=
  match o.kind with
  | .fmap p true => if p = page && !o.performed then { o with performed := true, pdst := if ok then 2 else 3 } else o
  | _ => o

def answeredTeam (s : State) (u : Team) : Team :=
  if dieOf u.core = s.ev.x && (s.gridAt u.grid).asid = s.ev.y then { u with memQ := u.memQ.map (answeredOp s.ev.z s.ev.ok) } else u

theorem exec_hostFaultAcknowledge_answered {s : State} {m : Merge} (hfind : (s.dieAt s.ev.x).stage.find? (asksHost s.ev.y s.ev.z) = some m) (heng : m.engines = []) :
    exec .hostFaultAcknowledge s = .next { hostAnswered s m with teams := (hostAnswered s m).teams.map (fun p => (p.1, answeredTeam s p.2)) } := by
  have hteams : ∀ l : KMap Team, l.map (fun p => (p.1, answeredTeam s p.2)) = l.map (fun p =>
      if dieOf p.2.core = s.ev.x && (s.gridAt p.2.grid).asid = s.ev.y then (p.1, { p.2 with memQ := p.2.memQ.map (answeredOp s.ev.z s.ev.ok) }) else p) := fun l =>
    List.map_congr_left fun p _ => by
      rw [answeredTeam]
      split <;> rfl
  rw [exec_hostFaultAcknowledge, execHostFaultAcknowledge, hteams]
  dsimp only
  rw [show (s.dieAt s.ev.x).stage.find? (fun m => m.asid = s.ev.y && m.page = s.ev.z && !m.ft && !m.served) = some m from hfind]
  dsimp only
  rw [heng]
  rfl

/-- The answer to forwarded `fmap`s changes memory queues alone. -/
theorem answered_teamAt (s w : State) (tid : Nat) (q : List MemOp) :
    { ({ w with teams := w.teams.map (fun p => (p.1, answeredTeam s p.2)) } : State).teamAt tid with memQ := q } = { w.teamAt tid with memQ := q } := by
  refine view_mapTeams (fun u => { u with memQ := q }) (fun _ => answeredTeam s) w.teams tid fun u => ?_
  rw [answeredTeam]
  split <;> rfl

/-- The fault that a refused page's waiter takes. -/
def refusedFault (page : Nat) (m : Merge) : WalkFault := { va := page, acc := m.acc, kind := 1, level := m.level, waiters := m.count }

section
variable {die asid page : Nat} {m : Merge} {s : State}

theorem refuseWaiter_mem (s : State) (tid : Nat) : (refuseWaiter die asid page m s tid).mem = s.mem := by
  rw [refuseWaiter]
  split
  · rfl
  · exact wakeAll_mem _ _ _

/-- A waiter of the page, refused. -/
theorem refuseWaiter_waits {tid : Nat} (hwait : (s.teamAt tid).wait = .service die asid page) :
    (refuseWaiter die asid page m s tid).dies = s.dies ∧ (∀ k, k ≠ tid → (refuseWaiter die asid page m s tid).teamAt k = s.teamAt k) ∧
      ((refuseWaiter die asid page m s tid).teamAt tid).wait = .none ∧
      ((refuseWaiter die asid page m s tid).teamAt tid).walkFault = (s.teamAt tid).walkFault ++ [refusedFault page m] := by
  obtain ⟨v, hv⟩ : ∃ v, v = s.modTeam tid (fun t => { t with walkFault := t.walkFault ++ [refusedFault page m] }) := ⟨_, rfl⟩
  have heq : refuseWaiter die asid page m s tid = wakeAll v tid (isServiceOf die asid page) := by
    rw [refuseWaiter, waiter_own (by rw [hwait]; exact isServiceOf_own die asid page), hv]
    rfl
  have hteam : v.teamAt tid = { s.teamAt tid with walkFault := (s.teamAt tid).walkFault ++ [refusedFault page m] } := by
    rw [hv, State.modTeam, State.teamAt_setTeamAt_same]
  obtain ⟨hdies, hothers, hfault⟩ := wakeAll_woken v tid (isServiceOf die asid page)
  rw [heq]
  refine ⟨hdies.trans (by rw [hv]; rfl), fun k hk => (hothers k hk).trans ?_, wakeAll_wait ?_, hfault.trans (by rw [hteam])⟩
  · rw [hv]
    exact State.teamAt_setTeamAt_other _ _ _ _ hk
  · rw [hteam, hwait]
    exact isServiceOf_own die asid page

/-- All the waiters of a page, refused one after another. -/
theorem foldl_refuseWaiter (l : List Nat) (hnd : l.Nodup) (hwait : ∀ tid ∈ l, (s.teamAt tid).wait = .service die asid page) :
    (l.foldl (refuseWaiter die asid page m) s).dies = s.dies ∧ (∀ k, k ∉ l → (l.foldl (refuseWaiter die asid page m) s).teamAt k = s.teamAt k) ∧
      ∀ tid ∈ l, ((l.foldl (refuseWaiter die asid page m) s).teamAt tid).wait = .none ∧
        ((l.foldl (refuseWaiter die asid page m) s).teamAt tid).walkFault = (s.teamAt tid).walkFault ++ [refusedFault page m] := by
  induction l generalizing s with
  | nil => exact ⟨rfl, fun _ _ => rfl, fun _ h => absurd h List.not_mem_nil⟩
  | cons a l ih =>
    obtain ⟨ha, hl⟩ := List.nodup_cons.1 hnd
    obtain ⟨hdies, hothers, hready, hfault⟩ := refuseWaiter_waits (m := m) (hwait a List.mem_cons_self)
    have hne : ∀ tid ∈ l, tid ≠ a := fun tid htid e => ha (e ▸ htid)
    obtain ⟨hdies', hothers', hrefused⟩ := ih (s := refuseWaiter die asid page m s a) hl fun tid htid => by
      rw [hothers tid (hne tid htid)]
      exact hwait tid (List.mem_cons_of_mem _ htid)
    refine ⟨hdies'.trans hdies, fun k hk => ?_, fun tid htid => ?_⟩
    · obtain ⟨hka, hkl⟩ := not_or.1 (mt List.mem_cons.2 hk)
      exact (hothers' k hkl).trans (hothers k hka)
    · rcases List.mem_cons.1 htid with rfl | htid
      · rw [List.foldl_cons, hothers' tid ha]
        exact ⟨hready, hfault⟩
      · obtain ⟨hw, hf⟩ := hrefused tid htid
        exact ⟨hw, by rw [List.foldl_cons, hf, hothers tid (hne tid htid)]⟩

end

theorem eraseDups_of_nodup {l : List Nat} (h : l.Nodup) : l.eraseDups = l := by
  induction l with
  | nil => rfl
  | cons a l ih =>
    obtain ⟨ha, hl⟩ := List.nodup_cons.1 h
    have hkeep : l.filter (fun b => !b == a) = l := List.filter_eq_self.2 fun b hb => by
      have hne : b ≠ a := fun e => ha (e ▸ hb)
      simpa using hne
    rw [List.eraseDups_cons, hkeep, ih hl]

theorem count_of_nodup {m : Merge} (hft : m.ft = false) (heng : m.engines = []) (hnd : m.waiters.Nodup) : m.count = m.waiters.length := by
  rw [Merge.count, hft, heng, List.append_nil]
  exact congrArg List.length (eraseDups_of_nodup hnd)

section
variable {s : State} {m : Merge} (hstage : (s.dieAt s.ev.x).stage = [m]) (hasks : asksHost s.ev.y s.ev.z m = true)
include hstage hasks

/-- The host has mapped the page: its merge is served, and its waiters still wait for their replay. -/
theorem hostAnswered_served (hok : s.ev.ok = true) (heng : m.engines = []) (hwaiters : m.waiters ≠ []) :
    hostAnswered s m = s.modDie s.ev.x (fun x => { x with stage := [{ m with served := true }] }) := by
  have hdone : (s.dieAt s.ev.x).stage.filter (asksHost s.ev.y s.ev.z) = [m] := by rw [hstage, List.filter_cons_of_pos hasks, List.filter_nil]
  have hafter : (((s.dieAt s.ev.x).stage.map (fun m => if asksHost s.ev.y s.ev.z m then { m with served := true } else m)).filter
      (fun m => !m.served || m.waiters != [])) = [{ m with served := true }] := by
    rw [hstage, List.map_singleton, if_pos hasks]
    exact List.filter_cons_of_pos (by simpa using hwaiters)
  rw [hostAnswered, if_pos hok, endService]
  dsimp only
  rw [hdone, if_pos (by simpa using heng), State.modDie, State.modDie, hafter]

/-- The host has refused the page: its merge is gone and each waiter has the fault of kind 1. -/
theorem hostAnswered_refused (hok : s.ev.ok = false) (hnd : m.waiters.Nodup) (hwait : ∀ tid ∈ m.waiters, (s.teamAt tid).wait = .service s.ev.x s.ev.y s.ev.z) :
    (hostAnswered s m).mem = s.mem ∧ ((hostAnswered s m).dieAt s.ev.x).stage = [] ∧ ∀ tid ∈ m.waiters, ((hostAnswered s m).teamAt tid).wait = .none ∧
      ((hostAnswered s m).teamAt tid).walkFault = (s.teamAt tid).walkFault ++ [refusedFault s.ev.z m] := by
  have hgone : (s.dieAt s.ev.x).stage.filter (fun m => !asksHost s.ev.y s.ev.z m) = [] := by
    rw [hstage, List.filter_cons_of_neg (by rw [hasks]; decide), List.filter_nil]
  obtain ⟨hdies, -, hrefused⟩ := foldl_refuseWaiter (m := m) (s := s.setDie s.ev.x { s.dieAt s.ev.x with stage := [] }) m.waiters hnd hwait
  rw [hostAnswered, if_neg (by rw [hok]; decide), hgone]
  refine ⟨mem_foldl _ (fun w tid => refuseWaiter_mem w tid) _ _, ?_, hrefused⟩
  rw [State.dieAt, hdies, ← State.dieAt, State.dieAt_setDie_same]

end

theorem faultService : FaultService := by
  refine ⟨fun s die asid page m => replayedWaiter, fun s m hstage hasid hpage hft hserved heng hwaiters hnd hteams => ?_⟩
  have hasks : asksHost s.ev.y s.ev.z m = true := by simp [asksHost, hasid, hpage, hft, hserved]
  have hfind : (s.dieAt s.ev.x).stage.find? (asksHost s.ev.y s.ev.z) = some m := by rw [hstage, List.find?_cons_of_pos hasks]
  have hteam := answered_teamAt s (hostAnswered s m)
  refine ⟨_, exec_hostFaultAcknowledge_answered hfind heng, fun a => ?_, fun hok => ?_, fun hok => ?_⟩
  · cases hok : s.ev.ok with
    | true => exact (congrArg (fun w => bGet (State.mem w) a) (hostAnswered_served hstage hasks hok heng hwaiters) :)
    | false => exact congrArg (fun w => bGet w a) (hostAnswered_refused hstage hasks hok hnd fun tid htid => (hteams tid htid).1).1
  · have heq := hostAnswered_served hstage hasks hok heng hwaiters
    refine ⟨?_, fun tid _ => (congrArg Team.wait (hteam tid []) :).trans (congrArg (fun w => (State.teamAt w tid).wait) heq :)⟩
    refine (congrArg (fun w => (State.dieAt w s.ev.x).stage) heq).trans ?_
    rw [State.modDie, State.dieAt_setDie_same]
  · obtain ⟨-, hgone, hrefused⟩ := hostAnswered_refused hstage hasks hok hnd fun tid htid => (hteams tid htid).1
    refine ⟨hgone, fun tid htid => ?_⟩
    obtain ⟨hready, hfault⟩ := hrefused tid htid
    rw [refusedFault, count_of_nodup hft heng hnd] at hfault
    exact ⟨(congrArg Team.wait (hteam tid []) :).trans hready, (congrArg Team.walkFault (hteam tid []) :).trans hfault⟩

/-- Settles O44: the outcomes of a walk, its indexes, each level's entry (`pteBad_iff_badEntry`), and the service of a page: a replay, or the host's answer. -/
theorem translationAndFaultService : Obligations.TranslationAndFaultService := ⟨pageWalks, walkIndexes, walkEntries, faultService⟩

end Sys2Proof.Machine
end

section
/-! Trap entry and the return from a trap (R271-R275, R288): the save area's bytes, what is read back from it, and where the team resumes. -/

namespace Sys2Proof.Machine

open Sys2Proof Sys2Proof.Safety Sys2Proof.Claims

/-! ### Bytes within bytes -/

/-- The bytes `m` stand at offset o of the bytes `l`. -/
def StandsAt (l : List Byte) (o : Nat) (m : List Byte) : Prop := ∃ pre post, l = pre ++ m ++ post ∧ pre.length = o

section
variable {l m k : List Byte} {o p : Nat}

theorem StandsAt.first (m r : List Byte) : StandsAt (m ++ r) 0 m := ⟨[], r, rfl, rfl⟩

theorem StandsAt.after (h : l.length = o) (m : List Byte) : StandsAt (l ++ m) o m := ⟨l, [], (List.append_nil _).symm, h⟩

theorem StandsAt.before (h : StandsAt l o m) (r : List Byte) : StandsAt (l ++ r) o m := by
  obtain ⟨pre, post, rfl, ho⟩ := h
  exact ⟨pre, post ++ r, List.append_assoc _ _ _, ho⟩

theorem StandsAt.trans (h : StandsAt l o m) (h' : StandsAt m p k) : StandsAt l (o + p) k := by
  obtain ⟨pre, post, rfl, rfl⟩ := h
  obtain ⟨pre', post', rfl, rfl⟩ := h'
  exact ⟨pre ++ pre', post' ++ post, by simp only [List.append_assoc], List.length_append⟩

end

theorem length_flatMap_range {g : Nat → List Byte} {k : Nat} (hlen : ∀ i, (g i).length = k) (n : Nat) : ((List.range n).flatMap g).length = n * k := by
  rw [List.length_flatMap, List.map_congr_left fun i _ => hlen i, List.map_const', List.sum_replicate_nat, List.length_range]

/-- One of several records of the same length. -/
theorem StandsAt.flatMap_range {g : Nat → List Byte} {k : Nat} (hlen : ∀ i, (g i).length = k) {i n : Nat} (hi : i < n) :
    StandsAt ((List.range n).flatMap g) (i * k) (g i) := by
  induction n with
  | zero => cases hi
  | succ n ih =>
    rw [List.range_succ, List.flatMap_append, List.flatMap_singleton]
    rcases Nat.lt_succ_iff_lt_or_eq.1 hi with hlt | rfl
    · exact (ih hlt).before _
    · exact .after (length_flatMap_range hlen i) _

/-- Bytes written to a stash, read where they stand. -/
theorem stashRead_stashWrite {l m : List Byte} {o : Nat} (h : StandsAt l o m) (s : State) (b a : Nat) : stashRead (stashWrite s b a l) b (a + o) m.length = m := by
  obtain ⟨pre, post, rfl, rfl⟩ := h
  refine List.ext_getElem (stashRead_length _ _ _ _) fun i h1 h2 => ?_
  have hat : a + pre.length + i - a = pre.length + i := by omega
  rw [← List.getD_eq_getElem _ 0 h1, stashRead_getD _ _ _ h2, bGet_stashWrite, if_pos (by simp only [List.length_append]; omega), hat, List.append_assoc,
    List.getD_append_right _ _ _ _ (by omega), Nat.add_sub_cancel_left, List.getD_append _ _ _ _ h2, List.getD_eq_getElem]

/-- A number written to a stash, read where its bytes stand. -/
theorem leNat_stashWrite {l : List Byte} {o n v : Nat} (h : StandsAt l o (leBytes n v)) (s : State) (b a : Nat) :
    leNat (stashRead (stashWrite s b a l) b (a + o) n) = v % 256 ^ n := by
  have hread := stashRead_stashWrite h s b a
  rw [leBytes_length] at hread
  rw [hread, leNat_leBytes]

theorem stashRead_congr {s w : State} (h : w.blocks = s.blocks) (b a n : Nat) : stashRead w b a n = stashRead s b a n := by
  rw [stashRead, State.blockAt, h]
  rfl

/-! ### The save area as trap entry writes it (R273, R275) -/

/-- Address of the interrupted clause's header, 0 at a clause boundary. -/
def clauseHeader (t : Team) : Nat :=
  match t.clause with
  | some c => c.hdr.toNat
  | none => 0

def savedSregs (t : Team) : List Byte := (List.range 8).flatMap (fun i => leBytes 4 (t.sreg (56 + i)).toNat)

def savedMask (t : Team) : List Byte := (List.range 32).flatMap (fun w => leBytes 4 (laneWord t.mask w).toNat)

/-- The bytes of one of v80 to v87 in a lane: beyond the declared space, those the area held. -/
def savedVreg (s : State) (t : Team) (l i : Nat) : List Byte :=
  if t.viewV.toNat + 4 * (80 + i) + 4 ≤ t.regBytes then leBytes 4 (t.word (t.vWord (80 + i)) l).toNat
  else bRead (s.blockAt t.block).stash (saveOff s t + 256 + 44 * l + 4 * i) 4

/-- A lane's 44 bytes. -/
def savedLane (s : State) (t : Team) (l : Nat) : List Byte :=
  (List.range 8).flatMap (savedVreg s t l) ++ leBytes 4 (heldVal t.latch 0 l).toNat ++ leBytes 4 (heldVal t.latch 1 l).toNat ++ leBytes 4 (heldVal t.latch 2 l).toNat

/-- The save area after the scalar registers. -/
def savedFrom0x20 (s : State) (t : Team) (hdr : Bool) : List Byte :=
  leBytes 8 (clauseHeader t) ++ (leBytes 1 (t.latch.ptr + (if hdr then 4 else 0)) ++ (leBytes 1 (t.latch.v0 + 4 * t.latch.v1 + 16 * t.latch.v2) ++
    (leBytes 2 t.stack.length ++ (leBytes 1 t.rep.toNat ++ (List.replicate 83 0 ++ (savedMask t ++ (List.range t.lanes).flatMap (savedLane s t)))))))

theorem saveImage_eq (s : State) (t : Team) (hdr : Bool) : saveImage s t hdr = savedSregs t ++ savedFrom0x20 s t hdr := by
  simp only [savedFrom0x20, ← List.append_assoc]
  rfl

section
variable (s : State) (t : Team) (hdr : Bool)

theorem length_savedSregs : (savedSregs t).length = 32 := length_flatMap_range (fun _ => leBytes_length 4 _) 8

theorem length_savedMask : (savedMask t).length = 128 := length_flatMap_range (fun _ => leBytes_length 4 _) 32

theorem length_savedVreg (l i : Nat) : (savedVreg s t l i).length = 4 := by
  rw [savedVreg]
  split
  · exact leBytes_length 4 _
  · rfl

theorem length_savedLane (l : Nat) : (savedLane s t l).length = 44 := by
  simp only [savedLane, List.length_append, leBytes_length, length_flatMap_range (length_savedVreg s t l)]

/-- R275: where each part of the save area stands. -/
theorem saveImage_stands :
    StandsAt (saveImage s t hdr) 0 (savedSregs t) ∧ StandsAt (saveImage s t hdr) 0x20 (leBytes 8 (clauseHeader t)) ∧
      StandsAt (saveImage s t hdr) 0x28 (leBytes 1 (t.latch.ptr + (if hdr then 4 else 0))) ∧
      StandsAt (saveImage s t hdr) 0x29 (leBytes 1 (t.latch.v0 + 4 * t.latch.v1 + 16 * t.latch.v2)) ∧ StandsAt (saveImage s t hdr) 0x2A (leBytes 2 t.stack.length) ∧
      StandsAt (saveImage s t hdr) 0x2C (leBytes 1 t.rep.toNat) ∧ StandsAt (saveImage s t hdr) 0x80 (savedMask t) ∧
      StandsAt (saveImage s t hdr) 256 ((List.range t.lanes).flatMap (savedLane s t)) := by
  rw [saveImage_eq]
  have header := StandsAt.after (length_savedSregs t) (savedFrom0x20 s t hdr)
  have latch := header.trans (.after (leBytes_length 8 _) _)
  have reads := latch.trans (.after (leBytes_length 1 _) _)
  have depth := reads.trans (.after (leBytes_length 1 _) _)
  have rep := depth.trans (.after (leBytes_length 2 _) _)
  have mask := (rep.trans (.after (leBytes_length 1 _) _)).trans (.after List.length_replicate _)
  exact ⟨.first _ _, header.trans (.first _ _), latch.trans (.first _ _), reads.trans (.first _ _), depth.trans (.first _ _), rep.trans (.first _ _), mask.trans (.first _ _),
    mask.trans (.after (length_savedMask t) _)⟩

/-- A lane's record in the save area. -/
theorem saveImage_lane {l : Nat} (hl : l < t.lanes) : StandsAt (saveImage s t hdr) (256 + l * 44) (savedLane s t l) := by
  obtain ⟨-, -, -, -, -, -, -, hlanes⟩ := saveImage_stands s t hdr
  exact hlanes.trans (.flatMap_range (length_savedLane s t) hl)

theorem savedLane_vreg {l i : Nat} (hi : i < 8) (hin : t.viewV.toNat + 4 * (80 + i) + 4 ≤ t.regBytes) :
    StandsAt (savedLane s t l) (i * 4) (leBytes 4 (t.word (t.vWord (80 + i)) l).toNat) := by
  have h := StandsAt.flatMap_range (length_savedVreg s t l) hi
  rw [show savedVreg s t l i = _ from if_pos hin] at h
  exact ((h.before _).before _).before _

theorem savedLane_held {l e : Nat} (he : e < 3) : StandsAt (savedLane s t l) (32 + 4 * e) (leBytes 4 (heldVal t.latch e l).toNat) := by
  have hv : ((List.range 8).flatMap (savedVreg s t l)).length = 32 := length_flatMap_range (length_savedVreg s t l) 8
  match e with
  | 0 => exact ((StandsAt.after hv _).before _).before _
  | 1 => exact (StandsAt.after (by simp [hv]) _).before _
  | 2 => exact StandsAt.after (by simp [hv]) _

end

/-! ### Entry (R271, R273) -/

/-- With no result of the special-function unit under way, a trap that a handler takes writes the save area, and changes no other block. -/
theorem enterTrap_blocks {s : State} {tid : Nat} (hsup : (s.teamAt tid).trap.sup = false) (hvec : (s.teamAt tid).trap.tvec ≠ 0)
    (hq : (s.partAt (s.teamAt tid).partNo).sfuQ = []) (tr : Trap) (lanes : LaneSet) (tpc : DWord) (strm : Bool) :
    (enterTrap s tid tr lanes tpc strm).blocks =
      (stashWrite s (s.teamAt tid).block (saveOff s (s.teamAt tid)) (saveImage s (s.teamAt tid) (s.teamAt tid).clause.isNone)).blocks := by
  have hdrain : (drainSfu s tid).teamAt tid = s.teamAt tid := by
    rw [drainSfu, State.teamAt_setPart, State.teamAt_setTeamAt_same, hq]
    rfl
  rw [enterTrap, if_neg (by simp only [hsup, Bool.false_or, decide_eq_true_eq]; exact hvec)]
  simp only [hdrain]
  rfl

section
variable {s t : State} {u : Team}
  (ht : t.blocks = (stashWrite s u.block (saveOff s u) (saveImage s u u.clause.isNone)).blocks)
include ht

/-- A number of the save area. -/
theorem saved_number {o n v a : Nat} (h : StandsAt (saveImage s u u.clause.isNone) o (leBytes n v)) (ha : a = saveOff s u + o) (hv : v < 256 ^ n) :
    leNat (stashRead t u.block a n) = v := by
  rw [stashRead_congr ht, ha, leNat_stashWrite h, Nat.mod_eq_of_lt hv]

theorem saved_word {o a : Nat} {v : Word} (h : StandsAt (saveImage s u u.clause.isNone) o (leBytes 4 v.toNat)) (ha : a = saveOff s u + o) :
    stashWord t u.block a = v.toNat := saved_number ht h ha v.isLt

/-- What the save area holds, part by part (R275). -/
theorem saveArea_holds (hptr : u.latch.ptr < 4) (h0 : u.latch.v0 < 4) (h1 : u.latch.v1 < 4) (h2 : u.latch.v2 < 4) :
    (∀ i, i < 8 → stashWord t u.block (saveOff s u + 4 * i) = (u.sreg (56 + i)).toNat) ∧
      (∀ w, w < 32 → stashWord t u.block (saveOff s u + 0x80 + 4 * w) = (laneWord u.mask w).toNat) ∧
      (∀ l i, l < u.lanes → i < 8 → u.viewV.toNat + 4 * (80 + i) + 4 ≤ u.regBytes →
        stashWord t u.block (saveOff s u + 256 + 44 * l + 4 * i) = (u.word (u.vWord (80 + i)) l).toNat) ∧
      (∀ l e, l < u.lanes → e < 3 → stashWord t u.block (saveOff s u + 256 + 44 * l + 32 + 4 * e) = (heldVal u.latch e l).toNat) ∧
      leNat (stashRead t u.block (saveOff s u + 0x20) 8) = clauseHeader u ∧
      leNat (stashRead t u.block (saveOff s u + 0x28) 1) = u.latch.ptr + (if u.clause = none then 4 else 0) ∧
      leNat (stashRead t u.block (saveOff s u + 0x29) 1) = u.latch.v0 + 4 * u.latch.v1 + 16 * u.latch.v2 ∧
      leNat (stashRead t u.block (saveOff s u + 0x2A) 2) = u.stack.length % 65536 ∧ leNat (stashRead t u.block (saveOff s u + 0x2C) 1) = u.rep.toNat := by
  obtain ⟨hsregs, hheader, hlatch, hreads, hdepth, hrep, hmask, -⟩ := saveImage_stands s u u.clause.isNone
  refine ⟨fun i hi => ?_, fun w hw => ?_, fun l i hl hi hin => ?_, fun l e hl he => ?_, ?_, ?_, ?_, ?_, ?_⟩
  · exact saved_word ht (hsregs.trans (.flatMap_range (fun _ => leBytes_length 4 _) hi)) (by omega)
  · exact saved_word ht (hmask.trans (.flatMap_range (fun _ => leBytes_length 4 _) hw)) (by omega)
  · exact saved_word ht ((saveImage_lane s u _ hl).trans (savedLane_vreg s u hi hin)) (by omega)
  · exact saved_word ht ((saveImage_lane s u _ hl).trans (savedLane_held s u he)) (by omega)
  · refine saved_number ht hheader rfl ?_
    rw [clauseHeader]
    split
    · exact BitVec.isLt _
    · decide
  · have hcode : (if u.clause.isNone then 4 else 0) = if u.clause = none then 4 else 0 := by simp only [Option.isNone_iff_eq_none]
    rw [hcode] at hlatch
    exact saved_number ht hlatch rfl (by split <;> omega)
  · exact saved_number ht hreads rfl (by omega)
  · exact (congrArg leNat (stashRead_congr ht _ _ _)).trans (leNat_stashWrite hdepth _ _ _)
  · exact saved_number ht hrep rfl (u.rep.isLt.trans (by decide))

end

theorem trapEntry : TrapEntry := by
  intro s tr lanes hst hsup hvec hq _ hptr h0 h1 h2
  obtain ⟨hcur, hteam⟩ := enterTrap_handled hsup hvec hq tr lanes s.team.pc false
  have hblocks := enterTrap_blocks hsup hvec hq tr lanes s.team.pc false
  obtain ⟨hsregs, hmask, hvregs, hheld, hheader, hlatch, hreads, hdepth, hrep⟩ := saveArea_holds hblocks hptr h0 h1 h2
  have hat : (enterTrap s s.cur tr lanes s.team.pc false).team = handlerTeam s.team tr lanes s.team.pc false := by rw [State.team, hcur, hteam, ← State.team]
  refine ⟨_, trapLanes_outside_stream hst tr lanes, fun a => by rw [enterTrap_mem], ?_⟩
  rw [hat]
  exact ⟨rfl, rfl, rfl, rfl, rfl, rfl, hsregs, hmask, hvregs, hheld, hheader, hlatch, hreads, hdepth, hrep⟩

/-! ### The save area read back (R274) -/

theorem stashRead_eq (s : State) (b a n : Nat) : stashRead s b a n = bRead (s.blockAt b).stash a n := by
  rw [stashRead, bRead_eq, bRead_eq]
  refine List.map_congr_left fun i hi => ?_
  rw [bGet, bGet, kGetD, kGetD, kGet_filter (fun j => decide (a ≤ j) && decide (j < a + n)), if_pos (by simpa using List.mem_range.1 hi)]

theorem leNat_bRead_one (m : KMap Byte) (a : Nat) : leNat (bRead m a 1) = (bGet m a).toNat := by
  rw [bRead, bRead, leNat, leNat]
  omega

theorem leNat_bRead_lt (m : KMap Byte) (a n : Nat) : leNat (bRead m a n) < 256 ^ n := by
  have h := leNat_lt (bRead m a n)
  rwa [bRead_eq, List.length_map, List.length_range, ← bRead_eq] at h

/-- The word of the save area at an offset. -/
def areaWord (s : State) (t : Team) (a : Nat) : Word := BitVec.ofNat 32 (leNat (bRead (s.blockAt t.block).stash (saveOff s t + a) 4))

theorem areaWord_toNat (s : State) (t : Team) (a : Nat) : (areaWord s t a).toNat = stashWord s t.block (saveOff s t + a) := by
  rw [areaWord, stashWord, stashRead_eq, BitVec.toNat_ofNat]
  exact Nat.mod_eq_of_lt (leNat_bRead_lt _ _ 4)

/-- s56 to s63 take words of the area. -/
def sregsBack (w : Nat → Word) (n : Nat) (t : Team) : Team := (List.range n).foldl (fun t i => t.setSreg (56 + i) (w (4 * i))) t

theorem sregsBack_succ (w : Nat → Word) (n : Nat) (t : Team) : sregsBack w (n + 1) t = (sregsBack w n t).setSreg (56 + n) (w (4 * n)) := by
  rw [sregsBack, List.range_succ, List.foldl_append]
  rfl

theorem sregsBack_rest (w : Nat → Word) (n : Nat) (t : Team) : ∃ g, sregsBack w n t = { t with sregs := g } := by
  induction n with
  | zero => exact ⟨t.sregs, rfl⟩
  | succ n ih =>
    obtain ⟨g, hg⟩ := ih
    exact ⟨_, by rw [sregsBack_succ, hg, Team.setSreg]⟩

theorem sregsBack_same (w : Nat → Word) {n i : Nat} (hi : i < n) (t : Team) : (sregsBack w n t).sreg (56 + i) = w (4 * i) := by
  induction n with
  | zero => cases hi
  | succ n ih =>
    rw [sregsBack_succ, Team.sreg_setSreg]
    rcases Nat.lt_succ_iff_lt_or_eq.1 hi with hlt | rfl
    · rw [if_neg (by omega), ih hlt]
    · rw [if_pos rfl]

theorem sregsBack_other (w : Nat → Word) (n : Nat) (t : Team) {k : Nat} (hk : k < 56) : (sregsBack w n t).sreg k = t.sreg k := by
  induction n with
  | zero => rfl
  | succ n ih => rw [sregsBack_succ, Team.sreg_setSreg, if_neg (by omega), ih]

/-- Where v80 and the registers after it lie in the declared space, they take words of the area in every lane. -/
def vregBack (w : Nat → Nat → Word) (t : Team) (i : Nat) : Team :=
  if t.viewV.toNat + 4 * (80 + i) + 4 ≤ t.regBytes then t.setWord (t.vWord (80 + i)) (fullMask t.warps) (w i) else t

def vregsBack (w : Nat → Nat → Word) (n : Nat) (t : Team) : Team := (List.range n).foldl (vregBack w) t

theorem vregsBack_succ (w : Nat → Nat → Word) (n : Nat) (t : Team) : vregsBack w (n + 1) t = vregBack w (vregsBack w n t) n := by
  rw [vregsBack, List.range_succ, List.foldl_append]
  rfl

theorem vregBack_rest (w : Nat → Nat → Word) (t : Team) (i : Nat) : ∃ r, vregBack w t i = { t with regs := r } := by
  rw [vregBack]
  split
  · exact ⟨_, rfl⟩
  · exact ⟨t.regs, rfl⟩

theorem vregsBack_rest (w : Nat → Nat → Word) (n : Nat) (t : Team) : ∃ r, vregsBack w n t = { t with regs := r } := by
  induction n with
  | zero => exact ⟨t.regs, rfl⟩
  | succ n ih =>
    obtain ⟨r, hr⟩ := ih
    obtain ⟨r', hr'⟩ := vregBack_rest w (vregsBack w n t) n
    exact ⟨r', by rw [vregsBack_succ, hr', hr]⟩

/-- One register of the area written back. -/
theorem vregBack_word (w : Nat → Nat → Word) {t : Team} {l : Nat} (hw : t.warps ≤ 32) (hl : l < t.lanes) (i q : Nat) : (vregBack w t i).word q l =
    if q = t.vWord (80 + i) ∧ t.viewV.toNat + 4 * (80 + i) + 4 ≤ t.regBytes then w i l else t.word q l := by
  rw [vregBack]
  split
  · next hin =>
    rw [Team.word_setWord _ _ _ _ _ _ hw hl]
    simp only [getLsbD_fullMask t.warps l hw hl, hin, and_true]
  · next hout => rw [if_neg (fun h => hout h.2)]

theorem vregsBack_word_succ (w : Nat → Nat → Word) {t : Team} {l : Nat} (hw : t.warps ≤ 32) (hl : l < t.lanes) (n q : Nat) : (vregsBack w (n + 1) t).word q l =
    if q = t.vWord (80 + n) ∧ t.viewV.toNat + 4 * (80 + n) + 4 ≤ t.regBytes then w n l else (vregsBack w n t).word q l := by
  obtain ⟨r, hr⟩ := vregsBack_rest w n t
  rw [vregsBack_succ, vregBack_word w (by rw [hr]; exact hw) (by rw [hr]; exact hl), hr]
  rfl

theorem vregsBack_same (w : Nat → Nat → Word) {t : Team} {l n i : Nat} (hw : t.warps ≤ 32) (hl : l < t.lanes) (hi : i < n)
    (hin : t.viewV.toNat + 4 * (80 + i) + 4 ≤ t.regBytes) : (vregsBack w n t).word (t.vWord (80 + i)) l = w i l := by
  induction n with
  | zero => cases hi
  | succ n ih =>
    rw [vregsBack_word_succ w hw hl]
    rcases Nat.lt_succ_iff_lt_or_eq.1 hi with hlt | rfl
    · have hne : t.vWord (80 + i) ≠ t.vWord (80 + n) := by
        simp only [Team.vWord]
        omega
      rw [if_neg (fun h => hne h.1), ih hlt]
    · exact if_pos ⟨rfl, hin⟩

theorem vregsBack_other (w : Nat → Nat → Word) {t : Team} {l n q : Nat} (hw : t.warps ≤ 32) (hl : l < t.lanes) (hq : ∀ i, i < n → q ≠ t.vWord (80 + i)) :
    (vregsBack w n t).word q l = t.word q l := by
  induction n with
  | zero => rfl
  | succ n ih =>
    rw [vregsBack_word_succ w hw hl, if_neg (fun h => hq n n.lt_succ_self h.1), ih fun i hi => hq i (hi.trans n.lt_succ_self)]

/-! ### The mask and the latch -/

/-- A number made of digits of k bits has them as its digits. -/
theorem foldl_digits {d : Nat → Nat} {k : Nat} (hd : ∀ i, d i < 2 ^ k) (n : Nat) :
    (List.range n).foldl (fun a i => a + d i * 2 ^ (k * i)) 0 < 2 ^ (k * n) ∧
      ∀ w, w < n → (List.range n).foldl (fun a i => a + d i * 2 ^ (k * i)) 0 / 2 ^ (k * w) % 2 ^ k = d w := by
  induction n with
  | zero => exact ⟨Nat.two_pow_pos _, fun _ h => absurd h (Nat.not_lt_zero _)⟩
  | succ n ih =>
    obtain ⟨hlt, hdig⟩ := ih
    rw [List.range_succ, List.foldl_append, List.foldl_cons, List.foldl_nil]
    generalize (List.range n).foldl (fun a i => a + d i * 2 ^ (k * i)) 0 = v at hlt hdig
    refine ⟨?_, fun w hw => ?_⟩
    · calc v + d n * 2 ^ (k * n) < 2 ^ (k * n) + d n * 2 ^ (k * n) := by omega
        _ = (d n + 1) * 2 ^ (k * n) := by ring
        _ ≤ 2 ^ k * 2 ^ (k * n) := Nat.mul_le_mul_right _ (hd n)
        _ = 2 ^ (k * (n + 1)) := by ring
    · rcases Nat.lt_succ_iff_lt_or_eq.1 hw with hlt' | rfl
      · obtain ⟨j, rfl⟩ := Nat.exists_eq_add_of_lt hlt'
        have hpow : d (w + j + 1) * 2 ^ (k * (w + j + 1)) = d (w + j + 1) * 2 ^ (k * j) * 2 ^ k * 2 ^ (k * w) := by ring
        rw [hpow, Nat.add_mul_div_right _ _ (Nat.two_pow_pos _), Nat.add_mul_mod_self_right, hdig w hlt']
      · rw [Nat.add_mul_div_right _ _ (Nat.two_pow_pos _), Nat.div_eq_of_lt hlt, Nat.zero_add, Nat.mod_eq_of_lt (hd w)]

/-- The mask that the area holds. -/
def areaMask (s : State) (t : Team) : LaneSet :=
  BitVec.ofNat 1024 ((List.range 32).foldl (fun a i => a + leNat (bRead (s.blockAt t.block).stash (saveOff s t + 0x80 + 4 * i) 4) * 2 ^ (32 * i)) 0)

theorem laneWord_areaMask (s : State) (t : Team) {w : Nat} (hw : w < 32) :
    laneWord (areaMask s t) w = BitVec.ofNat 32 (stashWord s t.block (saveOff s t + 0x80 + 4 * w)) := by
  have hd : ∀ i, leNat (bRead (s.blockAt t.block).stash (saveOff s t + 0x80 + 4 * i) 4) < 2 ^ 32 := fun i => leNat_bRead_lt _ _ 4
  obtain ⟨hlt, hdig⟩ := foldl_digits hd 32
  apply BitVec.eq_of_toNat_eq
  rw [laneWord, areaMask, BitVec.extractLsb'_toNat, BitVec.toNat_ofNat, BitVec.toNat_ofNat, Nat.mod_eq_of_lt hlt, Nat.shiftRight_eq_div_pow, hdig w hw, stashWord, stashRead_eq,
    Nat.mod_eq_of_lt (hd w)]

theorem laneWord_and (a b : LaneSet) (w : Nat) : laneWord (a &&& b) w = laneWord a w &&& laneWord b w := BitVec.extractLsb'_and

/-- The latch that the area holds. -/
def areaLatch (s : State) (t : Team) : Latch :=
  { k0 := latchRow t.lanes (fun l => areaWord s t (256 + 44 * l + 4 * 8)), k1 := latchRow t.lanes (fun l => areaWord s t (256 + 44 * l + 4 * 9))
    k2 := latchRow t.lanes (fun l => areaWord s t (256 + 44 * l + 4 * 10)), v0 := min 2 ((bGet (s.blockAt t.block).stash (saveOff s t + 0x29)).toNat / 4 ^ 0 % 4)
    v1 := min 2 ((bGet (s.blockAt t.block).stash (saveOff s t + 0x29)).toNat / 4 ^ 1 % 4), v2 := min 2 ((bGet (s.blockAt t.block).stash (saveOff s t + 0x29)).toNat / 4 ^ 2 % 4)
    ptr := (bGet (s.blockAt t.block).stash (saveOff s t + 0x28)).toNat % 4 % 3 }

theorem heldVal_areaLatch (s : State) (t : Team) {e l : Nat} (he : e < 3) (hl : l < t.lanes) : heldVal (areaLatch s t) e l = areaWord s t (256 + 44 * l + 32 + 4 * e) := by
  match e with
  | 0 => exact kGetD_latchRow _ hl
  | 1 => exact kGetD_latchRow _ hl
  | 2 => exact kGetD_latchRow _ hl

theorem heldReads_areaLatch (s : State) (t : Team) {e : Nat} (he : e < 3) :
    heldReads (areaLatch s t) e = min 2 ((bGet (s.blockAt t.block).stash (saveOff s t + 0x29)).toNat / 4 ^ e % 4) := by
  match e with
  | 0 | 1 | 2 => rfl

/-- The team with the registers that the area holds. -/
def registersBack (s : State) (t : Team) : Team := vregsBack (fun i l => areaWord s t (256 + 44 * l + 4 * i)) 8 (sregsBack (areaWord s t) 8 t)

theorem registersBack_rest (s : State) (t : Team) : ∃ g r, registersBack s t = { t with sregs := g, regs := r } := by
  obtain ⟨g, hg⟩ := sregsBack_rest (areaWord s t) 8 t
  obtain ⟨r, hr⟩ := vregsBack_rest (fun i l => areaWord s t (256 + 44 * l + 4 * i)) 8 (sregsBack (areaWord s t) 8 t)
  exact ⟨g, r, by rw [registersBack, hr, hg]⟩

/-- The team that the area restores, part by part. -/
theorem restoreImage_eq (s : State) (t : Team) : restoreImage s t = { registersBack s t with mask := areaMask s t &&& t.live, latch := areaLatch s t } := by
  obtain ⟨g, r, h⟩ := registersBack_rest s t
  have hlive : (registersBack s t).live = t.live := by rw [h]
  have hlanes : (registersBack s t).lanes = t.lanes := by
    rw [h]
    rfl
  rw [areaLatch, ← hlanes, ← hlive]
  rfl

/-! ### What `tret` leaves of the machine (R274, R288) -/

theorem retryCopies_eq (s : State) (tid : Nat) : ∃ ps, retryCopies s tid = { s with parts := ps } := by
  rw [retryCopies]
  split
  · exact ⟨s.parts, rfl⟩
  · exact ⟨_, rfl⟩

theorem serveMerges_eq (s : State) (d tid : Nat) : ∃ ds ps, serveMerges s d tid = { s with dies := ds, parts := ps } := by
  obtain ⟨st, ps, h⟩ := endService_eq s d (fun m => m.claimant = tid && m.ft)
  exact ⟨_, ps, h⟩

theorem serveMerges_blocks (s : State) (d tid : Nat) : (serveMerges s d tid).blocks = s.blocks := by
  obtain ⟨ds, ps, h⟩ := serveMerges_eq s d tid
  rw [h]

theorem restoreImage_congr {s w : State} (h : w.blocks = s.blocks) (t : Team) : restoreImage w t = restoreImage s t := by
  have hblock : w.blockAt t.block = s.blockAt t.block := by rw [State.blockAt, h, ← State.blockAt]
  have hoff : saveOff w t = saveOff s t := by rw [saveOff, hblock, ← saveOff]
  have hword : areaWord w t = areaWord s t := funext fun a => by rw [areaWord, areaWord, hblock, hoff]
  have hmask : areaMask w t = areaMask s t := by rw [areaMask, areaMask, hblock, hoff]
  have hlatch : areaLatch w t = areaLatch s t := by rw [areaLatch, areaLatch, hblock, hoff, hword]
  rw [restoreImage_eq, restoreImage_eq, registersBack, registersBack, hword, hmask, hlatch]

/-- HDR of the save area: the trap was taken at a clause boundary (R275). -/
def areaHdr (s : State) (t : Team) : Prop := (bGet (s.blockAt t.block).stash (saveOff s t + 0x28)).toNat / 4 % 2 = 1

def areaRep (s : State) (t : Team) : BitVec 7 := BitVec.ofNat 7 ((bGet (s.blockAt t.block).stash (saveOff s t + 0x2C)).toNat)

/-- A restored team in user mode, before its place is chosen: the instruction counts as an issue, but the latch does not age. -/
def userTeam (r : Team) (cc : Nat) : Team :=
  let i := r.issued cc
  let k := i.trap
  let u := { i with trap := { k with sup := false, savedClause := none, savedWait := .none }, wait := .none, inRep := none }
  { u with latch := r.latch }

/-- A team v, restored as r, stands where R274 says: of a team t whose handler returns, whose save area says hdr and holds the repeat state rep. -/
structure Resumes (t r : Team) (hdr : Prop) (rep : BitVec 7) (v : Team) : Prop where
  restored : { v with
    pc := r.pc, clause := r.clause, rep := r.rep, inRep := r.inRep, wait := r.wait, mask := r.mask, trap := r.trap, sched := r.sched, xlat := r.xlat
    walkFault := r.walkFault } = r
  user : v.trap.sup = false
  written : t.trap.tpcWritten = true → v.pc = t.trap.tpc ∧ v.clause = none ∧ v.rep = 0
  boundary : t.trap.tpcWritten = false → hdr → t.trap.savedClause.isSome = true ∨ (∀ target m, t.trap.savedWait ≠ .contDone target m) →
    v.pc = t.trap.tpc ∧ v.clause = none ∧ v.rep = rep ∧ v.wait = if t.trap.savedClause.isSome = true then .none else t.trap.savedWait
  continued : t.trap.tpcWritten = false → hdr → t.trap.savedClause = none → ∀ target m, t.trap.savedWait = .contDone target m →
    v.pc = target ∧ v.clause = none ∧ v.mask = m &&& t.live ∧ v.rep = rep
  within : t.trap.tpcWritten = false → ¬hdr → v.pc = t.trap.tpc ∧ v.clause = t.trap.savedClause ∧ v.rep = rep
  mask : (∀ target m, t.trap.savedWait ≠ .contDone target m) → v.mask = r.mask

section
variable {t r v : Team} {hdr : Prop} {rep : BitVec 7} (h : Resumes t r hdr rep v)
include h

theorem Resumes.sreg (n : Nat) : v.sreg n = r.sreg n := (congrArg (fun u : Team => u.sreg n) h.restored :)

theorem Resumes.word (q l : Nat) : v.word q l = r.word q l := (congrArg (fun u : Team => u.word q l) h.restored :)

theorem Resumes.latch : v.latch = r.latch := (congrArg Team.latch h.restored :)

theorem Resumes.stack_live : v.stack = r.stack ∧ v.live = r.live := ⟨(congrArg Team.stack h.restored :), (congrArg Team.live h.restored :)⟩

end

section
variable {t : Team} (r : Team) (cc : Nat) {hdr : Prop} (rep : BitVec 7)

/-- The handler wrote %tpc. -/
theorem resumes_written (hw : t.trap.tpcWritten = true) : Resumes t r hdr rep { userTeam r cc with pc := t.trap.tpc, clause := none, rep := 0 } where
  restored := rfl
  user := rfl
  written _ := ⟨rfl, rfl, rfl⟩
  boundary h := absurd (hw.symm.trans h) (by decide)
  continued h := absurd (hw.symm.trans h) (by decide)
  within h := absurd (hw.symm.trans h) (by decide)
  mask _ := rfl

variable (hw : t.trap.tpcWritten = false)
include hw

/-- The trap was taken within a clause. -/
theorem resumes_within (hh : ¬hdr) : Resumes t r hdr rep { userTeam r cc with pc := t.trap.tpc, clause := t.trap.savedClause, rep := rep } where
  restored := rfl
  user := rfl
  written h := absurd (hw.symm.trans h) (by decide)
  boundary _ h := absurd h hh
  continued _ h := absurd h hh
  within _ _ := ⟨rfl, rfl, rfl⟩
  mask _ := rfl

/-- It was taken at a boundary, where the team's continuation had completed. -/
theorem resumes_continued (hh : hdr) {target : DWord} {m : LaneSet} (hc : t.trap.savedClause = none) (hwait : t.trap.savedWait = .contDone target m) :
    Resumes t r hdr rep { userTeam r cc with pc := target, clause := none, rep := rep, mask := m &&& t.live } where
  restored := rfl
  user := rfl
  written h := absurd (hw.symm.trans h) (by decide)
  boundary _ _ h := by
    rcases h with h | h
    · rw [hc] at h
      cases h
    · exact absurd hwait (h target m)
  continued _ _ _ target' m' h := by
    obtain ⟨rfl, rfl⟩ := Wait.contDone.inj (hwait.symm.trans h)
    exact ⟨rfl, rfl, rfl, rfl⟩
  within _ h := absurd hh h
  mask h := absurd hwait (h target m)

/-- It was taken at a boundary, where the team waited or not. -/
theorem resumes_waiting (hh : hdr) (hc : t.trap.savedClause = none) (hwait : ∀ target m, t.trap.savedWait ≠ .contDone target m) :
    Resumes t r hdr rep { userTeam r cc with pc := t.trap.tpc, clause := none, rep := rep, wait := t.trap.savedWait } where
  restored := rfl
  user := rfl
  written h := absurd (hw.symm.trans h) (by decide)
  boundary _ _ _ := ⟨rfl, rfl, rfl, by rw [hc]; rfl⟩
  continued _ _ _ target m h := absurd h (hwait target m)
  within _ h := absurd hh h
  mask _ := rfl

/-- The handler sets HDR where the trap had been taken within a clause. -/
theorem resumes_leftClause (hh : hdr) {c : Clause} (hc : t.trap.savedClause = some c) :
    Resumes t r hdr rep { userTeam r cc with pc := t.trap.tpc, clause := none, rep := rep } where
  restored := rfl
  user := rfl
  written h := absurd (hw.symm.trans h) (by decide)
  boundary _ _ _ := ⟨rfl, rfl, rfl, by rw [hc]; rfl⟩
  continued _ _ h := by
    rw [hc] at h
    cases h
  within _ h := absurd hh h
  mask _ := rfl

end

theorem returnTrap_other_depth {s : State} {tid : Nat}
    (h : leNat (bRead (s.blockAt (s.teamAt tid).block).stash (saveOff s (s.teamAt tid) + 0x2A) 2) ≠ (s.teamAt tid).stack.length) : returnTrap s tid = endTeamBad s tid 1 :=
  if_pos h

theorem returnTrap_same_depth {s : State} {tid : Nat}
    (h : leNat (bRead (s.blockAt (s.teamAt tid).block).stash (saveOff s (s.teamAt tid) + 0x2A) 2) = (s.teamAt tid).stack.length) :
    ∃ v, returnTrap s tid = (serveMerges s (dieOf (s.teamAt tid).core) tid).setTeamAt tid v ∧
      Resumes (s.teamAt tid) (restoreImage s (s.teamAt tid)) (areaHdr s (s.teamAt tid)) (areaRep s (s.teamAt tid)) v := by
  unfold returnTrap
  extract_lets t b off depth hdr rep w issued trap user latched out
  have hlatched : latched = userTeam (restoreImage w t) w.cc := by
    unfold latched user trap issued userTeam
    rfl
  refine ⟨out, if_neg (not_not.2 h), ?_⟩
  unfold out
  clear_value latched
  subst hlatched
  rw [restoreImage_congr (serveMerges_blocks s _ tid) t]
  cases hw : t.trap.tpcWritten with
  | true =>
    rw [if_pos rfl]
    exact resumes_written _ _ _ hw
  | false =>
    rw [if_neg (by decide)]
    by_cases hh : hdr
    · rw [if_pos hh]
      split
      · next hc hwait => exact resumes_continued _ _ _ hw hh hc hwait
      · next hc hwait => exact resumes_waiting _ _ _ hw hh hc hwait
      · next hc => exact resumes_leftClause _ _ _ hw hh hc
    · rw [if_neg hh]
      exact resumes_within _ _ _ hw hh

/-! ### The restored registers (R274) -/

section
variable (s : State) (t : Team)

theorem restoreImage_sreg (n : Nat) : (restoreImage s t).sreg n = (sregsBack (areaWord s t) 8 t).sreg n := by
  obtain ⟨r, hr⟩ := vregsBack_rest (fun i l => areaWord s t (256 + 44 * l + 4 * i)) 8 (sregsBack (areaWord s t) 8 t)
  have hsregs : (restoreImage s t).sregs = (sregsBack (areaWord s t) 8 t).sregs := by rw [restoreImage_eq, registersBack, hr]
  rw [Team.sreg, hsregs, ← Team.sreg]

theorem restoreImage_word (q l : Nat) : (restoreImage s t).word q l = (registersBack s t).word q l := by
  have hregs : (restoreImage s t).regs = (registersBack s t).regs := by rw [restoreImage_eq]
  rw [Team.word, hregs, ← Team.word]

theorem restoreImage_sreg_saved {i : Nat} (hi : i < 8) : ((restoreImage s t).sreg (56 + i)).toNat = stashWord s t.block (saveOff s t + 4 * i) := by
  rw [restoreImage_sreg, sregsBack_same _ hi, areaWord_toNat]

section
variable {s t} {l : Nat} (hw : t.warps ≤ 32) (hl : l < t.lanes)
include hw hl

theorem restoreImage_word_saved {i : Nat} (hi : i < 8) (hin : t.viewV.toNat + 4 * (80 + i) + 4 ≤ t.regBytes) :
    ((restoreImage s t).word (t.vWord (80 + i)) l).toNat = stashWord s t.block (saveOff s t + (256 + 44 * l + 4 * i)) := by
  obtain ⟨g, hg⟩ := sregsBack_rest (areaWord s t) 8 t
  rw [restoreImage_word, registersBack, hg]
  exact (congrArg BitVec.toNat (vregsBack_same (t := { t with sregs := g }) _ hw hl hi hin)).trans (areaWord_toNat _ _ _)

theorem restoreImage_word_kept {q : Nat} (hq : ∀ i, i < 8 → q ≠ t.vWord (80 + i)) : (restoreImage s t).word q l = t.word q l := by
  obtain ⟨g, hg⟩ := sregsBack_rest (areaWord s t) 8 t
  rw [restoreImage_word, registersBack, hg]
  exact vregsBack_other (t := { t with sregs := g }) _ hw hl hq

end

/-- A byte of the save area. -/
theorem leNat_stashRead_one (b a : Nat) : leNat (stashRead s b a 1) = (bGet (s.blockAt b).stash a).toNat := by
  rw [stashRead_eq, leNat_bRead_one]

end

/-! ### The return -/

section
variable {s : State} {v : Team} (hv : Resumes s.team (restoreImage s s.team) (areaHdr s s.team) (areaRep s s.team) v)
include hv

theorem returned_latch : v.latch = areaLatch s s.team := by rw [hv.latch, restoreImage_eq]

theorem returned_stack_live : v.stack = s.team.stack ∧ v.live = s.team.live := by
  obtain ⟨g, r, hr⟩ := registersBack_rest s s.team
  obtain ⟨hstack, hlive⟩ := hv.stack_live
  rw [restoreImage_eq, hr] at hstack hlive
  exact ⟨hstack, hlive⟩

theorem returned_laneWord (hwait : ∀ target m, s.team.trap.savedWait ≠ .contDone target m) {w : Nat} (hw : w < 32) :
    laneWord v.mask w = BitVec.ofNat 32 (stashWord s s.team.block (saveOff s s.team + 0x80 + 4 * w)) &&& laneWord s.team.live w := by
  rw [hv.mask hwait, restoreImage_eq, laneWord_and, laneWord_areaMask s _ hw]

end

theorem areaRep_toNat (s : State) (t : Team) : (areaRep s t).toNat = (bGet (s.blockAt t.block).stash (saveOff s t + 0x2C)).toNat % 128 := BitVec.toNat_ofNat _ _

theorem areaHdr_iff (s : State) (t : Team) : areaHdr s t ↔ leNat (stashRead s t.block (saveOff s t + 0x28) 1) / 4 % 2 = 1 := by
  rw [areaHdr, leNat_stashRead_one]

section
variable {s : State} (hr : reaches s .tret = true) (hsup : s.team.trap.sup = true)
include hr hsup

/-- With the stack depth of the entry, `tret` restores the team. -/
theorem tret_resumes (hdepth : leNat (stashRead s s.team.block (saveOff s s.team + 0x2A) 2) = s.team.stack.length) :
    ∃ t, exec .tret s = .next t ∧ sameMem s t ∧ Resumes s.team (restoreImage s s.team) (areaHdr s s.team) (areaRep s s.team) t.team := by
  obtain ⟨ps, hq⟩ := retryCopies_eq s s.cur
  rw [stashRead_eq] at hdepth
  obtain ⟨v, hv, hres⟩ := returnTrap_same_depth (s := { s with parts := ps }) (tid := s.cur) hdepth
  have hcur : (serveMerges { s with parts := ps } (dieOf s.team.core) s.cur).cur = s.cur := by
    obtain ⟨ds, ps', hserve⟩ := serveMerges_eq { s with parts := ps } (dieOf s.team.core) s.cur
    rw [hserve]
  have hteam : ((serveMerges { s with parts := ps } (dieOf s.team.core) s.cur).setTeamAt s.cur v).team = v := by
    rw [State.team, State.setTeamAt_cur, hcur, State.teamAt_setTeamAt_same]
  rw [restoreImage_congr (s := s) (w := { s with parts := ps }) rfl] at hres
  refine ⟨(serveMerges { s with parts := ps } (dieOf s.team.core) s.cur).setTeamAt s.cur v, ?_, fun a => ?_, ?_⟩
  · rw [exec_tret_reaches hr, supervised_supervisor hsup, hq]
    exact congrArg Host.Outcome.next hv
  · rw [State.setTeamAt_mem, serveMerges_mem]
  · rw [hteam]
    exact hres

/-- With another stack depth, `tret` ends the team by fault. -/
theorem tret_ends (hdepth : leNat (stashRead s s.team.block (saveOff s s.team + 0x2A) 2) ≠ s.team.stack.length) :
    ∃ t, exec .tret s = .next t ∧ sameMem s t ∧ t.team.status = .ended ∧ (t.gridAt s.team.grid).failed = true := by
  obtain ⟨ps, hq⟩ := retryCopies_eq s s.cur
  rw [stashRead_eq] at hdepth
  have hend := returnTrap_other_depth (s := { s with parts := ps }) (tid := s.cur) hdepth
  obtain ⟨r, f, hteam⟩ := endTeamBad_team { s with parts := ps } s.cur 1
  refine ⟨endTeamBad { s with parts := ps } s.cur 1, ?_, fun a => ?_, ?_, ?_⟩
  · rw [exec_tret_reaches hr, supervised_supervisor hsup, hq, hend]
  · rw [endTeamBad_mem]
  · rw [State.team, endTeamBad_cur, hteam]
  · rw [State.gridAt, endTeamBad_grids]
    exact congrArg Grid.failed (kGetD_kPut_same _ _ _ _)

end

theorem trapReturn : TrapReturn := by
  refine fun s hr hsup hw => ⟨fun hdepth => ?_, tret_ends hr hsup⟩
  obtain ⟨t, ht, hmem, hv⟩ := tret_resumes hr hsup hdepth
  obtain ⟨hstack, hlive⟩ := returned_stack_live hv
  have hlatch := returned_latch hv
  have hbyte := leNat_stashRead_one s s.team.block
  have hrep : t.team.rep = areaRep s s.team → t.team.rep.toNat = leNat (stashRead s s.team.block (saveOff s s.team + 0x2C) 1) % 128 := fun h => by
    rw [h, areaRep_toNat, hbyte]
  refine ⟨t, ht, hmem, hv.user, hstack, fun i hi => ?_, fun n hn => ?_, fun l i hl hi hin => ?_, fun q l hl hq => ?_, hlive, hv.written, fun hwr hh hor => ?_,
    fun hwr hh hc target m hwait => ?_, fun hwr hh => ?_, fun l e hl he => ?_, fun e he hle => ?_, fun hle => ?_, fun hwait w hwlt => returned_laneWord hv hwait hwlt⟩
  · rw [hv.sreg, restoreImage_sreg_saved s s.team hi]
  · rw [hv.sreg, restoreImage_sreg, sregsBack_other _ _ _ hn]
  · rw [hv.word, restoreImage_word_saved hw hl hi (by omega), ← Nat.add_assoc, ← Nat.add_assoc]
  · rw [hv.word, restoreImage_word_kept hw hl hq]
  · obtain ⟨hpc, hclause, hrep', hwait⟩ := hv.boundary hwr ((areaHdr_iff s _).2 hh) hor
    exact ⟨hpc, hclause, hrep hrep', hwait⟩
  · obtain ⟨hpc, hclause, hmask, hrep'⟩ := hv.continued hwr ((areaHdr_iff s _).2 hh) hc target m hwait
    exact ⟨hpc, hclause, hmask, hrep hrep'⟩
  · obtain ⟨hpc, hclause, hrep'⟩ := hv.within hwr fun h => by
      rw [areaHdr_iff] at h
      omega
    exact ⟨hpc, hclause, hrep hrep'⟩
  · rw [hlatch, heldVal_areaLatch s _ he hl, areaWord_toNat, ← Nat.add_assoc, ← Nat.add_assoc, ← Nat.add_assoc]
  · rw [hbyte] at hle ⊢
    rw [hlatch, heldReads_areaLatch s _ he, Nat.min_eq_right hle]
  · rw [hbyte] at hle ⊢
    rw [hlatch]
    exact Nat.mod_eq_of_lt (by omega)

/-- Settles O34: entry by what stands where in the area it writes (`saveArea_holds`), return by what the area restores (`restoreImage_eq`) and where the team resumes. -/
theorem trapEntryAndReturn : Obligations.TrapEntryAndReturn := ⟨trapEntry, trapReturn⟩

end Sys2Proof.Machine
end
